-- ==== Sys2Proof/Word.lean ====
section
/-! DEFINITION. The words of the machine and their plainest arithmetic: bodies of 64 bits, lanes of 32,
predicates of 128, address registers of 72 (R11). -/

namespace Sys2Proof

/-- A 64-bit scalar body. -/
abbrev Word := BitVec 64

/-- The 32 data bits of a vector lane. -/
abbrev W32 := BitVec 32

/-- A byte. -/
abbrev Byte := BitVec 8

/-- A predicate register: one bit a lane (R16). -/
abbrev Pred := BitVec 128

/-- An address register (R109). -/
abbrev Addr := BitVec 72

/-- The natural number of `n` bits of `x` from bit `lo` upward. -/
abbrev bitsAt (x lo n : Nat) : Nat := x / 2 ^ lo % 2 ^ n

/-- The two's complement reading of the low `w` bits of `x`. -/
abbrev sextNat (w x : Nat) : Int :=
  if x % 2 ^ w < 2 ^ (w - 1) then (x % 2 ^ w : Nat) else ((x % 2 ^ w : Nat) : Int) - (2 ^ w : Nat)

end Sys2Proof
end

