-- ==== Sys2Proof/Config.lean ====
section
/-! DEFINITION. The free values: what the spec leaves to the device. Each is a constant with no body, applied to the
counter State.draw (which the step reads and advances) or to the operands it depends on; a statement holds for
every value of them. -/

namespace Sys2Proof

/-- A latitude of the device counted in cycles (Table 21.1): message times, far latencies, save lengths, command
durations, refusal intervals. (Log 1: DESIGN CHOICE; log 44: DEDUCED.) -/
opaque Config.latency : Nat → Nat

/-- A choice that the spec leaves to the device where it allows two outcomes (R227's zero or once, R242's merge). (Log 1: DESIGN CHOICE; log 24: DESIGN CHOICE; log 62: DESIGN CHOICE; log 64: DESIGN CHOICE.) -/
opaque Config.choice : Nat → Bool

/-- The ticket that a source chooses afresh (R331). (Log 1: DESIGN CHOICE.) -/
opaque Config.ticket : Nat → Nat

/-- Whether a signature over a digest verifies under the firmware key (R384). (Log 75: DESIGN CHOICE.) -/
opaque Config.signatureOk : List Nat → List Nat → Bool

/-- The fused minimum version (R384). (Log 75: DESIGN CHOICE.) -/
opaque Config.fusedMin : Nat

/-- The signature of the identity key over a report (R386). (Log 56: DESIGN CHOICE; log 75: DESIGN CHOICE.) -/
opaque Config.attestBytes : List Nat → List Nat

/-- A value of memory or of a result that the spec leaves undefined after a breach that is not detected (R9), or that comes
from outside the device. (Log 91: DESIGN CHOICE.) -/
opaque Config.freeWord : Nat → Nat

/-- What the front end reads in place of a byte of a poisoned line (R206), by address. (Log 93: DESIGN CHOICE.) -/
opaque Config.poisonByte : Nat → Nat

/-- What a byte of a state block holds after software has stored another there, a breach of R410 (R9), by place and stored
byte. (Log 81: DESIGN CHOICE.) -/
opaque Config.blockByte : Nat → Nat → Nat

/-- Whether an access through a window into the CXL range of a FAILED group faults with 0x64, as R208 and R211 say, or ends with
LINKDOWN, as Table 18.6 and R411 say: the spec says both. (Log 29: DEDUCED.) -/
opaque Config.failedFaults : Bool

/-- The pc of the standard image (R306): an address within it that the spec does not fix. (Log 35: DEDUCED.) -/
opaque Config.imagePc : Nat → Nat

end Sys2Proof
end

