-- ==== Sys2Proof/Syntax.lean ====
section
/-! DEFINITION. The instructions: one constructor for each row of the opcode table, with the fields of its
word as Tables 3.3 to 3.7 and R303 name them. A register field is a plain number of the width of its field.
The guard, which stands in bits 5:0 of every slot word (R77) and acts outside the instruction (R16, R29, R102),
goes with the slot and not with the instruction: it is latched in State.cur. A row that is no instruction word
(an event, a command, an act of the outside) has no fields in the table; its arguments are latched there too. -/

namespace Sys2Proof

/-- Table 3.3, with the immediate that a surrendered position gives (R83, R85): 32 bits from S1,
64 bits from S0 and S1 for the long MOVI. -/
structure SWord where
  d : Nat
  a : Nat
  b : Nat
  imm : Option Nat
deriving DecidableEq, Repr

/-- Table 3.4, with the constant that a surrendered V1 gives (R84). -/
structure VWord where
  ty : Nat
  d : Nat
  a : Nat
  b : Nat
  c : Nat
  cm : Nat
  md : Nat
  k : Option Nat
deriving DecidableEq, Repr

/-- Table 3.5. -/
structure LWord where
  data : Nat
  base : Nat
  ofs : Nat
  sz : Nat
  md2 : Nat
  md1 : Nat
  md0 : Nat
deriving DecidableEq, Repr

/-- Table 3.6. -/
structure MWord where
  a : Nat
  b : Nat
  imm : Nat
deriving DecidableEq, Repr

/-- Table 3.7. -/
structure XWord where
  da : Nat
  b : Nat
  ci : Nat
  e : Nat
deriving DecidableEq, Repr

/-- The R-type layout of the Xtephra instructions (R303). -/
structure TWord where
  f7 : Nat
  rs2 : Nat
  rs1 : Nat
  rd : Nat
deriving DecidableEq, Repr

/-- The width and extension of a RISC-V load or store. -/
inductive RvSize
  | b | h | w | bu | hu
deriving DecidableEq, Repr

/-- The condition of a RISC-V branch. -/
inductive RvCond
  | eq | ne | lt | ge | ltu | geu
deriving DecidableEq, Repr

/-- The operation of a RISC-V OP or OP-IMM instruction, the M extension's among them. -/
inductive RvOp
  | add | sub | sll | slt | sltu | xor | srl | sra | or | and
  | mul | mulh | mulhsu | mulhu | div | divu | rem | remu
deriving DecidableEq, Repr

/-- What a tephra core does at one of its cycles outside Xtephra (R300): an RV32IM instruction, a C form
being the instruction it stands for, an encoding that faults with 0x85, or one piece of the standard
image's work (R302). -/
inductive Rv
  | lui (rd imm : Nat)
  | auipc (rd imm : Nat)
  | jal (rd off : Nat)
  | jalr (rd rs1 off : Nat)
  | branch (c : RvCond) (rs1 rs2 off : Nat)
  | load (z : RvSize) (rd rs1 off : Nat)
  | store (z : RvSize) (rs1 rs2 off : Nat)
  | opImm (o : RvOp) (rd rs1 imm : Nat)
  | op (o : RvOp) (rd rs1 rs2 : Nat)
  | fence
  | illegal
  | stdImage
deriving DecidableEq, Repr

/-- One constructor for each row of the opcode table: first the rows with operands, then the rows with none. -/
inductive Instr
  -- S slot, Table 3.17
  | add (w : SWord) -- R104
  | sub (w : SWord) -- R104
  | addi (w : SWord) -- R104
  | mul (w : SWord) -- R104
  | mulh (w : SWord) -- R104
  | mulhn (w : SWord) -- R104
  | div (w : SWord) -- R105
  | divn (w : SWord) -- R105
  | rem (w : SWord) -- R105
  | remn (w : SWord) -- R105
  | and (w : SWord) -- R104
  | or (w : SWord) -- R104
  | xor (w : SWord) -- R104
  | andn (w : SWord) -- R104
  | shl (w : SWord) -- R104
  | shr (w : SWord) -- R104
  | sar (w : SWord) -- R104
  | rol (w : SWord) -- R104
  | clz (w : SWord) -- R104
  | popc (w : SWord) -- R104
  | min (w : SWord) -- R104
  | max (w : SWord) -- R104
  | minn (w : SWord) -- R104
  | maxn (w : SWord) -- R104
  | sel (w : SWord) -- R107
  | ext (w : SWord) -- R106
  | ins (w : SWord) -- R106
  | mov (w : SWord) -- R107
  | moviShort (w : SWord) -- R107
  | moviImm32 (w : SWord) -- R107
  | moviLong (w : SWord) -- R85
  | cmpeq (w : SWord) -- R108
  | cmpne (w : SWord) -- R108
  | cmplt (w : SWord) -- R108
  | cmple (w : SWord) -- R108
  | cmpltn (w : SWord) -- R108
  | cmplen (w : SWord) -- R108
  | lea (w : SWord) -- R110
  | adda (w : SWord) -- R111
  | movaAS (w : SWord) -- R112
  | movaSA (w : SWord) -- R112
  | movaHiSA (w : SWord) -- R112
  | movaAA (w : SWord) -- R112
  | movaHiAS (w : SWord) -- R112
  | faddF64 (w : SWord) -- R113
  | fsubF64 (w : SWord) -- R113
  | fmulF64 (w : SWord) -- R113
  | fmaF64 (w : SWord) -- R101
  | fdivF64 (w : SWord) -- R113
  | fsqrtF64 (w : SWord) -- R113
  | fminF64 (w : SWord) -- R70
  | fmaxF64 (w : SWord) -- R70
  | fcmpeqF64 (w : SWord) -- R69
  | fcmpltF64 (w : SWord) -- R69
  | fcmpleF64 (w : SWord) -- R69
  | fcvtF64 (w : SWord) -- R114
  | setlF64 (w : SWord) -- R57
  | fclassF64 (w : SWord) -- R72
  | faddF32 (w : SWord) -- R113
  | fsubF32 (w : SWord) -- R113
  | fmulF32 (w : SWord) -- R113
  | fmaF32 (w : SWord) -- R101
  | fdivF32 (w : SWord) -- R113
  | fsqrtF32 (w : SWord) -- R113
  | fminF32 (w : SWord) -- R70
  | fmaxF32 (w : SWord) -- R70
  | fcmpeqF32 (w : SWord) -- R69
  | fcmpltF32 (w : SWord) -- R69
  | fcmpleF32 (w : SWord) -- R69
  | fcvtF32 (w : SWord) -- R114
  | setlF32 (w : SWord) -- R57
  | fclassF32 (w : SWord) -- R72
  | pand (w : SWord) -- R115
  | por (w : SWord) -- R115
  | pxor (w : SWord) -- R115
  | pnot (w : SWord) -- R115
  | pmov (w : SWord) -- R115
  | pall (w : SWord) -- R115
  | pany (w : SWord) -- R115
  | br (w : SWord) -- R116
  | callLabel (w : SWord) -- R117
  | callRegister (w : SWord) -- R117
  | loopRegister (w : SWord) -- R32
  | loopImmediate (w : SWord) -- R32
  | lpin (w : SWord) -- R38
  | trap (w : SWord) -- R119
  | rds (w : SWord) -- R121
  | wrs (w : SWord) -- R121
  | rotset (w : SWord) -- R122
  | waitcRegister (w : SWord) -- R187
  | waitcImmediate (w : SWord) -- R187
  | bri (w : SWord) -- R116
  | tretRetry (w : SWord) -- R335
  | tretAt (w : SWord) -- R335
  | tretNext (w : SWord) -- R332
  | tretSkip (w : SWord) -- R332
  | winset (w : SWord) -- R213
  | winkill (w : SWord) -- R214
  | grant (w : SWord) -- R216
  | mbreplyRetry (w : SWord) -- R334
  | mbreplyResume (w : SWord) -- R334
  | mbreplyResumev (w : SWord) -- R334
  | mbreplyError (w : SWord) -- R334
  | mbreplyMbok (w : SWord) -- R334
  | mbreplyMberr (w : SWord) -- R334
  | ctxsvThr (w : SWord) -- R337
  | ctxsvGang (w : SWord) -- R342
  | ctxldThr (w : SWord) -- R339
  | ctxldGang (w : SWord) -- R342
  | haltStop (w : SWord) -- R332
  | haltEnd (w : SWord) -- R332
  | haltReset (w : SWord) -- R332
  -- V slot, Table 3.18
  | vadd (w : VWord) -- R140
  | vsub (w : VWord) -- R140
  | vmul (w : VWord) -- R140
  | vmulh (w : VWord) -- R140
  | vmad (w : VWord) -- R140
  | vand (w : VWord) -- R140
  | vor (w : VWord) -- R140
  | vxor (w : VWord) -- R140
  | vshl (w : VWord) -- R140
  | vshr (w : VWord) -- R140
  | vsar (w : VWord) -- R140
  | vmin (w : VWord) -- R140
  | vmax (w : VWord) -- R140
  | vabs (w : VWord) -- R140
  | vclz (w : VWord) -- R140
  | vpopc (w : VWord) -- R140
  | vdot4 (w : VWord) -- R140
  | vsel (w : VWord) -- R147
  | vcmp (w : VWord) -- R142
  | vfadd (w : VWord) -- R141
  | vfsub (w : VWord) -- R141
  | vfmul (w : VWord) -- R141
  | vfma (w : VWord) -- R141
  | vfmin (w : VWord) -- R70
  | vfmax (w : VWord) -- R70
  | vfminn (w : VWord) -- R70
  | vfmaxn (w : VWord) -- R70
  | vfabs (w : VWord) -- R141
  | vfneg (w : VWord) -- R141
  | vfcmp (w : VWord) -- R142
  | vfcmps (w : VWord) -- R142
  | vcvt (w : VWord) -- R143
  | vsetl (w : VWord) -- R144
  | vfclass (w : VWord) -- R145
  | vexp2 (w : VWord) -- R146
  | vlog2 (w : VWord) -- R146
  | vrcp (w : VWord) -- R146
  | vrsq (w : VWord) -- R146
  | vsqrt (w : VWord) -- R146
  | vsin (w : VWord) -- R146
  | vcos (w : VWord) -- R146
  | vshuf (w : VWord) -- R147
  | vbcast (w : VWord) -- R147
  | vred (w : VWord) -- R150
  | vscan (w : VWord) -- R152
  | vcmprs (w : VWord) -- R148
  | viota (w : VWord) -- R147
  | vrng (w : VWord) -- R154
  | vmovsToVector (w : VWord) -- R149
  | vmovsToScalar (w : VWord) -- R149
  | vmovlToVector (w : VWord) -- R149
  | vmovlToPredicate (w : VWord) -- R149
  | vmov (w : VWord) -- R147
  | xcl (w : VWord) -- R153
  | vpack (w : VWord) -- R155
  | vunpk (w : VWord) -- R157
  -- L slot, Table 3.19
  | ld (w : LWord) -- R126
  | st (w : LWord) -- R126
  | ldv (w : LWord) -- R127
  | stv (w : LWord) -- R128
  | ldx (w : LWord) -- R129
  | stx (w : LWord) -- R129
  | spill (w : LWord) -- R130
  | fill (w : LWord) -- R130
  | atom (w : LWord) -- R131
  | ldf (w : LWord) -- R247
  | ldfTake (w : LWord) -- R247
  | ste (w : LWord) -- R247
  | steFill (w : LWord) -- R247
  | clrf (w : LWord) -- R248
  | clrfSet (w : LWord) -- R248
  | tagq (w : LWord) -- R249
  | tagqClaim (w : LWord) -- R249
  | tagw (w : LWord) -- R249
  | tagx (w : LWord) -- R249
  | tagxRd (w : LWord) -- R249
  -- M slot, Table 3.20
  | ringsetDef (w : MWord) -- R282
  | ringsetTail (w : MWord) -- R282
  | ringsetHead (w : MWord) -- R282
  | mwld (w : MWord) -- R284
  | mwldv (w : MWord) -- R285
  | mstrm (w : MWord) -- R287
  | mrep (w : MWord) -- R295
  | mdrain (w : MWord) -- R292
  | mdrainv (w : MWord) -- R293
  | mzero (w : MWord) -- R294
  | mcmd (w : MWord) -- R296
  | mstat (w : MWord) -- R297
  -- X slot, Table 3.21
  | fld (w : XWord) -- R229
  | fst (w : XWord) -- R230
  | fstp (w : XWord) -- R232
  | fatom (w : XWord) -- R235
  | fvatom (w : XWord) -- R236
  | fence (w : XWord) -- R243
  | chsend (w : XWord) -- R181
  | chrecv (w : XWord) -- R182
  | chpeek (w : XWord) -- R183
  | bar (w : XWord) -- R185
  | bara (w : XWord) -- R185
  | nxt (w : XWord) -- R188
  | semsigAdd (w : XWord) -- R190
  | semsigSub (w : XWord) -- R190
  | semsigSet (w : XWord) -- R190
  | semwait (w : XWord) -- R191
  | semwaitDec (w : XWord) -- R191
  | semtry (w : XWord) -- R191
  | semtryDec (w : XWord) -- R191
  | mbox (w : XWord) -- R245
  | tcopy (w : XWord) -- R307
  | tcoll (w : XWord) -- R307
  -- Xtephra, Table 12.2
  | teRd (w : TWord) -- R304
  | teWr (w : TWord) -- R304
  | teRdw (w : TWord) -- R304
  | teWrw (w : TWord) -- R304
  | teAtom (w : TWord) -- R304
  | teVat (w : TWord) -- R304
  | teFullWf (w : TWord) -- R304
  | teFullWfe (w : TWord) -- R304
  | teEmpty (w : TWord) -- R304
  | teSigAdd (w : TWord) -- R304
  | teSigSub (w : TWord) -- R304
  | teSigSet (w : TWord) -- R304
  | tePoll (w : TWord) -- R304
  | teWinLo (w : TWord) -- R304
  | teWinMid (w : TWord) -- R304
  | teWinHi (w : TWord) -- R304
  | teWinProbe (w : TWord) -- R304
  | teMbox (w : TWord) -- R304
  | teCmd (w : TWord) -- R309
  | teDone (w : TWord) -- R310
  | teGcyc (w : TWord) -- R304
  | teSave (w : TWord) -- R318
  -- no-operations and control words without operands
  | nop -- R88
  | ret -- R116
  | lend -- R33
  | endThread -- R118
  | vnop -- R88
  | lnop -- R88
  | mnop -- R88
  | xnop -- R88
  -- machine events, register writes, commands and acts of the outside
  | turnStart -- R5
  | landing -- R27
  | segmentExpansionComplete -- R34
  | gangRelease -- R164
  | gangCompletion -- R169
  | channelWordArrival -- R170
  | barrierRelease -- R173
  | windowInstallApply -- R213
  | windowInstallComplete -- R213
  | windowKillInvalidate -- R214
  | killAcknowledge -- R214
  | windowKillComplete -- R214
  | inboundMessageWrite -- R329
  | homeServeAccess -- R225
  | retryRefusalResend -- R239
  | farReplyArrival -- R227
  | deliveryFault -- R228
  | serviceReplyArrival -- R334
  | endToEndAcknowledgement -- R405
  | engineCommandStart -- R278
  | engineCommandRetire -- R278
  | engineHandoverEnd -- R286
  | mcmdRequestArrival -- R296
  | mcmdInboundAccept -- R296
  | mcmdReplyArrival -- R296
  | tephraBaseInstruction -- R300
  | contextSaveTurn -- R338
  | contextSaveComplete -- R338
  | contextRestoreComplete -- R339
  | privilegedRequestArrival -- R332
  | privilegedAcknowledgement -- R332
  | writeDbgsel -- R336
  | debugReadComplete -- R336
  | writeTrapc -- R326
  | writeLsd -- R31
  | writeInqr -- R330
  | executiveFrame -- R378
  | budgetPeriodBoundary -- R381
  | nopCommand -- R366
  | launch -- R371
  | copy -- R373
  | graph -- R375
  | wait -- R366
  | ckpt -- R374
  | preempt -- R366
  | resume -- R366
  | pconf -- R363
  | qconf -- R365
  | preset -- R364
  | pwin -- R366
  | fwload -- R385
  | attest -- R386
  | switch -- R407
  | writeTail -- R367
  | writeChead -- R369
  | writeAdmingo -- R365
  | writeReload -- R382
  | ventReloadComplete -- R382
  | queueTableError -- R383
  | clockChange -- R419
  | hostApertureAccess -- R362
  | openPacket -- R391
  | contPacket -- R391
  | closePacket -- R391
  | conduitFailure -- R393
  | timeSyncExchange -- R398
  | streamResume -- R397
  | quiesceAcknowledged -- R408
  | drainComplete -- R408
  | drainTimeout -- R408
  | lanesReconfigured -- R408
  | linkTrained -- R408
  | trainingFailed -- R408
  | enumerationDone -- R408
  | mapDone -- R408
  | linkDeath -- R411
  | acknowledgementTimeout -- R411
  | inboundPeerRequest -- R399
  | stackTemperatureRead -- R420
  | resetAssert -- R421
  | resetDeassert -- R421
  | i3cStatWrite -- R422
  | enginePortAccess -- R279
  | uncorrectableError -- R201
  | discardNoticeReturn -- R334
  | mainSupplyRemoval -- R420
deriving DecidableEq, Repr

end Sys2Proof
end

