-- ==== Sys2Proof/Machine/Shape.lean ====
section
/-! DEFINITION. The shape of every instruction word: its encoding from the fields (Tables 3.3 to 3.7, R303), the
static checks of R76 to R89, its read ports (R86, Tables 4.15, 5.1, 7.2, 9.9, 11.14), the thread-port bank words
(R307) and its writes (R28). -/

namespace Sys2Proof

/-- The class of a register field (Table 3.8a), or what else a field may hold. -/
inductive Cls
  | zero | s | v | p | a | ch | any
deriving DecidableEq, Repr

/-- R78: a register number outside its class traps with 0x01. -/
def Cls.bad1 : Cls → Nat → Bool
  | .v, n => 48 ≤ n
  | .p, n => 48 ≤ n
  | .a, n => 16 ≤ n
  | .ch, n => 4 ≤ n
  | _, _ => false

/-- R76: a field that is not used must be zero. -/
def Cls.bad2 : Cls → Nat → Bool
  | .zero, n => n != 0
  | _, _ => false

/-- R86: a scalar register field takes an allotted port unless it names s0. -/
def Cls.port : Cls → Nat → Nat
  | .s, n => if n = 0 then 0 else 1
  | _, _ => 0

/-- R14: the vector register numbers of a field, which must lie below NV. -/
def Cls.vregs : Cls → Nat → List Nat
  | .v, n => [n]
  | _, _ => []

/-- The use an S opcode makes of a surrendered S1 (R99, R107, R116). -/
inductive ImmUse
  | no | opt | req
deriving DecidableEq, Repr

/-- What an instruction writes, by the names of R28. -/
inductive Target
  | s (n : Nat)
  | a (n : Nat)
  | p (n : Nat)
  | v (n : Nat)
  | sys (n : Nat)
  | lcPush
  | lcTop
  | lendVrb
  | next
deriving DecidableEq, Repr

/-- One write: its target, its latency in turns and the clusters it covers (R28, R135). -/
structure Write where
  target : Target
  lat : Nat
  mask : Nat
deriving DecidableEq, Repr

/-- The slot that an instruction word belongs to; `w` is the word of the W position (R85). -/
inductive Kind
  | event | s | w | v | l | m | x | t
deriving DecidableEq, Repr

/-- All that an instruction's word fixes before it executes: the checks of R90, the ports of R86, the
thread-port bank words of R307 and the writes of R28; `bimm`: B is not zero beside an immediate or constant (R83, R84). -/
structure Shape where
  kind : Kind
  word : Nat := 0
  imm : Option Nat := none
  nop : Bool := false
  bare : Bool := false
  range : Bool := true
  bad1 : Bool := false
  bad2 : Bool := false
  bad5 : Bool := false
  bimm : Bool := false
  svc1 : Bool := false
  cmp1 : Bool := false
  svc2 : Bool := false
  priv : Bool := false
  vregs : List Nat := []
  sports : Nat := 0
  vports : Nat := 0
  banks : Nat := 0
  svcBanks : Nat := 0
  writes : List Write := []
deriving DecidableEq, Repr

/-! ## Words from fields (Tables 3.3 to 3.7, R303) -/

def SWord.word (op : Nat) (w : SWord) : Nat := ((op * 64 + w.d) * 64 + w.a) * 4096 + w.b * 64

def VWord.word (op : Nat) (w : VWord) : Nat :=
  (((((((op * 16 + w.ty) * 64 + w.d) * 64 + w.a) * 64 + w.b) * 64 + w.c) * 256 + w.cm) * 32 + w.md) * 64

def LWord.word (op : Nat) (w : LWord) : Nat :=
  (((((((op * 64 + w.data) * 64 + w.base) * 65536 + w.ofs) * 16 + w.sz) * 2 + w.md2) * 2 + w.md1) * 2 + w.md0) * 64

def MWord.word (op : Nat) (w : MWord) : Nat := (((op * 64 + w.a) * 64 + w.b) * 256 + w.imm) * 64

def XWord.word (op : Nat) (w : XWord) : Nat :=
  ((((op * 64 + w.da) * 64 + w.b) * 64 + w.ci) * 2 + w.e) * 64

def TWord.word (space f3 : Nat) (w : TWord) : Nat :=
  ((((w.f7 * 32 + w.rs2) * 32 + w.rs1) * 8 + f3) * 32 + w.rd) * 128 + space

/-! ## Fields from words -/

def SWord.of (imm : Option Nat) (x : Nat) : SWord :=
  { d := bitsAt x 18 6, a := bitsAt x 12 6, b := bitsAt x 6 6, imm := imm }

def VWord.of (k : Option Nat) (x : Nat) : VWord :=
  { ty := bitsAt x 43 4, d := bitsAt x 37 6, a := bitsAt x 31 6, b := bitsAt x 25 6, c := bitsAt x 19 6,
    cm := bitsAt x 11 8, md := bitsAt x 6 5, k := k }

def LWord.of (x : Nat) : LWord :=
  { data := bitsAt x 35 6, base := bitsAt x 29 6, ofs := bitsAt x 13 16, sz := bitsAt x 9 4,
    md2 := bitsAt x 8 1, md1 := bitsAt x 7 1, md0 := bitsAt x 6 1 }

def MWord.of (x : Nat) : MWord :=
  { a := bitsAt x 20 6, b := bitsAt x 14 6, imm := bitsAt x 6 8 }

def XWord.of (x : Nat) : XWord :=
  { da := bitsAt x 19 6, b := bitsAt x 13 6, ci := bitsAt x 7 6, e := bitsAt x 6 1 }

def TWord.of (x : Nat) : TWord :=
  { f7 := bitsAt x 25 7, rs2 := bitsAt x 20 5, rs1 := bitsAt x 15 5, rd := bitsAt x 7 5 }

def SWord.inRange (w : SWord) (immBits : Nat) : Bool :=
  w.d < 64 && w.a < 64 && w.b < 64 && w.imm.getD 0 < 2 ^ immBits

def VWord.inRange (w : VWord) : Bool :=
  w.ty < 16 && w.d < 64 && w.a < 64 && w.b < 64 && w.c < 64 && w.cm < 256 && w.md < 32
    && w.k.getD 0 < 2 ^ 32

def LWord.inRange (w : LWord) : Bool :=
  w.data < 64 && w.base < 64 && w.ofs < 65536 && w.sz < 16 && w.md2 < 2 && w.md1 < 2 && w.md0 < 2

def MWord.inRange (w : MWord) : Bool := w.a < 64 && w.b < 64 && w.imm < 256

def XWord.inRange (w : XWord) : Bool := w.da < 64 && w.b < 64 && w.ci < 64 && w.e < 2

def TWord.inRange (w : TWord) : Bool := w.f7 < 128 && w.rs2 < 32 && w.rs1 < 32 && w.rd < 32

/-! ## Shapes of the five slots -/

/-- An S-slot word: classes of D, A and B, its use of a surrendered S1, and its latency for D. -/
def sShape (op : Nat) (cd ca cb : Cls) (imm : ImmUse) (w : SWord) (lat : Nat := 1) : Shape :=
  let bc : Cls := if w.imm.isSome then .zero else cb
  { kind := .s, word := w.word op, imm := w.imm, range := w.inRange 32
    bad1 := cd.bad1 w.d || ca.bad1 w.a || bc.bad1 w.b
    bad2 := cd.bad2 w.d || ca.bad2 w.a || bc.bad2 w.b
    bad5 := (imm = .no ∧ w.imm.isSome) ∨ (imm = .req ∧ w.imm = none)
    bimm := w.imm.isSome && w.b != 0
    sports := ca.port w.a + bc.port w.b
    writes := match cd with
      | .s => [⟨.s w.d, lat, 1⟩]
      | .p => [⟨.p w.d, lat, 255⟩]
      | .a => [⟨.a w.d, lat, 1⟩]
      | _ => [] }

/-- A privileged S word: sub-operation `k` in D, scalar A, scalar or zero B (R332). -/
def pShape (op k : Nat) (b : Cls) (w : SWord) : Shape :=
  { sShape op .any .s b .no w with bad2 := w.d != k || b.bad2 w.b, priv := true, writes := [⟨.sys 0x802, 1, 1⟩] }

/-- The writes of LEND (R28): LSD, the top entry, the bases, the stage window and the choice of next bundle. -/
def lendWrites : List Write :=
  [⟨.next, 1, 1⟩, ⟨.sys 0x19, 1, 1⟩, ⟨.lcTop, 1, 1⟩, ⟨.sys 0x16, 1, 1⟩, ⟨.sys 0x18, 1, 1⟩, ⟨.lendVrb, 1, 1⟩]
    ++ (List.range 16).map (fun j => ⟨.p (32 + j), 1, 255⟩)

/-- The writes of LOOP (R28, R32) with stage count `n`. -/
def loopWrites (n : Nat) : List Write :=
  [⟨.sys 0x19, 1, 1⟩, ⟨.lcPush, 1, 1⟩] ++ (List.range (min n 16)).map (fun j => ⟨.p (32 + j), 1, 255⟩)

/-- ROTSET's writes (R122, R28). -/
def rotsetWrites (m : Nat) : List Write :=
  (if m % 2 = 1 then [⟨.sys 0x16, 1, 1⟩] else []) ++ (if m / 2 % 2 = 1 then [⟨.sys 0x17, 1, 1⟩] else [])
    ++ (if m / 4 % 2 = 1 then [⟨.sys 0x18, 1, 1⟩] else [])

/-- The numbers that RDS reads (Tables 1.2 and 14.3); those from 0x800 exist on a service core alone. (Log 14: DEDUCED.) -/
def rdsNumber (sv : Bool) (n : Nat) : Bool :=
  n ≤ 0x006 || (0x010 ≤ n && n ≤ 0x01C) || (0x020 ≤ n && n ≤ 0x025) || (sv && 0x800 ≤ n && n ≤ 0x807)

/-- The numbers that WRS writes: those marked RW in Tables 1.2 and 14.3. (Log 14: DEDUCED.) -/
def wrsNumber (sv : Bool) (n : Nat) : Bool :=
  n = 0x010 || n = 0x011 || (0x014 ≤ n && n ≤ 0x019) || (0x020 ≤ n && n ≤ 0x025)
    || (sv && (n = 0x801 || n = 0x804 || n = 0x805))

/-- R114: FCVT's B field; `own` is the code of the row's own format. -/
def fcvtShape (op own : Nat) (w : SWord) : Shape :=
  { sShape op .s .s .any .no w with
    bad1 := w.imm = none && (14 ≤ w.b % 16 || w.b % 16 = own)
    bad2 := 32 ≤ w.b }

/-- A V-slot word: accepted TYPE codes (`none`: takes no type), classes of D, A, B and C, the constant form,
whether MOD is accepted, and the latency. -/
def vShape (op : Nat) (tys : Option (List Nat)) (cd ca cb cc : Cls) (kOk : Bool) (mdOk : Bool) (w : VWord)
    (lat : Nat := 1) : Shape :=
  let bc : Cls := if w.k.isSome then .zero else cb
  { kind := .v, word := w.word op, imm := w.k, range := w.inRange
    bad1 := cd.bad1 w.d || ca.bad1 w.a || bc.bad1 w.b || cc.bad1 w.c || 11 ≤ w.ty
      || (match tys with | none => false | some l => !l.contains w.ty)
    bad2 := cd.bad2 w.d || ca.bad2 w.a || bc.bad2 w.b || cc.bad2 w.c || !mdOk || (tys = none && w.ty != 0)
    bad5 := !kOk && w.k.isSome
    bimm := w.k.isSome && w.b != 0
    svc2 := 2 ≤ w.cm
    vregs := cd.vregs w.d ++ ca.vregs w.a ++ bc.vregs w.b ++ cc.vregs w.c
    sports := ca.port w.a + cc.port w.c
    vports := if cc = .v then 1 else 0
    writes := match cd with
      | .v => [⟨.v w.d, lat, w.cm⟩]
      | .p => [⟨.p w.d, lat, w.cm⟩]
      | .s => [⟨.s w.d, lat, 1⟩]
      | _ => [] }

/-- TYPE codes 0 to 5, 6 to 10 and 0 to 10. -/
def tyInt : Option (List Nat) := some [0, 1, 2, 3, 4, 5]
def tyFp : Option (List Nat) := some [6, 7, 8, 9, 10]
def tyAll : Option (List Nat) := some [0, 1, 2, 3, 4, 5, 6, 7, 8, 9, 10]

/-- Table 3.8: the bits of an element of a TYPE code of the V slot. -/
def tyBits (ty : Nat) : Nat :=
  match ty with
  | 0 => 8 | 1 => 8 | 2 => 16 | 3 => 16 | 4 => 32 | 5 => 32 | 6 => 32 | 7 => 16 | 8 => 16 | 9 => 8 | 10 => 8
  | _ => 32

/-- Table 3.8: the bytes of an element of an SZ code of the L slot; 14 and 15 have none here. -/
def szBytes (sz : Nat) : Nat :=
  match sz with
  | 0 => 1 | 1 => 1 | 2 => 2 | 3 => 2 | 4 => 4 | 5 => 4 | 6 => 4 | 7 => 2 | 8 => 2 | 9 => 1 | 10 => 1
  | 11 => 8 | 12 => 8 | 13 => 8 | _ => 0

/-- R143: VCVT's source code, its factor and the checks on MOD, TYPE and B. -/
def vcvtShape (w : VWord) : Shape :=
  let src := w.md % 16
  let hi := w.md / 16
  let ws := tyBits src
  let wd := tyBits w.ty
  let narrow : Bool := ws = 2 * wd
  let sh := vShape 0x02C tyAll .v .v (if narrow then .v else .zero) .zero false true w
  { sh with
    bad1 := sh.bad1 || 11 ≤ src
    bad2 := sh.bad2 || src = w.ty || !(ws = wd || narrow || wd = 2 * ws) || (hi = 1 && wd != 2 * ws) }

/-- R142: a compare's element and condition. -/
def vcmpShape (op : Nat) (tys : Option (List Nat)) (last : Nat) (w : VWord) : Shape :=
  vShape op tys .p .v .v .zero true (w.md % 8 ≤ last && w.md / 8 < 32 / tyBits w.ty) w

/-- R150: the operators that VRED allows for a type. -/
def vredOk (ty o : Nat) : Bool :=
  if ty ≤ 5 then o ≤ 2 || (5 ≤ o && o ≤ 9) else o ≤ 6

/-- R152: the operators that VSCAN allows for a type. -/
def vscanOk (ty o ex : Nat) : Bool :=
  vredOk ty o && o != 5 && o != 6 && (ex = 0 || o = 0 || (7 ≤ o && o ≤ 9))

/-- An L-slot word: classes of DATA and BASE, accepted SZ codes, other field checks, what the DATA field is
for the ports and writes, and its thread-port bank words. -/
def lShape (op : Nat) (data : Cls) (szOk : Bool) (fieldsOk : Bool) (reads : Bool) (lat : Nat)
    (banks svcBanks : Nat) (w : LWord) : Shape :=
  { kind := .l, word := w.word op, range := w.inRange
    bad1 := data.bad1 w.data || w.sz = 15 || !szOk
    bad2 := !fieldsOk
    vregs := data.vregs w.data
    sports := Cls.s.port w.base + (if reads then data.port w.data else 0)
    vports := if reads ∧ data = .v then 1 else 0
    banks := banks, svcBanks := svcBanks
    writes := if lat = 0 then [] else
      match data with
      | .v => [⟨.v w.data, lat, 255⟩]
      | .s => [⟨.s w.data, lat, 1⟩]
      | _ => [] }

/-- The bank words of an access of `n` bytes: one for each 16 bytes, and at least one (R307). -/
def bankWords (n : Nat) : Nat := max 1 ((n + 15) / 16)

/-- LDX and STX (R129, Table 4.12): the index register and cluster lie in OFS. -/
def idxShape (op : Nat) (narrowOk reads : Bool) (w : LWord) : Shape :=
  let vi := w.ofs / 1024
  let cl := w.ofs / 128 % 8
  { lShape op .v (w.sz ≤ 10) (w.md1 = 0 && w.md0 = 0 && (w.md2 = 0 || narrowOk) && w.ofs % 128 = 0) reads 0 16 16 w
    with
    bad1 := Cls.v.bad1 w.data || Cls.v.bad1 vi || 11 ≤ w.sz
    vregs := [w.data, vi]
    vports := if reads then 2 else 1
    svc2 := cl != 0
    writes := if reads then [] else [⟨.v w.data, 2, 2 ^ cl⟩] }

/-- The synchronising accesses LDF and STE (R246): MD1 selects the class of DATA. -/
def syncShape (op m2 : Nat) (reads : Bool) (w : LWord) : Shape :=
  let vec : Bool := w.md1 = 1
  lShape op (if vec then .v else .s) (if vec then w.sz ≤ 10 else w.sz ≤ 13) (w.md0 = 0 && w.md2 = m2) reads
    (if reads then 0 else 2) (if vec then 32 else bankWords (szBytes w.sz)) (if vec then 4 else bankWords (szBytes w.sz)) w

/-- Tag instructions (R249). -/
def tagShape (op m2 : Nat) (ofsMax : Nat) (reads : Bool) (lat : Nat) (w : LWord) : Shape :=
  { lShape op .s true (w.sz = 0 && w.md1 = 0 && w.md0 = 0 && w.md2 = m2 && w.ofs ≤ ofsMax) reads lat 0 0 w with
    svc1 := true }

/-- An M-slot word: classes of A and B, whether A is read, and whether IMM8 is accepted (Table 11.14). -/
def mShape (op : Nat) (ca cb : Cls) (readsA immOk : Bool) (w : MWord) : Shape :=
  { kind := .m, word := w.word op, range := w.inRange
    bad1 := ca.bad1 w.a || cb.bad1 w.b
    bad2 := ca.bad2 w.a || cb.bad2 w.b || !immOk
    svc1 := true
    sports := (if readsA then ca.port w.a else 0) + cb.port w.b }

/-- An X-slot word: classes of DA and B, other field checks, END's use and the reads of its fields. -/
def xShape (op : Nat) (da b : Cls) (fieldsOk endOk : Bool) (readsDa : Bool) (writes : List Write) (w : XWord) :
    Shape :=
  { kind := .x, word := w.word op, range := w.inRange
    bad1 := da.bad1 w.da || b.bad1 w.b
    bad2 := da.bad2 w.da || b.bad2 w.b || !fieldsOk || (w.e != 0 && !endOk)
    vregs := da.vregs w.da ++ b.vregs w.b
    sports := (if readsDa then da.port w.da else 0) + b.port w.b
    vports := (if readsDa ∧ da = .v then 1 else 0) + (if b = .v then 1 else 0)
    writes := writes }

/-- The far accesses (Table 9.1): the address register is in B[3:0]; `sz` is the SZ code where there is one. -/
def farShape (op : Nat) (da : Cls) (szOk fieldsOk endOk readsDa : Bool) (w : XWord) : Shape :=
  { xShape op da .any fieldsOk endOk readsDa [] w with bad1 := da.bad1 w.da || !szOk }

/-- R220: the FATOM operation and type. -/
def fatomOk (w : XWord) : Bool :=
  let aop := w.ci / 4
  let ty := w.ci % 4
  aop ≤ 8 && ty ≤ 1 || aop = 9 && 2 ≤ ty

/-- Channel forms (Table 7.3). -/
def chkOk (w : XWord) : Bool := w.ci < 16 && (w.ci / 8 = 1 || w.ci % 8 = 0)

/-- An Xtephra word (R303): its space and funct3, and whether its fixed fields are as Table 12.2 gives. -/
def tShape (space f3 : Nat) (ok : Bool) (w : TWord) : Shape :=
  { kind := .t, word := w.word space f3, range := w.inRange, bad2 := !ok }

/-- A no-operation: every bit outside OP is a hint (R88). -/
def nopShape (k : Kind) : Shape := { kind := k, nop := true, bare := true }

/-- An S word whose D, A and B must be zero and that takes no immediate. -/
def bareShape (op : Nat) (ws : List Write) : Shape :=
  { kind := .s, word := op * 2 ^ 24, bare := true, writes := ws }

/-- A row that is no instruction word. -/
def eventShape : Shape := { kind := .event }

/-- The shape of every instruction (Tables 3.17 to 3.21, 4.1 to 4.15, 5.1 to 5.12, 7.1 to 7.4, 9.1 to 9.9, 11.14, 12.2,
14.7). -/
def shape (i : Instr) : Shape :=
  match i with
  | .turnStart => eventShape
  | .landing => eventShape
  | .segmentExpansionComplete => eventShape
  | .gangRelease => eventShape
  | .gangCompletion => eventShape
  | .channelWordArrival => eventShape
  | .barrierRelease => eventShape
  | .windowInstallApply => eventShape
  | .windowInstallComplete => eventShape
  | .windowKillInvalidate => eventShape
  | .killAcknowledge => eventShape
  | .windowKillComplete => eventShape
  | .inboundMessageWrite => eventShape
  | .homeServeAccess => eventShape
  | .retryRefusalResend => eventShape
  | .farReplyArrival => eventShape
  | .deliveryFault => eventShape
  | .serviceReplyArrival => eventShape
  | .endToEndAcknowledgement => eventShape
  | .engineCommandStart => eventShape
  | .engineCommandRetire => eventShape
  | .engineHandoverEnd => eventShape
  | .mcmdRequestArrival => eventShape
  | .mcmdInboundAccept => eventShape
  | .mcmdReplyArrival => eventShape
  | .tephraBaseInstruction => eventShape
  | .contextSaveTurn => eventShape
  | .contextSaveComplete => eventShape
  | .contextRestoreComplete => eventShape
  | .privilegedRequestArrival => eventShape
  | .privilegedAcknowledgement => eventShape
  | .writeDbgsel => eventShape
  | .debugReadComplete => eventShape
  | .writeTrapc => eventShape
  | .writeLsd => eventShape
  | .writeInqr => eventShape
  | .executiveFrame => eventShape
  | .budgetPeriodBoundary => eventShape
  | .nopCommand => eventShape
  | .launch => eventShape
  | .copy => eventShape
  | .graph => eventShape
  | .wait => eventShape
  | .ckpt => eventShape
  | .preempt => eventShape
  | .resume => eventShape
  | .pconf => eventShape
  | .qconf => eventShape
  | .preset => eventShape
  | .pwin => eventShape
  | .fwload => eventShape
  | .attest => eventShape
  | .switch => eventShape
  | .writeTail => eventShape
  | .writeChead => eventShape
  | .writeAdmingo => eventShape
  | .writeReload => eventShape
  | .ventReloadComplete => eventShape
  | .queueTableError => eventShape
  | .clockChange => eventShape
  | .hostApertureAccess => eventShape
  | .openPacket => eventShape
  | .contPacket => eventShape
  | .closePacket => eventShape
  | .conduitFailure => eventShape
  | .timeSyncExchange => eventShape
  | .streamResume => eventShape
  | .quiesceAcknowledged => eventShape
  | .drainComplete => eventShape
  | .drainTimeout => eventShape
  | .lanesReconfigured => eventShape
  | .linkTrained => eventShape
  | .trainingFailed => eventShape
  | .enumerationDone => eventShape
  | .mapDone => eventShape
  | .linkDeath => eventShape
  | .acknowledgementTimeout => eventShape
  | .inboundPeerRequest => eventShape
  | .stackTemperatureRead => eventShape
  | .resetAssert => eventShape
  | .resetDeassert => eventShape
  | .i3cStatWrite => eventShape
  | .nop => nopShape .s
  | .add w => sShape 0x01 .s .s .s .no w
  | .sub w => sShape 0x02 .s .s .s .no w
  | .addi w => sShape 0x03 .s .s .any .opt w
  | .mul w => sShape 0x04 .s .s .s .opt w
  | .mulh w => sShape 0x05 .s .s .s .opt w
  | .mulhn w => sShape 0x06 .s .s .s .opt w
  | .div w => sShape 0x07 .s .s .s .opt w 4
  | .divn w => sShape 0x08 .s .s .s .opt w 4
  | .rem w => sShape 0x09 .s .s .s .opt w 4
  | .remn w => sShape 0x0A .s .s .s .opt w 4
  | .and w => sShape 0x0B .s .s .s .opt w
  | .or w => sShape 0x0C .s .s .s .opt w
  | .xor w => sShape 0x0D .s .s .s .opt w
  | .andn w => sShape 0x0E .s .s .s .opt w
  | .shl w => sShape 0x0F .s .s .s .opt w
  | .shr w => sShape 0x10 .s .s .s .opt w
  | .sar w => sShape 0x11 .s .s .s .opt w
  | .rol w => sShape 0x12 .s .s .s .opt w
  | .clz w => sShape 0x13 .s .s .zero .no w
  | .popc w => sShape 0x14 .s .s .zero .no w
  | .min w => sShape 0x15 .s .s .s .opt w
  | .max w => sShape 0x16 .s .s .s .opt w
  | .minn w => sShape 0x17 .s .s .s .opt w
  | .maxn w => sShape 0x18 .s .s .s .opt w
  | .sel w => sShape 0x19 .s .s .s .no w
  | .ext w => sShape 0x1A .s .s .s .opt w
  | .ins w => sShape 0x1B .s .s .s .opt w
  | .mov w => sShape 0x1C .s .s .zero .no w
  | .moviShort w => sShape 0x1D .s .any .any .no w
  | .moviImm32 w => sShape 0x1D .s .zero .zero .req w
  | .moviLong w => { sShape 0x1D .s .zero .zero .req w with kind := .w, range := w.inRange 64 }
  | .cmpeq w => sShape 0x20 .p .s .s .opt w
  | .cmpne w => sShape 0x21 .p .s .s .opt w
  | .cmplt w => sShape 0x22 .p .s .s .opt w
  | .cmple w => sShape 0x23 .p .s .s .opt w
  | .cmpltn w => sShape 0x24 .p .s .s .opt w
  | .cmplen w => sShape 0x25 .p .s .s .opt w
  | .lea w => sShape 0x28 .a .s .s .opt w
  | .adda w => sShape 0x29 .a .a .s .opt w
  | .movaAS w => { sShape 0x2A .a .s .any .no w with bad2 := w.b != 0 }
  | .movaSA w => { sShape 0x2A .s .a .any .no w with bad2 := w.b != 1 }
  | .movaHiSA w => { sShape 0x2A .s .a .any .no w with bad2 := w.b != 2 }
  | .movaAA w => { sShape 0x2A .a .a .any .no w with bad2 := w.b != 3 }
  | .movaHiAS w => { sShape 0x2A .a .s .any .no w with bad2 := w.b != 4 }
  | .faddF64 w => sShape 0x30 .s .s .s .opt w
  | .fsubF64 w => sShape 0x31 .s .s .s .opt w
  | .fmulF64 w => sShape 0x32 .s .s .s .opt w
  | .fmaF64 w => sShape 0x33 .s .s .s .opt w
  | .fdivF64 w => sShape 0x34 .s .s .s .opt w 4
  | .fsqrtF64 w => sShape 0x35 .s .s .zero .no w 4
  | .fminF64 w => sShape 0x36 .s .s .s .opt w
  | .fmaxF64 w => sShape 0x37 .s .s .s .opt w
  | .fcmpeqF64 w => sShape 0x38 .p .s .s .opt w
  | .fcmpltF64 w => sShape 0x39 .p .s .s .opt w
  | .fcmpleF64 w => sShape 0x3A .p .s .s .opt w
  | .fcvtF64 w => fcvtShape 0x3B 13 w
  | .setlF64 w => sShape 0x3C .s .s .zero .no w
  | .fclassF64 w => sShape 0x3D .s .s .zero .no w
  | .faddF32 w => sShape 0x40 .s .s .s .opt w
  | .fsubF32 w => sShape 0x41 .s .s .s .opt w
  | .fmulF32 w => sShape 0x42 .s .s .s .opt w
  | .fmaF32 w => sShape 0x43 .s .s .s .opt w
  | .fdivF32 w => sShape 0x44 .s .s .s .opt w 4
  | .fsqrtF32 w => sShape 0x45 .s .s .zero .no w 4
  | .fminF32 w => sShape 0x46 .s .s .s .opt w
  | .fmaxF32 w => sShape 0x47 .s .s .s .opt w
  | .fcmpeqF32 w => sShape 0x48 .p .s .s .opt w
  | .fcmpltF32 w => sShape 0x49 .p .s .s .opt w
  | .fcmpleF32 w => sShape 0x4A .p .s .s .opt w
  | .fcvtF32 w => fcvtShape 0x4B 6 w
  | .setlF32 w => sShape 0x4C .s .s .zero .no w
  | .fclassF32 w => sShape 0x4D .s .s .zero .no w
  | .pand w => sShape 0x50 .p .p .p .no w
  | .por w => sShape 0x51 .p .p .p .no w
  | .pxor w => sShape 0x52 .p .p .p .no w
  | .pnot w => sShape 0x53 .p .p .zero .no w
  | .pmov w => sShape 0x54 .p .p .zero .no w
  | .pall w => sShape 0x55 .p .p .zero .no w
  | .pany w => sShape 0x56 .p .p .zero .no w
  | .br w =>
    { sShape 0x60 .zero .zero .zero .req w with bad2 := w.d != 0 || w.a != 0 || w.b != 0 || 2 ^ 29 ≤ w.imm.getD 0, writes := [⟨.next, 1, 1⟩] }
  | .callLabel w =>
    { sShape 0x61 .zero .zero .zero .req w with bad2 := w.d != 0 || w.a != 0 || w.b != 0 || 2 ^ 29 ≤ w.imm.getD 0, writes := [⟨.next, 1, 1⟩, ⟨.a 15, 1, 1⟩] }
  | .callRegister w =>
    { sShape 0x61 .zero .s .zero .no w with bad5 := w.imm.isSome || w.a = 0, writes := [⟨.next, 1, 1⟩, ⟨.a 15, 1, 1⟩] }
  | .ret => bareShape 0x62 [⟨.next, 1, 1⟩]
  | .loopRegister w => { sShape 0x63 .any .s .zero .no w with writes := loopWrites w.d }
  | .loopImmediate w => { sShape 0x63 .any .zero .zero .req w with writes := loopWrites w.d }
  | .lend => bareShape 0x64 lendWrites
  | .lpin w => sShape 0x65 .zero .zero .any .no w
  | .endThread => bareShape 0x66 [⟨.next, 1, 1⟩]
  | .trap w =>
    { sShape 0x67 .zero .zero .any .no w with bad2 := w.d != 0 || w.a != 0 || 16 ≤ w.b, writes := [⟨.next, 1, 1⟩] }
  | .rds w =>
    { sShape 0x68 .s .any .any .no w with
      bad1 := !rdsNumber true (w.a * 64 + w.b)
      cmp1 := !rdsNumber false (w.a * 64 + w.b) }
  | .wrs w =>
    { sShape 0x69 .any .s .any .no w with
      bad1 := !wrsNumber true (w.d * 64 + w.b)
      cmp1 := !wrsNumber false (w.d * 64 + w.b)
      writes := [⟨.sys (w.d * 64 + w.b), 1, 1⟩] }
  | .rotset w =>
    { sShape 0x6A .zero .s .any .no w with bad2 := w.d != 0 || 8 ≤ w.b, writes := rotsetWrites w.b }
  | .waitcRegister w => sShape 0x6B .zero .s .zero .no w
  | .waitcImmediate w => sShape 0x6B .zero .zero .zero .req w
  | .bri w => { sShape 0x6C .zero .s .zero .no w with writes := [⟨.next, 1, 1⟩] }
  | .tretRetry w => pShape 0x70 0 .zero w
  | .tretAt w => pShape 0x70 1 .s w
  | .tretNext w => pShape 0x70 2 .zero w
  | .tretSkip w => pShape 0x70 3 .zero w
  | .winset w => pShape 0x71 0 .s w
  | .winkill w => pShape 0x72 0 .zero w
  | .grant w => pShape 0x73 0 .s w
  | .mbreplyRetry w => pShape 0x74 0 .s w
  | .mbreplyResume w => pShape 0x74 1 .s w
  | .mbreplyResumev w => pShape 0x74 2 .s w
  | .mbreplyError w => pShape 0x74 3 .s w
  | .mbreplyMbok w => pShape 0x74 4 .s w
  | .mbreplyMberr w => pShape 0x74 5 .s w
  | .ctxsvThr w => pShape 0x75 0 .zero w
  | .ctxsvGang w => pShape 0x75 1 .zero w
  | .ctxldThr w => pShape 0x76 0 .zero w
  | .ctxldGang w => pShape 0x76 1 .zero w
  | .haltStop w => pShape 0x77 0 .zero w
  | .haltEnd w => pShape 0x77 1 .zero w
  | .haltReset w => pShape 0x77 2 .zero w
  | .vnop => nopShape .v
  | .vadd w => vShape 0x001 tyInt .v .v .v .zero true (w.md ≤ 1) w
  | .vsub w => vShape 0x002 tyInt .v .v .v .zero true (w.md ≤ 1) w
  | .vmul w => vShape 0x003 tyInt .v .v .v .zero true (w.md = 0) w
  | .vmulh w => vShape 0x004 tyInt .v .v .v .zero true (w.md = 0) w
  | .vmad w => vShape 0x005 tyInt .v .v .v .v true (w.md = 0) w
  | .vand w => vShape 0x006 tyInt .v .v .v .zero true (w.md = 0) w
  | .vor w => vShape 0x007 tyInt .v .v .v .zero true (w.md = 0) w
  | .vxor w => vShape 0x008 tyInt .v .v .v .zero true (w.md = 0) w
  | .vshl w => vShape 0x009 tyInt .v .v .v .zero true (w.md = 0) w
  | .vshr w => vShape 0x00A tyInt .v .v .v .zero true (w.md = 0) w
  | .vsar w => vShape 0x00B tyInt .v .v .v .zero true (w.md = 0) w
  | .vmin w => vShape 0x00C tyInt .v .v .v .zero true (w.md = 0) w
  | .vmax w => vShape 0x00D tyInt .v .v .v .zero true (w.md = 0) w
  | .vabs w => vShape 0x00E (some [0, 2, 4]) .v .v .zero .zero false (w.md = 0) w
  | .vclz w => vShape 0x00F tyInt .v .v .zero .zero false (w.md = 0) w
  | .vpopc w => vShape 0x010 tyInt .v .v .zero .zero false (w.md = 0) w
  | .vdot4 w => vShape 0x011 (some [0, 1]) .v .v .v .v true (w.md = 0) w
  | .vsel w => vShape 0x012 none .v .v .v .p false (w.md = 0) w
  | .vcmp w => vcmpShape 0x013 tyInt 5 w
  | .vfadd w => vShape 0x020 tyFp .v .v .v .zero true (w.md = 0) w
  | .vfsub w => vShape 0x021 tyFp .v .v .v .zero true (w.md = 0) w
  | .vfmul w => vShape 0x022 tyFp .v .v .v .zero true (w.md = 0) w
  | .vfma w => vShape 0x023 tyFp .v .v .v .v true (w.md = 0) w
  | .vfmin w => vShape 0x024 tyFp .v .v .v .zero true (w.md = 0) w
  | .vfmax w => vShape 0x025 tyFp .v .v .v .zero true (w.md = 0) w
  | .vfminn w => vShape 0x026 tyFp .v .v .v .zero true (w.md = 0) w
  | .vfmaxn w => vShape 0x027 tyFp .v .v .v .zero true (w.md = 0) w
  | .vfabs w => vShape 0x028 tyFp .v .v .zero .zero false (w.md = 0) w
  | .vfneg w => vShape 0x029 tyFp .v .v .zero .zero false (w.md = 0) w
  | .vfcmp w => vcmpShape 0x02A tyFp 6 w
  | .vfcmps w => vcmpShape 0x02B tyFp 6 w
  | .vcvt w => vcvtShape w
  | .vsetl w => vShape 0x02D tyFp .v .v .zero .zero false (w.md = 0) w
  | .vfclass w => vShape 0x02E (some [6, 7, 8]) .v .v .zero .zero false (w.md = 0) w
  | .vexp2 w => vShape 0x030 (some [6]) .v .v .zero .zero false (w.md = 0) w 3
  | .vlog2 w => vShape 0x031 (some [6]) .v .v .zero .zero false (w.md = 0) w 3
  | .vrcp w => vShape 0x032 (some [6]) .v .v .zero .zero false (w.md = 0) w 3
  | .vrsq w => vShape 0x033 (some [6]) .v .v .zero .zero false (w.md = 0) w 3
  | .vsqrt w => vShape 0x034 (some [6]) .v .v .zero .zero false (w.md = 0) w 3
  | .vsin w => vShape 0x035 (some [6]) .v .v .zero .zero false (w.md = 0) w 3
  | .vcos w => vShape 0x036 (some [6]) .v .v .zero .zero false (w.md = 0) w 3
  | .vshuf w => vShape 0x040 none .v .v .v .zero false (w.md = 0) w
  | .vbcast w => vShape 0x041 none .v .v .any .zero false (w.md = 0 && w.b < 16) w
  | .vred w => vShape 0x042 tyAll .v .v .zero .zero false (w.md < 16 && vredOk w.ty (w.md % 16)) w 2
  | .vscan w => vShape 0x043 tyAll .v .v .zero .zero false (vscanOk w.ty (w.md % 16) (w.md / 16)) w 2
  | .vcmprs w => vShape 0x044 none .v .v .zero .p false (w.md = 0) w
  | .viota w => vShape 0x045 (some [4, 5]) .v .s .zero .zero false (w.md ≤ 1) w
  | .vrng w => vShape 0x046 (some [5]) .v .v .v .s false (w.md < 4) w
  | .vmovsToVector w => vShape 0x047 none .v .s .zero .zero false (w.md = 0) w
  | .vmovsToScalar w =>
    let sh := vShape 0x047 none .s .v .any .any false (w.md = 1 && w.b < 16 && w.c < 8) w
    { sh with svc2 := sh.svc2 || w.c != 0 }
  | .vmovlToVector w => vShape 0x048 none .v .p .zero .zero false (w.md = 0) w
  | .vmovlToPredicate w => vShape 0x048 none .p .v .zero .zero false (w.md = 1) w
  | .vmov w => vShape 0x049 none .v .v .zero .zero false (w.md = 0) w
  | .xcl w =>
    let sh := vShape 0x04A none .v .v .zero .zero false (w.md < 24) w 2
    { sh with svc2 := sh.svc2 || w.md % 8 != 0 }
  | .vpack w => vShape 0x04B none .v .v .v .any false (w.md < 6 && (if 4 ≤ w.md then w.c < 32 else w.c = 0)) w
  | .vunpk w => vShape 0x04C none .v .v .zero .zero false (w.md < 16 && w.md % 8 ≤ 6) w
  | .lnop => nopShape .l
  | .ld w =>
    lShape 0x01 .s (w.sz ≤ 13) (w.md2 = 0 && w.md1 = 0 && w.md0 = 0) false 2 (bankWords (szBytes w.sz)) (bankWords (szBytes w.sz)) w
  | .st w =>
    lShape 0x02 .s (w.sz ≤ 13) (w.md1 = 0 && w.md0 = 0 && (w.md2 = 0 || (7 ≤ w.sz && w.sz ≤ 10))) true 0 (bankWords (szBytes w.sz)) (bankWords (szBytes w.sz)) w
  | .ldv w => lShape 0x03 .v (w.sz ≤ 10) (w.md1 = 0 && w.md0 = 0) false 2 (if w.md2 = 1 then 4 else 32) 4 w
  | .stv w =>
    lShape 0x04 .v (w.sz ≤ 10 || w.sz = 14)
      (w.md1 = 0 && w.md0 = 0 && (if w.md2 = 1 then 7 ≤ w.sz else w.sz ≤ 10)) true 0
      (if w.md2 = 1 then (if w.sz = 14 then 4 else 8 * szBytes w.sz) else 32) (if w.md2 = 1 then max 1 (szBytes w.sz) else 4) w
  | .ldx w => idxShape 0x05 false false w
  | .stx w => idxShape 0x06 (7 ≤ w.sz && w.sz ≤ 10) true w
  | .spill w =>
    lShape 0x07 (if w.md2 = 1 then .s else .v) true (w.sz = 0 && w.md1 = 0 && w.md0 = 0) true 0
      (if w.md2 = 1 then 1 else 40) (if w.md2 = 1 then 1 else 5) w
  | .fill w =>
    lShape 0x08 (if w.md2 = 1 then .s else .v) true (w.sz = 0 && w.md1 = 0 && w.md0 = 0) false 2
      (if w.md2 = 1 then 1 else 40) (if w.md2 = 1 then 1 else 5) w
  | .atom w =>
    let aop := w.ofs / 4096
    lShape 0x09 .s (if aop = 9 then w.sz = 6 || w.sz = 13 else if aop < 9 then [4, 5, 11, 12].contains w.sz else true)
      (w.md2 = 0 && w.md1 = 0 && w.md0 = 0 && aop ≤ 9) true 2 1 1 w
  | .ldf w => syncShape 0x0A 0 false w
  | .ldfTake w => syncShape 0x0A 1 false w
  | .ste w => syncShape 0x0B 0 true w
  | .steFill w => syncShape 0x0B 1 true w
  | .clrf w => lShape 0x0C .s true (w.sz = 0 && w.md1 = 0 && w.md0 = 0 && w.md2 = 0) true 0 0 0 w
  | .clrfSet w => lShape 0x0C .s true (w.sz = 0 && w.md1 = 0 && w.md0 = 0 && w.md2 = 1) true 0 0 0 w
  | .tagq w => tagShape 0x0D 0 0 false 2 w
  | .tagqClaim w => tagShape 0x0D 1 0 false 2 w
  | .tagw w => tagShape 0x0E 0 3 true 0 w
  | .tagx w => tagShape 0x0F 0 3 true 2 w
  | .tagxRd w => tagShape 0x0F 1 0 false 2 w
  | .mnop => nopShape .m
  | .ringsetDef w => mShape 0x01 .s .zero true (w.imm / 16 = 0) w
  | .ringsetTail w => mShape 0x01 .s .zero true (w.imm / 16 = 1) w
  | .ringsetHead w => mShape 0x01 .s .zero true (w.imm / 16 = 2) w
  | .mwld w => mShape 0x02 .s .s true (w.imm < 2) w
  | .mwldv w =>
    { mShape 0x03 .v .s false (w.imm < 32 && w.imm % 16 ≤ 4 && (w.imm < 16 || 3 ≤ w.imm % 16)) w with vregs := [w.a] }
  | .mstrm w => { mShape 0x04 .s .s true (w.imm = 0) w with banks := 4 }
  | .mrep w => mShape 0x05 .s .zero true true w
  | .mdrain w => mShape 0x06 .s .s true (w.imm < 8) w
  | .mdrainv w => { mShape 0x07 .v .s false (w.imm < 32) w with vregs := [w.a] }
  | .mzero w => mShape 0x08 .zero .s false (w.imm < 32) w
  | .mcmd w => { mShape 0x09 .s .a true (w.imm = 0) w with banks := 4 }
  | .mstat w =>
    { mShape 0x0A .s .zero false (w.imm / 32 % 4 = 0 && w.imm / 2 % 2 = 0) w with writes := [⟨.s w.a, 1, 1⟩] }
  | .xnop => nopShape .x
  | .fld w => farShape 0x01 .s (w.ci % 16 ≤ 13) true false false w
  | .fst w => farShape 0x02 .s (w.ci % 16 ≤ 13) true false true w
  | .fstp w => farShape 0x03 .s (w.ci % 16 ≤ 13) (w.b < 16) true true w
  | .fatom w => farShape 0x04 .s true (fatomOk w) false true w
  | .fvatom w => { farShape 0x05 .v true (w.ci < 16 && w.ci % 2 = 0) false true w with svc2 := true }
  | .fence w => xShape 0x06 .zero .zero (w.ci ≤ 4) false false [] w
  | .chsend w =>
    { xShape 0x07 .ch (if w.ci / 8 % 2 = 1 then .v else .s) (chkOk w) false false [] w with svc2 := w.ci % 8 != 0 }
  | .chrecv w =>
    { xShape 0x08 (if w.ci / 8 % 2 = 1 then .v else .s) .ch (chkOk w) false false
      [if w.ci / 8 % 2 = 1 then ⟨.v w.da, 1, 2 ^ (w.ci % 8)⟩ else ⟨.s w.da, 1, 1⟩] w with svc2 := w.ci % 8 != 0 }
  | .chpeek w => xShape 0x09 .s .ch (w.ci = 0) false false [⟨.s w.da, 1, 1⟩] w
  | .bar w => { xShape 0x0A .zero .zero (w.ci ≤ 3) false false [] w with svc1 := true }
  | .bara w => { xShape 0x0B .s .zero (w.ci ≤ 3) false false [⟨.s w.da, 1, 1⟩] w with svc1 := true }
  | .nxt w => xShape 0x0C .s .zero (w.ci = 0 && w.da != 0) false false [⟨.s w.da, 6, 1⟩] w
  | .semsigAdd w => { xShape 0x0D .zero .s (w.ci = 0) false false [] w with svc1 := true }
  | .semsigSub w => { xShape 0x0D .zero .s (w.ci = 1) false false [] w with svc1 := true }
  | .semsigSet w => { xShape 0x0D .zero .s (w.ci = 2) false false [] w with svc1 := true }
  | .semwait w => { xShape 0x0E .zero .s (w.ci = 0) false false [] w with svc1 := true }
  | .semwaitDec w => { xShape 0x0E .zero .s (w.ci = 1) false false [] w with svc1 := true }
  | .semtry w => { xShape 0x0F .p .s (w.ci = 0) false false [⟨.p w.da, 1, 255⟩] w with svc1 := true }
  | .semtryDec w => { xShape 0x0F .p .s (w.ci = 1) false false [⟨.p w.da, 1, 255⟩] w with svc1 := true }
  | .mbox w =>
    let sh := xShape 0x10 .s .s true false false [⟨.s w.da, 1, 1⟩] w
    { sh with sports := sh.sports + Cls.s.port w.ci }
  | .tcopy w => { xShape 0x11 .s .s (w.ci ≤ 1) false true [] w with svc2 := true, banks := 8 }
  | .tcoll w => { xShape 0x12 .s .s (w.ci ≤ 1) false true [] w with svc2 := true, banks := 8 }
  | .teRd w => tShape 0x0B 0 (w.f7 < 8 && w.rs2 = 0) w
  | .teWr w => tShape 0x0B 1 (w.f7 < 8 && w.rd = 0) w
  | .teRdw w => tShape 0x0B 2 (w.f7 < 8 && w.rd = 0) w
  | .teWrw w => tShape 0x0B 3 (w.f7 < 8 && w.rd = 0) w
  | .teAtom w => tShape 0x0B 4 (w.f7 / 8 ≤ 9) w
  | .teVat w => tShape 0x0B 5 (w.f7 < 16 && w.rd = 0) w
  | .teFullWf w => tShape 0x0B 6 (w.f7 / 8 = 1 && w.rs2 = 0) w
  | .teFullWfe w => tShape 0x0B 6 (w.f7 / 8 = 2 && w.rs2 = 0) w
  | .teEmpty w => tShape 0x0B 7 (w.f7 < 8 && w.rd = 0) w
  | .teSigAdd w => tShape 0x2B 0 (w.f7 < 8 && w.f7 % 4 = 0 && w.rd = 0) w
  | .teSigSub w => tShape 0x2B 0 (w.f7 < 8 && w.f7 % 4 = 1 && w.rd = 0) w
  | .teSigSet w => tShape 0x2B 0 (w.f7 < 8 && w.f7 % 4 = 2 && w.rd = 0) w
  | .tePoll w => tShape 0x2B 1 (w.f7 < 2 && w.rs2 = 0) w
  | .teWinLo w => tShape 0x2B 2 (w.f7 / 8 = 0 && w.rs2 = 0 && w.rd = 0) w
  | .teWinMid w => tShape 0x2B 2 (w.f7 / 8 = 1 && w.rs2 = 0 && w.rd = 0) w
  | .teWinHi w => tShape 0x2B 2 (w.f7 / 8 = 2 && w.rs2 = 0 && w.rd = 0) w
  | .teWinProbe w => tShape 0x2B 2 (w.f7 / 8 = 3 && w.rs2 = 0) w
  | .teMbox w => tShape 0x2B 3 (w.f7 = 0) w
  | .teCmd w => tShape 0x2B 4 (w.f7 = 0 && w.rs2 = 0) w
  | .teDone w => tShape 0x2B 5 (w.f7 = 0 && w.rs2 = 0 && w.rd = 0) w
  | .teGcyc w => tShape 0x2B 6 (w.f7 < 2 && w.rs2 = 0 && w.rs1 = 0) w
  | .teSave w => tShape 0x2B 7 (w.f7 < 64 && w.rd = 0) w
  | .enginePortAccess => eventShape
  | .uncorrectableError => eventShape
  | .discardNoticeReturn => eventShape
  | .mainSupplyRemoval => eventShape

end Sys2Proof
end

