-- ==== Sys2Proof/WellFormed.lean ====
section
/-! DEFINITION. Which instructions are well formed: the encodings that pass step 2 and step 3 of R90 for a core
of the given kind (`sv`: a service core). The declared register count (0x04) is the thread's and is checked apart. -/

namespace Sys2Proof

/-- The cause of step 2 for the fields of one word, in the order 0x01, 0x02 (R90); 0 where none fails. (Log 14: DEDUCED.) -/
def fieldCause (sv : Bool) (h : Shape) : Nat :=
  if h.bad1 || (sv && h.svc1) || (!sv && (h.priv || h.cmp1)) then 0x01
  else if h.bad2 || h.bimm || (sv && h.svc2) then 0x02
  else 0

/-- An instruction word that a core of the kind accepts, apart from the gating of vector registers. -/
def WellFormed (sv : Bool) (i : Instr) : Bool :=
  (shape i).kind != .event && (shape i).range && fieldCause sv (shape i) = 0 && !(shape i).bad5

/-- R14: an instruction that names a gated vector register traps with 0x04. -/
def gatedBy (nv : Nat) (h : Shape) : Bool := h.vregs.any (fun n => nv ≤ n)

end Sys2Proof
end

