-- ==== Sys2Proof/Decode.lean ====
section
/-! DEFINITION. The decoder of the slot words, of the Xtephra words and of whole bundles (R75 to R93), total on any
bits and rejecting by cause, and after it the encoder. -/

namespace Sys2Proof

/-! ## Decoding -/

/-- What the decoder answers: an instruction, or the cause with which the word traps (R89). -/
inductive Dec
  | ok (i : Instr)
  | bad (cause : Nat)
deriving DecidableEq, Repr

/-- A word without operands: D, A and B must be zero (R76). -/
def bareRow (i : Instr) (w : SWord) : Dec := if w.d = 0 ∧ w.a = 0 ∧ w.b = 0 then .ok i else .bad 0x02

/-- Table 3.17 over the fields of an S-slot word. -/
def rowS (op : Nat) (w : SWord) : Dec :=
  match op with
  | 0x01 => .ok (.add w)
  | 0x02 => .ok (.sub w)
  | 0x03 => .ok (.addi w)
  | 0x04 => .ok (.mul w)
  | 0x05 => .ok (.mulh w)
  | 0x06 => .ok (.mulhn w)
  | 0x07 => .ok (.div w)
  | 0x08 => .ok (.divn w)
  | 0x09 => .ok (.rem w)
  | 0x0A => .ok (.remn w)
  | 0x0B => .ok (.and w)
  | 0x0C => .ok (.or w)
  | 0x0D => .ok (.xor w)
  | 0x0E => .ok (.andn w)
  | 0x0F => .ok (.shl w)
  | 0x10 => .ok (.shr w)
  | 0x11 => .ok (.sar w)
  | 0x12 => .ok (.rol w)
  | 0x13 => .ok (.clz w)
  | 0x14 => .ok (.popc w)
  | 0x15 => .ok (.min w)
  | 0x16 => .ok (.max w)
  | 0x17 => .ok (.minn w)
  | 0x18 => .ok (.maxn w)
  | 0x19 => .ok (.sel w)
  | 0x1A => .ok (.ext w)
  | 0x1B => .ok (.ins w)
  | 0x1C => .ok (.mov w)
  | 0x1D => if w.imm.isSome then .ok (.moviImm32 w) else .ok (.moviShort w)
  | 0x20 => .ok (.cmpeq w)
  | 0x21 => .ok (.cmpne w)
  | 0x22 => .ok (.cmplt w)
  | 0x23 => .ok (.cmple w)
  | 0x24 => .ok (.cmpltn w)
  | 0x25 => .ok (.cmplen w)
  | 0x28 => .ok (.lea w)
  | 0x29 => .ok (.adda w)
  | 0x2A => if w.b = 0 then .ok (.movaAS w) else if w.b = 1 then .ok (.movaSA w) else if w.b = 2 then .ok (.movaHiSA w) else if w.b = 3 then .ok (.movaAA w) else if w.b = 4 then .ok (.movaHiAS w) else .bad 0x02
  | 0x30 => .ok (.faddF64 w)
  | 0x31 => .ok (.fsubF64 w)
  | 0x32 => .ok (.fmulF64 w)
  | 0x33 => .ok (.fmaF64 w)
  | 0x34 => .ok (.fdivF64 w)
  | 0x35 => .ok (.fsqrtF64 w)
  | 0x36 => .ok (.fminF64 w)
  | 0x37 => .ok (.fmaxF64 w)
  | 0x38 => .ok (.fcmpeqF64 w)
  | 0x39 => .ok (.fcmpltF64 w)
  | 0x3A => .ok (.fcmpleF64 w)
  | 0x3B => .ok (.fcvtF64 w)
  | 0x3C => .ok (.setlF64 w)
  | 0x3D => .ok (.fclassF64 w)
  | 0x40 => .ok (.faddF32 w)
  | 0x41 => .ok (.fsubF32 w)
  | 0x42 => .ok (.fmulF32 w)
  | 0x43 => .ok (.fmaF32 w)
  | 0x44 => .ok (.fdivF32 w)
  | 0x45 => .ok (.fsqrtF32 w)
  | 0x46 => .ok (.fminF32 w)
  | 0x47 => .ok (.fmaxF32 w)
  | 0x48 => .ok (.fcmpeqF32 w)
  | 0x49 => .ok (.fcmpltF32 w)
  | 0x4A => .ok (.fcmpleF32 w)
  | 0x4B => .ok (.fcvtF32 w)
  | 0x4C => .ok (.setlF32 w)
  | 0x4D => .ok (.fclassF32 w)
  | 0x50 => .ok (.pand w)
  | 0x51 => .ok (.por w)
  | 0x52 => .ok (.pxor w)
  | 0x53 => .ok (.pnot w)
  | 0x54 => .ok (.pmov w)
  | 0x55 => .ok (.pall w)
  | 0x56 => .ok (.pany w)
  | 0x60 => .ok (.br w)
  | 0x61 => if w.imm.isSome then .ok (.callLabel w) else .ok (.callRegister w)
  | 0x62 => bareRow .ret w
  | 0x63 => if w.imm.isSome then .ok (.loopImmediate w) else .ok (.loopRegister w)
  | 0x64 => bareRow .lend w
  | 0x65 => .ok (.lpin w)
  | 0x66 => bareRow .endThread w
  | 0x67 => .ok (.trap w)
  | 0x68 => .ok (.rds w)
  | 0x69 => .ok (.wrs w)
  | 0x6A => .ok (.rotset w)
  | 0x6B => if w.imm.isSome then .ok (.waitcImmediate w) else .ok (.waitcRegister w)
  | 0x6C => .ok (.bri w)
  | 0x70 => if w.d = 0 then .ok (.tretRetry w) else if w.d = 1 then .ok (.tretAt w) else if w.d = 2 then .ok (.tretNext w) else if w.d = 3 then .ok (.tretSkip w) else .bad 0x02
  | 0x71 => if w.d = 0 then .ok (.winset w) else .bad 0x02
  | 0x72 => if w.d = 0 then .ok (.winkill w) else .bad 0x02
  | 0x73 => if w.d = 0 then .ok (.grant w) else .bad 0x02
  | 0x74 => if w.d = 0 then .ok (.mbreplyRetry w) else if w.d = 1 then .ok (.mbreplyResume w) else if w.d = 2 then .ok (.mbreplyResumev w) else if w.d = 3 then .ok (.mbreplyError w) else if w.d = 4 then .ok (.mbreplyMbok w) else if w.d = 5 then .ok (.mbreplyMberr w) else .bad 0x02
  | 0x75 => if w.d = 0 then .ok (.ctxsvThr w) else if w.d = 1 then .ok (.ctxsvGang w) else .bad 0x02
  | 0x76 => if w.d = 0 then .ok (.ctxldThr w) else if w.d = 1 then .ok (.ctxldGang w) else .bad 0x02
  | 0x77 => if w.d = 0 then .ok (.haltStop w) else if w.d = 1 then .ok (.haltEnd w) else if w.d = 2 then .ok (.haltReset w) else .bad 0x02
  | _ => .bad 0x01

/-- Table 3.18. -/
def rowV (op : Nat) (w : VWord) : Dec :=
  match op with
  | 0x01 => .ok (.vadd w)
  | 0x02 => .ok (.vsub w)
  | 0x03 => .ok (.vmul w)
  | 0x04 => .ok (.vmulh w)
  | 0x05 => .ok (.vmad w)
  | 0x06 => .ok (.vand w)
  | 0x07 => .ok (.vor w)
  | 0x08 => .ok (.vxor w)
  | 0x09 => .ok (.vshl w)
  | 0x0A => .ok (.vshr w)
  | 0x0B => .ok (.vsar w)
  | 0x0C => .ok (.vmin w)
  | 0x0D => .ok (.vmax w)
  | 0x0E => .ok (.vabs w)
  | 0x0F => .ok (.vclz w)
  | 0x10 => .ok (.vpopc w)
  | 0x11 => .ok (.vdot4 w)
  | 0x12 => .ok (.vsel w)
  | 0x13 => .ok (.vcmp w)
  | 0x20 => .ok (.vfadd w)
  | 0x21 => .ok (.vfsub w)
  | 0x22 => .ok (.vfmul w)
  | 0x23 => .ok (.vfma w)
  | 0x24 => .ok (.vfmin w)
  | 0x25 => .ok (.vfmax w)
  | 0x26 => .ok (.vfminn w)
  | 0x27 => .ok (.vfmaxn w)
  | 0x28 => .ok (.vfabs w)
  | 0x29 => .ok (.vfneg w)
  | 0x2A => .ok (.vfcmp w)
  | 0x2B => .ok (.vfcmps w)
  | 0x2C => .ok (.vcvt w)
  | 0x2D => .ok (.vsetl w)
  | 0x2E => .ok (.vfclass w)
  | 0x30 => .ok (.vexp2 w)
  | 0x31 => .ok (.vlog2 w)
  | 0x32 => .ok (.vrcp w)
  | 0x33 => .ok (.vrsq w)
  | 0x34 => .ok (.vsqrt w)
  | 0x35 => .ok (.vsin w)
  | 0x36 => .ok (.vcos w)
  | 0x40 => .ok (.vshuf w)
  | 0x41 => .ok (.vbcast w)
  | 0x42 => .ok (.vred w)
  | 0x43 => .ok (.vscan w)
  | 0x44 => .ok (.vcmprs w)
  | 0x45 => .ok (.viota w)
  | 0x46 => .ok (.vrng w)
  | 0x47 => if w.md % 2 = 0 then .ok (.vmovsToVector w) else .ok (.vmovsToScalar w)
  | 0x48 => if w.md % 2 = 0 then .ok (.vmovlToVector w) else .ok (.vmovlToPredicate w)
  | 0x49 => .ok (.vmov w)
  | 0x4A => .ok (.xcl w)
  | 0x4B => .ok (.vpack w)
  | 0x4C => .ok (.vunpk w)
  | _ => .bad 0x01

/-- Table 3.19. -/
def rowL (op : Nat) (w : LWord) : Dec :=
  match op with
  | 0x01 => .ok (.ld w)
  | 0x02 => .ok (.st w)
  | 0x03 => .ok (.ldv w)
  | 0x04 => .ok (.stv w)
  | 0x05 => .ok (.ldx w)
  | 0x06 => .ok (.stx w)
  | 0x07 => .ok (.spill w)
  | 0x08 => .ok (.fill w)
  | 0x09 => .ok (.atom w)
  | 0x0A => if w.md2 = 0 then .ok (.ldf w) else .ok (.ldfTake w)
  | 0x0B => if w.md2 = 0 then .ok (.ste w) else .ok (.steFill w)
  | 0x0C => if w.md2 = 0 then .ok (.clrf w) else .ok (.clrfSet w)
  | 0x0D => if w.md2 = 0 then .ok (.tagq w) else .ok (.tagqClaim w)
  | 0x0E => .ok (.tagw w)
  | 0x0F => if w.md2 = 0 then .ok (.tagx w) else .ok (.tagxRd w)
  | _ => .bad 0x01

/-- Table 3.20. -/
def rowM (op : Nat) (w : MWord) : Dec :=
  match op with
  | 0x01 => if w.imm / 16 = 0 then .ok (.ringsetDef w) else if w.imm / 16 = 1 then .ok (.ringsetTail w) else if w.imm / 16 = 2 then .ok (.ringsetHead w) else .bad 0x02
  | 0x02 => .ok (.mwld w)
  | 0x03 => .ok (.mwldv w)
  | 0x04 => .ok (.mstrm w)
  | 0x05 => .ok (.mrep w)
  | 0x06 => .ok (.mdrain w)
  | 0x07 => .ok (.mdrainv w)
  | 0x08 => .ok (.mzero w)
  | 0x09 => .ok (.mcmd w)
  | 0x0A => .ok (.mstat w)
  | _ => .bad 0x01

/-- Table 3.21. -/
def rowX (op : Nat) (w : XWord) : Dec :=
  match op with
  | 0x01 => .ok (.fld w)
  | 0x02 => .ok (.fst w)
  | 0x03 => .ok (.fstp w)
  | 0x04 => .ok (.fatom w)
  | 0x05 => .ok (.fvatom w)
  | 0x06 => .ok (.fence w)
  | 0x07 => .ok (.chsend w)
  | 0x08 => .ok (.chrecv w)
  | 0x09 => .ok (.chpeek w)
  | 0x0A => .ok (.bar w)
  | 0x0B => .ok (.bara w)
  | 0x0C => .ok (.nxt w)
  | 0x0D => if w.ci = 0 then .ok (.semsigAdd w) else if w.ci = 1 then .ok (.semsigSub w) else if w.ci = 2 then .ok (.semsigSet w) else .bad 0x02
  | 0x0E => if w.ci = 0 then .ok (.semwait w) else if w.ci = 1 then .ok (.semwaitDec w) else .bad 0x02
  | 0x0F => if w.ci = 0 then .ok (.semtry w) else if w.ci = 1 then .ok (.semtryDec w) else if 48 ≤ w.da then .bad 0x01 else .bad 0x02
  | 0x10 => .ok (.mbox w)
  | 0x11 => .ok (.tcopy w)
  | 0x12 => .ok (.tcoll w)
  | _ => .bad 0x01

/-- Table 12.2: custom-0 and custom-1; an encoding it does not assign faults with 0x85. -/
def rowT (space f3 : Nat) (w : TWord) : Dec :=
  if space = 0x0B then
    match f3 with
    | 0 => .ok (.teRd w)
    | 1 => .ok (.teWr w)
    | 2 => .ok (.teRdw w)
    | 3 => .ok (.teWrw w)
    | 4 => .ok (.teAtom w)
    | 5 => .ok (.teVat w)
    | 6 => if w.f7 / 8 = 1 then .ok (.teFullWf w) else if w.f7 / 8 = 2 then .ok (.teFullWfe w) else .bad 0x85
    | 7 => .ok (.teEmpty w)
    | _ => .bad 0x85
  else if space = 0x2B then
    match f3 with
    | 0 => if w.f7 % 4 = 0 then .ok (.teSigAdd w) else if w.f7 % 4 = 1 then .ok (.teSigSub w)
        else if w.f7 % 4 = 2 then .ok (.teSigSet w) else .bad 0x85
    | 1 => .ok (.tePoll w)
    | 2 => if w.f7 / 8 = 0 then .ok (.teWinLo w) else if w.f7 / 8 = 1 then .ok (.teWinMid w)
        else if w.f7 / 8 = 2 then .ok (.teWinHi w) else if w.f7 / 8 = 3 then .ok (.teWinProbe w) else .bad 0x85
    | 3 => .ok (.teMbox w)
    | 4 => .ok (.teCmd w)
    | 5 => .ok (.teDone w)
    | 6 => .ok (.teGcyc w)
    | 7 => .ok (.teSave w)
    | _ => .bad 0x85
  else .bad 0x85

/-- Step 2 of R90 on a decoded row. -/
def checked (sv : Bool) (r : Dec) : Dec :=
  match r with
  | .bad c => .bad c
  | .ok i => if fieldCause sv (shape i) = 0 then .ok i else .bad (fieldCause sv (shape i))

/-- An S-slot word with the immediate that a surrendered S1 gives (R83); a privileged opcode on a compute core is
0x01 whatever its sub-operation (R89). -/
def decodeS (sv : Bool) (imm : Option Nat) (x : Nat) : Dec :=
  if x / 2 ^ 24 = 0 then .ok .nop
  else if !sv && (0x70 ≤ x / 2 ^ 24 && x / 2 ^ 24 ≤ 0x77) then .bad 0x01
  else checked sv (rowS (x / 2 ^ 24) (SWord.of imm x))

/-- The W position (R85): a MOVI word with the long immediate; any other S opcode passes its own checks here and
fails step 3. -/
def decodeW (sv : Bool) (imm : Option Nat) (x : Nat) : Dec :=
  if x / 2 ^ 24 = 0x1D then checked sv (.ok (.moviLong (SWord.of imm x))) else decodeS sv none x

def decodeV (sv : Bool) (k : Option Nat) (x : Nat) : Dec :=
  if x / 2 ^ 47 = 0 then .ok .vnop else checked sv (rowV (x / 2 ^ 47) (VWord.of k x))

def decodeL (sv : Bool) (x : Nat) : Dec :=
  if x / 2 ^ 41 = 0 then .ok .lnop else checked sv (rowL (x / 2 ^ 41) (LWord.of x))

/-- A service core takes no M opcode but MNOP (R89). -/
def decodeM (sv : Bool) (x : Nat) : Dec :=
  if x / 2 ^ 26 = 0 then .ok .mnop
  else if sv then .bad 0x01
  else checked sv (rowM (x / 2 ^ 26) (MWord.of x))

/-- A service core takes no BAR, BARA or semaphore opcode (R89). -/
def decodeX (sv : Bool) (x : Nat) : Dec :=
  if x / 2 ^ 25 = 0 then .ok .xnop
  else if sv && (x / 2 ^ 25 = 0x0A || x / 2 ^ 25 = 0x0B || (0x0D ≤ x / 2 ^ 25 && x / 2 ^ 25 ≤ 0x0F)) then .bad 0x01
  else checked sv (rowX (x / 2 ^ 25) (XWord.of x))

/-- An Xtephra word: every encoding that Table 12.2 does not assign faults with 0x85 (R300, R303). -/
def decodeT (x : Nat) : Dec :=
  match rowT (x % 128) (bitsAt x 12 3) (TWord.of x) with
  | .bad _ => .bad 0x85
  | .ok i => if (shape i).bad2 then .bad 0x85 else .ok i

/-- One slot word of any kind. -/
def decode (sv : Bool) (k : Kind) (imm : Option Nat) (x : Nat) : Dec :=
  match k with
  | .event => .bad 0x01
  | .s => decodeS sv imm x
  | .w => decodeW sv imm x
  | .v => decodeV sv imm x
  | .l => decodeL sv x
  | .m => decodeM sv x
  | .x => decodeX sv x
  | .t => decodeT x

/-! ## Encoding -/

/-- The word of an instruction with the guard `g` (Tables 3.3 to 3.7, 3.9); an Xtephra word has no guard (R303), and
a row that is no word has no encoding. -/
def encode (i : Instr) (g : Nat) : Option Nat :=
  match (shape i).kind with
  | .event => none
  | .t => some (shape i).word
  | _ => some ((shape i).word + g)

/-- The guard field of a slot word (R80); a no-operation's is a hint (R88). -/
def guardOf (x : Nat) : Nat := x % 64

/-! ## Bundles (R75, R82, R92) -/

/-- What a template makes of a position (Table 3.10). -/
inductive Pos
  | present | absent | imm | const | long
deriving DecidableEq, Repr

/-- Table 3.10, positions in the order S0, S1, V0, V1, L, M, X. -/
def template (form : Nat) : List Pos :=
  match form with
  | 0 => [.present, .present, .present, .present, .present, .present, .present]
  | 1 => [.present, .present, .present, .present, .present, .absent, .present]
  | 2 => [.present, .present, .present, .present, .present, .present, .absent]
  | 3 => [.present, .present, .present, .present, .present, .absent, .absent]
  | 4 => [.present, .present, .present, .present, .absent, .present, .present]
  | 5 => [.present, .present, .present, .present, .absent, .absent, .absent]
  | 6 => [.present, .present, .present, .absent, .present, .absent, .present]
  | 7 => [.present, .present, .present, .absent, .present, .absent, .absent]
  | 8 => [.present, .absent, .present, .present, .present, .absent, .absent]
  | 9 => [.present, .absent, .present, .absent, .present, .absent, .absent]
  | 10 => [.present, .absent, .present, .absent, .absent, .absent, .absent]
  | 11 => [.present, .present, .absent, .absent, .present, .present, .present]
  | 12 => [.present, .present, .absent, .absent, .present, .absent, .present]
  | 13 => [.present, .present, .absent, .absent, .present, .absent, .absent]
  | 14 => [.present, .absent, .absent, .absent, .present, .absent, .absent]
  | 15 => [.present, .present, .absent, .absent, .absent, .absent, .absent]
  | 16 => [.present, .absent, .absent, .absent, .absent, .absent, .absent]
  | 17 => [.present, .absent, .absent, .absent, .absent, .absent, .present]
  | 18 => [.absent, .absent, .present, .present, .present, .present, .present]
  | 19 => [.absent, .absent, .present, .present, .present, .absent, .absent]
  | 20 => [.absent, .absent, .absent, .absent, .present, .present, .present]
  | 21 => [.absent, .absent, .absent, .absent, .absent, .absent, .present]
  | 22 => [.present, .imm, .present, .present, .present, .absent, .present]
  | 23 => [.present, .imm, .present, .absent, .present, .absent, .absent]
  | 24 => [.present, .imm, .absent, .absent, .present, .absent, .absent]
  | 25 => [.present, .imm, .absent, .absent, .absent, .absent, .absent]
  | 26 => [.present, .present, .present, .const, .present, .absent, .present]
  | 27 => [.present, .absent, .present, .const, .absent, .absent, .absent]
  | 28 => [.present, .imm, .present, .const, .present, .absent, .absent]
  | 29 => [.imm, .imm, .present, .present, .present, .long, .present]
  | 30 => [.imm, .imm, .absent, .absent, .present, .long, .absent]
  | 31 => [.imm, .imm, .absent, .absent, .absent, .long, .absent]
  | _ => []

/-- The stored bytes of each position (R92). -/
def posBytes : List Nat := [4, 4, 7, 7, 6, 4, 4]

/-- A bundle as the prefetch engine expands it: its header and its seven positions (Table 3.1). -/
structure Bundle where
  header : Nat
  words : List Nat
deriving DecidableEq, Repr

/-- The fields of the header (Table 3.2). -/
def Bundle.form (b : Bundle) : Nat := bitsAt b.header 27 5
def Bundle.cvp (b : Bundle) : Nat := bitsAt b.header 21 6
def Bundle.vport (b : Bundle) (n : Nat) : Nat := bitsAt b.header (6 + 3 * n) 3
def Bundle.sport (b : Bundle) : Nat := bitsAt b.header 2 4
def Bundle.rsvz (b : Bundle) : Nat := bitsAt b.header 0 1

/-- The stored bytes of a bundle whose header has this FORM (Table 3.10). -/
def formBytes (form : Nat) : Nat :=
  4 + (((template form).zip posBytes).map (fun p => if p.1 = .absent then 0 else p.2)).sum

/-- The number of bytes read little-endian (R3). -/
def leNat (l : List Nat) : Nat := l.foldr (fun b acc => b % 256 + 256 * acc) 0

/-- The `n` little-endian bytes of a number. -/
def leBytes (n x : Nat) : List Nat := (List.range n).map (fun k => x / 256 ^ k % 256)

/-- The words of the positions, read from the bytes that follow the header; an absent position is zero (R75). -/
def readWords (ps : List (Pos × Nat)) (bytes : List Nat) : List Nat :=
  match ps with
  | [] => []
  | (p, n) :: r => if p = .absent then 0 :: readWords r bytes else leNat (bytes.take n) :: readWords r (bytes.drop n)

/-- The bundles of a segment from its stored bytes; `none` where the sizes do not sum (R93). -/
def readBundles (len : Nat) (bytes : List Nat) : Option (List Bundle) :=
  match len with
  | 0 => if bytes = [] then some [] else none
  | k + 1 =>
    if bytes.length < 4 then none
    else
      let h := leNat (bytes.take 4)
      let n := formBytes (bitsAt h 27 5)
      if bytes.length < n then none
      else
        match readBundles k (bytes.drop n) with
        | none => none
        | some l => some (⟨h, readWords ((template (bitsAt h 27 5)).zip posBytes) ((bytes.take n).drop 4)⟩ :: l)

/-- Table 3.22: the fields of a segment header. -/
def segLen (h : Nat) : Nat := bitsAt h 0 6
def segNext (h : Nat) : Nat := bitsAt h 8 24
def segBytes (h : Nat) : Nat := bitsAt h 48 16

/-- R93: a header that is malformed whatever its bundles. (Log 15: DEDUCED.) -/
def segHeaderBad (ofs h : Nat) : Bool :=
  ofs % 8 != 0 || segLen h = 0 || 32 < segLen h || bitsAt h 41 7 != 0 || bitsAt h 32 8 != 0 || bitsAt h 6 2 != 0
    || 2 ^ 18 < ofs + 8 + segBytes h

/-- The kinds of the seven positions. -/
def posKinds : List Kind := [.s, .s, .v, .v, .l, .m, .x]

/-- The immediate that a position takes from the surrendered ones (R83 to R85). -/
def Bundle.immOf (b : Bundle) (pos : Nat) : Option Nat :=
  let t := template b.form
  if pos = 0 ∧ t.getD 1 .absent = .imm then some (b.words.getD 1 0)
  else if pos = 2 ∧ t.getD 3 .absent = .const then some (b.words.getD 3 0 % 2 ^ 32)
  else if pos = 5 ∧ t.getD 5 .absent = .long then some (b.words.getD 0 0 * 2 ^ 32 + b.words.getD 1 0)
  else none

/-- What stands in a position: an instruction or its cause, or nothing to execute. The residue bits of a
surrendered V1 are its own check (R84). -/
def Bundle.slot (sv : Bool) (b : Bundle) (pos : Nat) : Option Dec :=
  match (template b.form).getD pos .absent with
  | .present => some (decode sv (posKinds.getD pos .s) (b.immOf pos) (b.words.getD pos 0))
  | .long => some (decode sv .w (b.immOf pos) (b.words.getD pos 0))
  | .const => if b.words.getD pos 0 / 2 ^ 32 = 0 then none else some (.bad 0x02)
  | .absent => none
  | .imm => none

/-- The seven slots of a bundle in the order of R90. -/
def Bundle.slots (sv : Bool) (b : Bundle) : List (Option Dec) := (List.range 7).map (b.slot sv)

/-- Step 1 of R90: the conversion prefix, the port codes and RSVZ. -/
def Bundle.headerBad (b : Bundle) : Bool :=
  4 < b.cvp / 8 || 1 < b.cvp / 2 % 4 || (List.range 5).any (fun n => 5 < b.vport n) || b.rsvz = 1

/-- Step 2 for one slot: its field causes, then a gated register (R90). -/
def slotCause (nv : Nat) : Option Dec → Nat
  | none => 0
  | some (.bad c) => c
  | some (.ok i) => if gatedBy nv (shape i) then 0x04 else 0

/-- The instruction of a slot. -/
def slotInstr : Option Dec → Option Instr
  | some (.ok i) => some i
  | _ => none

/-- The first nonzero cause of a list. -/
def firstCause : List Nat → Nat
  | [] => 0
  | c :: r => if c = 0 then firstCause r else c

/-- Step 3: misuse of an immediate, a constant or a long immediate (R83 to R85). -/
def templateBad (b : Bundle) (pos : Nat) (i : Instr) : Bool :=
  (shape i).bad5 || ((shape i).bare && (b.immOf pos).isSome)
    || ((template b.form).getD pos .absent = .long && (shape i).kind != .w)

/-- Table 3.13. -/
def sportTable : List (List Nat) :=
  [[2, 2, 0, 0, 2, 0, 0], [2, 2, 0, 0, 1, 0, 1], [2, 2, 0, 0, 0, 0, 2], [2, 2, 0, 0, 0, 2, 0],
   [2, 1, 0, 0, 2, 0, 1], [2, 1, 0, 0, 1, 1, 1], [2, 0, 0, 0, 2, 2, 0], [2, 0, 0, 0, 2, 0, 2]]
  ++ [[2, 2, 1, 1, 0, 0, 0], [2, 0, 1, 1, 2, 0, 0], [1, 1, 0, 0, 2, 0, 2], [0, 0, 0, 0, 2, 2, 2],
   [2, 0, 0, 0, 1, 0, 3], [0, 0, 0, 0, 2, 1, 3], [2, 1, 1, 0, 1, 0, 1], [1, 1, 1, 1, 1, 0, 1]]

/-- Table 3.12: the slot code of a position; S slots have none. -/
def vportCode (pos : Nat) : Nat :=
  match pos with
  | 2 => 1 | 3 => 2 | 4 => 3 | 6 => 4 | 5 => 5 | _ => 7

/-- The vector ports that the header allots to a position (R87). -/
def Bundle.vportsOf (b : Bundle) (pos : Nat) : Nat :=
  ((List.range 5).filter (fun n => b.vport n = vportCode pos)).length

/-- Step 4 for one slot (R87). -/
def portBad (b : Bundle) (pos : Nat) (i : Instr) : Bool :=
  ((sportTable.getD b.sport []).getD pos 0 < (shape i).sports && !(shape i).nop)
    || (b.vportsOf pos < (shape i).vports)

/-- The writes of an instruction with the targets that depend on the thread resolved (R28): `lsd` and `nv` are the
thread's at issue. Writes to s0 and p0 take no part (R12). -/
def writesOf (lsd nv : Nat) (i : Instr) : List Write :=
  (shape i).writes.filterMap (fun w =>
    match w.target with
    | .s 0 => none
    | .p 0 => none
    | .lcPush => if lsd < 6 then some { w with target := .sys (0x20 + lsd) } else none
    | .lcTop => if 0 < lsd then some { w with target := .sys (0x20 + (lsd - 1)) } else none
    | .lendVrb => if 16 < nv then some { w with target := .sys 0x17 } else none
    | _ => some w)

/-- Two writes of one target in one landing turn whose clusters meet (R28, R135). -/
def clash (x y : Write) : Bool := x.target = y.target && x.lat = y.lat && (x.mask &&& y.mask) != 0

/-- Whether a list of writes holds two that clash. -/
def anyClash : List Write → Bool
  | [] => false
  | w :: r => r.any (clash w) || anyClash r

/-- The slots that hold an instruction, with their positions. -/
def placed (l : List (Option Dec)) : List (Nat × Instr) :=
  ((List.range 7).zip l).filterMap (fun p => (slotInstr p.2).map (fun i => (p.1, i)))

/-- R90: the cause of the first encoding check that a bundle fails, 0 if none does. It judges the words of the bundle: the
command that a repeat puts in a later bundle's M position is not among them, so beside a vector SPILL or FILL its bank
words do not count there (R276). (Log 87: DEDUCED.) -/
def bundleCause (sv : Bool) (nv lsd : Nat) (b : Bundle) : Nat :=
  let ds := b.slots sv
  let is := placed ds
  let c2 := firstCause (ds.map (slotCause nv))
  if b.headerBad then 0x02
  else if c2 ≠ 0 then c2
  else if is.any (fun p => templateBad b p.1 p.2) then 0x05
  else if is.any (fun p => portBad b p.1 p.2) then 0x03
  else if 40 < (is.map (fun p => if sv then (shape p.2).svcBanks else (shape p.2).banks)).sum then 0x03
  else if anyClash (is.flatMap (fun p => writesOf lsd nv p.2)) then 0x08
  else 0

/-! ## The words of the opcode table -/

/-- The first candidate that a decoder accepts with a kind other than a no-operation. (Log 13: DEDUCED.) -/
def firstOk : List Dec → Option Instr
  | [] => none
  | .ok i :: r => if (shape i).nop then firstOk r else some i
  | .bad _ :: r => firstOk r

/-- An S word of the table. Where the same opcode has a form with a surrendered immediate and the fields of the
register form are zero, the row that fixes them is the immediate one; its immediate, which lies above the row's
bits, is zero. (Log 13: DEDUCED.) -/
def tableS (sv : Bool) (w : Nat) : Dec :=
  if bitsAt w 6 12 = 0 && [0x1D, 0x60, 0x61, 0x63, 0x6B].contains (w / 2 ^ 24) then decodeS sv (some 0) w
  else decodeS sv none w

/-- The instruction that stands in a word of the opcode table. A word of 48 bits is an L word and one of 56 a V
word. A word of 32 bits may be a word of several slots; one with the major opcode of an Xtephra word (R303) is read as
that if it is one, any other as an S word if it is one, else as an X word, an M word, and as NOP where it is a
no-operation in each. (Log 13: DEDUCED.) -/
def decodeTableWord (nbits w : Nat) : Option Instr :=
  if nbits = 48 then (match decodeL false w with | .ok i => some i | .bad _ => none)
  else if nbits = 56 then (match decodeV false none w with | .ok i => some i | .bad _ => none)
  else if nbits = 32 then
    match firstOk ((if w % 128 = 0x0B ∨ w % 128 = 0x2B then [decodeT w] else [])
        ++ [tableS false w, tableS true w, decodeX false w, decodeM false w]) with
    | some i => some i
    | none => if w / 2 ^ 24 = 0 then some .nop else none
  else none

end Sys2Proof
end

