-- ==== Sys2Proof/Machine/Num.lean ====
section
/-! DEFINITION. Numbers (chapter "Numbers, Held Forms and Rounding"): formats, held values, hold, settle, order,
conversion, the arithmetic on exact values and the special functions. All arithmetic is exact, on `Nat` and `Int`;
a result that is not exact carries a sticky mark. -/

namespace Sys2Proof.Machine

/-- The floating formats of Table 2.2. -/
inductive Fmt
  | f64 | f32 | f16 | bf16 | e4m3 | e5m2 | e2m1
deriving DecidableEq, Repr

/-- Rounding modes of Table 2.11. -/
inductive RMode
  | rne | rtz | rup | rdn | rna
deriving DecidableEq, Repr

def Fmt.width : Fmt → Nat
  | .f64 => 64 | .f32 => 32 | .f16 => 16 | .bf16 => 16 | .e4m3 => 8 | .e5m2 => 8 | .e2m1 => 4

/-- Trailing bits. -/
def Fmt.fb : Fmt → Nat
  | .f64 => 52 | .f32 => 23 | .f16 => 10 | .bf16 => 7 | .e4m3 => 3 | .e5m2 => 2 | .e2m1 => 1

def Fmt.eb : Fmt → Nat
  | .f64 => 11 | .f32 => 8 | .f16 => 5 | .bf16 => 8 | .e4m3 => 4 | .e5m2 => 5 | .e2m1 => 2

def Fmt.bias : Fmt → Nat
  | .f64 => 1023 | .f32 => 127 | .f16 => 15 | .bf16 => 127 | .e4m3 => 7 | .e5m2 => 15 | .e2m1 => 1

/-- Whether the exponent of all ones is infinity and NaN (Table 2.2). -/
def Fmt.hasInf : Fmt → Bool
  | .e4m3 => false | .e2m1 => false | _ => true

/-- The encoding of infinity without its sign. -/
def Fmt.infBody (f : Fmt) : Nat := (2 ^ f.eb - 1) * 2 ^ f.fb

/-- The encoding of the maximum finite value (Table 2.3). -/
def Fmt.maxBody (f : Fmt) : Nat :=
  match f with
  | .e4m3 => 0x7E
  | .e2m1 => 0x7
  | _ => f.infBody - 1

/-- The canonical NaN (R44); E2M1 has none and stores 6.0 (R60). -/
def Fmt.canonNan (f : Fmt) : Nat :=
  match f with
  | .e4m3 => 0x7F
  | .e2m1 => 0x7
  | _ => f.infBody + 2 ^ (f.fb - 1)

/-- The code of the overflow form's magnitude: the maximum finite body with tail 11 (R52). -/
def Fmt.ovfCode (f : Fmt) : Nat := 4 * f.maxBody + 3

/-- The floating format of a type code (Table 3.8). -/
def fmtOf (code : Nat) : Option Fmt :=
  match code with
  | 6 => some .f32 | 7 => some .f16 | 8 => some .bf16 | 9 => some .e4m3 | 10 => some .e5m2 | 13 => some .f64
  | 14 => some .e2m1 | _ => none

/-- Width and signedness of an integer type code (Tables 2.1, 3.8). -/
def intOf (code : Nat) : Option (Nat × Bool) :=
  match code with
  | 0 => some (8, true) | 1 => some (8, false) | 2 => some (16, true) | 3 => some (16, false)
  | 4 => some (32, true) | 5 => some (32, false) | 11 => some (64, true) | 12 => some (64, false) | _ => none

/-- The rounding mode of a code of Table 2.11. -/
def rmodeOf (n : Nat) : RMode :=
  match n with
  | 1 => .rtz | 2 => .rup | 3 => .rdn | 4 => .rna | _ => .rne

/-- The conversion prefix of a bundle or of an engine command (R64): mode, SATF, settle-on-write. -/
structure Cvp where
  mode : RMode
  sat : Bool
  sow : Bool
deriving DecidableEq, Repr

/-- The CVP field (Table 2.11). -/
def Cvp.of (x : Nat) : Cvp := { mode := rmodeOf (x / 8), sat := x / 2 % 4 = 1, sow := x % 2 = 1 }

/-- The flags of Table 1.3 as a number: NV 1, DZ 2, OF 4, UF 8, NX 16. -/
abbrev fNV : Nat := 1
abbrev fDZ : Nat := 2
abbrev fOF : Nat := 4
abbrev fUF : Nat := 8
abbrev fNX : Nat := 16

/-- The union of two sets of flags. -/
def flagOr (a b : Nat) : Nat := a ||| b

/-- A held value as it stands in a register: the encoding and the two tail bits (R51). -/
structure Held where
  body : Nat
  tail : Nat
deriving DecidableEq, Repr

/-- The exact value of a held value; a finite one is `m * 2 ^ e`. -/
inductive Val
  | nan (sig : Bool)
  | inf (neg : Bool)
  | fin (neg : Bool) (m : Nat) (e : Int)
deriving DecidableEq, Repr

/-- An exact result; where `st` is true the magnitude lies strictly between `m * 2 ^ e` and `(m + 1) * 2 ^ e`. -/
inductive Exact
  | nan
  | inf (neg : Bool)
  | fin (neg : Bool) (m : Nat) (e : Int) (st : Bool)
deriving DecidableEq, Repr

def Fmt.signOf (f : Fmt) (body : Nat) : Bool := body / 2 ^ (f.width - 1) % 2 = 1

def Fmt.magOf (f : Fmt) (body : Nat) : Nat := body % 2 ^ (f.width - 1)

def Fmt.isNan (f : Fmt) (body : Nat) : Bool :=
  match f with
  | .e4m3 => f.magOf body = 0x7F
  | .e2m1 => false
  | _ => f.infBody < f.magOf body

def Fmt.isInf (f : Fmt) (body : Nat) : Bool := f.hasInf && f.magOf body = f.infBody

/-- R43: a NaN whose most significant trailing bit is 0; E4M3 has only quiet NaNs. -/
def Fmt.isSnan (f : Fmt) (body : Nat) : Bool :=
  f.isNan body && f.hasInf && body / 2 ^ (f.fb - 1) % 2 = 0

/-- The code of a held magnitude: the body's magnitude bits followed by the tail. The codes order as the values do. -/
def Held.code (f : Fmt) (h : Held) : Nat := 4 * f.magOf h.body + h.tail % 4

/-- The exact value of a held value (R42, R51). -/
def Held.val (f : Fmt) (h : Held) : Val :=
  if f.isNan h.body then .nan (f.isSnan h.body)
  else if f.isInf h.body then .inf (f.signOf h.body)
  else
    let e := f.magOf h.body / 2 ^ f.fb
    let fr := f.magOf h.body % 2 ^ f.fb
    .fin (f.signOf h.body) (4 * (if e = 0 then fr else 2 ^ f.fb + fr) + h.tail % 4)
      ((max e 1 : Nat) - (f.bias : Int) - f.fb - 2)

/-- The sign bit in place. -/
def Fmt.signed (f : Fmt) (neg : Bool) (mag : Nat) : Nat := if neg then 2 ^ (f.width - 1) + mag else mag

/-- The code of ro of a magnitude `m * 2 ^ e` with sticky mark, with no upper bound (R50): the least significant bit
of an inexact result is 1. -/
def roCode (f : Fmt) (m : Nat) (e : Int) (st : Bool) : Nat :=
  if m = 0 then (if st then 1 else 0)
  else
    let emin : Int := 1 - (f.bias : Int)
    let eb : Int := max ((Nat.log2 m : Int) + e) emin
    let qe : Int := eb - f.fb - 2
    let k := if qe ≤ e then m * 2 ^ (e - qe).toNat else m / 2 ^ (qe - e).toNat
    let inexact : Bool := st || (e < qe && m % 2 ^ (qe - e).toNat != 0)
    let k' := if inexact && k % 2 = 0 then k + 1 else k
    k' + (eb - emin).toNat * 2 ^ (f.fb + 2)

/-- The held value of a sign and a code. -/
def Held.ofCode (f : Fmt) (neg : Bool) (c : Nat) : Held := ⟨f.signed neg (c / 4), c % 4⟩

/-- hold(x, F) of R52. -/
def hold (f : Fmt) (x : Exact) : Held :=
  match x with
  | .nan => ⟨f.canonNan, 0⟩
  | .inf neg => if f.hasInf then ⟨f.signed neg f.infBody, 0⟩ else Held.ofCode f neg f.ovfCode
  | .fin neg m e st => Held.ofCode f neg (min (roCode f m e st) f.ovfCode)

/-- The exact number of a value; a NaN operand gives a NaN. -/
def Val.exact : Val → Exact
  | .nan _ => .nan
  | .inf n => .inf n
  | .fin n m e => .fin n m e false

/-- The rounding increment of R57 from the last body bit, guard and sticky. -/
def roundUp (mode : RMode) (neg : Bool) (lsb g s : Bool) : Bool :=
  match mode with
  | .rne => g && (s || lsb)
  | .rtz => false
  | .rup => (g || s) && !neg
  | .rdn => (g || s) && neg
  | .rna => g

/-- Whether a mode rounds a value of this sign toward zero (R57). -/
def towardsZero (mode : RMode) (neg : Bool) : Bool :=
  match mode with
  | .rtz => true
  | .rdn => !neg
  | .rup => neg
  | _ => false

/-- The result of an overflow (R57, R59, R60). -/
def overflowBody (f : Fmt) (mode : RMode) (sat neg : Bool) : Nat :=
  if sat || f = .e2m1 || towardsZero mode neg then f.signed neg f.maxBody
  else if f.hasInf then f.signed neg f.infBody
  else f.canonNan

/-- The rounding of a finite code, and the flags of R57; `top` says when a code at or above the overflow form
overflows whatever the increment (the settle of a held value), which settle-on-write does not use (R66). -/
def settleCode (f : Fmt) (mode : RMode) (sat top neg : Bool) (c : Nat) : Nat × Nat :=
  let g : Bool := c / 2 % 2 = 1
  let s : Bool := c % 2 = 1
  let b := c / 4
  let mag := if roundUp mode neg (b % 2 = 1) g s then b + 1 else b
  let nx := if g || s then fNX else 0
  let uf := if c < 4 * 2 ^ f.fb && (g || s) then fUF else 0
  if (top && c = f.ovfCode) || f.maxBody < mag then
    (overflowBody f mode sat neg, flagOr (flagOr nx uf) (flagOr fOF fNX))
  else (f.signed neg mag, flagOr nx uf)

/-- The settle of an exact number in F, through its held value (R57): the stored body and the flags. -/
def settleFin (f : Fmt) (mode : RMode) (sat : Bool) (x : Exact) : Nat × Nat :=
  match x with
  | .nan => (f.canonNan, 0)
  | .inf neg =>
    if f.hasInf then (if sat then (f.signed neg f.maxBody, 0) else (f.signed neg f.infBody, 0))
    else settleCode f mode sat true neg f.ovfCode
  | .fin neg m e st => settleCode f mode sat true neg (min (roCode f m e st) f.ovfCode)

/-- settle(h, F, mode, sat) of a held value of format G (R57, R60). -/
def settle (g : Fmt) (h : Held) (f : Fmt) (mode : RMode) (sat : Bool) : Nat × Nat :=
  if g.isNan h.body then
    if f = .e2m1 then (f.signed (g.signOf h.body) f.maxBody, fNV)
    else if f = g then (h.body, 0)
    else (f.canonNan, if g.isSnan h.body then fNV else 0)
  else settleFin f mode sat (h.val g).exact

/-- The settle of an exact result under settle-on-write, with the flags of IEEE 754 (R58, R66). -/
def settleExact (f : Fmt) (mode : RMode) (sat : Bool) (x : Exact) : Nat × Nat :=
  match x with
  | .fin neg m e st => settleCode f mode sat false neg (roCode f m e st)
  | _ => settleFin f mode sat x

/-- What a floating result is written as under a prefix: held, or settled at write (R53, R66). -/
def writeFp (p : Cvp) (f : Fmt) (x : Exact) : Held × Nat :=
  if p.sow then
    let r := settleExact f p.mode p.sat x
    (⟨r.1, 0⟩, r.2)
  else (hold f x, 0)

/-! ## Arithmetic on exact values (R53, R54) -/

/-- The sign of an exact zero sum of opposite signs (R53). -/
def zeroNeg (mode : RMode) : Bool := mode = .rdn

/-- The exact sum of two finite numbers. -/
def addFin (mode : RMode) (n1 : Bool) (m1 : Nat) (e1 : Int) (n2 : Bool) (m2 : Nat) (e2 : Int) : Exact :=
  let e := min e1 e2
  let a : Int := (if n1 then -1 else 1) * (m1 * 2 ^ (e1 - e).toNat : Nat)
  let b : Int := (if n2 then -1 else 1) * (m2 * 2 ^ (e2 - e).toNat : Nat)
  let s := a + b
  if s = 0 then .fin (if m1 = 0 ∧ m2 = 0 ∧ n1 = n2 then n1 else if n1 = n2 then n1 else zeroNeg mode) 0 0 false
  else .fin (s < 0) s.natAbs e false

/-- Whether an operand is a signalling NaN. -/
def Val.snan : Val → Bool
  | .nan s => s
  | _ => false

def Val.isNan : Val → Bool
  | .nan _ => true
  | _ => false

def Val.neg : Val → Val
  | .nan s => .nan s
  | .inf n => .inf (!n)
  | .fin n m e => .fin (!n) m e

/-- The flag of signalling NaN operands (R43). -/
def snanFlag (l : List Val) : Nat := if l.any Val.snan then fNV else 0

/-- a + b (R53, R54). -/
def fpAdd (mode : RMode) (a b : Val) : Exact × Nat :=
  match a, b with
  | .nan _, _ => (.nan, snanFlag [a, b])
  | _, .nan _ => (.nan, snanFlag [a, b])
  | .inf x, .inf y => if x = y then (.inf x, 0) else (.nan, fNV)
  | .inf x, _ => (.inf x, 0)
  | _, .inf y => (.inf y, 0)
  | .fin n1 m1 e1, .fin n2 m2 e2 => (addFin mode n1 m1 e1 n2 m2 e2, 0)

/-- a × b. -/
def fpMul (a b : Val) : Exact × Nat :=
  match a, b with
  | .nan _, _ => (.nan, snanFlag [a, b])
  | _, .nan _ => (.nan, snanFlag [a, b])
  | .inf x, .inf y => (.inf (x != y), 0)
  | .inf x, .fin n m _ => if m = 0 then (.nan, fNV) else (.inf (x != n), 0)
  | .fin n m _, .inf y => if m = 0 then (.nan, fNV) else (.inf (n != y), 0)
  | .fin n1 m1 e1, .fin n2 m2 e2 => (.fin (n1 != n2) (m1 * m2) (e1 + e2) false, 0)

/-- Whether the product is 0 × ∞, which is invalid whatever the addend (R54). -/
def zeroTimesInf (a b : Val) : Bool :=
  match a, b with
  | .inf _, .fin _ m _ => m = 0
  | .fin _ m _, .inf _ => m = 0
  | _, _ => false

/-- An exact product or quotient as a value. -/
def Exact.toVal : Exact → Val
  | .nan => .nan false
  | .inf n => .inf n
  | .fin n m e _ => .fin n m e

/-- a × b + c with one rounding (R53, R54). -/
def fpFma (mode : RMode) (a b c : Val) : Exact × Nat :=
  if zeroTimesInf a b then (.nan, fNV)
  else if a.isNan || b.isNan || c.isNan then (.nan, snanFlag [a, b, c])
  else fpAdd mode (fpMul a b).1.toVal c

/-- a / b: the quotient to more bits than any format holds, with its sticky mark. -/
def fpDiv (a b : Val) : Exact × Nat :=
  match a, b with
  | .nan _, _ => (.nan, snanFlag [a, b])
  | _, .nan _ => (.nan, snanFlag [a, b])
  | .inf _, .inf _ => (.nan, fNV)
  | .inf x, .fin n _ _ => (.inf (x != n), 0)
  | .fin n _ _, .inf y => (.fin (n != y) 0 0 false, 0)
  | .fin n1 m1 e1, .fin n2 m2 e2 =>
    if m2 = 0 then (if m1 = 0 then (.nan, fNV) else (.inf (n1 != n2), fDZ))
    else (.fin (n1 != n2) (m1 * 2 ^ 128 / m2) (e1 - e2 - 128) (m1 * 2 ^ 128 % m2 != 0), 0)

/-- The integer square root by bits, from bit `n` down. -/
def isqrtAux (x : Nat) : Nat → Nat → Nat
  | 0, r => if (r + 1) * (r + 1) ≤ x then r + 1 else r
  | n + 1, r => isqrtAux x n (if (r + 2 ^ (n + 1)) * (r + 2 ^ (n + 1)) ≤ x then r + 2 ^ (n + 1) else r)

/-- The floor of the square root of `x`. -/
def isqrt (x : Nat) : Nat := isqrtAux x (Nat.log2 x / 2) 0

/-- √a (R54): the root of the significand scaled to an even exponent, with its sticky mark. -/
def fpSqrt (a : Val) : Exact × Nat :=
  match a with
  | .nan s => (.nan, if s then fNV else 0)
  | .inf true => (.nan, fNV)
  | .inf false => (.inf false, 0)
  | .fin n m e =>
    if m = 0 then (.fin n 0 0 false, 0)
    else if n then (.nan, fNV)
    else
      let m' := if e % 2 = 0 then m * 2 ^ 160 else 2 * m * 2 ^ 160
      let e' := if e % 2 = 0 then e - 160 else e - 161
      let r := isqrt m'
      (.fin false r (e' / 2) (r * r != m'), 0)

/-! ## Order (R69 to R71) -/

/-- The order of R70, −0 below +0; not for NaNs. -/
def Held.key (f : Fmt) (h : Held) : Int :=
  if f.signOf h.body then -(h.code f : Int) - 1 else h.code f

/-- The order of R69, −0 equal to +0; not for NaNs. -/
def Held.num (f : Fmt) (h : Held) : Int := if f.signOf h.body then -(h.code f : Int) else h.code f

/-- The compares of R69. -/
inductive FCmp
  | eq | ne | lt | le | un
deriving DecidableEq, Repr

/-- A compare and its flag (R69, Table 5.5). -/
def fpCmp (f : Fmt) (c : FCmp) (a b : Held) : Bool × Nat :=
  let na := f.isNan a.body
  let nb := f.isNan b.body
  let sig := if f.isSnan a.body || f.isSnan b.body then fNV else 0
  let any := if na || nb then fNV else 0
  match c with
  | .eq => (!(na || nb) && a.num f = b.num f, sig)
  | .ne => ((na || nb) || a.num f != b.num f, sig)
  | .lt => (!(na || nb) && a.num f < b.num f, any)
  | .le => (!(na || nb) && a.num f ≤ b.num f, any)
  | .un => (na || nb, sig)

/-- FMIN, FMAX (`number` false) and VFMINN, VFMAXN (`number` true) of R70. -/
def fpMinMax (f : Fmt) (isMax number : Bool) (a b : Held) : Held × Nat :=
  let na := f.isNan a.body
  let nb := f.isNan b.body
  let sig := if f.isSnan a.body || f.isSnan b.body then fNV else 0
  let pick := if (if isMax then b.key f < a.key f else a.key f < b.key f) then a else b
  if na || nb then
    if number && !(na && nb) then (if na then b else a, sig) else (⟨f.canonNan, 0⟩, sig)
  else (pick, 0)

/-- A chosen operand as it is written: unchanged, or settled at write from its exact number, with the flags of IEEE 754
(R58, R66, R70). -/
def writeHeld (p : Cvp) (f : Fmt) (h : Held) : Held × Nat :=
  if p.sow && !f.isNan h.body then
    let r := settleExact f p.mode p.sat (h.val f).exact
    (⟨r.1, 0⟩, r.2)
  else if p.sow then (⟨h.body, 0⟩, 0)
  else (h, 0)

/-- The class mask of Table 2.15. -/
def fpClass (f : Fmt) (h : Held) : Nat :=
  let neg := f.signOf h.body
  let mag := f.magOf h.body
  let base :=
    if f.isNan h.body then (if f.isSnan h.body then 2 ^ 8 else 2 ^ 9)
    else if f.isInf h.body then (if neg then 2 ^ 0 else 2 ^ 7)
    else if mag = 0 then (if neg then 2 ^ 3 else 2 ^ 4)
    else if mag < 2 ^ f.fb then (if neg then 2 ^ 2 else 2 ^ 5)
    else (if neg then 2 ^ 1 else 2 ^ 6)
  let ovf := if !f.isNan h.body && !f.isInf h.body && h.code f = f.ovfCode then 2 ^ 10 else 0
  base + ovf + (if h.tail % 4 = 0 then 0 else 2 ^ 11)

/-! ## Conversion (R61, R62, R67) -/

/-- The integer nearest a finite value in the direction of the mode, and whether the value was no integer (R61). -/
def roundInt (mode : RMode) (neg : Bool) (m : Nat) (e : Int) : Int × Bool :=
  let mag :=
    if 0 ≤ e then (m * 2 ^ e.toNat, false)
    else
      let k := (-e).toNat
      let r := m % 2 ^ k
      let g : Bool := 2 ^ k ≤ 2 * r
      let s : Bool := r != 0 && 2 * r != 2 ^ k
      let q := m / 2 ^ k
      ((if roundUp mode neg (q % 2 = 1) g s then q + 1 else q), r != 0)
  (if neg then -(mag.1 : Int) else mag.1, mag.2)

/-- The least and greatest values of an integer format (Table 2.1). -/
def intMin (w : Nat) (signed : Bool) : Int := if signed then -(2 ^ (w - 1) : Nat) else 0
def intMax (w : Nat) (signed : Bool) : Int := if signed then (2 ^ (w - 1) : Nat) - 1 else (2 ^ w : Nat) - 1

/-- The nearest value of a range. -/
def clampInt (w : Nat) (signed : Bool) (x : Int) : Int := max (intMin w signed) (min (intMax w signed) x)

/-- The low `w` bits of an integer. -/
def wrapNat (w : Nat) (x : Int) : Nat := (x % (2 ^ w : Nat)).toNat

/-- R61: a floating value to an integer format, with its flags. -/
def fpToInt (mode : RMode) (v : Val) (w : Nat) (signed : Bool) : Int × Nat :=
  match v with
  | .nan _ => (0, fNV)
  | .inf neg => (if neg then intMin w signed else intMax w signed, fNV)
  | .fin neg m e =>
    let r := roundInt mode neg m e
    if r.1 < intMin w signed then (intMin w signed, fNV)
    else if intMax w signed < r.1 then (intMax w signed, fNV)
    else (r.1, if r.2 then fNX else 0)

/-- R62: an integer as an exact number. -/
def intExact (n : Int) : Exact := .fin (n < 0) n.natAbs 0 false

/-- R67: a held value of G as an exact number for another format, and its flag. -/
def convExact (g : Fmt) (h : Held) : Exact × Nat := ((h.val g).exact, if g.isSnan h.body then fNV else 0)

/-! ## Special functions (R73, Table 2.16)

An inexact result is formed from a fixed-point value of 448 fraction bits; see the assumption log on its precision. -/

/-- Fraction bits of the fixed-point values. (Log 18: DEDUCED.) -/
abbrev fixBits : Nat := 448

/-- One in fixed point. -/
abbrev fixOne : Nat := 2 ^ fixBits

/-- The sum of z^(2i+1)/(2i+1) for i from `i` on, `n` terms; `t` is the current power of z. -/
def atanhSum (z2 : Nat) : Nat → Nat → Nat → Nat
  | 0, _, _ => 0
  | n + 1, i, t => t / (2 * i + 1) + atanhSum z2 n (i + 1) (t * z2 / fixOne)

/-- atanh of a fixed-point z of at most 1/3. -/
def atanhFix (z : Nat) : Nat := atanhSum (z * z / fixOne) 150 0 z

/-- ln 2 = 2 atanh(1/3). -/
def ln2Fix : Nat := 2 * atanhFix (fixOne / 3)

/-- The alternating sum for the arctangent of 1/k: `t` is 1/k^(2i+1). -/
def atanSum (k2 : Nat) : Nat → Nat → Nat → Int
  | 0, _, _ => 0
  | n + 1, i, t => (if i % 2 = 0 then 1 else -1) * (t / (2 * i + 1) : Nat) + atanSum k2 n (i + 1) (t / k2)

/-- π by Machin's formula. -/
def piFix : Nat := (16 * atanSum 25 110 0 (fixOne / 5) - 4 * atanSum 57121 40 0 (fixOne / 239)).toNat

/-- The sum of x^i/i! from the term `t` of index `i`. -/
def expSum (x : Nat) : Nat → Nat → Nat → Nat
  | 0, _, _ => 0
  | n + 1, i, t => t + expSum x n (i + 1) (t * x / (fixOne * (i + 1)))

/-- The alternating sum t − t·x²/((i+1)(i+2)) + …, the series of the sine (from i = 1) and the cosine (from i = 0). -/
def trigSum (x2 : Nat) : Nat → Nat → Bool → Nat → Int
  | 0, _, _, _ => 0
  | n + 1, i, neg, t =>
    (if neg then -(t : Int) else t) + trigSum x2 n (i + 2) (!neg) (t * x2 / (fixOne * ((i + 1) * (i + 2))))

/-- A positive fixed-point value as an inexact number. (Log 18: DEDUCED.) -/
def fixExact (neg : Bool) (x : Nat) : Exact := .fin neg x (-(fixBits : Int)) true

/-- The floor and the fixed-point fraction of a finite value. -/
def floorFrac (neg : Bool) (m : Nat) (e : Int) : Int × Nat :=
  let x : Int := (if neg then -1 else 1) * (if 0 ≤ e + fixBits then (m * 2 ^ (e + fixBits).toNat : Nat)
    else (m / 2 ^ (-(e + fixBits)).toNat : Nat))
  (x / (fixOne : Nat), (x % (fixOne : Nat)).toNat)

/-- VEXP2 (Table 2.16). (Log 18: DEDUCED.) -/
def fpExp2 (v : Val) : Exact × Nat :=
  match v with
  | .nan s => (.nan, if s then fNV else 0)
  | .inf true => (.fin false 0 0 false, 0)
  | .inf false => (.inf false, 0)
  | .fin neg m e =>
    if neg && (0 ≤ (Nat.log2 m : Int) + e - 9) && m != 0 then (.fin false 1 (-600) true, 0)
    else if !neg && (0 ≤ (Nat.log2 m : Int) + e - 9) && m != 0 then (.fin false 1 600 false, 0)
    else
      let nf := floorFrac neg m e
      if nf.2 = 0 then (.fin false 1 nf.1 false, 0)
      else (.fin false (expSum (nf.2 * ln2Fix / fixOne) 110 0 fixOne) (nf.1 - fixBits) true, 0)

/-- VLOG2. (Log 18: DEDUCED.) -/
def fpLog2 (v : Val) : Exact × Nat :=
  match v with
  | .nan s => (.nan, if s then fNV else 0)
  | .inf true => (.nan, fNV)
  | .inf false => (.inf false, 0)
  | .fin neg m e =>
    if m = 0 then (.inf true, fDZ)
    else if neg then (.nan, fNV)
    else
      let l := Nat.log2 m
      let k : Int := l + e
      if m = 2 ^ l then (intExact k, 0)
      else
        let d := m - 2 ^ l
        let z := d * fixOne / (m + 2 ^ l)
        let fr := 2 * atanhFix z * fixOne / ln2Fix
        let x : Int := k * (fixOne : Nat) + fr
        (fixExact (x < 0) x.natAbs, 0)

/-- VRCP. -/
def fpRcp (v : Val) : Exact × Nat := fpDiv (.fin false 1 0) v

/-- VRSQ. -/
def fpRsq (v : Val) : Exact × Nat :=
  match v with
  | .nan s => (.nan, if s then fNV else 0)
  | .inf true => (.nan, fNV)
  | .inf false => (.fin false 0 0 false, 0)
  | .fin neg m e =>
    if m = 0 then (.inf neg, fDZ)
    else if neg then (.nan, fNV)
    else
      let m' := if e % 2 = 0 then m else 2 * m
      let e' := if e % 2 = 0 then e else e - 1
      let r := isqrt (2 ^ 256 / m')
      (.fin false r (-(e' / 2) - 128) (r * r * m' != 2 ^ 256), 0)

/-- sin(π v / 2) and cos(π v / 2) of a fixed-point v in 0 to 1, as fixed-point values. -/
def sinQuarter (v : Nat) : Nat :=
  let x := v * piFix / (2 * fixOne)
  (trigSum (x * x / fixOne) 70 1 false x).toNat

def cosQuarter (v : Nat) : Nat :=
  let x := v * piFix / (2 * fixOne)
  (trigSum (x * x / fixOne) 70 0 false fixOne).toNat

/-- The quadrant and the position in it of a number of turns. -/
def quadrant (neg : Bool) (m : Nat) (e : Int) : Nat × Nat :=
  let fr := (floorFrac neg m e).2
  (4 * fr / fixOne, 4 * fr % fixOne)

/-- VSIN: sin(2πt). (Log 18: DEDUCED.) -/
def fpSin (v : Val) : Exact × Nat :=
  match v with
  | .nan s => (.nan, if s then fNV else 0)
  | .inf _ => (.nan, fNV)
  | .fin neg m e =>
    let q := quadrant neg m e
    if q.2 = 0 then
      (if q.1 = 1 then .fin false 1 0 false else if q.1 = 3 then .fin true 1 0 false else .fin neg 0 0 false, 0)
    else if q.1 = 0 then (fixExact false (sinQuarter q.2), 0)
    else if q.1 = 1 then (fixExact false (cosQuarter q.2), 0)
    else if q.1 = 2 then (fixExact true (sinQuarter q.2), 0)
    else (fixExact true (cosQuarter q.2), 0)

/-- VCOS: cos(2πt). (Log 18: DEDUCED.) -/
def fpCos (v : Val) : Exact × Nat :=
  match v with
  | .nan s => (.nan, if s then fNV else 0)
  | .inf _ => (.nan, fNV)
  | .fin neg m e =>
    let q := quadrant neg m e
    if q.2 = 0 then
      (if q.1 = 0 then .fin false 1 0 false else if q.1 = 2 then .fin true 1 0 false else .fin false 0 0 false, 0)
    else if q.1 = 0 then (fixExact false (cosQuarter q.2), 0)
    else if q.1 = 1 then (fixExact true (sinQuarter q.2), 0)
    else if q.1 = 2 then (fixExact true (cosQuarter q.2), 0)
    else (fixExact false (sinQuarter q.2), 0)

end Sys2Proof.Machine
end

