-- ==== Sys2Proof/Machine/Tab.lean ====
section
/-! DEFINITION. Sparse tables: lists of (key, value) pairs in ascending order of keys. A key that is not listed
reads as a default that the reader names. -/

namespace Sys2Proof.Machine

/-- A sparse table. -/
abbrev Tab (α : Type) := List (Nat × α)

/-- The value at `k`, or `d` where `k` is not listed. -/
def tget {α : Type} (d : α) : Tab α → Nat → α
  | [], _ => d
  | (j, x) :: r, k => if j = k then x else tget d r k

/-- The value at `k`, if it is listed. -/
def tfind {α : Type} : Tab α → Nat → Option α
  | [], _ => none
  | (j, x) :: r, k => if j = k then some x else tfind r k

/-- Lists `x` at `k`. -/
def tset {α : Type} : Tab α → Nat → α → Tab α
  | [], k, x => [(k, x)]
  | (j, y) :: r, k, x =>
    if k < j then (k, x) :: (j, y) :: r else if k = j then (k, x) :: r else (j, y) :: tset r k x

/-- Removes `k`. -/
def tdel {α : Type} (t : Tab α) (k : Nat) : Tab α := t.filter (fun p => p.1 != k)

/-- Writes `x` at `k` in a table whose unlisted keys read as `d`: writing `d` removes the entry. -/
def tput {α : Type} [DecidableEq α] (d : α) (t : Tab α) (k : Nat) (x : α) : Tab α :=
  if x = d then tdel t k else tset t k x

/-- Keys strictly rising. -/
def tsorted {α : Type} (t : Tab α) : Bool :=
  match t with
  | [] => true
  | [_] => true
  | (j, _) :: (k, y) :: r => j < k && tsorted ((k, y) :: r)

/-- The canonical form of a table with default `d`: keys strictly rising, no entry equal to the default. -/
def twf {α : Type} [DecidableEq α] (d : α) (t : Tab α) : Bool := tsorted t && t.all (fun p => p.2 != d)

/-- The entries whose keys lie in `lo` to `lo + n - 1`, moved to start at `at`. -/
def tslice {α : Type} (t : Tab α) (lo n dst : Nat) : Tab α :=
  (t.filter (fun p => lo ≤ p.1 && p.1 < lo + n)).map (fun p => (p.1 - lo + dst, p.2))

/-- The table without the keys in `lo` to `lo + n - 1`. -/
def tclear {α : Type} (t : Tab α) (lo n : Nat) : Tab α := t.filter (fun p => p.1 < lo || lo + n ≤ p.1)

/-- Writes every entry of a list of entries into a table whose unlisted keys read as `d`. -/
def tmerge {α : Type} [DecidableEq α] (d : α) (t : Tab α) (new : Tab α) : Tab α :=
  new.foldl (fun acc p => tput d acc p.1 p.2) t

end Sys2Proof.Machine
end

