-- ==== Sys2Proof/Machine/State.lean ====
section
/-! DEFINITION. The state of the machine, plain data, and its value after reset. INVENTORY.md lists every field with
the rule that names it. A table (Tab) lists only what differs from the value that its reader names. -/

namespace Sys2Proof.Machine

/-- The work identifier that means "no item" (R165). -/
abbrev noItem : Word := 0xFFFFFFFFFFFFFFFF

/-! ## Threads -/

/-- Table 6.1. -/
inductive TState
  | vacant | run | fetch | block | out | halt | saved | done
deriving DecidableEq, Repr

/-- A scalar register: body and tail (R11, R17). -/
structure SReg where
  body : Word := 0
  tail : BitVec 2 := 0
deriving DecidableEq, Repr

/-- A vector lane: data and tail bits (R55). -/
structure Lane where
  data : W32 := 0
  tail : Byte := 0
deriving DecidableEq, Repr

/-- A loop-stack entry (Table 1.5). -/
structure LoopEntry where
  lstart : BitVec 29 := 0
  lepi : BitVec 4 := 0
  lcnt : BitVec 29 := 0
deriving DecidableEq, Repr

/-- What a landing writes (R26, R101): a physical register, some of its lanes or bits, a system register by number,
a loop-stack entry, a merge, or the cause and address of a trap. -/
inductive LandAct
  | nothing
  | sreg (n : Nat) (v : SReg)
  | areg (n : Nat) (v : Addr)
  | preg (n : Nat) (v mask : Pred)
  | lanes (n : Nat) (l : List (Nat × Lane))
  | sys (n : Nat) (v : Word)
  | lce (n : Nat) (e : LoopEntry)
  | fma (n : Nat) (f : Fmt) (a b : Held) (p : Cvp)
  | ins (n : Nat) (a : Word) (pos wid : Nat)
  | movaHi (n : Nat) (v : Byte)
  | trap (cause addr : Nat)
deriving DecidableEq, Repr

/-- A pending landing: the turn in which it is due, the turn and position of its bundle, the flags it raises, whether
it is a far acquire (R269), and for the value of a far access its access word and whether it is relaxed (R343). -/
structure Landing where
  due : Nat
  issued : Nat
  pos : Nat
  act : LandAct
  flags : Nat
  acq : Bool := false
  far : Option (Nat × Addr × Bool) := none
deriving DecidableEq, Repr

/-- One half of the loop buffer (R34, R93): the segment it holds, its bundles (`none`: malformed) and the remaining
turns of its expansion. -/
structure Half where
  seg : Nat
  next : Nat
  len : Nat
  bundles : Option (List Bundle)
  left : Nat
deriving DecidableEq, Repr

/-- Where the prefetch of the current segment's successor stands (R35): nothing to do, held back by protection,
or to begin in this turn. -/
inductive Prefetch
  | idle | held | ready
deriving DecidableEq, Repr

/-- A repeat (R295): issues left, captured A and B values, the increment, the issues made, and the command with its
guard. Before its first issue there is no command. -/
structure Repeat where
  left : Nat
  a : Word
  b : Nat
  inc : Word
  made : Nat
  cmd : Option (Instr × Nat)
deriving DecidableEq, Repr

/-- A pinned range (R38): it begins at bundle `idx` of segment `seg` of `len` bundles, counts `n` bundles and may go on
in the successor. -/
structure Pin where
  seg : Nat
  idx : Nat
  len : Nat
  n : Nat
  succ : Nat
deriving DecidableEq, Repr

/-- An open far-store packet (R232): the fields of its opening FSTP, its elements so far and the bundles counted. -/
structure Packet where
  rx : Bool
  ord : Bool
  addr : Addr
  key : Nat
  win : Nat
  ofs : Nat
  data : List Nat
  aword : Nat
  issued : Nat
  pos : Nat
  bundles : Nat
deriving DecidableEq, Repr

/-- What a thread or tephra core waits for from a service core, Table 14.11's MBW. -/
inductive Wait
  | none | translation | delivery | mbox
deriving DecidableEq, Repr

/-- A reply of a service core (R334): its kind 0 to 5 and its value. -/
structure Reply where
  kind : Nat
  value : Word
deriving DecidableEq, Repr

/-- A delivery fault that the thread has not met (R228): the access, its cause and what its message carries. -/
structure FaultRec where
  cause : Nat
  addr : Addr
  aword : Nat
  dest : Option Nat
  code : Nat
  issued : Nat
  pos : Nat
  acq : Bool := false
  rx : Bool := false
deriving DecidableEq, Repr

/-- A word of the neighbour network (R180). -/
structure ChanWord where
  lanes : List Lane
deriving DecidableEq, Repr

/-- A receive queue (R170): its words, the words on their way to it, and the cycle in which one was last taken. -/
structure RecvQueue where
  words : List ChanWord := []
  coming : Nat := 0
  taken : Option Nat := none
deriving DecidableEq, Repr

/-- A hardware thread (R11, Table 1.2, R159); `savedSt` is the state of its image while it is SAVED (R343), `turnTtc` and
`turnBa` the TTC and next bundle at the start of its current turn (R336), `missed` the table and virtual address of the
translation fault that it waits on (R213). (Log 4: DESIGN CHOICE.) -/
structure Thread where
  st : TState := .vacant
  sregs : Tab SReg := []
  aregs : Tab Addr := []
  vregs : Tab Lane := []
  pregs : Tab Pred := []
  lces : Tab LoopEntry := []
  lsd : Nat := 0
  flags : Nat := 0
  ften : Nat := 0
  ttc : Nat := 0
  trapc : Nat := 0
  trapa : Nat := 0
  srb : Nat := 0
  vrb : Nat := 0
  prb : Nat := 0
  nv : Nat := 16
  wid : Word := noItem
  pstat : Nat := 0
  hact : Bool := false
  next : Nat := 0
  half0 : Option Half := none
  half1 : Option Half := none
  curHalf : Nat := 0
  curSeg : Option Nat := none
  prefetch : Prefetch := .idle
  pin : Option Pin := none
  lands : List Landing := []
  mrep : Option Repeat := none
  packet : Option Packet := none
  arrivals : Tab Nat := []
  wait : Wait := .none
  ticket : Nat := 0
  reply : Option Reply := none
  mboxReq : Option (Word × Word) := none
  mboxTicket : Nat := 0
  mboxReply : Option Reply := none
  faults : List FaultRec := []
  serving : Option FaultRec := none
  priv : Option Nat := none
  privDone : Option Nat := none
  outUntil : Nat := 0
  ending : Bool := false
  endAddr : Nat := 0
  saveReq : Bool := false
  saving : Bool := false
  stopReq : Bool := false
  endReq : Bool := false
  resume : Option Nat := none
  resend : List Nat := []
  busy : Nat := 0
  queues : Tab RecvQueue := []
  savedSt : TState := .run
  turnTtc : Nat := 0
  turnBa : Nat := 0
  missed : Option (Nat × Nat) := none
deriving DecidableEq, Repr

/-! ## The matrix engine (Table 11.1) -/

/-- A ring (R281). -/
structure Ring where
  base : Nat
  nslot : Nat
  slotb : Nat
  head : Nat
  tail : Nat
deriving DecidableEq, Repr

/-- An element of a tile: a held FP32 value or an i32 (R272). -/
structure TileElt where
  data : W32 := 0
  tail : BitVec 2 := 0
deriving DecidableEq, Repr

/-- An accepted command: opcode, A value, sync word, IMM8, descriptor words, the thread it belongs to, for a remote one its
notify word (R296), and the first cycle in which it may read: the thread-port accesses of its bundle and of earlier bundles
have performed (R254, R279). -/
structure EngCmd where
  op : Nat := 0
  aval : Nat := 0
  sync : Nat := 0
  imm : Nat := 0
  desc : List Nat := []
  core : Nat := 0
  slot : Nat := 0
  mword : Nat := 0
  regs : List Nat := []
  notify : Option (Nat × Nat) := none
  floor : Nat := 0
deriving DecidableEq, Repr

/-- The part of the status word (Table 11.15) that changes only when a command retires or faults (R297), as it stands
while a command runs. -/
structure EngShown where
  wfmt : Nat
  wk : Nat
  wn : Nat
  tint : Nat
  nansc : Bool
  flags : Nat
deriving DecidableEq, Repr

/-- The matrix engine of a core; `wk` and `wn` are K − 1 and N − 1, `hand` marks a hand-over, `done` counts the parts of
the running command that have performed, `row` is the part that performs next and `left` the parts after it, as ranges of a first
number and a length (R279). While a command runs, `shown` is the status that MSTAT reads, and `nansc` and
`flags` are the command's own. -/
structure Engine where
  rings : Tab Ring := []
  weights : Tab Nat := []
  wshared : Tab Nat := []
  wfmt : Nat := 15
  wk : Nat := 0
  wn : Nat := 0
  tiles : Tab TileElt := []
  tint : Nat := 0
  queue : List EngCmd := []
  running : Bool := false
  hand : Bool := false
  inbound : List (Nat × EngCmd × Nat) := []
  port : Nat := 0
  mcap : Nat := 0
  fault : Nat := 0
  nansc : Bool := false
  flags : Nat := 0
  shown : Option EngShown := none
  frozen : Bool := false
  done : Nat := 0
  row : Nat := 0
  left : List (Nat × Nat) := []
deriving DecidableEq, Repr

/-! ## Tephra cores (Table 12.1) -/

/-- A command in a tephra queue: its kind, descriptor words, sync word, the thread or front-end command it belongs to, and
what a collective's WORK area held as it was accepted (R315). -/
structure TeCmd where
  coll : Bool := false
  desc : List Nat := []
  sync : Nat := 0
  core : Nat := 0
  slot : Nat := 0
  token : Nat := 0
  work : Tab Byte := []
deriving DecidableEq, Repr

/-- Where the standard image stands in its command: its phase, the element or page at work and whether it has begun, the elements of
a copy that have not, as ranges of a first number and a length (R312), the elements of a collective that it has yet to write, the
settling flags so far, and the first cycle in which a collective may read the scratchpad (R254, R255). -/
structure StdState where
  phase : Nat := 0
  index : Nat := 0
  begun : Bool := false
  left : List (Nat × Nat) := []
  acc : List Nat := []
  flags : Nat := 0
  floor : Nat := 0
deriving DecidableEq, Repr

/-- A tephra core; `missed`: the table and address of the translation fault that it waits on (R213), `cancelled`: the access
word, address and operand of the blocking access that a save cancelled (R320). -/
structure Tephra where
  x : Tab W32 := []
  pc : Nat := 0
  fa : Tab Addr := []
  imem : Tab Byte := []
  dmem : Tab Byte := []
  entry : Nat := 0
  std : Bool := true
  stdSt : StdState := {}
  queue : List TeCmd := []
  cur : Option TeCmd := none
  rm : Nat := 0
  satf : Bool := false
  gcycHi : Nat := 0
  fault : Nat := 0
  wait : Wait := .none
  ticket : Nat := 0
  reply : Option Reply := none
  pending : Option Nat := none
  value : Option Nat := none
  faults : List FaultRec := []
  serving : Option FaultRec := none
  imemBad : Bool := false
  saveWait : Bool := false
  missed : Option (Nat × Nat) := none
  cancelled : Option (Nat × Addr × Nat) := none
deriving DecidableEq, Repr

/-! ## Cores -/

/-- A tag-table entry (Table 8.3). -/
structure TagEntry where
  v : Bool := false
  f : Bool := false
  key : Word := 0
deriving DecidableEq, Repr

/-- The registers of a service core (Table 14.3) but PSTAT, which is each thread's. -/
structure Service where
  inqw : Nat := 0
  inqr : Nat := 0
  scdrop : Nat := 0
  gsel : Nat := 0
  dbgsel : Word := 0
  dbgval : Word := 0
  dbgst : Nat := 0
  dbgBusy : Bool := false
  inbox : List (List Nat) := []
deriving DecidableEq, Repr

/-- An access of the thread port on its way to its banks (R124, R201): the cycle in which it performs, the places and
lengths whose bank words it holds, the bytes it then writes, and what it then makes of the full/empty bits of those words
(`none`: nothing). -/
structure PortAccess where
  due : Nat
  touch : List (Nat × Nat)
  writes : List (Nat × List Nat)
  full : Option Bool
deriving DecidableEq, Repr

/-- A core: compute cores are numbered 128 × die + 16 × row + column, service core i of die d is 512 + 4 × d + i. `port` holds the accesses of its thread port in issue order, `waits` the
events of its engine port that wait for bank words that the thread port holds. (Log 4: DESIGN CHOICE; log 20: DEDUCED.) -/
structure Core where
  threads : Tab Thread := []
  sems : Tab Nat := []
  tags : Tab TagEntry := []
  tagPtr : Tab Nat := []
  tsz : Nat := 8
  windows : Tab Nat := []
  grants : Tab Nat := []
  trapv : Tab Nat := []
  gang : Option Nat := none
  pre : Bool := false
  eng : Engine := {}
  tes : Tab Tephra := []
  svc : Service := {}
  codeBad : List Nat := []
  activity : Tab Nat := []
  port : List PortAccess := []
  waits : List (Instr × List Nat) := []
deriving DecidableEq, Repr

/-! ## Gangs -/

/-- A gang (Table 6.4, R162 to R169); `image` holds the cores of a gang saved with HOLD 0 by rank, `kept` the full/empty bits
and poison of their scratchpads (R200, R342). (Log 85: DESIGN CHOICE.) -/
structure Gang where
  cols : Nat := 0
  rows : Nat := 0
  dies : List Nat := []
  orgs : List (Nat × Nat) := []
  slotm : Nat := 0
  widths : List Nat := []
  counts : List Nat := []
  dist : Bool := false
  glev : Nat := 0
  nbar : Nat := 0
  bslots : List Nat := []
  release : Nat := 0
  mcap : Nat := 0
  savb : Nat := 0
  pre : Bool := false
  gens : Tab Nat := []
  arrived : Tab Nat := []
  counters : Tab Nat := []
  queue : Nat := 0
  seq : Nat := 0
  node : Nat := 0
  hold : Bool := false
  savedAll : Bool := false
  released : Bool := false
  ended : Bool := false
  endCause : Nat := 0
  raceMode : Nat := 0
  raceBase : Nat := 0
  raceLen : Nat := 0
  raceLog : Nat := 0
  raceLogLen : Nat := 0
  prio : Nat := 0
  part : Nat := 0
  counts0 : Tab Nat := []
  hist : Tab Nat := []
  image : Tab Core := []
  kept : Tab (Tab Bool × Tab Bool) := []
  code : Tab Byte := []
  codeLen : Nat := 0
  acquired : Tab Nat := []
  shadow : Tab Nat := []
  completed : Option Nat := none
deriving DecidableEq, Repr

/-! ## Far accesses (R223 to R241) -/

/-- The kinds of far access: load, store, packet, atomic, vector atomic, and the block reads and writes of a tephra
core (R304). -/
inductive FarOp
  | ld | st | pk | atom | vat | rdw | wrw | save
deriving DecidableEq, Repr

/-- Where a far access stands: on its way, in a retry list, served with its reply on the way. -/
inductive FarSt
  | sent | waiting | refused | served
deriving DecidableEq, Repr

/-- A far access in flight: who issued it (`who` 0 to 7 a thread slot, 8 and 9 a tephra core), what it does, where
(`key`: the byte's place in memory; `win`: 1 + the place of the window entry that translated it, 0 for a mesh address),
and with what outcome: `replied` its reply has arrived, `acked` its end-to-end acknowledgement has. `group` is the edge
group whose link accepted it, `merged` the number of later stores that were merged into it (R242), `early` that its link
replied as it accepted it (R405), `leg2` that te.save has read its source and goes on to its destination (R318), `cancelSent` that a cancel is on its way (R338), `arrived`
that its home has taken it in (R216), `parted` that some elements of an FVATOM have performed (R263), and `gone` that the image of the tephra core that issued it is no more (R301). -/
structure Flight where
  core : Nat := 0
  who : Nat := 0
  op : FarOp
  rx : Bool := false
  ord : Bool := false
  mode : Nat := 0
  size : Nat := 0
  code : Nat := 0
  aop : Nat := 0
  addr : Addr := 0
  key : Nat := 0
  win : Nat := 0
  data : List Nat := []
  operand : Held
  elems : List (Nat × Held) := []
  cvp : Cvp
  dest : Option Nat := none
  issued : Nat := 0
  pos : Nat := 0
  aword : Nat := 0
  st : FarSt
  cause : Nat := 0
  value : Nat := 0
  oflags : Nat := 0
  cancelled : Bool := false
  replied : Bool := false
  acked : Bool := false
  raw : Bool := false
  sink : Nat := 0
  home : Nat := 0
  merged : Nat := 0
  group : Option Nat := none
  early : Bool := false
  leg2 : Bool := false
  cancelSent : Bool := false
  arrived : Bool := false
  parted : Bool := false
  gone : Bool := false
deriving DecidableEq, Repr

/-! ## Events -/

/-- An event of the agenda: when it is due, the row of the table it is, its arguments, and the ordering class in
which it keeps its place. -/
structure Event where
  due : Nat
  instr : Instr
  args : List Nat
  chan : List Nat
deriving DecidableEq, Repr

/-- A party that acts in a cycle: a thread in its turn, or a tephra core. -/
inductive Agent
  | thread (core slot : Nat)
  | tephra (core te : Nat)
deriving DecidableEq, Repr

/-- The issue latch: the core and slot or tephra core at work, the position and guard of the slot word, the prefix of
its bundle, the address of the bundle, the arguments of an event, and what the bundle has met so far: the cause of
a trap, a blocking condition that does not hold, a translation that failed (cause, address, access word, entry), and
the flags that its fixed-time results and settles raise (R325). `jump` is the next bundle that a control transfer
chose, `rep` the operands of a repeated command, `issue` whether a bundle issues in this turn. -/
structure Latch where
  core : Nat := 0
  slot : Nat := 0
  pos : Nat := 0
  g : Nat := 0
  cvp : Cvp := { mode := .rne, sat := false, sow := false }
  addr : Nat := 0
  trap : Option Nat := none
  block : Bool := false
  flags : Nat := 0
  jump : Option Nat := none
  miss : Option (Nat × Addr × Nat × Nat) := none
  issue : Bool := false
  rep : Option (Word × Nat) := none
  rv : Rv := .illegal
  rvLen : Nat := 0
  args : List Nat := []
deriving DecidableEq, Repr

/-! ## Service-core operations in progress -/

/-- A privileged request on its way or at work (R332): the service core and slot that wait for its acknowledgement,
its opcode and sub-operation, the values of A, B and GSEL when it left, whether it has begun (`left` 1), and the gang that
a save or restore of a whole gang works on. -/
structure PrivReq where
  core : Nat
  slot : Nat
  op : Nat
  k : Nat
  a : Word
  b : Word
  left : Nat
  gsel : Nat := 0
  gang : Nat := 0
deriving DecidableEq, Repr

/-- A window install or kill (R213, R214): the request that it answers, the table it changes (a gang, or 2^20 + a service
core), the entry, and once begun the cores that have not yet applied or acknowledged it. -/
structure WinOp where
  req : Nat
  kill : Bool
  table : Nat
  index : Nat
  entry : Nat
  begun : Bool
  left : List Nat
deriving DecidableEq, Repr

/-! ## The front end (Tables 17.2 to 17.11) -/

/-- A partition (Table 17.2); its default window table (PWIN); where a PRESET of it stands. -/
structure Partition where
  rects : List Nat := []
  dbase : Nat := 0
  dsize : Nat := 0
  qmask : Nat := 0
  farea : Nat := 0
  rawp : Nat := 0
  copyep : Nat := 0
  wins : Tab Nat := []
  resetting : Option (Nat × Nat) := none
deriving DecidableEq, Repr

/-- A queue descriptor (Table 17.3). -/
structure QueueDesc where
  en : Bool := false
  prio : Nat := 0
  clog : Nat := 0
  klog : Nat := 0
  vec : Nat := 0
  ccnt : Nat := 1
  ctim : Nat := 0
  cring : Nat := 0
  kring : Nat := 0
  jbud : Nat := 0
deriving DecidableEq, Repr

/-- Where an accepted command stands. -/
inductive CmdSt
  | accepted | waiting | running | retired
deriving DecidableEq, Repr

/-- An accepted command (Table 17.5); `born` is the frame in which it was accepted, `doomed` the SEQs of the PRESETs of its
partition that have been accepted since (R364). -/
structure Command where
  seq : Nat
  kind : Nat
  flags : Nat
  args : List Nat
  st : CmdSt
  left : Nat
  status : Nat
  cause : Nat
  born : Nat := 0
  doomed : List Nat := []
deriving DecidableEq, Repr

/-- A completion that is due or waits (Table 17.8); a QUIET command that retired OK writes no record. `after`: the far
accesses that must complete at system scope before it (R169, R368); `host`: the record of a host-notify node (R376). -/
structure Completion where
  cmdseq : Nat
  kind : Nat
  detail : Nat
  cause : Nat
  status : Nat
  value : Nat
  quiet : Bool
  notify : Bool
  frame : Nat
  after : List Nat
  host : Bool := false
deriving DecidableEq, Repr

/-- A queue: its descriptor, status page (Table 17.4), accepted commands, completions that are due, retired commands
above LRET, what R380 and R383 keep, and for an orphaned queue the state that it has again on recovery (R382). -/
structure Queue where
  desc : QueueDesc := {}
  tail : Nat := 0
  lacc : Nat := 0
  lret : Nat := 0
  cwr : Nat := 0
  chead : Nat := 0
  epoch : Nat := 0
  state : Nat := 0
  terr : Bool := false
  bexh : Bool := false
  owner : Nat := 0
  jused : Nat := 0
  charge : Nat := 0
  cmds : List Command := []
  due : List Completion := []
  retired : List Nat := []
  unsig : Nat := 0
  oldest : Option Nat := none
  notify : Bool := false
  aborted : List Completion := []
  moved : Bool := false
  was : Nat := 0
deriving DecidableEq, Repr

/-- Where a graph node stands. -/
inductive NodeSt
  | idle | running | rearming | retired
deriving DecidableEq, Repr

/-- A graph node (Table 17.10); `fin` is the status and cause with which it has ended while the accesses in `after` are yet to
complete at system scope (R368); `since` is the frame in which its count fell to 0 (R378). -/
structure Node where
  typ : Nat := 0
  npred : Nat := 0
  succs : List Nat := []
  bad : Bool := false
  body : List Nat := []
  count : Nat := 0
  st : NodeSt
  counter : Nat := 0
  fin : Option (Nat × Nat) := none
  after : List Nat := []
  since : Nat := 0
deriving DecidableEq, Repr

/-- A graph that has begun (R375): its command, re-arm limit and count, nodes, and how it ends: status, cause, node and
the frame of it; `rest`: it was seen at rest and has yet to retire; `closed`: it has retired (R414). -/
structure Graph where
  queue : Nat := 0
  seq : Nat := 0
  loopmax : Nat := 0
  rearms : Nat := 0
  nodes : Tab Node := []
  ended : Option (Nat × Nat × Nat × Nat) := none
  limit : Bool := false
  rest : Bool := false
  closed : Bool := false
deriving DecidableEq, Repr

/-- A launch that waits for cores (R371, R379). -/
structure Waiting where
  queue : Nat
  seq : Nat
  node : Nat
  args : List Nat
deriving DecidableEq, Repr

/-- A copy share on a tephra core (R373, R374): the command or node it belongs to, where it runs, its descriptor and sync
word, whether it is queued there, the cause with which it ended (0: it retired), and whether a group that it writes through has
died meanwhile (R413). -/
structure Share where
  queue : Nat
  seq : Nat
  node : Nat
  core : Nat
  te : Nat
  desc : List Nat
  sync : Nat
  sent : Bool
  ended : Option Nat
  died : Bool := false
deriving DecidableEq, Repr

/-- A vent core (R378, R382): HBEAT, the HBEAT of its peers as it last saw them and for how many frames each has stood
still, image version and image, whether it is halted, its queues orphaned, whether it reloads, and whether it runs the
new image of a hand-over. -/
structure Vent where
  hbeat : Nat := 0
  seen : Tab Nat := []
  stale : Tab Nat := []
  iver : Nat := 0
  image : List Nat := []
  failed : Bool := false
  orphaned : Bool := false
  reloading : Bool := false
  fresh : Bool := false
deriving DecidableEq, Repr

/-- The Fumarole complex (Table 17.13 and what the executive keeps); `started` is 1 + the cycle in which a frame last began. (Log 58: DESIGN CHOICE; log 61: DEDUCED.) -/
structure Front where
  parts : Tab Partition := []
  queues : Tab Queue := []
  graphs : Tab Graph := []
  waits : List Waiting := []
  served : Tab Nat := []
  shares : Tab Share := []
  vents : Tab Vent := []
  frames : Nat := 0
  reload : Nat := 0
  rstat : Nat := 0
  hphase : Nat := 0
  fwload : Option (Nat × Nat × Nat) := none
  adminq : List Nat := []
  admingo : Nat := 0
  idpub : Tab Byte := []
  msix : Tab Nat := []
  clockDue : Option Nat := none
  heldLaunches : Bool := false
  kept : Tab Nat := []
  hostRead : List Nat := []
  started : Nat := 0
deriving DecidableEq, Repr

/-! ## Links (Tables 18.6 to 18.9) -/

/-- An edge group, or the host group at index 16: the state word, the configuration record, and the SEQ of each SWITCH that waits for it. -/
structure EdgeGroup where
  gen : Nat := 0
  peer : Nat := 0
  pers : Nat := 0
  tries : Nat := 0
  lanes : Nat := 0
  state : Nat := 3
  tsync : Bool := false
  tdom : Nat := 0
  addr : Nat := 0
  ntab : Nat := 0
  nmask : Nat := 0
  newPers : Nat := 0
  req : List Nat := []
deriving DecidableEq, Repr

/-- A conduit context (R391): the stream it carries and the address after its last packet. -/
structure Context where
  src : Nat := 0
  dst : Nat := 0
  next : Nat := 0
  used : Nat := 0
deriving DecidableEq, Repr

/-- The links; `seen`: the sequence numbers that each inbound stream has performed, youngest first, with the value and flags that
each was answered with (R406; `none`: not yet). -/
structure Links where
  groups : Tab EdgeGroup := []
  tdom : Nat := 0
  talign : Bool := true
  tskew : Nat := 0
  contexts : Tab Context := []
  seen : Tab (List (Nat × Option (Nat × Nat))) := []
  failed : List Nat := []
  heldStreams : List (Nat × Nat) := []
  bound : Tab Nat := []
deriving DecidableEq, Repr

/-! ## The board (Table 20.4, R419 to R422) -/

/-- Clocks, power, temperature, reset and the management interface; `record` is the board supply controller's record of a thermal
trip (Table 20.4). (Log 71: DEDUCED.) -/
structure Board where
  rst : Bool := false
  supply : Bool := true
  thermtrip : Bool := false
  record : Bool := false
  ident : Nat := 0x9384
  step : Nat := 0
  fwstat : Nat := 0
  stat : Nat := 0
  tdie : Nat := 0
  tdram : Nat := 0
  pwr : Nat := 0
  clk : Nat := 14
  temps : Tab Nat := []
  ventImage : List Nat := []
  serviceImage : List Nat := []
deriving DecidableEq, Repr

/-! ## The whole machine -/

/-- Why a step stops with a fault: a situation in which the spec gives the machine no behaviour. -/
inductive Fault
  /-- Raised by `step` when the main supply is off (R420: all device state is lost, no clock runs). Safe. -/
  | poweredOff
deriving DecidableEq, Repr

/-- Why an instruction has no meaning. -/
inductive Refusal
  /-- Answered by an arm of `exec` whose row is not modelled. Safe: the machine stops. -/
  | notModelled (mnemonic : String)
deriving DecidableEq, Repr

/-- The state of the module. -/
structure State where
  /-- The cycle counter GCYC of the module (R5, R175). (Log 11: DESIGN CHOICE.) -/
  gcyc : Nat
  /-- NODE, the identifier of this device (COORD of Table 7.8, R193). (Log 2: DESIGN CHOICE.) -/
  node : Nat
  /-- Every byte of scratchpads, DRAM, code stores, and of the memories beyond the device (R92, R197, R205, R207), in canonical form. (Log 3: DESIGN CHOICE; log 74: DESIGN CHOICE.) -/
  mem : List Host.Cell
  /-- The full/empty bits that are empty, by word (R200). -/
  empty : Tab Bool
  /-- The bank words and DRAM lines that are poisoned (R201, R206). -/
  poison : Tab Bool
  /-- The compression records of DRAM pages that are not plain (R217). -/
  pages : Tab Nat
  /-- The cores: 512 compute cores and 16 service cores; an unlisted core is as after reset. -/
  cores : Tab Core
  /-- The gangs and their members (R162, R163). -/
  gangs : Tab Gang
  /-- How many global barriers each die boundary carries (section 7). -/
  barriersUsed : Tab Nat
  /-- The far accesses that have issued and are not yet answered (section 9). -/
  flights : Tab Flight
  /-- The retry list of each home (R225, R239). -/
  retry : Tab (List Nat)
  /-- Privileged instructions that await their service replies (R331). -/
  privs : Tab PrivReq
  /-- Window and grant operations on their way (section 8). -/
  winops : Tab WinOp
  /-- The front end: vent cores, queues, graphs, the host page (section 17). -/
  front : Front
  /-- Edge groups, streams, conduits and their registers (section 18). -/
  links : Links
  /-- Bring-up, supply, clock, temperatures and the images in flash (section 20). -/
  board : Board
  /-- The events to come, by due cycle: the model's own. (Log 1: DESIGN CHOICE.) -/
  agenda : List Event
  /-- The parties still to act in this cycle: the model's own. (Log 1: DESIGN CHOICE.) -/
  turns : List Agent
  /-- The bundle or event at work: the model's own. (Log 1: DESIGN CHOICE.) -/
  cur : Latch
  /-- The next fresh identifier: the model's own. (Log 1: DESIGN CHOICE.) -/
  nextId : Nat
  /-- How many free values have been drawn: the model's own. (Log 1: DESIGN CHOICE.) -/
  draw : Nat
deriving DecidableEq, Repr

/-! ## Reset

The defaults of the records above are the values of R421, R272 and the tables' Reset columns; where a rule gives none
the assumption log names the default. -/

/-- The machine right after the deassertion of RST_N took effect (R421): GCYC is 0, every thread is VACANT, memory is
zero with every word full, and the rest of the bring-up (Table 20.3, step 2 on) is due. (Log 2: DESIGN CHOICE; log 4: DESIGN CHOICE; log 68: DESIGN CHOICE.) -/
def State.reset : State where
  gcyc := 0
  node := 0
  mem := []
  empty := []
  poison := []
  pages := []
  cores := []
  gangs := []
  barriersUsed := []
  flights := []
  retry := []
  privs := []
  winops := []
  front := {}
  links := {}
  board := { step := 1 }
  agenda := [{ due := 0, instr := .resetDeassert, args := [2], chan := [] }]
  turns := []
  cur := {}
  nextId := 0
  draw := 0

end Sys2Proof.Machine
end

