-- ==== Sys2Proof/Machine/Ops.lean ====
section
/-! DEFINITION. The shared operations of the machine: where cores and registers are, memory bytes and their full/empty
bits, the agenda, messages to service cores, landings, and taking a trap. -/

namespace Sys2Proof.Machine

/-- The outcome of a meaning. -/
abbrev Out := Host.Outcome State Fault Refusal

/-! ## Cores and their numbers (Tables 7.8, 18.2)

Compute core (die, column, row) is 128 × die + 16 × row + column; service core i of a die is 512 + 4 × die + i. -/

/-- Whether a core is a service core. -/
def isSvc (c : Nat) : Bool := 512 ≤ c

def coreNo (die col row : Nat) : Nat := 128 * die + 16 * row + col

def dieOf (c : Nat) : Nat := if isSvc c then (c - 512) / 4 else c / 128

def colOf (c : Nat) : Nat := if isSvc c then (if c % 2 = 0 then 0 else 15) else c % 16

def rowOf (c : Nat) : Nat := if isSvc c then (if c % 4 < 2 then 0 else 7) else c / 16 % 8

/-- A fabric endpoint identifier (Table 7.8). -/
def endptOf (node die col row kind : Nat) : Nat := node * 4096 + die * 1024 + col * 64 + row * 8 + kind

/-- COORD of a core. -/
def coord (s : State) (c : Nat) : Nat :=
  endptOf s.node (dieOf c) (colOf c) (rowOf c) (if isSvc c then 1 else 0)

/-- The endpoint identifier of vent core `v` (Table 18.2). -/
def ventEndpt (s : State) (v : Nat) : Nat := endptOf s.node 0 v 0 4

/-- The service core of an identifier of KIND 1 (Table 18.2); `none` where it names no core. -/
def svcAt (die col row : Nat) : Option Nat :=
  if col = 0 ∧ row = 0 then some (512 + 4 * die) else if col = 15 ∧ row = 0 then some (513 + 4 * die)
  else if col = 0 ∧ row = 7 then some (514 + 4 * die) else if col = 15 ∧ row = 7 then some (515 + 4 * die)
  else none

/-- The core that an endpoint identifier names: for a tephra core the compute core it belongs to. -/
def coreAt (e : Nat) : Option Nat :=
  let die := bitsAt e 10 2
  let col := bitsAt e 6 4
  let row := bitsAt e 3 3
  let kind := e % 8
  if kind = 0 ∨ kind = 2 ∨ kind = 3 then some (coreNo die col row)
  else if kind = 1 then svcAt die col row
  else none

/-- R212: the service core of a core's quadrant. -/
def svcFor (c : Nat) : Nat := 512 + 4 * dieOf c + colOf c / 8 + 2 * (rowOf c / 4)

/-! ## Cores, threads and gangs of the state -/

def core (s : State) (c : Nat) : Core := tget {} s.cores c

def setCore (s : State) (c : Nat) (k : Core) : State := { s with cores := tset s.cores c k }

def modCore (s : State) (c : Nat) (f : Core → Core) : State := setCore s c (f (core s c))

def thread (s : State) (c t : Nat) : Thread := tget {} (core s c).threads t

def setThread (s : State) (c t : Nat) (th : Thread) : State :=
  modCore s c (fun k => { k with threads := tset k.threads t th })

def modThread (s : State) (c t : Nat) (f : Thread → Thread) : State := setThread s c t (f (thread s c t))

/-- The thread whose bundle is at work. -/
def me (s : State) : Thread := thread s s.cur.core s.cur.slot

def modMe (s : State) (f : Thread → Thread) : State := modThread s s.cur.core s.cur.slot f

/-- The core whose bundle is at work. -/
def myCore (s : State) : Core := core s s.cur.core

def modMyCore (s : State) (f : Core → Core) : State := modCore s s.cur.core f

/-- Whether the bundle at work is a service core's. -/
def svc (s : State) : Bool := isSvc s.cur.core

def gang (s : State) (g : Nat) : Gang := tget {} s.gangs g

def modGang (s : State) (g : Nat) (f : Gang → Gang) : State := { s with gangs := tset s.gangs g (f (gang s g)) }

/-- The gang that holds a core (R163). -/
def gangOf (s : State) (c : Nat) : Option Gang :=
  match (core s c).gang with
  | none => none
  | some g => tfind s.gangs g

/-- The index of a die among a gang's dies (R163). -/
def dieIndex (g : Gang) (die : Nat) : Nat := g.dies.findIdx (· = die)

/-- The origin of a gang's rectangle on a die. -/
def originOf (g : Gang) (die : Nat) : Nat × Nat := g.orgs.getD (dieIndex g die) (0, 0)

/-- R163: the rank of a core in its gang. -/
def rankIn (g : Gang) (c : Nat) : Nat :=
  dieIndex g (dieOf c) * g.cols * g.rows + (rowOf c - (originOf g (dieOf c)).2) * g.cols
    + (colOf c - (originOf g (dieOf c)).1)

/-- Whether a core lies in a gang's rectangle on its die. -/
def inRect (g : Gang) (die col row : Nat) : Bool :=
  let o := originOf g die
  g.dies.contains die && o.1 ≤ col && col < o.1 + g.cols && o.2 ≤ row && row < o.2 + g.rows

/-- The core of a rank. -/
def coreOfRank (g : Gang) (r : Nat) : Nat :=
  let n := g.cols * g.rows
  let die := g.dies.getD (r / n) 0
  let o := g.orgs.getD (r / n) (0, 0)
  coreNo die (o.1 + r % n % g.cols) (o.2 + r % n / g.cols)

/-- All cores of a gang in ascending rank. -/
def coresOf (g : Gang) : List Nat := (List.range (g.cols * g.rows * g.dies.length)).map (coreOfRank g)

/-- The bound slots of a mask (Table 6.4). -/
def slotsOf (mask : Nat) : List Nat := (List.range 8).filter (fun t => mask / 2 ^ t % 2 = 1)

/-! ## Memory: bytes, words, poison (R197, R200, R201, R206, R251)

A byte has the key of its local device physical address (Table 8.5), the aperture of Table 17.1 among them; a remote
node's bytes have keys from 2^60 up, and the code stores of the service cores keys from 2^62 up. -/

/-- What a byte of memory that nothing has written reads as. (Log 3: DESIGN CHOICE.) -/
abbrev memDefault : Byte := 0

def getByte (s : State) (a : Nat) : Byte := tget memDefault s.mem a

def putByte (s : State) (a : Nat) (b : Byte) : State := { s with mem := tput memDefault s.mem a b }

/-- The canonical form of memory. -/
abbrev Memory.wf (m : List Host.Cell) : Prop := twf memDefault m = true

/-- The bytes of `n` addresses from `a` on. -/
def getBytes (s : State) (a n : Nat) : List Nat := (List.range n).map (fun k => (getByte s (a + k)).toNat)

/-- `n` bytes read little-endian (R3). -/
def getNat (s : State) (a : Nat) : Nat → Nat
  | 0 => 0
  | n + 1 => (getByte s a).toNat + 256 * getNat s (a + 1) n

/-- `n` bytes written little-endian. -/
def putNat (s : State) (a : Nat) : Nat → Nat → State
  | 0, _ => s
  | n + 1, v => putNat (putByte s a (BitVec.ofNat 8 (v % 256))) (a + 1) n (v / 256)

/-- Bytes written in ascending addresses. -/
def putBytes (s : State) (a : Nat) : List Nat → State
  | [] => s
  | b :: r => putBytes (putByte s a (BitVec.ofNat 8 b)) (a + 1) r

/-- Whether the 32-bit word that holds address `a` is full. -/
def isFull (s : State) (a : Nat) : Bool := !tget false s.empty (a / 4)

def setFull (s : State) (a : Nat) (full : Bool) : State := { s with empty := tput false s.empty (a / 4) (!full) }

/-- The words of `n` bytes from `a` on. -/
def wordsOf (a n : Nat) : List Nat := (List.range ((a + n - 1) / 4 - a / 4 + 1)).map (fun k => 4 * (a / 4 + k))

def setFulls (s : State) (full : Bool) (ws : List Nat) : State := ws.foldl (fun x a => setFull x a full) s

/-- The local address of a byte in its own device. -/
def localOf (a : Nat) : Nat := if 2 ^ 60 ≤ a ∧ a < 2 ^ 62 then a % 2 ^ 50 else a

/-- Bank words of a scratchpad have 16 bytes, lines of DRAM 64, here and in other nodes: the size of the unit that ECC
covers. -/
def eccUnit (a : Nat) : Nat := if 0x3000000000000 ≤ localOf a then 16 else 64

def isPoison (s : State) (a : Nat) : Bool := tget false s.poison (a / eccUnit a * eccUnit a)

def setPoison (s : State) (a : Nat) (b : Bool) : State :=
  { s with poison := tput false s.poison (a / eccUnit a * eccUnit a) b }

/-- The ECC units of `n` bytes from `a` on. -/
def unitsOf (a n : Nat) : List Nat :=
  (List.range ((a + n - 1) / eccUnit a - a / eccUnit a + 1)).map (fun k => eccUnit a * (a / eccUnit a + k))

/-- Whether `n` bytes from `a` cover the unit at `u` whole. -/
def coversUnit (a n u : Nat) : Bool := a ≤ u && u + eccUnit a ≤ a + n

/-- Whether a read of `n` bytes from `a` meets poison. -/
def readPoison (s : State) (a n : Nat) : Bool := (unitsOf a n).any (isPoison s)

/-- Whether a write of `n` bytes from `a` covers a poisoned unit in part. -/
def writePoison (s : State) (a n : Nat) : Bool := (unitsOf a n).any (fun u => isPoison s u && !coversUnit a n u)

/-- A write that covers a unit whole clears its poison. -/
def clearPoison (s : State) (a n : Nat) : State :=
  ((unitsOf a n).filter (coversUnit a n)).foldl (fun x u => setPoison x u false) s

/-- The address of byte 0 of a core's scratchpad (Table 17.1). -/
def scratch (c : Nat) : Nat :=
  if isSvc c then 0x3000040000000 + (c - 512) / 4 * 0x200000 + c % 4 * 0x80000
  else 0x3000000000000 + c / 128 * 0x10000000 + c % 128 * 0x200000

/-- The bytes of a core's scratchpad. -/
def scratchLimit (c : Nat) : Nat := if isSvc c then 0x80000 else 0x200000

/-- The address of byte 0 of a core's code store; that of a service core is in no address map. (Log 74: DESIGN CHOICE.) -/
def codeStore (c : Nat) : Nat :=
  if isSvc c then 2 ^ 62 + (c - 512) * 0x40000 else 0x3000100000000 + c / 128 * 0x2000000 + c % 128 * 0x40000

/-- The pieces of an access: places in memory and lengths. -/
abbrev Pieces := List (Nat × Nat)

/-- Whether pieces cover a bank word whole. -/
def coversWord (ps : Pieces) (u : Nat) : Bool :=
  (List.range 16).all (fun k => ps.any (fun p => p.1 ≤ u + k && u + k < p.1 + p.2))

/-- Whether a byte lies in the state block of a service core (R410), where software must not store. -/
def inBlock (a : Nat) : Bool :=
  0x3000040000000 ≤ a && a < 0x3000040800000 && 0x6FF00 ≤ a % 0x80000 && a % 0x80000 < 0x6FF90

/-- What a store of these bytes leaves there: the bytes, or in a state block free values (R9). (Log 81: DESIGN CHOICE.) -/
def storedBytes (a : Nat) (l : List Nat) : List Nat :=
  ((List.range l.length).zip l).map (fun p => if inBlock (a + p.1) then Config.blockByte (a + p.1) p.2 else p.2)

/-- Writes bytes at places in order; a bank word that is covered whole loses its poison. -/
def storePieces (s : State) (l : List (Nat × List Nat)) : State :=
  let ps := l.map (fun p => (p.1, p.2.length))
  let s1 := l.foldl (fun x p => putBytes x p.1 (storedBytes p.1 p.2)) s
  (ps.flatMap (fun p => unitsOf p.1 p.2)).foldl (fun x u =>
    if isPoison x u && coversWord ps u then setPoison x u false else x) s1

/-! ## The thread port (R124, R198, R201, R247) -/

/-- An access of a thread port performs: it writes its bytes and sets the full/empty bits of its words. -/
def performPort (s : State) (a : PortAccess) : State :=
  let s1 := storePieces s a.writes
  match a.full with
  | none => s1
  | some b => setFulls s1 b (a.touch.flatMap (fun p => wordsOf p.1 p.2))

/-- What an access that issues now finds when it performs: every access of the core's thread port before it has
performed, and the engine port changes none of its words until then (R124, R201, R247). -/
def settled (s : State) (c : Nat) : State := (core s c).port.foldl performPort s

/-- Whether two ranges share a bank word. -/
def sharesWord (a n b m : Nat) : Bool := a / 16 ≤ (b + m - 1) / 16 && b / 16 ≤ (a + n - 1) / 16

/-- Whether the thread port of core `c` holds a bank word of `n` bytes from `a` on. -/
def portHolds (s : State) (c a n : Nat) : Bool :=
  (core s c).port.any (fun p => p.touch.any (fun q => sharesWord q.1 q.2 a n))

/-- Whether a change by the engine port of core `c` has to wait: for a bank word, or behind another that waits (R198). -/
def portBars (s : State) (c a n : Nat) : Bool := !(core s c).waits.isEmpty || portHolds s c a n

/-- An event of core `c`'s engine port waits until its bank words are free. -/
def portWait (s : State) (c : Nat) (i : Instr) (args : List Nat) : State :=
  modCore s c (fun k => { k with waits := k.waits ++ [(i, args)] })

/-- The first cycle after every access that core `c`'s thread port has issued (R253, R254). -/
def portFree (s : State) (c : Nat) : Nat := (core s c).port.foldl (fun m p => max m (p.due + 1)) 0

/-! ## Activity (R381, Table 17.12)

Events of the table, in its order: 0 a resident turn, 1 a slot issued, 2 a cluster of a vector instruction, 3 a bank word,
4 a matrix row, 5 a row pair of four-bit elements, 6 a half row, 7 a DRAM line, 8 and 9 64 bytes across a conduit and
through an edge group. -/

/-- A core counts `n` events. -/
def tick (s : State) (c kind n : Nat) : State :=
  modCore s c (fun k => { k with activity := tput 0 k.activity kind (tget 0 k.activity kind + n) })

/-- The weights, in pJ. -/
def weightOf (kind : Nat) : Nat := [6, 4, 9, 2, 2400, 2600, 2500, 520, 180, 640].getD kind 0

/-- The charge of a core's counters, in pJ. -/
def chargeOf (k : Core) : Nat := (k.activity.map (fun p => p.2 * weightOf p.1)).sum

/-! ## The agenda -/

/-- The free value at the counter, and the state with the counter advanced. (Log 1: DESIGN CHOICE.) -/
def drawLat (s : State) : Nat × State := (Config.latency s.draw, { s with draw := s.draw + 1 })

def drawChoice (s : State) : Bool × State := (Config.choice s.draw, { s with draw := s.draw + 1 })

/-- Takes the number at place `k` out of ranges of a first number and a length: the number, and the ranges that remain. -/
def pickFrom : Nat → List (Nat × Nat) → Nat × List (Nat × Nat)
  | _, [] => (0, [])
  | k, (a, n) :: r =>
    if k < n then
      (a + k, (if k = 0 then [] else [(a, k)]) ++ (if k + 1 < n then [(a + k + 1, n - k - 1)] else []) ++ r)
    else
      let p := pickFrom (k - n) r
      (p.1, (a, n) :: p.2)

/-- One of the numbers of some ranges, any of them. -/
def drawFrom (s : State) (l : List (Nat × Nat)) : (Nat × List (Nat × Nat)) × State :=
  let n := (l.map (fun r => r.2)).sum
  if n ≤ 1 then (pickFrom 0 l, s)
  else (pickFrom (Config.latency s.draw % n) l, { s with draw := s.draw + 1 })

/-- `n` free values from the counter on, and the state with the counter advanced. (Log 91: DESIGN CHOICE.) -/
def drawWords (s : State) (n : Nat) : List Nat × State :=
  ((List.range n).map (fun i => Config.freeWord (s.draw + i)), { s with draw := s.draw + n })

/-- Puts free values into `n` bytes from `a` on. (Log 91: DESIGN CHOICE.) -/
def freeBytes (s : State) (a n : Nat) : State :=
  let d := drawWords s n
  putBytes d.2 a d.1

def drawTicket (s : State) : Nat × State := (Config.ticket s.draw % 65536, { s with draw := s.draw + 1 })

/-- Inserts an event after every event that is due no later. (Log 6: DESIGN CHOICE.) -/
def insEvent (e : Event) : List Event → List Event
  | [] => [e]
  | x :: r => if x.due ≤ e.due then x :: insEvent e r else e :: x :: r

/-- An event at a fixed cycle. (Log 6: DESIGN CHOICE; log 7: DEDUCED.) -/
def at' (s : State) (due : Nat) (i : Instr) (args : List Nat) : State :=
  { s with agenda := insEvent { due := due, instr := i, args := args, chan := [] } s.agenda }

/-- The cycle of the latest event of an ordering class. -/
def chanDue (chan : List Nat) (l : List Event) : Nat :=
  l.foldl (fun m e => if e.chan = chan then max m e.due else m) 0

/-- An event after a time that the device chooses; events of one nonempty class keep their order. (Log 1: DESIGN CHOICE.) -/
def later (s : State) (chan : List Nat) (i : Instr) (args : List Nat) : State :=
  let d := drawLat s
  let due := max (s.gcyc + 1 + d.1) (if chan = [] then 0 else chanDue chan s.agenda)
  { d.2 with agenda := insEvent { due := due, instr := i, args := args, chan := chan } s.agenda }

/-- As `later`, and not before `floor`. (Log 1: DESIGN CHOICE.) -/
def laterFrom (s : State) (floor : Nat) (chan : List Nat) (i : Instr) (args : List Nat) : State :=
  let d := drawLat s
  let due := max (max (s.gcyc + 1) floor + d.1) (if chan = [] then 0 else chanDue chan s.agenda)
  { d.2 with agenda := insEvent { due := due, instr := i, args := args, chan := chan } s.agenda }

/-- As `later`, within `bound` cycles where the spec gives a bound. (Log 1: DESIGN CHOICE.) -/
def laterIn (s : State) (bound : Nat) (i : Instr) (args : List Nat) : State :=
  let d := drawLat s
  at' d.2 (s.gcyc + 1 + d.1 % bound) i args

/-- Argument `k` of the event at work. -/
def arg (s : State) (k : Nat) : Nat := s.cur.args.getD k 0

/-- A fresh identifier. -/
def fresh (s : State) : Nat × State := (s.nextId, { s with nextId := s.nextId + 1 })

/-! ## Completions on queue 0 (R368, R328, R382, R383, R393) -/

def queue (s : State) (q : Nat) : Queue := tget { owner := q / 16 } s.front.queues q

def modQueue (s : State) (q : Nat) (f : Queue → Queue) : State :=
  { s with front := { s.front with queues := tset s.front.queues q (f (queue s q)) } }

/-- A completion that the Fumarole writes of itself. -/
def report0 (s : State) (cause detail : Nat) : State :=
  let k : Completion :=
    { cmdseq := 0, kind := 0, detail := detail, cause := cause, status := 0, value := 0, quiet := false, notify := true,
      frame := s.front.frames, after := [] }
  modQueue s 0 (fun q => { q with due := q.due ++ [k] })

/-! ## Messages to service cores (R329, R331) -/

/-- Word 0 of a message (Table 14.4). -/
def msgWord0 (cause kind src slot acause ticket : Nat) : Nat :=
  cause * 2 ^ 56 + kind * 2 ^ 52 + src * 2 ^ 28 + slot * 2 ^ 25 + acause * 2 ^ 16 + ticket

/-- Posts a message from source `src` to service core `sv`. -/
def post (s : State) (sv src : Nat) (words : List Nat) : State :=
  later s [1, src] .inboundMessageWrite (sv :: words)

/-- The eight words of a message of thread (c, t). -/
def threadMessage (s : State) (c t cause kind acause ticket : Nat) (w : List Nat) : List Nat :=
  [msgWord0 cause kind (coord s c) t acause ticket] ++ w ++ List.replicate (5 - w.length) 0
    ++ [s.gcyc % 2 ^ 64, (thread s c t).ttc % 2 ^ 64]

/-- Posts a message of a thread to the service core of its quadrant; the ticket is fresh and the thread awaits it. -/
def postThread (s : State) (c t cause kind acause : Nat) (w : List Nat) : State :=
  let d := drawTicket s
  let s1 := modThread d.2 c t (fun th => { th with ticket := d.1 })
  post s1 (svcFor c) (8 * c + t) (threadMessage s c t cause kind acause d.1 w)

/-- Posts the message of a thread that halts: it awaits no reply (R326, R334), so a ticket that the thread awaits for
another message stays. -/
def postHalted (s : State) (c t cause acause addr : Nat) : State :=
  let d := drawTicket s
  post d.2 (svcFor c) (8 * c + t) (threadMessage s c t cause 2 acause d.1 [addr])

/-! ## Registers (R12, R15, R25, R26) -/

/-- R15: the physical register of a scalar name. -/
def physS (th : Thread) (n : Nat) : Nat := if n < 32 then n else 32 + (n - 32 + th.srb) % 32

def physP (th : Thread) (n : Nat) : Nat := if n < 16 ∨ 32 ≤ n then n else 16 + (n - 16 + th.prb) % 16

def physV (th : Thread) (n : Nat) : Nat :=
  if n < 16 ∨ th.nv ≤ 16 then n else 16 + (n - 16 + th.vrb) % (th.nv - 16)

/-- The zero register's value. -/
abbrev sZero : SReg := { body := 0, tail := 0 }

/-- R12: s0 reads as zero. -/
def getS (th : Thread) (n : Nat) : SReg := if n = 0 then sZero else tget sZero th.sregs (physS th n)

/-- p0 reads as all ones. -/
def getP (th : Thread) (n : Nat) : Pred := if n = 0 then BitVec.allOnes 128 else tget 0 th.pregs (physP th n)

def getA (th : Thread) (n : Nat) : Addr := tget 0 th.aregs n

abbrev laneZero : Lane := { data := 0, tail := 0 }

/-- Lane 16 × cluster + lane of a vector register. -/
def getV (th : Thread) (n l : Nat) : Lane := tget laneZero th.vregs (128 * physV th n + l)

/-- Table 3.9: the predicate of a guard. -/
def guardPred (th : Thread) (g : Nat) : Pred := if g < 48 then getP th g else ~~~ getP th (g - 48)

/-- The guard's bit of a lane. -/
def guardBit (th : Thread) (g l : Nat) : Bool := (guardPred th g).getLsbD l

/-- Operand values of the bundle at work. -/
def sreg (s : State) (n : Nat) : SReg := getS (me s) n
def body (s : State) (n : Nat) : Word := (getS (me s) n).body
def nat (s : State) (n : Nat) : Nat := (getS (me s) n).body.toNat
def preg (s : State) (n : Nat) : Pred := getP (me s) n
def areg (s : State) (n : Nat) : Addr := getA (me s) n
def vlane (s : State) (n l : Nat) : Lane := getV (me s) n l

/-- The lanes of a core of its kind: a service core has cluster 0 alone. -/
def laneCount (s : State) : Nat := if svc s then 16 else 128

/-! ## Landings (R19, R26, R27, R101) -/

/-- Places a landing in issue order among the pending ones. -/
def insLanding (l : Landing) : List Landing → List Landing
  | [] => [l]
  | x :: r =>
    if x.issued < l.issued ∨ x.issued = l.issued ∧ x.pos ≤ l.pos then x :: insLanding l r else l :: x :: r

/-- Schedules a landing of the instruction at work, `lat` turns from now, with the flags it raises. A landing that is due
beyond the wrap of the 64-bit TTC does not apply. (Log 79: DESIGN CHOICE.) -/
def land (s : State) (lat : Nat) (act : LandAct) (flags : Nat) : State :=
  modMe s (fun th =>
    let l : Landing := { due := th.ttc + lat, issued := th.ttc, pos := s.cur.pos, act := act, flags := flags }
    { th with lands := insLanding l th.lands })

/-- Notes the flags that the bundle's fixed-time results and settles would raise (R325). -/
def note (s : State) (flags : Nat) : State := { s with cur := { s.cur with flags := flagOr s.cur.flags flags } }

/-- A scalar destination, resolved at issue. -/
def landS (s : State) (d lat : Nat) (v : SReg) (flags : Nat := 0) : State :=
  land s lat (.sreg (physS (me s) d) v) flags

/-- A scalar result with tail 00 (R17). -/
def landW (s : State) (d lat : Nat) (v : Word) (flags : Nat := 0) : State := landS s d lat { body := v, tail := 0 } flags

/-- A held value of a format placed in a scalar register (R17, R100). -/
def landH (s : State) (d lat : Nat) (h : Held) (flags : Nat) : State :=
  landS s d lat { body := BitVec.ofNat 64 h.body, tail := BitVec.ofNat 2 h.tail } flags

/-- A predicate destination with the bits that are written. -/
def landP (s : State) (d : Nat) (v mask : Pred) (flags : Nat := 0) : State :=
  land s 1 (.preg (physP (me s) d) v mask) flags

/-- A predicate result written to all 128 bits (R16). -/
def landB (s : State) (d : Nat) (b : Bool) (flags : Nat := 0) : State :=
  landP s d (if b then BitVec.allOnes 128 else 0) (BitVec.allOnes 128) flags

def landA (s : State) (d : Nat) (v : Addr) : State := land s 1 (.areg d v) 0

/-- The lanes of a vector destination. -/
def landV (s : State) (d lat : Nat) (l : List (Nat × Lane)) (flags : Nat := 0) : State :=
  land s lat (.lanes (physV (me s) d) l) flags

def landSys (s : State) (n : Nat) (v : Word) : State := land s 1 (.sys n v) 0

/-- The merge of INS (R106). -/
def insMerge (m a : Word) (pos wid : Nat) : Word :=
  let k : Word := BitVec.ofNat 64 ((2 ^ wid - 1) * 2 ^ pos % 2 ^ 64)
  (m &&& ~~~ k) ||| ((a <<< pos) &&& k)

/-- The exact value of a scalar register read in a format (R17, R100). -/
def SReg.held (f : Fmt) (r : SReg) : Held := ⟨r.body.toNat % 2 ^ f.width, r.tail.toNat⟩

/-- The merge of FMA (R101, R113) with the flags decided at the landing. -/
def fmaMerge (f : Fmt) (a b : Held) (p : Cvp) (m : SReg) : SReg × Nat :=
  let r := fpFma p.mode (a.val f) (b.val f) ((m.held f).val f)
  let w := writeFp p f r.1
  ({ body := BitVec.ofNat 64 w.1.body, tail := BitVec.ofNat 2 w.1.tail }, flagOr r.2 w.2)

/-- Writes lanes of one physical vector register. -/
def putLanes (v : Tab Lane) (n : Nat) (l : List (Nat × Lane)) : Tab Lane :=
  l.foldl (fun t p => tput laneZero t (128 * n + p.1) p.2) v

/-- Writes a physical scalar register; a write to s0 is discarded (R12). -/
def putSreg (t : Tab SReg) (n : Nat) (v : SReg) : Tab SReg := if n = 0 then t else tput sZero t n v

/-- Writes the bits of a physical predicate register that the mask names; a write to p0 is discarded (R12). -/
def putPreg (t : Tab Pred) (n : Nat) (v m : Pred) : Tab Pred :=
  if n = 0 then t else tput 0 t n ((v &&& m) ||| (tget 0 t n &&& ~~~ m))

/-- Applies the register part of a landing (R27). (Log 16: DESIGN CHOICE.) -/
def applyAct (th : Thread) (l : Landing) : Thread :=
  let th := { th with flags := flagOr th.flags l.flags }
  match l.act with
  | .nothing => th
  | .sreg n v => { th with sregs := putSreg th.sregs n v }
  | .areg n v => { th with aregs := tput 0 th.aregs n v }
  | .preg n v m => { th with pregs := putPreg th.pregs n v m }
  | .lanes n ls => { th with vregs := putLanes th.vregs n ls }
  | .lce n e => { th with lces := tset th.lces n e }
  | .fma n f a b p =>
    let r := fmaMerge f a b p (tget sZero th.sregs n)
    { th with sregs := putSreg th.sregs n r.1, flags := flagOr th.flags r.2 }
  | .ins n a pos wid =>
    { th with sregs := putSreg th.sregs n { body := insMerge (tget sZero th.sregs n).body a pos wid, tail := 0 } }
  | .movaHi n v =>
    { th with aregs := tput 0 th.aregs n (BitVec.ofNat 72 ((tget 0 th.aregs n).toNat % 2 ^ 64 + v.toNat * 2 ^ 64)) }
  | .trap c a => { th with trapc := c, trapa := a }
  | .sys n v =>
    let x := v.toNat
    match n with
    | 0x010 => { th with flags := x }
    | 0x011 => { th with ften := x }
    | 0x014 => { th with trapc := x, hact := false }
    | 0x015 => { th with trapa := x }
    | 0x016 => { th with srb := x }
    | 0x017 => { th with vrb := x }
    | 0x018 => { th with prb := x }
    | 0x019 => { th with lsd := x }
    | 0x802 => { th with pstat := x }
    | _ => if 0x020 ≤ n ∧ n ≤ 0x025 then
        let e : LoopEntry :=
          { lstart := BitVec.ofNat 29 (x / 2 ^ 33), lepi := BitVec.ofNat 4 (x / 2 ^ 29), lcnt := BitVec.ofNat 29 x }
        { th with lces := tset th.lces (n - 0x020) e }
      else th

/-- A word of the state block that reaches a service core's engine port is written full, when the port lets it (R198, R410). -/
def takePub (s : State) (c k v : Nat) : State :=
  if portBars s c k 8 then portWait s c .hostApertureAccess [2, k, v] else setFulls (putNat s k 8 v) true (wordsOf k 8)

/-- Messages waiting at a service core are written while n − INQR < 1,024, through its engine port (R329): one waits while
the thread port holds its slot, and behind what waits there (R198). -/
def drainInbox : Nat → State → Nat → State
  | 0, s, _ => s
  | n + 1, s, c =>
    let v := (core s c).svc
    match v.inbox with
    | [] => s
    | m :: r =>
      if (v.inqw + 65536 - v.inqr) % 65536 < 1024 then
        let base := scratch c + 0x70000 + 64 * (v.inqw % 1024)
        if portBars s c base 64 then s else
        let s1 := (List.range 8).foldl (fun x k => putNat x (base + 8 * k) 8 (m.getD k 0)) s
        let s2 := clearPoison (setFulls s1 true (wordsOf base 64)) base 64
        drainInbox n (modCore s2 c (fun k => { k with svc := { k.svc with inqw := (v.inqw + 1) % 65536, inbox := r } })) c
      else s

/-- The register writes of a service core that a landing makes (Table 14.3): INQR lets messages in, DBGSEL starts a
debug read (R336). -/
def applySvc (s : State) (c t n : Nat) (v : Word) : State :=
  if n = 0x801 then
    let s1 := modCore s c (fun k => { k with svc := { k.svc with inqr := v.toNat } })
    drainInbox 1024 s1 c
  else if n = 0x804 then modCore s c (fun k => { k with svc := { k.svc with gsel := v.toNat } })
  else if n = 0x805 then
    let s1 := modCore s c (fun k => { k with svc := { k.svc with dbgsel := v, dbgBusy := true } })
    later s1 [] .debugReadComplete [c, t, v.toNat]
  else s

/-! ## Acquires of the race detector (R269) -/

/-- The identifier of an agent of a gang: kind, rank and index. -/
def agentId (g : Gang) (c kind idx : Nat) : Nat := kind * 4096 + rankIn g c * 8 + idx

/-- An agent of core `c` acquires (R269). (Log 31: DEDUCED.) -/
def noteAcquire (s : State) (c kind idx : Nat) : State :=
  match (core s c).gang with
  | none => s
  | some n =>
    let g := gang s n
    if g.raceMode = 0 then s
    else modGang s n (fun g => { g with acquired := tput 0 g.acquired (agentId g c kind idx) s.gcyc })

/-- Applies one landing of thread (c, t); a far acquire counts at its landing. -/
def applyLanding (c t : Nat) (s : State) (l : Landing) : State :=
  let s0 := modThread s c t (fun th => applyAct th l)
  let s1 := if l.acq then noteAcquire s0 c 0 t else s0
  match l.act with
  | .sys n v => if isSvc c then applySvc s1 c t n v else s1
  | _ => s1

/-- Applies every landing due at or before the turn with count `ttc`, in the order of R27. -/
def applyLandings (s : State) (c t ttc : Nat) : State :=
  let th := thread s c t
  let s1 := modThread s c t (fun th => { th with lands := th.lands.filter (fun l => ttc < l.due) })
  (th.lands.filter (fun l => l.due ≤ ttc)).foldl (applyLanding c t) s1

/-! ## Traps (R324 to R326) -/

/-- The class of a cause (Table 14.1). -/
def causeClass (c : Nat) : Nat :=
  if c < 0x10 then 0 else if c < 0x20 then 1 else if c < 0x40 then 2 else if c < 0x60 then 3 else if c < 0x80 then 4
  else if c < 0xA0 then 5 else if c < 0xC0 then 6 else if c < 0xE0 then 7 else 8

/-- The causes that a thread may trap with: those that Table 14.2 lists and that reach a thread (R327). -/
def raisable (c : Nat) : Bool :=
  (1 ≤ c && c ≤ 0x0D && c ≠ 0x07) || (0x10 ≤ c && c ≤ 0x24) || c = 0x28 || c = 0x29 || (0x40 ≤ c && c ≤ 0x44)
    || (0x60 ≤ c && c ≤ 0x67) || (0x80 ≤ c && c ≤ 0x86) || (0xA0 ≤ c && c ≤ 0xA3) || (0xC0 ≤ c && c ≤ 0xC2)

/-- TRAPC and TRAPA apply at the start of the next turn, after every other landing of that turn (R324). (Log 16: DESIGN CHOICE.) -/
def landTrap (th : Thread) (cause addr : Nat) : Thread :=
  let l : Landing := { due := th.ttc + 1, issued := th.ttc, pos := 9, act := .trap cause addr, flags := 0 }
  { th with lands := insLanding l th.lands }

/-- The end of a thread that has trapped without a handler: HALT and a message of KIND 2 (R326); a service thread's is
a completion on queue 0 (R328). -/
def haltWith (s : State) (c t cause acause addr : Nat) : State :=
  let s1 := modThread s c t (fun th => { th with st := .halt })
  if isSvc c then report0 s1 cause (0x40 + (c - 512)) else postHalted s1 c t cause acause addr

/-- Takes a trap of thread (c, t) with its cause at bundle address `addr` (R324, R326): the open packet is discarded,
TRAPC and TRAPA are set, and the thread branches to its handler or halts. Entry to the handler discards an MREP (R295); a
thread that halts keeps its count. A request of a privileged instruction is the bundle's that trapped: none awaits its
acknowledgement any more (R332). (Log 16: DESIGN CHOICE; log 88: DEDUCED; log 89: DEDUCED.) -/
def takeTrapAt (s : State) (c t cause addr : Nat) : State :=
  let th := thread s c t
  let th1 := { th with packet := none, priv := none, privDone := none }
  if th.hact then haltWith (setThread s c t (landTrap th1 0x0D addr)) c t 0x0D cause addr
  else if cause = 0x0D then haltWith (setThread s c t (landTrap th1 0x0D addr)) c t 0x0D 0 addr
  else
    match tfind (core s c).trapv (causeClass cause) with
    | some seg =>
      setThread s c t { landTrap th1 cause addr with hact := true, next := seg * 32, st := .run, mrep := none }
    | none => haltWith (setThread s c t (landTrap th1 cause addr)) c t cause 0 addr

/-- The instruction at work traps (R324): the trap is taken and marked for the turn, which discards the bundle's other
effects. -/
def trapNow (s : State) (cause : Nat) : State :=
  let s1 := takeTrapAt s s.cur.core s.cur.slot cause s.cur.addr
  { s1 with cur := { s1.cur with trap := some cause } }

/-- The blocking condition of the instruction at work does not hold (R161). -/
def blockNow (s : State) : State := { s with cur := { s.cur with block := true } }

/-- The next bundle of the thread at work (R24). -/
def jumpTo (s : State) (a : Nat) : State := { s with cur := { s.cur with jump := some a } }

/-! ## Semaphores (R189) -/

def sem (s : State) (c n : Nat) : Nat := tget 0 (core s c).sems n

def setSem (s : State) (c n v : Nat) : State := modCore s c (fun k => { k with sems := tput 0 k.sems n v })

end Sys2Proof.Machine
end

