-- ==== Sys2Proof/Machine/Flags.lean ====
section
/-! DEFINITION. Flags (R19, R63, R325): which enabled flag traps, and results that land with the flags they raise. -/

namespace Sys2Proof.Machine

/-- R325: the cause of the first enabled flag in the order NV, DZ, OF, UF, NX; `none` where no raised flag is
enabled. -/
def enabledCause (ften flags : Nat) : Option Nat :=
  ((List.range 5).find? (fun k => bitsAt ften k 1 = 1 ∧ bitsAt flags k 1 = 1)).map (fun k => 0x20 + k)

/-- Flags of an instruction without a register result land with latency 1 (R63). -/
def landFlags (s : State) (flags : Nat) : State :=
  if flags = 0 then s else land (note s flags) 1 .nothing flags

/-- A floating result written to a scalar register under the bundle's prefix (R53, R66, R113). -/
def landFp (s : State) (d lat : Nat) (f : Fmt) (r : Exact × Nat) : State :=
  let w := writeFp s.cur.cvp f r.1
  let fl := flagOr r.2 w.2
  landH (note s fl) d lat w.1 fl

/-- A chosen operand written to a scalar register (R70). -/
def landChosen (s : State) (d : Nat) (f : Fmt) (r : Held × Nat) : State :=
  let w := writeHeld s.cur.cvp f r.1
  let fl := flagOr r.2 w.2
  landH (note s fl) d 1 w.1 fl

/-- A scalar bit pattern or integer that lands with flags. -/
def landFl (s : State) (d lat : Nat) (v : Word) (fl : Nat) : State := landW (note s fl) d lat v fl

/-- A predicate result that lands with flags. -/
def landBFl (s : State) (d : Nat) (b : Bool) (fl : Nat) : State := landB (note s fl) d b fl

/-- The lanes of a vector result that land with flags. -/
def landVFl (s : State) (d lat : Nat) (l : List (Nat × Lane)) (fl : Nat) : State := landV (note s fl) d lat l fl

end Sys2Proof.Machine
end

