-- ==== Sys2Proof/Machine/Operands.lean ====
section
/-! DEFINITION. Operand forms: the immediates of the S slot (R83, R99), the elements of a lane (R55), the values that
loads extend and stores settle (Tables 4.11, 4.13), and the checks of a local access (R123, R201). -/

namespace Sys2Proof.Machine

/-! ## The S slot (R98, R99) -/

/-- The 64-bit sign extension of the low `n` bits. -/
def sextTo64 (n x : Nat) : Word := BitVec.ofInt 64 (sextNat n x)

/-- Operand b: the register, or the sign-extended imm32. -/
def opB (s : State) (w : SWord) : Word :=
  match w.imm with
  | none => body s w.b
  | some n => sextTo64 32 n

/-- Operand b with the zero-extended imm32. -/
def opBz (s : State) (w : SWord) : Word :=
  match w.imm with
  | none => body s w.b
  | some n => BitVec.ofNat 64 n

/-- A held operand of a scalar register. -/
def heldS (s : State) (f : Fmt) (n : Nat) : Held := (sreg s n).held f

/-- The floating immediate: an FP32 encoding with tail 00, widened exactly in the FP64 row (R99). -/
def immHeld (f : Fmt) (n : Nat) : Held :=
  match f with
  | .f64 => hold .f64 ((Held.val .f32 ⟨n, 0⟩).exact)
  | _ => ⟨n, 0⟩

/-- Floating operand b. -/
def heldB (s : State) (f : Fmt) (w : SWord) : Held :=
  match w.imm with
  | none => heldS s f w.b
  | some n => immHeld f n

/-! ## Elements of a lane (R55, Table 2.9) -/

/-- Data bits of element `k` at width `wd`. -/
def elemBits (wd k : Nat) (l : Lane) : Nat := bitsAt l.data.toNat (wd * k) wd

/-- A held element. -/
def elemHeld (f : Fmt) (k : Nat) (l : Lane) : Held := ⟨elemBits f.width k l, bitsAt l.tail.toNat (2 * k) 2⟩

/-- The lane whose elements, from 0 up, are these. -/
def mkLane (wd : Nat) (es : List Held) : Lane :=
  let n := es.length
  { data := BitVec.ofNat 32 (((List.range n).zip es).map (fun p => p.2.body % 2 ^ wd * 2 ^ (wd * p.1))).sum
    tail := BitVec.ofNat 8 (((List.range n).zip es).map (fun p => p.2.tail % 4 * 4 ^ p.1)).sum }

/-- A lane of integer elements, with tail 00. -/
def mkLaneI (wd : Nat) (es : List Nat) : Lane := mkLane wd (es.map (fun x => ⟨x, 0⟩))

/-- The elements of one lane in a width. -/
def elems (wd : Nat) : List Nat := List.range (32 / wd)

/-- An element of an integer type as an integer. -/
def elemInt (ty wd k : Nat) (l : Lane) : Int :=
  match intOf ty with
  | some (_, true) => sextNat wd (elemBits wd k l)
  | _ => (elemBits wd k l : Nat)

/-! ## Values of loads and stores -/

/-- Table 4.11: what a load of an SZ code writes to a scalar register. -/
def loadExt (sz v : Nat) : Word :=
  match sz with
  | 0 => sextTo64 8 v
  | 2 => sextTo64 16 v
  | 4 => sextTo64 32 v
  | _ => BitVec.ofNat 64 v

/-- Table 4.11: the bytes that a store of an SZ code writes for a scalar register, as a number, and the flags of its
settle (R56). -/
def storeVal (p : Cvp) (sz : Nat) (narrow : Bool) (r : SReg) : Nat × Nat :=
  match fmtOf sz with
  | none => (r.body.toNat % 2 ^ (8 * szBytes sz), 0)
  | some f =>
    let g := if narrow then .f32 else f
    settle g (r.held g) f p.mode p.sat

/-- A lane as the image form stores it: every floating element settled in its own format (R128). -/
def storeLane (p : Cvp) (sz : Nat) (l : Lane) : Nat × Nat :=
  match fmtOf sz with
  | none => (l.data.toNat, 0)
  | some f =>
    (elems f.width).foldl (fun acc k =>
      let r := settle f (elemHeld f k l) f p.mode p.sat
      (acc.1 + r.1 * 2 ^ (f.width * k), flagOr acc.2 r.2)) (0, 0)

/-- A lane of held FP32 settled once into a narrower type (R128, R129). -/
def narrowLane (p : Cvp) (sz : Nat) (l : Lane) : Nat × Nat :=
  match fmtOf sz with
  | none => (l.data.toNat, 0)
  | some f => settle .f32 (elemHeld .f32 0 l) f p.mode p.sat

/-- Element 0 of a lane as STX stores it. -/
def storeElem (p : Cvp) (sz : Nat) (narrow : Bool) (l : Lane) : Nat × Nat :=
  if narrow then narrowLane p sz l
  else
    match fmtOf sz with
    | none => (elemBits (8 * szBytes sz) 0 l, 0)
    | some f => settle f (elemHeld f 0 l) f p.mode p.sat

/-- What LDX writes to a lane. -/
def loadLane (sz v : Nat) : Lane := { data := BitVec.ofNat 32 (loadExt sz v).toNat, tail := 0 }

/-- The bytes of a spilled cluster (Table 4.13): sixteen bodies, then sixteen tail bytes. -/
def spillCluster (l : List Lane) : List Nat :=
  l.flatMap (fun x => leBytes 4 x.data.toNat) ++ l.map (fun x => x.tail.toNat)

/-- The sixteen lanes of a spilled cluster. -/
def fillCluster (b : List Nat) : List Lane :=
  (List.range 16).map (fun i =>
    { data := BitVec.ofNat 32 (leNat ((b.drop (4 * i)).take 4)), tail := BitVec.ofNat 8 (b.getD (64 + i) 0) })

/-! ## Atomics (Table 4.14, R235) -/

/-- The new memory value of an atomic on an element of `wd` bits, integer where no format is given, and its flags. -/
def atomStep (p : Cvp) (aop wd : Nat) (f : Option Fmt) (old : Nat) (x : Held) : Nat × Nat :=
  let o := old % 2 ^ wd
  let b := x.body % 2 ^ wd
  match f with
  | some g =>
    let r := fpAdd p.mode (Held.val g ⟨o, 0⟩) (x.val g)
    let w := settle g (hold g r.1) g p.mode p.sat
    (w.1, flagOr r.2 w.2)
  | none =>
    (match aop with
      | 0 => (o + b) % 2 ^ wd
      | 1 => o &&& b
      | 2 => o ||| b
      | 3 => o ^^^ b
      | 4 => if sextNat wd o ≤ sextNat wd b then o else b
      | 5 => if sextNat wd o ≤ sextNat wd b then b else o
      | 6 => min o b
      | 7 => max o b
      | _ => b, 0)

/-- The format of an FATOM's TY. -/
def tyFmt (ty : Nat) : Option Fmt := match ty with | 2 => some .f32 | 3 => some .f64 | _ => none

/-- The bytes of an FATOM's TY. -/
def tyBytes (ty : Nat) : Nat := if ty % 2 = 0 then 4 else 8

/-- R235: the old value as it lands. -/
def atomOld (aop ty old : Nat) : Word :=
  if ty = 0 ∧ (aop = 4 ∨ aop = 5) then sextTo64 32 old else BitVec.ofNat 64 old

/-! ## Local accesses (R123, R201) -/

/-- `body(s[base]) + sext(ofs) * unit`, an exact integer. -/
def localEa (s : State) (base ofs bits unit : Nat) : Int := (nat s base : Int) + sextNat bits ofs * unit

/-- The checks of R123 in order: 0 where the access is good. -/
def localCause (s : State) (c : Nat) (ea : Int) (size align : Nat) : Nat :=
  if ea < 0 ∨ (scratchLimit c : Int) < ea + size then 0x40
  else if ea.toNat % align ≠ 0 then 0x41
  else if (core s c).pre ∧ !isSvc c ∧ 0x1C0000 < ea.toNat + size then 0x44
  else 0

/-- The context region lies from 0x1C_0000 to the end of the scratchpad (R199). -/
def inContext (s : State) (c ea size : Nat) : Bool := (core s c).pre && !isSvc c && 0x1C0000 < ea + size

end Sys2Proof.Machine
end

