-- ==== Sys2Proof/Machine/Turn.lean ====
section
/-! DEFINITION. The turn of a thread outside its bundle (R20, R21, R34 to R40, R118, R159, R160, R228, R332 to R335):
landings, replies, the loop buffer and the prefetch engine. -/

namespace Sys2Proof.Machine

/-! ## The loop buffer (R34 to R39, R92, R93) -/

/-- E(L), the turns of an expansion (R34). -/
def expandTurns (len : Nat) : Nat := 2 + (len + 7) / 8

/-- Whether a code-store offset can be read by the prefetch engine. (Log 15: DEDUCED.) -/
def inStore (seg : Nat) : Bool := seg < 0x40000

/-- The segment at an offset of a core's code store, as the prefetch engine expands it; a malformed one has no
bundles and takes no turns. (Log 15: DEDUCED.) -/
def expand (s : State) (c seg : Nat) : Half :=
  let base := codeStore c + seg
  let h := getNat s base 8
  let n := segBytes h
  if !inStore seg || segHeaderBad seg h || (core s c).codeBad.any (fun b => seg ≤ b && b < seg + 8 + n) then
    { seg := seg, next := 0, len := 0, bundles := none, left := 0 }
  else
    match readBundles (segLen h) (getBytes s (base + 8) n) with
    | none => { seg := seg, next := 0, len := 0, bundles := none, left := 0 }
    | some b => { seg := seg, next := segNext h, len := segLen h, bundles := some b, left := expandTurns (segLen h) }

/-- A half that is expanded again from the code store, with the remaining turns of its expansion (R40). -/
def expandAgain (s : State) (c : Nat) (h : Half) : Half :=
  let x := expand s c h.seg
  { x with left := if x.bundles.isSome then h.left else 0 }

def halfOf (th : Thread) (h : Nat) : Option Half := if h = 0 then th.half0 else th.half1

def setHalf (th : Thread) (h : Nat) (x : Half) : Thread :=
  if h = 0 then { th with half0 := some x } else { th with half1 := some x }

/-- Whether a half holds a segment. -/
def holds (x : Option Half) (seg : Nat) : Bool :=
  match x with
  | none => false
  | some h => h.seg = seg

/-- The half that holds a segment; the current half first. -/
def findHalf (th : Thread) (seg : Nat) : Option Nat :=
  if holds (halfOf th th.curHalf) seg then some th.curHalf
  else if holds (halfOf th (1 - th.curHalf)) seg then some (1 - th.curHalf) else none

/-- Whether a bundle lies in a pinned range. -/
def inPin (p : Pin) (seg idx : Nat) : Bool :=
  (seg = p.seg && p.idx ≤ idx && idx < p.idx + p.n && idx < p.len)
    || (seg = p.succ && p.len - p.idx < p.n && idx < p.n - (p.len - p.idx))

/-- Whether a segment holds part of a pinned range. -/
def pinHolds (p : Option Pin) (seg : Nat) : Bool :=
  match p with
  | none => false
  | some p => (seg = p.seg && p.idx < p.len) || (seg = p.succ && p.len - p.idx < p.n)

/-- R37: whether a half is protected. -/
def isProtected (th : Thread) (x : Option Half) : Bool :=
  match x with
  | none => false
  | some h =>
    (List.range th.lsd).any (fun j =>
      (tget { lstart := 0, lepi := 0, lcnt := 0 } th.lces j).lstart.toNat / 32 = h.seg) || pinHolds th.pin h.seg

/-- What the prefetch engine does for the successor of the current segment, asked in the turn in which the thread
first issues from the segment or protection has ended (R35). -/
def prefetch (s : State) (c : Nat) (th : Thread) : Thread :=
  match halfOf th th.curHalf with
  | none => { th with prefetch := .idle }
  | some cur =>
    let o := 1 - th.curHalf
    if !inStore cur.next || holds (halfOf th o) cur.next then { th with prefetch := .idle }
    else if isProtected th (halfOf th o) then { th with prefetch := .held }
    else { setHalf th o (expand s c cur.next) with prefetch := .idle }

/-- A prefetch that protection holds back begins in the turn after protection has ended (R35); it takes no half that
the thread is about to issue from. -/
def stepPrefetch (s : State) (c : Nat) (th : Thread) : Thread :=
  match th.prefetch with
  | .idle => th
  | .ready => if findHalf th (th.next / 32) = some (1 - th.curHalf) then th else prefetch s c th
  | .held => if isProtected th (halfOf th (1 - th.curHalf)) then th else { th with prefetch := .ready }

/-- One turn of expansion. -/
def tickHalf (x : Option Half) : Option Half := x.map (fun h => { h with left := h.left - 1 })

/-- The end of a resident turn: expansions advance and TTC counts (R5). -/
def endTurn (s : State) (c t : Nat) : State :=
  tick (modThread s c t (fun th =>
    { th with half0 := tickHalf th.half0, half1 := tickHalf th.half1, ttc := (th.ttc + 1) % 2 ^ 64 })) c 0 1

/-- The bundle that follows in program order: the next of the segment, or bundle 0 of the successor (R117). -/
def following (th : Thread) (addr : Nat) : Nat :=
  match halfOf th th.curHalf with
  | some h => if addr % 32 + 1 < h.len then addr + 1 else h.next * 32
  | none => addr + 1

/-! ## Completion of a task lane (R118, R169) -/

/-- Whether a task lane is complete. -/
def laneDone (s : State) (c t : Nat) : Bool :=
  let th := thread s c t
  th.st = .done && th.faults = [] && th.serving = none && th.busy = 0
    && !s.flights.any (fun f => f.2.core = c && f.2.who = t && !f.2.replied && !f.2.gone)

/-- Whether every bound task lane of a gang is complete; CANCELLED is a reply (R169). -/
def gangDone (s : State) (g : Gang) : Bool :=
  g.released && (coresOf g).all (fun c => (slotsOf g.slotm).all (fun t => laneDone s c t))

/-- The gang completes in the cycle at which its last bound task lane completes. -/
def checkDone (s : State) (c : Nat) : State :=
  match (core s c).gang, gangOf s c with
  | some n, some g => if gangDone s g && !g.savedAll && g.completed.isNone then at' s s.gcyc .gangCompletion [n] else s
  | _, _ => s

/-! ## Delivery faults (R228, R118) -/

/-- Posts the message of a delivery fault; `w1` is the pending bundle, or the END bundle. -/
def postDelivery (s : State) (c t : Nat) (f : FaultRec) (w1 : Nat) : State :=
  let s1 := postThread s c t f.cause 1 0 [w1, f.addr.toNat % 2 ^ 64, f.aword]
  modThread s1 c t (fun th => { th with wait := .delivery, serving := some f, faults := th.faults.drop 1 })

/-- A value that RESUME supplies lands as a load's does (R228, R229); that of a far acquire is acquired there (R269). -/
def landResume (th : Thread) (f : FaultRec) (v : Word) : Thread :=
  match f.dest with
  | none => th
  | some d =>
    let l : Landing := { due := th.ttc, issued := f.issued, pos := f.pos, acq := f.acq, far := some (f.aword, f.addr, f.rx)
                         act := .sreg d { body := loadExt f.code (v.toNat % 2 ^ (8 * szBytes f.code)), tail := 0 }, flags := 0 }
    { th with lands := insLanding l th.lands }

/-- The next delivery fault that a finished thread has to post, if none is being served. A service thread posts no message
to its own core (R328): its fault is kept in TRAPC alone. (Log 84: DEDUCED.) -/
def nextDoneFault (s : State) (c t : Nat) : State :=
  let th := thread s c t
  match th.wait, th.faults with
  | .none, f :: r => if isSvc c then setThread s c t { th with faults := r, trapc := f.cause } else postDelivery s c t f th.endAddr
  | _, _ => s

/-- The reply to a delivery fault of a finished thread (R118), in the cycle in which it arrives. (Log 23: DEDUCED.) -/
def doneReply (s : State) (c t : Nat) : State :=
  let th := thread s c t
  match th.wait, th.reply, th.serving with
  | .delivery, some r, some f =>
    let th1 := { th with wait := .none, reply := none, serving := none }
    if r.kind = 3 then
      let s1 := setThread s c t { th1 with trapc := r.value.toNat % 256 }
      match (core s c).gang with
      | none => s1
      | some n => modGang s1 n (fun g =>
          { g with ended := true, endCause := if g.endCause = 0 then r.value.toNat % 256 else g.endCause })
    else setThread s c t (if r.kind = 2 then landResume th1 f r.value else th1)
  | _, _, _ => s

/-- A turn of a thread that is DONE: TTC counts until the task lane is complete; pending landings still apply. TTC counts
on while the gang is being saved with HOLD 1. (Log 78: DEDUCED.) -/
def doneTurn (s : State) (c t : Nat) : State :=
  let s1 := nextDoneFault (doneReply s c t) c t
  let s2 := applyLandings s1 c t (thread s1 c t).ttc
  if laneDone s2 c t then
    checkDone (modThread s2 c t (fun th => { th with lands := th.lands.map (fun l => { l with due := l.due - 1 }) })) c
  else modThread s2 c t (fun th => { th with ttc := (th.ttc + 1) % 2 ^ 64 })

/-! ## The start of a turn -/

/-- The turn issues nothing. -/
def noIssue (s : State) : State := { s with cur := { s.cur with issue := false } }

/-- R36, R39, R93: the bundle that the thread needs: it issues, or waits for its expansion, or is a bad target. A pointer
outside the code store is never followed: nothing is expanded for it (R39). Where the bundle leaves a pinned range, an
expansion that the pin held back begins in the next turn (R35). -/
def fetchNext (s : State) (c t : Nat) : State :=
  let th := thread s c t
  let seg := th.next / 32
  let th1 := if (findHalf th seg).isSome || !inStore seg then th
    else { setHalf th (1 - th.curHalf) (expand s c seg) with prefetch := .idle }
  let s1 := setThread s c t th1
  match findHalf th1 seg with
  | none => noIssue (takeTrapAt s1 c t 0x06 (seg * 32))
  | some h =>
    match halfOf th1 h with
    | none => s1
    | some x =>
      match x.bundles with
      | none => noIssue (takeTrapAt s1 c t 0x06 (seg * 32))
      | some bs =>
        if x.left ≠ 0 then noIssue (setThread s1 c t { th1 with st := .fetch })
        else if bs.length ≤ th.next % 32 then noIssue (takeTrapAt s1 c t 0x06 th.next)
        else
          let left : Bool := match th1.pin with
            | none => false
            | some p => !inPin p seg (th.next % 32)
          let th2 := if left then { th1 with pin := none } else th1
          let entered := th2.curSeg ≠ some seg
          let th3 := { th2 with curHalf := h, curSeg := some seg, st := .run }
          let th4 := if entered then prefetch s1 c th3
            else if left && th3.prefetch = .held && !isProtected th3 (halfOf th3 (1 - h)) then { th3 with prefetch := .ready }
            else th3
          let s2 := setThread s1 c t th4
          { s2 with cur := { s2.cur with addr := th.next, issue := true } }

/-- The turn of a thread that may issue: it meets a delivery fault that has arrived, or needs its next bundle. A redirect that is
still to begin starts its expansion when the fault has been answered. (Log 23: DEDUCED; log 82: DEDUCED.) -/
def meetFaults (s : State) (c t : Nat) : State :=
  let th := thread s c t
  match th.faults with
  | f :: _ =>
    if th.packet.isSome then fetchNext s c t
    else if isSvc c then
      noIssue (takeTrapAt (modThread s c t (fun x => { x with faults := x.faults.drop 1 })) c t f.cause th.next)
    else noIssue (postDelivery (modThread s c t (fun x => { x with st := .block })) c t f th.next)
  | [] => fetchNext s c t

/-- What a thread blocked on its mailbox does with its reply (R224, R228): the reply's part before the landings of the
turn. -/
def replyValue (s : State) (c t : Nat) : State :=
  let th := thread s c t
  match th.wait, th.reply, th.serving with
  | .delivery, some r, some f => if r.kind = 2 then setThread s c t (landResume th f r.value) else s
  | _, _, _ => s

/-- The rest: ERROR traps the pending bundle, any other kind lets it issue. A delivery fault that has arrived is met although
a translation's reply is awaited: the pending bundle is translated afresh after it, and a reply to the older message is
discarded (R228, R334). (Log 23: DEDUCED.) -/
def replyAct (s : State) (c t : Nat) : State :=
  let th := thread s c t
  match th.wait, th.reply with
  | .translation, none => if th.faults.isEmpty || th.packet.isSome then noIssue s else meetFaults s c t
  | .delivery, none => noIssue s
  | .translation, some r =>
    let s1 := setThread s c t { th with wait := .none, reply := none }
    if r.kind = 3 then noIssue (takeTrapAt s1 c t (r.value.toNat % 256) th.next) else meetFaults s1 c t
  | .delivery, some r =>
    let s1 := setThread s c t { th with wait := .none, reply := none, serving := none }
    if r.kind = 3 then noIssue (takeTrapAt s1 c t (r.value.toNat % 256) th.next) else meetFaults s1 c t
  | _, _ => meetFaults s c t

/-- HALT.stop in the turn that takes it (Table 14.7). -/
def stopTurn (s : State) (c t : Nat) : State :=
  let th := thread s c t
  let s1 := setThread s c t { th with st := .halt, stopReq := false, trapc := 0, trapa := th.next }
  if isSvc c then report0 s1 0 (0x40 + (c - 512)) else postHalted s1 c t 0 0 th.next

/-- A thread becomes DONE: after END, or as HALT.end makes it. -/
def becomeDone (s : State) (c t : Nat) : State :=
  modThread s c t (fun th =>
    { th with st := .done, ending := false, endReq := false, stopReq := false, packet := none, mrep := none,
              wait := if th.serving.isSome then .delivery else .none, mboxReq := none })

/-- Whether a thread is out of rotation in this turn (R176); it becomes OUT in the first such turn (R160). -/
def isOut (th : Thread) : Bool := (th.st = .run || th.st = .out) && th.ttc < th.outUntil

/-- A HALT thread resumes at `a`. A translation fault that it had not heard of is met afresh; a delivery fault is awaited
still; the request of a bundle that it left is no longer its own (R332). (Log 23: DEDUCED; log 89: DEDUCED.) -/
def leaveHalt (s : State) (c t a : Nat) : State :=
  modThread s c t (fun th =>
    { th with
      priv := if a = th.next then th.priv else none, privDone := if a = th.next then th.privDone else none
      resume := none, next := a, st := if th.wait = .delivery && th.reply.isNone then .block else .run
      wait := if th.wait = .translation && th.reply.isNone then .none else th.wait })

/-- TURN_START: the turn of thread (args 0, args 1) up to the issue of its bundle. A redirect that a bundle which takes the
thread out of rotation leaves behind begins its expansion in the turn in which the thread is back. (Log 82: DEDUCED.) -/
def execTurnStart (s0 : State) : Out :=
  let c := arg s0 0
  let t := arg s0 1
  let s := noIssue (modThread s0 c t (fun th => { th with turnTtc := th.ttc, turnBa := th.next }))
  let th := thread s c t
  if th.st = .vacant || th.st = .saved || th.saving then .next s
  else if th.st = .done then .next (doneTurn s c t)
  else if th.ending || (th.endReq && !isOut th) then .next (doneTurn (becomeDone s c t) c t)
  else
    let s1 := modThread (applyLandings (replyValue s c t) c t th.ttc) c t (stepPrefetch s c)
    let th1 := thread s1 c t
    if isOut th1 then .next (endTurn (setThread s1 c t { th1 with st := .out }) c t)
    else if th1.stopReq && th1.packet.isNone && th1.st ≠ .halt then .next (endTurn (stopTurn s1 c t) c t)
    else if th1.st = .halt then
      match th1.resume with
      | none => .next (endTurn s1 c t)
      | some a =>
        let s2 := replyAct (leaveHalt s1 c t a) c t
        .next (if s2.cur.issue then s2 else endTurn s2 c t)
    else
      let s2 := replyAct s1 c t
      .next (if s2.cur.issue then s2 else endTurn s2 c t)

/-- LANDING: the landings of thread (args 0, args 1) that are due in its turn apply (R27). -/
def execLanding (s : State) : Out :=
  .next (applyLandings s (arg s 0) (arg s 1) (thread s (arg s 0) (arg s 1)).ttc)

/-- SEGMENT_EXPANSION_COMPLETE: an expansion of thread (args 0, args 1) takes its last turn in half args 2; the half is
issuable from the next turn (R34). -/
def execSegmentExpansionComplete (s : State) : Out :=
  .next (modThread s (arg s 0) (arg s 1) (fun th =>
    match halfOf th (arg s 2) with
    | none => th
    | some h => if h.left = 1 then setHalf th (arg s 2) { h with left := 0 } else th))

/-- WRITE_TRAPC: a write of TRAPC clears HACT (R326). -/
def execWriteTrapc (s : State) : Out :=
  .next (applyLanding (arg s 0) (arg s 1) s
    { due := 0, issued := 0, pos := 0, act := .sys 0x014 (BitVec.ofNat 64 (arg s 2)), flags := 0 })

/-- WRITE_LSD: a smaller depth discards the entries above it (R31). -/
def execWriteLsd (s : State) : Out :=
  .next (applyLanding (arg s 0) (arg s 1) s
    { due := 0, issued := 0, pos := 0, act := .sys 0x019 (BitVec.ofNat 64 (arg s 2)), flags := 0 })

/-- WRITE_INQR: messages that waited are written (R329, R330). -/
def execWriteInqr (s : State) : Out :=
  .next (applyLanding (arg s 0) (arg s 1) s
    { due := 0, issued := 0, pos := 0, act := .sys 0x801 (BitVec.ofNat 64 (arg s 2)), flags := 0 })

/-- WRITE_DBGSEL: a write starts the debug read (R330, R336). (Log 37: DEDUCED.) -/
def execWriteDbgsel (s : State) : Out :=
  .next (applyLanding (arg s 0) (arg s 1) s
    { due := 0, issued := 0, pos := 0, act := .sys 0x805 (BitVec.ofNat 64 (arg s 2)), flags := 0 })

end Sys2Proof.Machine
end

