-- ==== Sys2Proof/Machine/Window.lean ====
section
/-! DEFINITION. Where a far address lies: the physical address map, the homes, the route over conduits and edge groups,
and the window table (R196, R207 to R211, R388, R395, R396, R408). -/

namespace Sys2Proof.Machine

/-! ## Addresses and homes -/

/-- The key in memory of a 60-bit device physical address. (Log 74: DESIGN CHOICE.) -/
def keyOf (s : State) (pa : Nat) : Nat := if pa / 2 ^ 50 = s.node then pa % 2 ^ 50 else 2 ^ 60 + pa

/-- The fields of a mesh address (Table 4.2). -/
def meshNode (a : Addr) : Nat := bitsAt a.toNat 58 10
def meshCore (a : Addr) : Nat := coreNo (bitsAt a.toNat 56 2) (bitsAt a.toNat 52 4) (bitsAt a.toNat 49 3)
def meshOfs (a : Addr) : Nat := bitsAt a.toNat 0 21
def meshRsvd (a : Addr) : Nat := bitsAt a.toNat 21 28

/-- The key of the byte that a mesh address names. -/
def meshKey (s : State) (a : Addr) : Nat := keyOf s (meshNode a * 2 ^ 50 + scratch (meshCore a) + meshOfs a)

/-- A key in the DRAM of this device. -/
def isDram (k : Nat) : Bool := k < 2 ^ 48

/-- A key beyond the package: CXL memory, host memory or another node. (Log 74: DESIGN CHOICE.) -/
def isBeyond (k : Nat) : Bool := (2 ^ 48 ≤ k && k < 3 * 2 ^ 48) || (2 ^ 60 ≤ k && k < 2 ^ 62)

/-- The home of a key: a die's memory controller 0 to 3, the engine port of compute core c as 16 + c, CXL memory of
group g as 1000 + g, host memory 1016, another node n as 2000 + n, the aperture's other places 900. (Log 74: DESIGN CHOICE.) -/
def homeOf (k : Nat) : Nat :=
  if 2 ^ 60 ≤ k then 2000 + (k - 2 ^ 60) / 2 ^ 50
  else if k < 2 ^ 48 then k / 0x1800000000
  else if k < 2 ^ 49 then 1000 + (k - 2 ^ 48) / 2 ^ 44
  else if k < 3 * 2 ^ 48 then 1016
  else if k < 0x3000040000000 then 16 + (k - 0x3000000000000) / 0x200000
  else 900

/-- The entries of a home's retry list (R237). (Log 77: DESIGN CHOICE.) -/
def retryLimit (home : Nat) : Nat := if 16 ≤ home ∧ home < 528 then 64 else 4096

/-! ## Edge groups (R396, R397, R408) -/

def edge (s : State) (g : Nat) : EdgeGroup := tget {} s.links.groups g

def modEdge (s : State) (g : Nat) (f : EdgeGroup → EdgeGroup) : State :=
  { s with links := { s.links with groups := tset s.links.groups g (f (edge s g)) } }

/-- The node set of node n. -/
def nodeSet (s : State) (n : Nat) : List Nat :=
  (List.range 16).filter (fun g =>
    (edge s g).state = 0 && ((edge s g).pers = 2 || (edge s g).pers = 3) && bitsAt (edge s g).nmask n 1 = 1)

/-- The group of an access beyond the package, for source endpoint `src`; `none` where the node set is empty. -/
def groupFor (s : State) (k src : Nat) : Option Nat :=
  if 2 ^ 60 ≤ k then
    let l := nodeSet s ((k - 2 ^ 60) / 2 ^ 50)
    if l = [] then none else some (l.getD (src % l.length) 0)
  else if k < 2 ^ 49 then some ((k - 2 ^ 48) / 2 ^ 44)
  else some 16

/-- The group that the streams of an empty node set stay bound to (R397), until it is ACTIVE again and serves the node
or does not. (Log 29: DEDUCED.) -/
def boundGroup (s : State) (k : Nat) : Option Nat :=
  if 2 ^ 60 ≤ k then
    (tfind s.links.bound ((k - 2 ^ 60) / 2 ^ 50)).bind (fun g => if (edge s g).state = 0 then none else some g)
  else none

/-- Whether a group stands between QUIESCE and MAP (Table 18.6): new accesses bound to it fault with 0x64. -/
def switching (s : State) (g : Nat) : Bool := 1 ≤ (edge s g).state && (edge s g).state ≤ 6

/-- R208, R211, R408, R411: whether an access to a key faults with 0x64 at its translation. Of a FAILED group's CXL range R208
and R211 say that it does, Table 18.6 and R411 that it ends with LINKDOWN: which of them is a free choice. (Log 29: DEDUCED.) -/
def switchFault (s : State) (k : Nat) : Bool :=
  if 2 ^ 60 ≤ k then
    nodeSet s ((k - 2 ^ 60) / 2 ^ 50) = [] && (match boundGroup s k with | some g => switching s g | none => false)
  else if 2 ^ 48 ≤ k ∧ k < 2 ^ 49 then
    let e := edge s ((k - 2 ^ 48) / 2 ^ 44)
    (e.state ≠ 0 || e.pers ≠ 1) && (e.state ≠ 7 || Config.failedFaults)
  else false

/-- The group through which an access that was translated leaves: its element of the node set, or the group that an empty
set's streams stay bound to. (Log 29: DEDUCED.) -/
def gateGroup (s : State) (k src : Nat) : Option Nat :=
  match groupFor s k src with
  | some g => some g
  | none => boundGroup s k

/-- R408, R411: the cause with which the link refuses an access before sending it, 0 where it is sent. A group that
quiesces or drains still sends what was translated before. (Log 29: DEDUCED.) -/
def linkRefusal (s : State) (k src : Nat) : Nat :=
  match gateGroup s k src with
  | some g => if (edge s g).state ≤ 2 then 0 else if (edge s g).state = 7 then 0xC0 else 0xC1
  | none => 0xC0

/-! ## Conduits (R387, R388, R393) -/

/-- The boundaries that traffic from die `a` to die `b` crosses: 0 for 0–1, 1 for 2–3, 2 for 0–2, 3 for 1–3. -/
def conduits (a b : Nat) : List Nat :=
  (if a % 2 ≠ b % 2 then [a / 2] else []) ++ (if a / 2 ≠ b / 2 then [2 + b % 2] else [])

/-- The die at which a home is reached: that of its memory controller, core or gateway. -/
def homeDie (home group : Nat) : Nat :=
  if home < 4 then home else if home < 528 then (home - 16) / 128
  else if group = 16 then 0 else group / 4

/-- The same boundaries in order, each with the sense in which the traffic crosses it: 0 from the lower die. -/
def hops (a b : Nat) : List (Nat × Nat) :=
  (if a % 2 ≠ b % 2 then [(a / 2, a % 2)] else []) ++ (if a / 2 ≠ b / 2 then [(2 + b % 2, a / 2)] else [])

/-- Whether a failed conduit lies on the way of a request or of its reply (R393). -/
def conduitDown (s : State) (a b : Nat) : Bool := (conduits a b ++ conduits b a).any (fun n => s.links.failed.contains n)

/-! ## The window table (R209 to R212) -/

/-- The shift of a size class (Table 8.6). -/
def classShift (k : Nat) : Nat :=
  match k with
  | 0 => 12 | 1 => 16 | 2 => 21 | 3 => 24 | 4 => 27 | 5 => 30 | 6 => 33 | _ => 36

/-- The exclusive or of the nine-bit chunks of a virtual page number. -/
def vpnHash (vpn : Nat) : Nat := (List.range 8).foldl (fun h j => h ^^^ bitsAt vpn (9 * j) 9) 0

/-- The place of an entry for a virtual address in class `k`. -/
def winPlace (k va : Nat) : Nat := 512 * k + vpnHash (va / 2 ^ classShift k)

/-- The fields of a window entry (Table 8.7). -/
def winV (e : Nat) : Bool := bitsAt e 127 1 = 1
def winClass (e : Nat) : Nat := bitsAt e 124 3
def winVpn (e : Nat) : Nat := bitsAt e 64 60
def winRaw (e : Nat) : Bool := bitsAt e 63 1 = 1
def winState (e : Nat) : Nat := bitsAt e 58 2
def winFrame (e : Nat) : Nat := bitsAt e 0 48

/-- The place and the entry of the smallest class that matches. -/
def winMatch (w : Tab Nat) (va : Nat) : Option (Nat × Nat) :=
  ((List.range 8).map (fun k => (winPlace k va, tget 0 w (winPlace k va)))).find? (fun p =>
    winV p.2 && winVpn p.2 * 2 ^ 12 / 2 ^ classShift (p.1 / 512) = va / 2 ^ classShift (p.1 / 512))

/-- What an access needs of its window. -/
inductive Need
  | read | write | atomic
deriving DecidableEq, Repr

def Need.ok (n : Need) (e : Nat) : Bool :=
  match n with
  | .read => bitsAt e 60 1 = 1
  | .write => bitsAt e 61 1 = 1
  | .atomic => bitsAt e 62 1 = 1

/-- The answer of a translation: the cause (0: none), the key, the place of the entry plus 1, and the entry. -/
structure Trans where
  cause : Nat
  key : Nat
  win : Nat
  entry : Nat
deriving DecidableEq, Repr

/-- R211: a far virtual address through the table of core `c`; a mesh address names its byte directly. -/
def translate (s : State) (c : Nat) (a : Addr) (n : Need) : Trans :=
  if bitsAt a.toNat 68 4 = 15 then
    { cause := if switchFault s (meshKey s a) then 0x64 else 0, key := meshKey s a, win := 0, entry := 0 }
  else
    match winMatch (core s c).windows a.toNat with
    | none => { cause := 0x60, key := 0, win := 0, entry := 0 }
    | some p =>
      let k := keyOf s (winFrame p.2 * 2 ^ 12 + a.toNat % 2 ^ classShift (p.1 / 512))
      { cause := if winState p.2 = 1 then 0x60 else if !n.ok p.2 then 0x61 else if switchFault s k then 0x64 else 0
        key := k, win := p.1 + 1, entry := p.2 }

end Sys2Proof.Machine
end

