-- ==== Sys2Proof/Machine/Home.lean ====
section
/-! DEFINITION. Far accesses at their homes and their replies: grants, poison, compressed pages, the synchronising modes
and their retry lists, the race detector, the way over links (R215 to R219, R225 to R241, R268 to R271, R391 to R406). -/

namespace Sys2Proof.Machine

/-! ## The table of far accesses -/

def flight (s : State) (id : Nat) : Option Flight := tfind s.flights id

def setFlight (s : State) (id : Nat) (f : Flight) : State := { s with flights := tset s.flights id f }

def dropFlight (s : State) (id : Nat) : State := { s with flights := tdel s.flights id }

/-- The far accesses of thread or tephra core `who` of core `c`. -/
def flightsOf (s : State) (c who : Nat) : List (Nat × Flight) :=
  s.flights.filter (fun p => p.2.core = c && p.2.who = who && !p.2.gone)

/-- R223: those that are outstanding. -/
def outstanding (s : State) (c who : Nat) : List (Nat × Flight) := (flightsOf s c who).filter (fun p => !p.2.replied)

/-- The core that issued an access; one of a gang that was saved off its cores has 2^32 times the gang's number plus 1 added
(R342). -/
def srcCore (f : Flight) : Nat := f.core % 2 ^ 32

/-- The endpoint identifier of an access's source. -/
def srcOf (s : State) (f : Flight) : Nat := if f.who < 8 then coord s (srcCore f) else coord s (srcCore f) + (f.who - 6)

/-- Whether an access is a link peer's: its `core` is 0x10000 + the group, its endpoint identifier the access word. -/
def isPeer (f : Flight) : Bool := 0x10000 ≤ f.core && f.core < 2 ^ 32

/-- The die on which an access enters the package's traffic: its core's, or that of its peer's gateway (R395). -/
def srcDie (f : Flight) : Nat :=
  if isPeer f then (if 16 ≤ f.core - 0x10000 then 0 else (f.core - 0x10000) / 4) else dieOf (srcCore f)

/-! ## Conduit headers (R391) -/

/-- The contexts of one virtual channel of one conduit direction: four times the direction (twice the boundary plus the
sense) plus the channel: 0 requests, 1 replies, 2 engine. -/
def contextsOf (s : State) (ch : Nat) : List (Nat × Context) := s.links.contexts.filter (fun p => p.1 / 65536 = ch)

/-- The address after the last packet of a stream: one that is about to cross the conduit, or the last that has. -/
def streamEnd (s : State) (ch src dst : Nat) : Option Nat :=
  match (s.agenda.filter (fun e => (e.instr = .openPacket || e.instr = .contPacket) && e.args.take 3 = [ch, src, dst])).getLast? with
  | some e => some (e.args.getD 3 0 + e.args.getD 4 0)
  | none => ((contextsOf s ch).find? (fun p => p.2.src = src && p.2.dst = dst)).map (fun p => p.2.next)

/-- Whether a packet of a stream goes as CONT: the stream is open and the delta fits. -/
def contFits (s : State) (ch src dst addr : Nat) : Bool :=
  (streamEnd s ch src dst).any (fun n => addr % 4 = n % 4 && addr < n + 8192 && n ≤ addr + 8192)

/-- A packet from die `a` to die `b` on a virtual channel: OPEN or CONT on each conduit that it crosses. -/
def conduitPacket (s : State) (a b vc src addr len : Nat) : State :=
  (hops a b).foldl (fun x h =>
    let ch := (2 * h.1 + h.2) * 4 + vc
    at' x (x.gcyc + 1) (if contFits x ch src b addr then .contPacket else .openPacket) [ch, src, b, addr, len]) s

/-- 64-byte units of `n` bytes. -/
def units64 (n : Nat) : Nat := (n + 63) / 64

/-- Counts what an access costs where it is served: DRAM lines are its source's, bank words the target core's (R381). -/
def tickHome (s : State) (src key len : Nat) : State :=
  if isDram key then (if 0x10000 ≤ src then s else tick s src 7 ((unitsOf key len).length))
  else if 0x3000000000000 ≤ key ∧ key < 0x3000040000000 then
    tick s ((key - 0x3000000000000) / 0x10000000 * 128 + (key - 0x3000000000000) % 0x10000000 / 0x200000) 3 ((unitsOf key len).length)
  else s

/-! ## The race detector's areas (R268)

They lie in the firmware area, one after the other: the shadow records, the release histories by agent identifier, the
log. The first two are kept as tables. (Log 31: DEDUCED.) -/

/-- Table 10.13 in a sector that no access has touched. -/
abbrev shadowNone : Nat := 0x3FFF * 2 ^ 50 + 0x3FFF * 2 ^ 20

/-- The bytes of the release histories: 64 values of 8 bytes for each of 2^14 agents. -/
abbrev histBytes : Nat := 0x800000

/-- The bytes of the shadow area: 8 for each 32-byte sector. -/
def shadowBytes (g : Gang) : Nat := g.raceLen / 32 * 8

/-- The key of the shadow area of a gang. -/
def shadowKey (s : State) (g : Gang) : Nat := keyOf s g.raceLog - histBytes - shadowBytes g

/-- A byte of a gang's shadow area or release histories; `none` where an address is in neither. -/
def raceByte (s : State) (k : Nat) (g : Gang) : Option Nat :=
  let lo := shadowKey s g
  if g.raceMode = 0 ∨ k < lo ∨ keyOf s g.raceLog ≤ k then none
  else
    let w := if k < lo + shadowBytes g then tget shadowNone g.shadow ((k - lo) / 8)
      else tget 0 g.hist ((k - lo - shadowBytes g) / 8) % 2 ^ 64
    some (w / 256 ^ (k % 8) % 256)

/-- A byte of memory with those areas in it. -/
def memByte (s : State) (k : Nat) : Nat := ((s.gangs.filterMap (fun g => raceByte s k g.2)).head?).getD (getByte s k).toNat

/-- A value with one of its bytes replaced. -/
def putIn (v i b : Nat) : Nat := v - v / 256 ^ i % 256 * 256 ^ i + b % 256 * 256 ^ i

/-- A byte that an agent writes into an area of a gang goes into the gang's tables. -/
def raceWrite (s : State) (k b : Nat) (g : Gang) : Gang :=
  let lo := shadowKey s g
  let i := (k - lo) / 8
  let j := (k - lo - shadowBytes g) / 8
  if (raceByte s k g).isNone then g
  else if k < lo + shadowBytes g then { g with shadow := tput shadowNone g.shadow i (putIn (tget shadowNone g.shadow i) (k % 8) b) }
  else { g with hist := tput 0 g.hist j (putIn (tget 0 g.hist j % 2 ^ 64) (k % 8) b) }

/-- Bytes that an agent writes to memory, in those areas too. -/
def putMem (s : State) (k : Nat) (l : List Nat) : State :=
  let s1 := putBytes s k l
  if s.gangs.all (fun g => g.2.raceMode = 0) then s1
  else
    { s1 with gangs := s1.gangs.map (fun g =>
        (g.1, ((List.range l.length).zip l).foldl (fun g p => raceWrite s (k + p.1) p.2 g) g.2)) }

/-- `n` bytes of memory as a number. -/
def memNat (s : State) (k n : Nat) : Nat := ((List.range n).map (fun i => memByte s (k + i) * 256 ^ i)).sum

/-! ## Compressed pages (R217 to R219) -/

/-- A plain page's record (Table 8.10). (Log 32: DEDUCED.) -/
abbrev plainPage : Nat := 2 ^ 125

def pageRec (s : State) (k : Nat) : Nat := if isDram k then tget plainPage s.pages (k / 4096) else plainPage

/-- The form of a record: a nonzero reserved field counts as form 3. (Log 32: DEDUCED.) -/
def recForm (r : Nat) : Nat := if bitsAt r 64 61 ≠ 0 then 3 else bitsAt r 126 2

/-- Byte `i` of a compressed page as an agent without the capability sees it. (Log 76: DEDUCED.) -/
def recByte (r i : Nat) : Nat := if recForm r = 2 then bitsAt r (8 * (i % 8)) 8 else 0

/-- Byte `i` of the packed image. (Log 76: DEDUCED.) -/
def packedByte (r i : Nat) : Nat := if i < 16 then bitsAt r (8 * i) 8 else 0

/-- Expansion: the page as plain data with every full/empty bit at FE; no access to a page in form 3 performs. (Log 76: DEDUCED.) -/
def expandPage (s : State) (k : Nat) : State :=
  let r := pageRec s k
  if recForm r = 0 ∨ recForm r = 3 then s
  else
    let base := k / 4096 * 4096
    let s1 := putBytes s base ((List.range 4096).map (recByte r))
    let s2 := setFulls s1 (bitsAt r 125 1 = 1) (wordsOf base 4096)
    { clearPoison s2 base 4096 with pages := tput plainPage s2.pages (k / 4096) plainPage }

/-- Expands every compressed page of a range of DRAM (R219). -/
def expandRange (s : State) (lo n : Nat) : State :=
  (s.pages.filter (fun p => lo < 4096 * (p.1 + 1) && 4096 * p.1 < lo + n)).foldl (fun x p => expandPage x (4096 * p.1)) s

/-- The byte that a plain read of a page in DRAM, or of any other memory, sees. (Log 76: DEDUCED.) -/
def readByte (s : State) (raw : Bool) (k : Nat) : Nat :=
  let r := pageRec s k
  if recForm r = 0 then memByte s k else if raw then packedByte r (k % 4096) else recByte r (k % 4096)

/-- `n` of them. -/
def readPlain (s : State) (raw : Bool) (k n : Nat) : List Nat := (List.range n).map (fun i => readByte s raw (k + i))

/-! ## Releases, acquires and the race detector (R268 to R271) -/

/-- An agent of core `c` releases (R269). (Log 31: DEDUCED.) -/
def noteRelease (s : State) (c kind idx : Nat) : State :=
  match (core s c).gang with
  | none => s
  | some n =>
    let g := gang s n
    if g.raceMode = 0 then s
    else
      let a := agentId g c kind idx
      let k := tget 0 g.counts0 a
      modGang s n (fun g =>
        { g with counts0 := tput 0 g.counts0 a ((k + 1) % 65536), hist := tput 0 g.hist (64 * a + k % 64) s.gcyc })

/-- R270: whether the access of agent `b` conflicts with an earlier one by `a` at release count `n`. -/
def conflicts (g : Gang) (b a n : Nat) : Bool :=
  let d := (tget 0 g.counts0 a + 65536 - n) % 65536
  a / 4096 ≠ 3 && a ≠ b && (d = 0 || (d ≤ 64 && tget 0 g.acquired b < tget 0 g.hist (64 * a + n % 64)))

/-- R271: one log record, or one more dropped; a compressed page is expanded first (R219). (Log 31: DEDUCED.) -/
def raceLogWrite (s0 : State) (g : Gang) (va first second kind n : Nat) : State :=
  let base := keyOf s0 g.raceLog
  let s := expandPage (expandPage s0 base) (base + 32 + 32 * getNat s0 base 8)
  let done := getNat s base 8
  if 32 * done + 64 ≤ g.raceLogLen then
    let rec' := s.gcyc % 2 ^ 64 * 2 ^ 192 + va * 2 ^ 120 + first * 2 ^ 106 + second * 2 ^ 92 + kind * 2 ^ 90
      + (if g.raceMode = 2 ∧ second < 4096 then 1 else 0) * 2 ^ 88 + n * 2 ^ 72
    putNat (putNat s (base + 32 + 32 * done) 32 rec') base 8 (done + 1)
  else putNat s (base + 8) 8 (getNat s (base + 8) 8 + 1)

/-- One sector: the check against the last write, for a write also against the last read, then the update. The second
component says whether a conflict was found. (Log 31: DEDUCED.) -/
def raceSector (n agent va : Nat) (wr : Bool) (acc : State × Bool) (sec : Nat) : State × Bool :=
  let s := acc.1
  let g := gang s n
  let r := tget shadowNone g.shadow sec
  let wa := bitsAt r 50 14
  let wc := bitsAt r 34 16
  let ra := bitsAt r 20 14
  let rc := bitsAt r 4 16
  let c1 := conflicts g agent wa wc
  let c2 := wr && conflicts g agent ra rc
  let s1 := if c1 then raceLogWrite s g va wa agent (if wr then 0 else 1) wc else s
  let s2 := if c2 then raceLogWrite s1 g va ra agent 2 rc else s1
  let me := tget 0 g.counts0 agent
  let r' := if wr then r % 2 ^ 34 + (agent * 2 ^ 50 + me * 2 ^ 34) else r / 2 ^ 34 * 2 ^ 34 + agent * 2 ^ 20 + me * 2 ^ 4
  (modGang s2 n (fun g => { g with shadow := tput shadowNone g.shadow sec r' }), acc.2 || c1 || c2)

/-- RACE_CHECK: an access of the bytes at far virtual address `va`, in ranges of an offset and a length, by agent `kind`,
`idx` of core `c`. (Log 31: DEDUCED.) -/
def raceCheck (s : State) (c kind idx va : Nat) (ranges : List (Nat × Nat)) (wr : Bool) : State × Bool :=
  match (core s c).gang with
  | none => (s, false)
  | some n =>
    let g := gang s n
    if g.raceMode = 0 ∨ va < g.raceBase ∨ g.raceBase + g.raceLen ≤ va then (s, false)
    else
      let secs := ranges.flatMap (fun r =>
        (List.range ((va + r.1 + r.2 - 1) / 32 - (va + r.1) / 32 + 1)).map (fun k => (va + r.1 - g.raceBase) / 32 + k))
      let r := secs.eraseDups.foldl (raceSector n (agentId g c kind idx) va wr) (s, false)
      (r.1, r.2 && g.raceMode = 2 && kind = 0)

/-! ## Checks at the home -/

/-- A rectangle of a partition (Table 17.2) contains a core. -/
def rectHas (r die col row : Nat) : Bool :=
  bitsAt r 16 2 = die && bitsAt r 12 4 ≤ col && col ≤ bitsAt r 12 4 + bitsAt r 5 4
    && bitsAt r 9 3 ≤ row && row ≤ bitsAt r 9 3 + bitsAt r 2 3

/-- The partition of a compute core. -/
def partOfCore (s : State) (c : Nat) : Option Nat :=
  if 512 ≤ c then none
  else (s.front.parts.find? (fun p => p.2.rects.any (fun r => rectHas r (dieOf c) (colOf c) (rowOf c)))).map (fun p => p.1)

/-- R364, step 2: a partition in reset denies mesh-form accesses from outside. -/
def resetDenies (s : State) (src target : Nat) : Bool :=
  match partOfCore s target with
  | none => false
  | some n => ((tfind s.front.parts n).bind (fun p => p.resetting)).isSome && partOfCore s src ≠ some n

/-- The source of an access as a grant entry names it: node, die, column and row. -/
def srcPlace (s : State) (f : Flight) : Nat × Nat × Nat × Nat :=
  if isPeer f then (bitsAt f.aword 12 10, bitsAt f.aword 10 2, bitsAt f.aword 6 4, bitsAt f.aword 3 3)
  else (s.node, dieOf f.core, colOf f.core, rowOf f.core)

/-- Whether an entry of the grant table may name the source of an access: a compute core or one of its tephra cores (Table 8.9). -/
def grantKind (f : Flight) : Bool := !isPeer f || f.aword % 8 = 0 || f.aword % 8 = 2 || f.aword % 8 = 3

/-- R216: the permission of an access at a peer scratchpad. (Log 38: DEDUCED.) -/
def granted (s : State) (f : Flight) (target ofs len : Nat) : Bool :=
  let src := f.core
  if inContext s target ofs len || resetDenies s src target then false
  else if !isSvc src && (core s target).gang.isSome && (core s target).gang = (core s src).gang then true
  else if (isSvc src && !isPeer f) || !grantKind f then false
  else
    let need := match f.op with | .ld => 41 | .rdw => 41 | .atom => 43 | .vat => 43 | _ => 42
    (List.range 64).any (fun i =>
      let e := tget 0 (core s target).grants i
      bitsAt e 44 1 = 1 && bitsAt e 30 11 = 0 && bitsAt e need 1 = 1
        && (bitsAt e 54 10, bitsAt e 52 2, bitsAt e 48 4, bitsAt e 45 3) = srcPlace s f
        && bitsAt e 15 15 * 64 ≤ ofs && ofs + len ≤ (bitsAt e 15 15 + bitsAt e 0 15 + 1) * 64)

/-- The bytes that an access covers. -/
def flightLen (f : Flight) : Nat :=
  match f.op with
  | .pk => f.data.length
  | .save => 4096
  | _ => f.size

/-- Whether an access writes. -/
def flightWrites (f : Flight) : Bool :=
  match f.op with
  | .ld => false
  | .rdw => false
  | .save => f.leg2
  | _ => true

/-- Whether the source of an access is a tephra core, whose writes set words full (Table 8.2, R305, R401). -/
def fromTephra (f : Flight) : Bool := if isPeer f then f.aword % 8 = 2 || f.aword % 8 = 3 else 8 ≤ f.who

/-- The ranges of an access that the race detector sees: of an FVATOM the enabled elements (R222, R270). -/
def raceRanges (f : Flight) : List (Nat × Nat) :=
  if f.op = .vat then f.elems.map (fun e => (e.1, if f.code = 1 then 2 else 4))
  else if flightLen f = 0 then [] else [(0, flightLen f)]

/-- Whether the words at a flight's place have full/empty bits (R402): inside the package, and on a native peer. (Log 28: DESIGN CHOICE.) -/
def hasFe (s : State) (f : Flight) : Bool :=
  if !isBeyond f.key then true
  else 2 ^ 60 ≤ f.key && (match f.group with | some g => (edge s g).peer = 1 | none => false)

/-- Whether a word is full: on a compressed page its record says so (Table 8.10). (Log 77: DESIGN CHOICE.) -/
def wordFull (s : State) (a : Nat) : Bool :=
  let r := pageRec s a
  if recForm r = 0 ∨ recForm r = 3 then isFull s a else bitsAt r 125 1 = 1

/-- Table 9.4: whether a synchronising access may perform now. -/
def conditionHolds (s : State) (f : Flight) : Bool :=
  if !hasFe s f then true
  else
    match f.mode with
    | 1 => (wordsOf f.key f.size).all (wordFull s)
    | 2 => (wordsOf f.key f.size).all (wordFull s)
    | 3 => (wordsOf f.key f.size).all (fun a => !wordFull s a)
    | _ => true

/-- The cause with which a home denies an access as it arrives: no grant, or a mode that its words have no bits for (0x62)
(R216, R402). (Log 28: DESIGN CHOICE.) -/
def grantCause (s : State) (f : Flight) : Nat :=
  let ofs := (f.key - 0x3000000000000) % 0x200000
  if 16 ≤ f.home ∧ f.home < 528 ∧ !granted s f (f.home - 16) ofs (flightLen f) then 0x62
  else if !hasFe s f ∧ (f.mode = 2 ∨ f.mode = 3) then 0x62 else 0

/-- Whether a read of a line or bank word returns poison: on a compressed page its record says so (Table 8.10). -/
def unitPoison (s : State) (u : Nat) : Bool :=
  match recForm (pageRec s u) with
  | 0 => isPoison s u
  | 3 => true
  | _ => false

/-- Whether an access reads what it covers. -/
def flightReads (f : Flight) : Bool :=
  match f.op with
  | .ld | .rdw | .atom | .vat => true
  | .save => !f.leg2
  | _ => false

/-- The poison outcome of an access as it would perform, at each line or bank word that it meets: a read across a link, by a
peer or beyond the package, has a code of its own (R201, R206). (Log 28: DESIGN CHOICE.) -/
def poisonCause (s : State) (f : Flight) : Nat :=
  let len := flightLen f
  let us := unitsOf f.key len
  if us.any (fun u => unitPoison s u && (flightReads f || recForm (pageRec s u) = 3 || !coversUnit f.key len u)) then
    (if isBeyond f.key || (isPeer f && flightReads f) then 0xC2 else 0x65)
  else 0

/-- The cause with which a home turns an access away before any condition. -/
def homeCause (s : State) (f : Flight) : Nat := if grantCause s f ≠ 0 then grantCause s f else poisonCause s f

/-! ## Performing -/

/-- One element of an FVATOM (R236): its byte offset and held operand. -/
def vatElem (f : Flight) (acc : State × Nat) (e : Nat × Held) : State × Nat :=
  let fm := if f.code = 1 then Fmt.bf16 else Fmt.f32
  let n := fm.width / 8
  let r := atomStep f.cvp 9 fm.width (some fm) (memNat acc.1 (f.key + e.1) n) e.2
  (putMem acc.1 (f.key + e.1) (leBytes n r.1), flagOr acc.2 r.2)

/-- The words of a tephra core's write are set full (R305), where they have bits. -/
def setWritten (s : State) (f : Flight) (k n : Nat) : State :=
  if fromTephra f && hasFe s f then setFulls s true (wordsOf k n) else s

/-- te.save at its source (R318): what it takes with it to its destination. `data` holds the destination's key, whether its
window has RAW, its window and its address; from now on the bytes of the page, or the record that a packed write makes
(`aop` 1); `code` is the full/empty bit of its words. (Log 30: DEDUCED.) -/
def readSave (s : State) (f : Flight) : Flight :=
  let dst := f.data.getD 0 0
  let r := pageRec s f.key
  let raw : Bool := recForm r ≠ 0 && f.raw
  let packed : Bool := raw && isDram dst && f.data.getD 1 0 = 1
  let bytes := if packed then leBytes 16 r else readPlain s false f.key 4096
  { f with
    leg2 := true, key := dst, win := f.data.getD 2 0, addr := BitVec.ofNat 72 (f.data.getD 3 0), home := homeOf dst
    group := none, early := false, arrived := false, st := .sent, data := bytes, aop := if packed then 1 else 0
    code := if raw then bitsAt r 125 1 else 1 }

/-- te.save at its destination: a packed write of the record, or 4,096 plain bytes. Nothing else but a host write of its record
compresses a page. (Log 100: DESIGN CHOICE.) -/
def writeSave (s : State) (f : Flight) : State :=
  if f.aop = 1 then { s with pages := tput plainPage s.pages (f.key / 4096) (leNat f.data) }
  else
    let s1 := clearPoison (putMem s f.key f.data) f.key 4096
    let s2 := if isDram f.key then { s1 with pages := tput plainPage s1.pages (f.key / 4096) plainPage } else s1
    if hasFe s f then setFulls s2 (f.code = 1) (wordsOf f.key 4096) else s2

/-- The compare-and-swap of a link peer (Table 18.3, `aop` 10): the upper half of the operand replaces what equals the lower. -/
def swapStep (w old v : Nat) : Nat := if old = v % 2 ^ w then v / 2 ^ w % 2 ^ w else old

/-- Performs an access whose condition holds: the state, its cause, value and flags. (Log 28: DESIGN CHOICE.) -/
def performAccess (s0 : State) (f : Flight) : State × Nat × Nat × Nat :=
  let len := flightLen f
  let s := if (flightWrites f && f.op ≠ .save) || f.mode ≠ 0 then expandRange s0 f.key len else s0
  let fe := fun x : State =>
    if !hasFe s f then x
    else if f.mode = 2 then setFulls x false (wordsOf f.key f.size)
    else if f.mode = 3 then setFulls x true (wordsOf f.key f.size) else x
  match f.op with
  | .ld => (fe s, 0, leNat (readPlain s f.raw f.key f.size), 0)
  | .rdw => (s, 0, leNat (readPlain s f.raw f.key 64), 0)
  | .save => (writeSave s0 f, 0, 0, 0)
  | .atom =>
    let old := memNat s f.key (tyBytes f.code)
    let r := if f.aop = 10 then (swapStep (8 * tyBytes f.code) old f.operand.body, 0)
      else atomStep f.cvp f.aop (8 * tyBytes f.code) (tyFmt f.code) old f.operand
    (setWritten (putMem s f.key (leBytes (tyBytes f.code) r.1)) f f.key 4, 0, old, r.2)
  | .vat =>
    let r := f.elems.foldl (vatElem f) (s, 0)
    (f.elems.foldl (fun x e => setWritten x f (f.key + e.1) (if f.code = 1 then 2 else 4)) r.1, 0, 0, r.2)
  | _ => (fe (setWritten (clearPoison (putMem s f.key f.data) f.key len) f f.key len), 0, 0, 0)

/-! ## Replies -/

/-- R405: the acknowledgement of an access that performed beyond the package. (Log 26: DESIGN CHOICE.) -/
def sendAck (s : State) (id cause : Nat) : State := later s [] .endToEndAcknowledgement [id, cause]

/-- The endpoint that the packets of a reply come from: a core's, or for a home that has none its own number, beyond every
identifier. (Log 66: DEDUCED.) -/
def homeEndpt (s : State) (home : Nat) : Nat := if 16 ≤ home ∧ home < 528 then coord s (home - 16) else 2 ^ 22 + home

/-- The die at which an access is served. -/
def servedDie (f : Flight) : Nat := homeDie f.home (f.group.getD 0)

/-- A home answers: the outcome goes on its way to the core. A store that its link accepted already has its reply. (Log 26: DESIGN CHOICE.) -/
def answer (s : State) (id : Nat) (f : Flight) (cause value flags : Nat) : State :=
  if f.early then
    sendAck (setFlight s id { f with st := .served, oflags := flags }) id cause
  else
    let s1 := setFlight s id { f with st := .served, cause := cause, value := value, oflags := flags }
    let s2 := conduitPacket s1 (servedDie f) (srcDie f) 1 (homeEndpt s f.home) f.key (flightLen f)
    let s3 := later s2 [] .farReplyArrival [id]
    if f.group.isSome then sendAck s3 id 0 else s3

/-- An access performs: the race check, which sees the agents of this device's gangs, then the access. The state, its cause,
value and flags. -/
def perform (s : State) (f : Flight) : State × Nat × Nat × Nat :=
  let r := if isPeer f then (s, false)
    else raceCheck s f.core (if f.who < 8 then 0 else 2) (f.who % 8) f.addr.toNat (raceRanges f) (flightWrites f)
  let p := performAccess (tickHome r.1 f.core f.key (flightLen f)) f
  (p.1, if p.2.1 ≠ 0 then p.2.1 else if r.2 then 0x67 else 0, p.2.2.1, p.2.2.2)

/-- Whether two accesses have a word in common, beyond the package a line (R225, R404). -/
def meetsFlight (f g : Flight) : Bool :=
  let n := if isBeyond f.key then 64 else 4
  f.key / n ≤ (g.key + max (flightLen g) 1 - 1) / n && g.key / n ≤ (f.key + max (flightLen f) 1 - 1) / n

/-- The cycle before which an access may not come to its home: that of each access of its party to one of its words that is on
its way there (R225, R305, R404). -/
def wordFloor (s : State) (f : Flight) : Nat :=
  s.agenda.foldl (fun m e =>
    if e.instr = .homeServeAccess && (match flight s (e.args.getD 0 0) with
        | some g => g.core = f.core && g.who = f.who && g.home = f.home && meetsFlight f g
        | none => false) then max m e.due else m) 0

/-- An access sets out for its home, not before cycle `n`. -/
def sendHome (s : State) (n id : Nat) (f : Flight) : State :=
  laterFrom (setFlight s id f) (max n (wordFloor s f)) [] .homeServeAccess [id]

/-- te.save has read its source: it goes on to its destination as one more posted access to that home (R305). -/
def sendSave (s : State) (id : Nat) (f : Flight) : State :=
  let r := raceCheck s f.core 2 (f.who % 8) f.addr.toNat [(0, 4096)] false
  let s1 := tickHome r.1 f.core f.key 4096
  sendHome s1 0 id (readSave s1 f)

/-- The elements of an FVATOM that perform now, and those that perform at a later moment (R263). (Log 25: DESIGN CHOICE.) -/
def splitElems (s : State) (f : Flight) : State × List (Nat × Held) × List (Nat × Held) :=
  if f.op = .vat && 1 < f.elems.length && !isPeer f then
    let d := drawChoice s
    let now := fun (i : Nat) => d.1 || Config.choice (d.2.draw + i)
    let l := (List.range f.elems.length).zip f.elems
    ({ d.2 with draw := d.2.draw + f.elems.length },
     (l.filter (fun p => now p.1)).map (fun p => p.2), (l.filter (fun p => !now p.1)).map (fun p => p.2))
  else (s, f.elems, [])

/-- Serves an access at the moment it performs: the access and its answer; an FVATOM is answered with its last element. -/
def performFlight (s : State) (id : Nat) (f : Flight) : State :=
  if f.op = .save && !f.leg2 then sendSave s id f
  else
    let x := splitElems s f
    let p := perform x.1 { f with elems := x.2.1 }
    let cause := if f.cause ≠ 0 then f.cause else p.2.1
    if x.2.2 = [] then answer p.1 id f cause p.2.2.1 (flagOr f.oflags p.2.2.2)
    else
      later (setFlight p.1 id { f with st := .sent, arrived := true, parted := true, elems := x.2.2, cause := cause
                                       oflags := flagOr f.oflags p.2.2.2 }) [] .homeServeAccess [id]

def retryOf (s : State) (home : Nat) : List Nat := tget [] s.retry home

def setRetry (s : State) (home : Nat) (l : List Nat) : State := { s with retry := tput [] s.retry home l }

/-- The ranges of words whose full/empty bit an access changes as it performs, an expansion apart (R238, R305). (Log 77: DESIGN CHOICE.) -/
def changedWords (f : Flight) : List (Nat × Nat) :=
  if f.mode = 2 ∨ f.mode = 3 then [(f.key, f.size)]
  else if fromTephra f && flightWrites f then [(f.key, flightLen f)] else []

/-- Whether an access covers a word of some range. (Log 77: DESIGN CHOICE.) -/
def meetsWords (rs : List (Nat × Nat)) (f : Flight) : Bool :=
  rs.any (fun r => f.key / 4 ≤ (r.1 + r.2 - 1) / 4 && r.1 / 4 ≤ (f.key + f.size - 1) / 4)

/-- Whether an access at an engine port has to wait for bank words that the thread port holds (R198, R201, R247). -/
def portBarred (s : State) (f : Flight) : Bool :=
  16 ≤ f.home && f.home < 528 && (flightWrites f || 2 ≤ f.mode) && portHolds s (f.home - 16) f.key (flightLen f)

/-- R238: while some waiting access of the home to one of these words may perform, the oldest such performs and leaves
the list; the words that it changes are walked too. Its grant was checked as it arrived (R216). (Log 77: DESIGN CHOICE.) -/
def wake : Nat → List (Nat × Nat) → State → Nat → State
  | 0, _, s, _ => s
  | n + 1, rs, s, home =>
    match (retryOf s home).find? (fun id =>
      match flight s id with | some f => meetsWords rs f && conditionHolds s f && !portBarred s f | none => false) with
    | none => s
    | some id =>
      let s1 := setRetry s home ((retryOf s home).filter (fun x => x ≠ id))
      match flight s1 id with
      | none => s1
      | some f =>
        let c := poisonCause s1 f
        if c ≠ 0 then wake n rs (answer s1 id f c 0 0) home
        else wake n (rs ++ changedWords f) (performFlight s1 id f) home

/-- A change of the full/empty bits of these words at a home lets the accesses that wait for them perform. (Log 77: DESIGN CHOICE.) -/
def wakeHome (s : State) (home : Nat) (rs : List (Nat × Nat)) : State :=
  if rs.isEmpty then s else wake (retryOf s home).length rs s home

/-- The walk that follows an access that has performed. (Log 77: DESIGN CHOICE.) -/
def wakeAfter (s : State) (f : Flight) : State := wakeHome s f.home (changedWords f)

/-- The engine port's retry list of core `c`. -/
def wakeCore (s : State) (c : Nat) : State := if isSvc c then s else wakeHome s (16 + c) [(scratch c, 0x200000)]

/-- R338: a cancel goes out for an access that waits, if none is on its way; its answer comes within 1,024 cycles, or
within 2^22 from beyond the package (R411). (Log 41: DEDUCED.) -/
def sendCancel (s : State) (id : Nat) : State :=
  match flight s id with
  | none => s
  | some f =>
    if f.cancelSent then s
    else
      let s1 := setFlight s id { f with cancelSent := true }
      let s2 := conduitPacket s1 (srcDie f) (homeDie f.home (f.group.getD 0)) 0 (srcOf s f) f.key 0
      laterIn s2 (if isBeyond f.key then 2 ^ 22 else 1024) .farReplyArrival [id, 1]

/-- An access that waits is withdrawn: it leaves its retry list and performs zero times. -/
def withdraw (s : State) (id : Nat) (f : Flight) : State :=
  dropFlight (setRetry s f.home ((retryOf s f.home).filter (fun x => x ≠ id))) id

/-- Accesses of core `c` whose party is no more: those of a gang that has left it, or of a tephra core with a new image (R301). They
are outstanding for no one and their replies go nowhere; one that waits for a full/empty bit is withdrawn. -/
def forsake (s : State) (c : Nat) (mine : Flight → Bool) : State :=
  let hit := fun (f : Flight) => f.core = c && mine f
  let s1 : State := { s with flights := (s.flights.filter (fun p => !(hit p.2 && p.2.cancelled))).map (fun p =>
    if hit p.2 then (p.1, { p.2 with gone := true }) else p) }
  (s1.flights.filter (fun p => hit p.2 && p.2.st = .waiting)).foldl (fun x p => withdraw x p.1 p.2) s1

/-- Whether a save cancels this access of a party: of a tephra core the blocking access alone, since its posted ones complete
(R320). -/
def cancels (s : State) (id : Nat) (f : Flight) : Bool :=
  f.who < 8 || (tget {} (core s f.core).tes (f.who - 8)).pending = some id

/-- An access of a party that is being saved is cancelled as it begins to wait; one whose tephra core has a new image is
withdrawn (R301). (Log 41: DEDUCED.) -/
def cancelIfSaving (s : State) (id : Nat) (f : Flight) : State :=
  if isPeer f then s
  else if f.gone then (if f.mode = 0 then s else withdraw s id f)
  else if f.who < 8 then
    (let th := thread s f.core f.who
     if th.saving || (th.st = .done && (core s f.core).eng.frozen) then sendCancel s id else s)
  else if (tget {} (core s f.core).tes (f.who - 8)).saveWait && cancels s id f then sendCancel s id else s

/-- An access that its core holds back, or that a retry list refused, is sent again later (R239, R397). (Log 77: DESIGN CHOICE.) -/
def holdBack (s : State) (id : Nat) (f : Flight) : State :=
  cancelIfSaving (later (setFlight s id { f with st := .refused, arrived := false }) [] .retryRefusalResend [id]) id f

/-- An access at its home (R237 to R239): its grant is checked as it arrives (R216); at an engine port it then waits for the
bank words that the thread port holds, and behind what waits for them (R198). -/
def serveHome (s : State) (id : Nat) (f : Flight) : State :=
  let n := if f.arrived then 0 else grantCause s f
  let c := if f.parted then 0 else poisonCause s f
  if n ≠ 0 then answer s id f n 0 0
  else if 16 ≤ f.home ∧ f.home < 528 ∧ ((core s (f.home - 16)).waits ≠ [] ∨ portBarred s f) then
    portWait (setFlight s id { f with arrived := true }) (f.home - 16) .homeServeAccess [id]
  else if c ≠ 0 then answer s id f c 0 0
  else
    let s1 := if f.mode ≠ 0 then expandRange s f.key (flightLen f) else s
    if conditionHolds s1 f then wakeAfter (performFlight s1 id f) f
    else if (retryOf s1 f.home).length < retryLimit f.home then
      cancelIfSaving (setRetry (setFlight s1 id { f with st := .waiting }) f.home (retryOf s1 f.home ++ [id])) id f
    else holdBack s1 id f

/-- Whether an access has to let an earlier one of the same party go first (R225, R305): one to the same home that was
refused and is not yet accepted (R239), or a te.save whose page has yet to be written at this home. (Log 77: DESIGN CHOICE.) -/
def heldBack (s : State) (id : Nat) (f : Flight) : Bool :=
  s.flights.any (fun p => p.1 < id && p.2.core = f.core && p.2.who = f.who
    && ((p.2.home = f.home && p.2.st = .refused)
      || (p.2.op = .save && p.2.st ≠ .served && (if p.2.leg2 then p.2.home else homeOf (p.2.data.getD 0 0)) = f.home)))

/-- Whether the stream of an access is held at its gateway (R397). -/
def streamHeld (s : State) (f : Flight) : Bool :=
  f.group.isNone && 2 ^ 60 ≤ f.key && s.links.heldStreams.contains (srcOf s f, (f.key - 2 ^ 60) / 2 ^ 50)

/-- Whether the link replies to an access as it accepts it: to a store, packet or FVATOM (R405) that its home serves as
it is; an FVATOM that the gateway decomposes has its one reply after the last element (R265, R402), and a page that te.save
writes once it has performed, so that a checkpoint learns of a group's death (R413). -/
def repliesEarly (s : State) (f : Flight) : Bool :=
  f.op = .st || f.op = .pk || f.op = .wrw || (f.op = .vat && hasFe s f)

/-- The gateway sends an access through group `g`, or denies what its peer has no way to do (Table 18.4). (Log 26: DESIGN CHOICE.) -/
def sendBeyond (s : State) (id : Nat) (f : Flight) (g : Nat) : State :=
  let f0 := { f with group := some g, st := .sent }
  let f1 := { f0 with early := repliesEarly s f0 }
  if !hasFe s f0 ∧ (f.mode = 2 ∨ f.mode = 3) then answer s id f 0x62 0 0
  else
    let s1 := tick (setFlight s id f1) f.core 9 (units64 (flightLen f))
    let s2 := sendHome s1 0 id f1
    if f1.early then later s2 [] .farReplyArrival [id] else s2

/-- An access arrives at its home, or at the gateway that sends it on. (Log 26: DESIGN CHOICE.) -/
def arrive (s : State) (id : Nat) (f : Flight) : State :=
  if f.parted then serveHome s id f
  else if !f.arrived && (heldBack s id f || streamHeld s f) then holdBack s id f
  else if !isBeyond f.key then
    if conduitDown s (srcDie f) (homeDie f.home 0) then answer s id f 0xC0 0 0 else serveHome s id f
  else if f.group.isSome then
    (if !f.early && conduitDown s (srcDie f) (servedDie f) then answer s id f 0xC0 0 0 else serveHome s id { f with st := .sent })
  else
    let c := linkRefusal s f.key (srcOf s f)
    let g := (gateGroup s f.key (srcOf s f)).getD 0
    if c ≠ 0 then answer s id f c 0 0
    else if conduitDown s (srcDie f) (homeDie f.home g) then answer s id f 0xC0 0 0
    else sendBeyond s id f g

/-- HOME_SERVE_ACCESS [id]. (Log 8: DESIGN CHOICE; log 26: DESIGN CHOICE.) -/
def execHomeServeAccess (s : State) : Out :=
  .next (match flight s (arg s 0) with
    | none => s
    | some f => if f.st = .sent then arrive s (arg s 0) f else s)

/-- RETRY_REFUSAL_RESEND [id] (R239). (Log 77: DESIGN CHOICE.) -/
def execRetryRefusalResend (s : State) : Out :=
  .next (match flight s (arg s 0) with
    | none => s
    | some f =>
      if f.st ≠ .refused then s
      else if isPeer f then serveHome s (arg s 0) { f with st := .sent }
      else arrive s (arg s 0) { f with st := .sent })

/-! ## The issuing side -/

/-- Whether the bundle at work of core `c` has a thread-port access under way. -/
def bundlePort (s : State) (c : Nat) : Bool := (core s c).port.any (fun p => p.due = s.gcyc + 4)

/-- The first cycle in which an access may leave its core: after the thread-port accesses of its bundle and of earlier
bundles have performed (R253, R254). -/
def leavesAt (s : State) (f : Flight) : Nat :=
  if 8 ≤ f.who then portFree s f.core else if bundlePort s f.core then s.gcyc + 5 else 0

/-- A far access leaves its core (R225): it takes a fresh identifier and is on its way to its home, in issue order among the
accesses of its party to one word. -/
def issueFlight (s : State) (f : Flight) : State :=
  let d := fresh s
  let f1 := { f with st := .sent, home := homeOf f.key }
  let die := homeDie f1.home ((groupFor d.2 f.key (srcOf d.2 f)).getD 0)
  let s2 := conduitPacket (tick d.2 f.core 8 ((conduits (dieOf f.core) die).length * units64 (flightLen f)))
    (dieOf f.core) die 0 (srcOf d.2 f) f.key (flightLen f)
  sendHome s2 (leavesAt s2 f1) d.1 f1

/-- R338: a thread whose save waits for its replies has its image written when the last has come. -/
def checkSaved (s : State) (c t : Nat) : State :=
  let th := thread s c t
  if th.saving && (outstanding s c t).isEmpty
      && !s.agenda.any (fun e => e.instr = .contextSaveComplete && e.args = [c, t]) then
    later s [] .contextSaveComplete [c, t]
  else s

/-- Whether an open packet of core `c` was translated through the entry at a place (R223). -/
def packetThrough (s : State) (c index : Nat) : Bool :=
  (core s c).threads.any (fun p => match p.2.packet with | some k => k.win = index + 1 | none => false)

/-- R214: a core acknowledges a kill once no access that it translated through the entry is outstanding. -/
def ackKill (c : Nat) (s : State) (w : Nat × WinOp) : State :=
  if w.2.kill && w.2.left.contains c && tget 0 (core s c).windows w.2.index = 0
      && !packetThrough s c w.2.index
      && !s.flights.any (fun p => p.2.core = c && !p.2.replied
        && (p.2.win = w.2.index + 1 || (p.2.op = .save && !p.2.leg2 && p.2.data.getD 2 0 = w.2.index + 1)))
      && !s.agenda.any (fun e => e.instr = .killAcknowledge && e.args = [w.1, c]) then
    later s [] .killAcknowledge [w.1, c]
  else s

def checkKills (s : State) (c : Nat) : State := s.winops.foldl (ackKill c) s

/-- The type code with which a value that RESUME supplies lands: a load's own, an FATOM's by its TY and operation (R228,
R235). -/
def faultCode (f : Flight) : Nat :=
  if f.op = .atom then
    match f.code with
    | 0 => if f.aop = 4 ∨ f.aop = 5 then 4 else 5
    | 1 => 12
    | 2 => 6
    | _ => 13
  else f.code

/-- What the value of a load or FATOM lands as. -/
def replyAct' (f : Flight) : LandAct :=
  match f.dest with
  | none => .nothing
  | some d =>
    if f.op = .atom then .sreg d { body := atomOld f.aop f.code f.value, tail := 0 }
    else .sreg d { body := loadExt f.code f.value, tail := 0 }

/-- The reply of a thread's access: a value or flags that land in the first turn after, or a delivery fault; that of a store brings
neither. -/
def threadReply (s : State) (f : Flight) : State :=
  if f.cause ≠ 0 then
    modThread s f.core f.who (fun th =>
      { th with faults := th.faults ++ [{ cause := f.cause, addr := f.addr, aword := f.aword, dest := f.dest,
                                          code := faultCode f, issued := f.issued, pos := f.pos, rx := f.rx
                                          acq := f.ord && (f.op = .ld || f.op = .atom) }] })
  else if f.dest = none ∧ f.oflags = 0 then s
  else
    let l : Landing :=
      { due := (thread s f.core f.who).ttc, issued := f.issued, pos := f.pos, act := replyAct' f, flags := f.oflags
        acq := f.ord && (f.op = .ld || f.op = .atom), far := f.dest.map (fun _ => (f.aword, f.addr, f.rx)) }
    modThread s f.core f.who (fun th => { th with lands := insLanding l th.lands })

/-- The reply of a tephra core's access: the value that its blocking instruction awaits, the bytes of a posted read, or
a fault that it meets at its next instruction boundary (R305, R306). -/
def tephraReply (s : State) (id : Nat) (f : Flight) : State :=
  modCore s f.core (fun k =>
    let te := tget {} k.tes (f.who - 8)
    let te1 :=
      if f.cause ≠ 0 then
        { te with
          faults := te.faults ++ [{ cause := f.cause, addr := f.addr, aword := f.aword, dest := none, code := 0,
                                    issued := f.issued, pos := if te.pending = some id then 1 else 0 }]
          pending := if te.pending = some id then none else te.pending }
      else if te.pending = some id then { te with pending := none, value := some f.value }
      else if f.op = .rdw then
        { te with dmem := (List.range 64).foldl (fun m i =>
            tput 0 m (f.sink + i) (BitVec.ofNat 8 (f.value / 256 ^ i))) te.dmem }
      else te
    { k with tes := tset k.tes (f.who - 8) te1 })

/-- CANCELLED (R241): the access leaves its retry list. A thread's is kept, to be sent again; a tephra core's
instruction issues it anew. -/
def cancelAccess (s : State) (id : Nat) (f : Flight) : State :=
  let s1 := setRetry s f.home ((retryOf s f.home).filter (fun x => x ≠ id))
  if f.who < 8 then setFlight s1 id { f with cancelled := true, replied := true, st := .served }
  else dropFlight (modCore s1 f.core (fun k =>
    let te := tget {} k.tes (f.who - 8)
    let te1 :=
      { te with
        pending := if te.pending = some id then none else te.pending
        cancelled := some (f.aword, f.addr, if f.op = .atom then f.operand.body else leNat f.data) }
    { k with tes := tset k.tes (f.who - 8) te1 })) id

/-! ### Duplicates (R406)

A peer's request has its stream, a group and a source endpoint, and 1 + its sequence number in `issued`. -/

/-- The key of a peer's stream. -/
def streamKey (g src : Nat) : Nat := g * 2 ^ 22 + src

/-- The record of the last 1,024 requests of a stream, youngest first; one that has joined it is not answered yet. -/
def noteSeen (s : State) (k n : Nat) : State :=
  { s with links := { s.links with
      seen := tset s.links.seen k (((n, none) :: (tget [] s.links.seen k).filter (fun p => p.1 ≠ n)).take 1024) } }

/-- A request that did not perform is forgotten: a retransmission of it is a request like any other. -/
def forgetSeen (s : State) (k n : Nat) : State :=
  { s with links := { s.links with seen := tset s.links.seen k ((tget [] s.links.seen k).filter (fun p => p.1 ≠ n)) } }

/-- A peer's request is answered: its reply is kept with its sequence number; one that was denied is forgotten. -/
def keepReply (s : State) (f : Flight) : State :=
  let k := streamKey (f.core - 0x10000) (f.aword % 2 ^ 22)
  if f.issued = 0 then s
  else if f.cause ≠ 0 then forgetSeen s k f.issued
  else
    { s with links := { s.links with
        seen := tset s.links.seen k ((tget [] s.links.seen k).map (fun p =>
          if p.1 = f.issued then (p.1, some (f.value, f.oflags)) else p)) } }

/-- The reply of an access that was not cancelled: it leaves its pool, and at system scope when its end-to-end
acknowledgement has come. -/
def deliverReply (s : State) (id : Nat) (f : Flight) : State :=
  if isPeer f then dropFlight (keepReply s f) id
  else
  let s1 := if f.gone then s
    else if f.who < 8 then threadReply s (if f.early then { f with oflags := 0 } else f) else tephraReply s id f
  if f.group.isSome && !f.acked then setFlight s1 id { f with replied := true } else dropFlight s1 id

/-- R338: a delivery fault that reaches a thread while it is being saved is posted at once, unless an earlier one is still
served. -/
def postWhileSaving (s : State) (c t : Nat) : State :=
  let th := thread s c t
  match th.faults with
  | f :: _ =>
    if th.saving && th.wait ≠ .delivery then
      postDelivery (modThread s c t (fun x => { x with st := .block, reply := none })) c t f th.next
    else s
  | [] => s

/-- What follows a reply of a party of core `c`: kills that wait for it, a save that waits for it, and the completion of
its gang (R169). -/
def afterReply (s : State) (f : Flight) : State :=
  let s1 := checkKills s f.core
  if f.who < 8 && !f.gone then checkDone (checkSaved (postWhileSaving s1 f.core f.who) f.core f.who) f.core else s1

/-- FAR_REPLY_ARRIVAL [id], or [id, 1] for the answer to a cancel (R227, R241): the access leaves its pool. (Log 8: DESIGN CHOICE.) -/
def execFarReplyArrival (s : State) : Out :=
  .next (match flight s (arg s 0) with
    | none => s
    | some f =>
      if f.replied then s
      else if arg s 1 = 1 then
        (if f.st = .waiting || f.st = .refused then
          afterReply (cancelAccess s (arg s 0) { f with cancelSent := false }) f
        else setFlight s (arg s 0) { f with cancelSent := false })
      else afterReply (deliverReply s (arg s 0) f) f)

/-- DELIVERY_FAULT [core, slot] (R228): the thread's turn meets the fault and posts its message. (Log 27: DEDUCED.) -/
def execDeliveryFault (s : State) : Out :=
  let c := arg s 0
  let t := arg s 1
  match (thread s c t).faults with
  | [] => .next s
  | f :: _ => .next (postDelivery (modThread s c t (fun x => { x with st := .block })) c t f (thread s c t).next)

end Sys2Proof.Machine
end

