-- ==== Sys2Proof/Machine/Scalar.lean ====
section
/-! DEFINITION. The S slot: integer, address, floating-point and predicate instructions (R98 to R115). An instruction is
executed only in a bundle whose checks it passed and with its guard true (R102); SEL alone reads its guard. -/

namespace Sys2Proof.Machine

/-- A scalar result of latency 1. -/
def putS (s : State) (w : SWord) (v : Word) : Out := .next (landW s w.d 1 v)

/-! ## Integer instructions (Table 4.1) -/

def execAdd (w : SWord) (s : State) : Out := putS s w (body s w.a + body s w.b)

def execSub (w : SWord) (s : State) : Out := putS s w (body s w.a - body s w.b)

/-- ADDI adds its imm6, or the sign-extended imm32. -/
def addiImm (w : SWord) : Word :=
  match w.imm with
  | none => sextTo64 6 w.b
  | some n => sextTo64 32 n

def execAddi (w : SWord) (s : State) : Out := putS s w (body s w.a + addiImm w)

def execMul (w : SWord) (s : State) : Out := putS s w (body s w.a * opB s w)

def execMulh (w : SWord) (s : State) : Out :=
  putS s w (BitVec.ofInt 64 ((body s w.a).toInt * (opB s w).toInt / 2 ^ 64))

def execMulhn (w : SWord) (s : State) : Out :=
  putS s w (BitVec.ofNat 64 ((body s w.a).toNat * (opBz s w).toNat / 2 ^ 64))

def execAnd (w : SWord) (s : State) : Out := putS s w (body s w.a &&& opB s w)

def execOr (w : SWord) (s : State) : Out := putS s w (body s w.a ||| opB s w)

def execXor (w : SWord) (s : State) : Out := putS s w (body s w.a ^^^ opB s w)

def execAndn (w : SWord) (s : State) : Out := putS s w (body s w.a &&& ~~~ opB s w)

/-- Shifts use bits 5:0 of b. -/
def shamt (b : Word) : Nat := b.toNat % 64

def execShl (w : SWord) (s : State) : Out := putS s w (body s w.a <<< shamt (opB s w))

def execShr (w : SWord) (s : State) : Out := putS s w (body s w.a >>> shamt (opB s w))

def execSar (w : SWord) (s : State) : Out := putS s w ((body s w.a).sshiftRight (shamt (opB s w)))

def execRol (w : SWord) (s : State) : Out := putS s w ((body s w.a).rotateLeft (shamt (opB s w)))

/-- Leading zero bits of a `n`-bit number. -/
def clzNat (n x : Nat) : Nat := if x = 0 then n else n - 1 - Nat.log2 x

/-- One bits of a `n`-bit number. -/
def popNat (n x : Nat) : Nat := ((List.range n).map (fun k => bitsAt x k 1)).sum

def execClz (w : SWord) (s : State) : Out := putS s w (BitVec.ofNat 64 (clzNat 64 (nat s w.a)))

def execPopc (w : SWord) (s : State) : Out := putS s w (BitVec.ofNat 64 (popNat 64 (nat s w.a)))

def execMin (w : SWord) (s : State) : Out :=
  putS s w (if (body s w.a).toInt ≤ (opB s w).toInt then body s w.a else opB s w)

def execMax (w : SWord) (s : State) : Out :=
  putS s w (if (body s w.a).toInt ≤ (opB s w).toInt then opB s w else body s w.a)

def execMinn (w : SWord) (s : State) : Out :=
  putS s w (if (body s w.a).toNat ≤ (opBz s w).toNat then body s w.a else opBz s w)

def execMaxn (w : SWord) (s : State) : Out :=
  putS s w (if (body s w.a).toNat ≤ (opBz s w).toNat then opBz s w else body s w.a)

/-- R105: a divisor of zero traps with 0x28; else the result lands with latency 4. -/
def divide (s : State) (w : SWord) (b : Word) (r : Word) : Out :=
  if b = 0 then .next (trapNow s 0x28) else .next (landW s w.d 4 r)

def execDiv (w : SWord) (s : State) : Out :=
  divide s w (opB s w) (BitVec.ofInt 64 (Int.tdiv (body s w.a).toInt (opB s w).toInt))

def execRem (w : SWord) (s : State) : Out :=
  divide s w (opB s w) (BitVec.ofInt 64 (Int.tmod (body s w.a).toInt (opB s w).toInt))

def execDivn (w : SWord) (s : State) : Out :=
  divide s w (opBz s w) (BitVec.ofNat 64 ((body s w.a).toNat / (opBz s w).toNat))

def execRemn (w : SWord) (s : State) : Out :=
  divide s w (opBz s w) (BitVec.ofNat 64 ((body s w.a).toNat % (opBz s w).toNat))

/-- The control word of EXT and INS: position and width (R106). -/
def ctlPos (c : Word) : Nat := bitsAt c.toNat 0 6
def ctlWid (c : Word) : Nat := bitsAt c.toNat 8 6 + 1

def execExt (w : SWord) (s : State) : Out :=
  let c := opB s w
  let f := nat s w.a / 2 ^ ctlPos c % 2 ^ ctlWid c
  putS s w (if bitsAt c.toNat 16 1 = 1 ∧ bitsAt f (ctlWid c - 1) 1 = 1 then BitVec.ofInt 64 ((f : Int) - 2 ^ ctlWid c)
    else BitVec.ofNat 64 f)

/-- INS merges into its destination at its landing (R101). -/
def execIns (w : SWord) (s : State) : Out :=
  let c := opB s w
  .next (land s 1 (.ins (physS (me s) w.d) (body s w.a) (ctlPos c) (ctlWid c)) 0)

/-! ## Moves (R107, R81) -/

def execMov (w : SWord) (s : State) : Out := .next (landS s w.d 1 (sreg s w.a))

/-- SEL always executes; bit 0 of its G field selects. -/
def execSel (w : SWord) (s : State) : Out :=
  .next (landS s w.d 1 (if guardBit (me s) s.cur.g 0 then sreg s w.a else sreg s w.b))

def execMoviShort (w : SWord) (s : State) : Out := putS s w (sextTo64 12 (w.a * 64 + w.b))

def execMoviImm32 (w : SWord) (s : State) : Out := putS s w (sextTo64 32 (w.imm.getD 0))

def execMoviLong (w : SWord) (s : State) : Out := putS s w (BitVec.ofNat 64 (w.imm.getD 0))

/-! ## Compares (R108) -/

def putB (s : State) (w : SWord) (b : Bool) : Out := .next (landB s w.d b)

def execCmpeq (w : SWord) (s : State) : Out := putB s w (body s w.a = opB s w)

def execCmpne (w : SWord) (s : State) : Out := putB s w (body s w.a ≠ opB s w)

def execCmplt (w : SWord) (s : State) : Out := putB s w ((body s w.a).toInt < (opB s w).toInt)

def execCmple (w : SWord) (s : State) : Out := putB s w ((body s w.a).toInt ≤ (opB s w).toInt)

def execCmpltn (w : SWord) (s : State) : Out := putB s w ((body s w.a).toNat < (opBz s w).toNat)

def execCmplen (w : SWord) (s : State) : Out := putB s w ((body s w.a).toNat ≤ (opBz s w).toNat)

/-! ## Address instructions (R109 to R112) -/

/-- Bits 71:68 mark the mesh form (R109). -/
def isMesh (a : Addr) : Bool := bitsAt a.toNat 68 4 = 15

/-- The mesh form of Table 4.2. -/
def meshAddr (node die col row ofs : Nat) : Addr :=
  BitVec.ofNat 72 (15 * 2 ^ 68 + node * 2 ^ 58 + die * 2 ^ 56 + col * 2 ^ 52 + row * 2 ^ 49 + ofs)

def execLea (w : SWord) (s : State) : Out :=
  let a := nat s w.a
  let b := (opB s w).toNat
  let col : Int := (colOf s.cur.core : Int) + sextNat 5 b
  let row : Int := (rowOf s.cur.core : Int) + sextNat 4 (b / 32)
  if 0x1FFFFF < a then .next (trapNow s 0x40)
  else if col < 0 ∨ 15 < col ∨ row < 0 ∨ 7 < row then .next (trapNow s 0x42)
  else .next (landA s w.d (meshAddr s.node (dieOf s.cur.core) col.toNat row.toNat a))

/-- R111: the sum of an address and a signed offset, with the cause of a sum that leaves its form. A register offset is
read as a signed 64-bit value, as the immediate is. (Log 83: DEDUCED.) -/
def addAddr (a : Addr) (d : Int) : Addr × Nat :=
  if isMesh a then
    let o : Int := (bitsAt a.toNat 0 21 : Int) + d
    if o < 0 ∨ 0x1FFFFF < o then (a, 0x40) else (BitVec.ofNat 72 (a.toNat / 2 ^ 21 * 2 ^ 21 + o.toNat), 0)
  else
    let r := BitVec.ofInt 72 ((a.toNat : Int) + d)
    if isMesh r then (a, 0x42) else (r, 0)

def execAdda (w : SWord) (s : State) : Out :=
  let r := addAddr (areg s w.a) (opB s w).toInt
  if r.2 ≠ 0 then .next (trapNow s r.2) else .next (landA s w.d r.1)

def execMovaAS (w : SWord) (s : State) : Out := .next (landA s w.d (BitVec.ofNat 72 (nat s w.a)))

def execMovaSA (w : SWord) (s : State) : Out := putS s w (BitVec.ofNat 64 (areg s w.a).toNat)

def execMovaHiSA (w : SWord) (s : State) : Out := putS s w (BitVec.ofNat 64 ((areg s w.a).toNat / 2 ^ 64))

def execMovaAA (w : SWord) (s : State) : Out := .next (landA s w.d (areg s w.a))

/-- MOVA.hi to an address register merges (R101). -/
def execMovaHiAS (w : SWord) (s : State) : Out :=
  .next (land s 1 (.movaHi w.d (BitVec.ofNat 8 (nat s w.a))) 0)

/-! ## Scalar floating point (R113) -/

/-- The exact operands of a row's format. -/
def fa (s : State) (f : Fmt) (w : SWord) : Val := (heldS s f w.a).val f
def fb (s : State) (f : Fmt) (w : SWord) : Val := (heldB s f w).val f

def execFadd (f : Fmt) (w : SWord) (s : State) : Out :=
  .next (landFp s w.d 1 f (fpAdd s.cur.cvp.mode (fa s f w) (fb s f w)))

def execFsub (f : Fmt) (w : SWord) (s : State) : Out :=
  .next (landFp s w.d 1 f (fpAdd s.cur.cvp.mode (fa s f w) (fb s f w).neg))

def execFmul (f : Fmt) (w : SWord) (s : State) : Out := .next (landFp s w.d 1 f (fpMul (fa s f w) (fb s f w)))

/-- FMA merges (R101): NV for 0 × ∞ and for signalling NaN operands a and b is decided at issue. -/
def execFma (f : Fmt) (w : SWord) (s : State) : Out :=
  let a := heldS s f w.a
  let b := heldB s f w
  let fl := flagOr (if zeroTimesInf (a.val f) (b.val f) then fNV else 0) (snanFlag [a.val f, b.val f])
  .next (land (note s fl) 1 (.fma (physS (me s) w.d) f a b s.cur.cvp) fl)

def execFdiv (f : Fmt) (w : SWord) (s : State) : Out := .next (landFp s w.d 4 f (fpDiv (fa s f w) (fb s f w)))

def execFsqrt (f : Fmt) (w : SWord) (s : State) : Out := .next (landFp s w.d 4 f (fpSqrt (fa s f w)))

def execFmin (f : Fmt) (w : SWord) (s : State) : Out :=
  .next (landChosen s w.d f (fpMinMax f false false (heldS s f w.a) (heldB s f w)))

def execFmax (f : Fmt) (w : SWord) (s : State) : Out :=
  .next (landChosen s w.d f (fpMinMax f true false (heldS s f w.a) (heldB s f w)))

def execFcmp (f : Fmt) (c : FCmp) (w : SWord) (s : State) : Out :=
  let r := fpCmp f c (heldS s f w.a) (heldB s f w)
  .next (landBFl s w.d r.1 r.2)

def execSetl (f : Fmt) (w : SWord) (s : State) : Out :=
  let r := settle f (heldS s f w.a) f s.cur.cvp.mode s.cur.cvp.sat
  .next (landFl s w.d 1 (BitVec.ofNat 64 r.1) r.2)

def execFclass (f : Fmt) (w : SWord) (s : State) : Out := putS s w (BitVec.ofNat 64 (fpClass f (heldS s f w.a)))

/-- FCVT (R114): DIR 0 converts from the row's format to the format of T, DIR 1 from T to the row's. -/
def execFcvt (f : Fmt) (w : SWord) (s : State) : Out :=
  let t := w.b % 16
  if w.b / 16 % 2 = 0 then
    match fmtOf t, intOf t with
    | some g, _ => .next (landFp s w.d 1 g (convExact f (heldS s f w.a)))
    | none, some (n, sg) =>
      let r := fpToInt s.cur.cvp.mode ((heldS s f w.a).val f) n sg
      .next (landFl s w.d 1 (BitVec.ofInt 64 r.1) r.2)
    | none, none => .next (trapNow s 0x01)
  else
    match fmtOf t, intOf t with
    | some g, _ => .next (landFp s w.d 1 f (convExact g (heldS s g w.a)))
    | none, some (n, sg) =>
      let x := nat s w.a % 2 ^ n
      .next (landFp s w.d 1 f (intExact (if sg then sextNat n x else (x : Int)), 0))
    | none, none => .next (trapNow s 0x01)

def execFaddF64 (w : SWord) (s : State) : Out := execFadd .f64 w s
def execFsubF64 (w : SWord) (s : State) : Out := execFsub .f64 w s
def execFmulF64 (w : SWord) (s : State) : Out := execFmul .f64 w s
def execFmaF64 (w : SWord) (s : State) : Out := execFma .f64 w s
def execFdivF64 (w : SWord) (s : State) : Out := execFdiv .f64 w s
def execFsqrtF64 (w : SWord) (s : State) : Out := execFsqrt .f64 w s
def execFminF64 (w : SWord) (s : State) : Out := execFmin .f64 w s
def execFmaxF64 (w : SWord) (s : State) : Out := execFmax .f64 w s
def execFcmpeqF64 (w : SWord) (s : State) : Out := execFcmp .f64 .eq w s
def execFcmpltF64 (w : SWord) (s : State) : Out := execFcmp .f64 .lt w s
def execFcmpleF64 (w : SWord) (s : State) : Out := execFcmp .f64 .le w s
def execFcvtF64 (w : SWord) (s : State) : Out := execFcvt .f64 w s
def execSetlF64 (w : SWord) (s : State) : Out := execSetl .f64 w s
def execFclassF64 (w : SWord) (s : State) : Out := execFclass .f64 w s
def execFaddF32 (w : SWord) (s : State) : Out := execFadd .f32 w s
def execFsubF32 (w : SWord) (s : State) : Out := execFsub .f32 w s
def execFmulF32 (w : SWord) (s : State) : Out := execFmul .f32 w s
def execFmaF32 (w : SWord) (s : State) : Out := execFma .f32 w s
def execFdivF32 (w : SWord) (s : State) : Out := execFdiv .f32 w s
def execFsqrtF32 (w : SWord) (s : State) : Out := execFsqrt .f32 w s
def execFminF32 (w : SWord) (s : State) : Out := execFmin .f32 w s
def execFmaxF32 (w : SWord) (s : State) : Out := execFmax .f32 w s
def execFcmpeqF32 (w : SWord) (s : State) : Out := execFcmp .f32 .eq w s
def execFcmpltF32 (w : SWord) (s : State) : Out := execFcmp .f32 .lt w s
def execFcmpleF32 (w : SWord) (s : State) : Out := execFcmp .f32 .le w s
def execFcvtF32 (w : SWord) (s : State) : Out := execFcvt .f32 w s
def execSetlF32 (w : SWord) (s : State) : Out := execSetl .f32 w s
def execFclassF32 (w : SWord) (s : State) : Out := execFclass .f32 w s

/-! ## Predicate instructions (Table 4.6) -/

def putP (s : State) (w : SWord) (v : Pred) : Out := .next (landP s w.d v (BitVec.allOnes 128))

def execPand (w : SWord) (s : State) : Out := putP s w (preg s w.a &&& preg s w.b)
def execPor (w : SWord) (s : State) : Out := putP s w (preg s w.a ||| preg s w.b)
def execPxor (w : SWord) (s : State) : Out := putP s w (preg s w.a ^^^ preg s w.b)
def execPnot (w : SWord) (s : State) : Out := putP s w (~~~ preg s w.a)
def execPmov (w : SWord) (s : State) : Out := putP s w (preg s w.a)
def execPall (w : SWord) (s : State) : Out := putB s w (preg s w.a = BitVec.allOnes 128)
def execPany (w : SWord) (s : State) : Out := putB s w (preg s w.a ≠ 0)

/-- A no-operation (R88). -/
def execNop (s : State) : Out := .next s
def execVnop (s : State) : Out := .next s
def execLnop (s : State) : Out := .next s
def execMnop (s : State) : Out := .next s
def execXnop (s : State) : Out := .next s

end Sys2Proof.Machine
end

