-- ==== Sys2Proof/Machine/Far.lean ====
section
/-! DEFINITION. Far accesses of a thread, packets, FENCE and MBOX (R220 to R245). -/

namespace Sys2Proof.Machine

/-! ## Checks and issue conditions (R221, R223, Table 9.2) -/

/-- Steps 1 to 3 of R221; 0 where they pass. -/
def farCause (a : Addr) (size : Nat) : Nat :=
  if isMesh a && meshRsvd a ≠ 0 then 0x42
  else if isMesh a && 0x200000 < meshOfs a + size then 0x40
  else if a.toNat % size ≠ 0 then 0x41 else 0

/-- R226: whether an access has completed at system scope, or at device scope where its home is in the package. -/
def completeSys (f : Flight) : Bool :=
  f.replied && (!isBeyond f.key || f.acked || f.cancelled || f.op = .ld || f.op = .atom)

/-- Table 9.2 for an access of the thread at work. -/
def farReady (s : State) (rx release : Bool) : Bool :=
  let all := flightsOf s s.cur.core s.cur.slot
  let l := all.filter (fun p => !p.2.replied)
  let relaxed := (l.filter (fun p => p.2.rx)).foldl (fun n p => n + 1 + p.2.merged) 0
  l.all (fun p => !(p.2.ord && (p.2.op = .ld || p.2.op = .atom)))
    && l.all (fun p => p.2.rx)
    && (if rx then relaxed < 16 else l.isEmpty)
    && (!release || all.all (fun p => completeSys p.2))

/-- The access word (R331) of an X word. -/
def accessWord (op : Nat) (w : XWord) (a : Addr) : Nat :=
  a.toNat / 2 ^ 64 + op * 2 ^ 8 + w.b * 2 ^ 15 + w.ci * 2 ^ 21

/-- The checks, the conditions and the translation of a far access, and then what it does with its translation. The flags
of a store's settle are noted in `s` before: an enabled one traps whether or not the access could go (R161, R324). -/
def farAccess (s : State) (op : Nat) (w : XWord) (a : Addr) (size : Nat) (rx release : Bool) (need : Need)
    (go : Trans → State) : Out :=
  let n := farCause a size
  .next (if n ≠ 0 then trapNow s n
    else if !farReady s rx release then blockNow s
    else
      let t := translate s s.cur.core a need
      if t.cause ≠ 0 then { s with cur := { s.cur with miss := some (t.cause, a, accessWord op w a, t.entry) } }
      else go t)

/-- The flight of an access of the thread at work. -/
def myFlight (s : State) (op : FarOp) (a : Addr) (t : Trans) (rx ord : Bool) (mode size code aword : Nat) : Flight :=
  { core := s.cur.core, who := s.cur.slot, op := op, rx := rx, ord := ord, mode := mode, size := size, code := code,
    addr := a, key := t.key, win := t.win, raw := winRaw t.entry, operand := ⟨0, 0⟩, cvp := s.cur.cvp, st := .sent,
    issued := (me s).ttc, pos := s.cur.pos, aword := aword }

/-- A release (R268, R269): it is noted as its access leaves. -/
def releaseIf (s : State) (ord : Bool) : State := if ord then noteRelease s s.cur.core 0 s.cur.slot else s

abbrev xSz (w : XWord) : Nat := w.ci % 16
abbrev xRx (w : XWord) : Bool := bitsAt w.ci 5 1 = 1
abbrev xOrd (w : XWord) : Bool := bitsAt w.ci 4 1 = 1
abbrev xAddr (s : State) (w : XWord) : Addr := areg s (w.b % 16)

/-! ## FLD and FST (R229 to R231, R242) -/

/-- FLD. -/
def execFld (w : XWord) (s : State) : Out :=
  let a := xAddr s w
  let n := szBytes (xSz w)
  farAccess s 0x01 w a n (xRx w) false .read (fun t =>
    issueFlight s { myFlight s .ld a t (xRx w) (xOrd w) (w.b / 16) n (xSz w) (accessWord 0x01 w a) with
      dest := some (physS (me s) w.da) })

/-- Whether a far access covers a 32-bit word of `n` bytes at a key. -/
def touchesWord (f : Flight) (k n : Nat) : Bool :=
  f.key / 4 ≤ (k + n - 1) / 4 && k / 4 ≤ (f.key + max (flightLen f) 1 - 1) / 4

/-- R242: an earlier store or packet of the thread with which a relaxed FST to key `k` may be merged. No younger access of
the thread to one of its words lies between them: two accesses to one word keep their order (R253, rule 5); nor does a
thread-port access of the bundle, which comes before the store's (R253, rule 1). (Log 24: DESIGN CHOICE.) -/
def mergeTarget (s : State) (w : XWord) (a : Addr) (k n : Nat) : Option (Nat × Flight) :=
  if !xRx w || xOrd w || bundlePort s s.cur.core then none
  else
    let l := outstanding s s.cur.core s.cur.slot
    l.find? (fun p =>
      (p.2.op = .st || p.2.op = .pk) && p.2.addr = a && p.2.key = k && flightLen p.2 = n && p.2.st = .sent && !p.2.arrived
        && p.2.group = none && (w.b / 16 = 0 || p.2.mode = w.b / 16)
        && !l.any (fun q => p.1 < q.1 && touchesWord q.2 k n))

/-- FST. -/
def execFst (w : XWord) (s0 : State) : Out :=
  let v := storeVal s0.cur.cvp (xSz w) false (sreg s0 w.da)
  let s := note s0 v.2
  let a := xAddr s w
  let n := szBytes (xSz w)
  farAccess s 0x02 w a n (xRx w) (xOrd w) .write (fun t =>
    let s1 := landFlags (releaseIf s (xOrd w)) v.2
    let d := drawChoice s1
    match (if d.1 then mergeTarget s w a t.key n else none) with
    | some p => setFlight d.2 p.1 { p.2 with data := leBytes n v.1, merged := p.2.merged + 1 }
    | none =>
      issueFlight d.2 { myFlight s .st a t (xRx w) (xOrd w) (w.b / 16) n (xSz w) (accessWord 0x02 w a) with
        data := leBytes n v.1 })

/-! ## Packets (R232 to R234) -/

/-- A closed packet travels to its home as one write. (Log 22: DEDUCED.) -/
def closePkt (s : State) (p : Packet) : State :=
  let f : Flight :=
    { myFlight s .pk p.addr { cause := 0, key := p.key, win := p.win, entry := 0 } p.rx p.ord 0 0 0 p.aword with
      data := p.data, issued := p.issued, pos := p.pos }
  issueFlight (releaseIf (modMe s (fun th => { th with packet := none })) p.ord) f

/-- The packet stays open, or closes where END is set. (Log 22: DEDUCED.) -/
def keepPkt (s : State) (p : Packet) (e : Nat) : State :=
  if e = 1 then closePkt s p else modMe s (fun th => { th with packet := some p })

/-- FSTP: it opens a packet or continues the open one. A continuation's alignment is checked on the packet's address
(R221), its place in the packet on the running offset (R234). (Log 22: DEDUCED.) -/
def execFstp (w : XWord) (s0 : State) : Out :=
  let n := szBytes (xSz w)
  let v := storeVal s0.cur.cvp (xSz w) false (sreg s0 w.da)
  let s := note s0 v.2
  match (me s).packet with
  | some p =>
    if w.b ≠ 0 ∨ xOrd w then .next (trapNow s 0x02)
    else if p.addr.toNat % n ≠ 0 then .next (trapNow s 0x41)
    else if p.data.length % n ≠ 0 ∨ 128 < p.addr.toNat % 128 + p.data.length + n then .next (trapNow s 0x0C)
    else .next (keepPkt (landFlags s v.2) { p with data := p.data ++ leBytes n v.1 } w.e)
  | none =>
    let a := xAddr s w
    farAccess s 0x03 w a n (xRx w) (xOrd w) .write (fun t =>
      keepPkt (landFlags s v.2)
        { rx := xRx w, ord := xOrd w, addr := a, key := t.key, win := t.win, ofs := 0, data := leBytes n v.1,
          aword := accessWord 0x03 w a, issued := (me s).ttc, pos := s.cur.pos, bundles := 1 } w.e)

/-! ## Atomics (R235, R236) -/

abbrev xbRx (w : XWord) : Bool := bitsAt w.b 5 1 = 1
abbrev xbOrd (w : XWord) : Bool := bitsAt w.b 4 1 = 1

/-- FATOM. -/
def execFatom (w : XWord) (s : State) : Out :=
  let a := xAddr s w
  let n := tyBytes (w.ci % 4)
  let v : Held := match tyFmt (w.ci % 4) with
    | some f => heldS s f w.da
    | none => ⟨nat s w.da, 0⟩
  farAccess s 0x04 w a n (xbRx w) (xbOrd w) .atomic (fun t =>
    issueFlight (releaseIf s (xbOrd w))
      { myFlight s .atom a t (xbRx w) (xbOrd w) 0 n (w.ci % 4) (accessWord 0x04 w a) with
        aop := w.ci / 4, operand := v, dest := some (physS (me s) w.da) })

/-- The elements of an FVATOM whose lanes the guard enables: their byte offsets and held values. -/
def vatElems (s : State) (w : XWord) : List (Nat × Held) :=
  let j := bitsAt w.ci 2 2
  let bf : Bool := bitsAt w.ci 1 1 = 1
  (List.range 32).flatMap (fun x =>
    let l := 32 * j + x
    if !guardBit (me s) s.cur.g l then []
    else if bf then
      [(4 * x, elemHeld .bf16 0 (vlane s w.da l)), (4 * x + 2, elemHeld .bf16 1 (vlane s w.da l))]
    else [(4 * x, elemHeld .f32 0 (vlane s w.da l))])

/-- FVATOM. -/
def execFvatom (w : XWord) (s : State) : Out :=
  let a := xAddr s w
  farAccess s 0x05 w a 128 (xbRx w) (xbOrd w) .atomic (fun t =>
    issueFlight (releaseIf s (xbOrd w))
      { myFlight s .vat a t (xbRx w) (xbOrd w) 0 128 (bitsAt w.ci 1 1) (accessWord 0x05 w a) with elems := vatElems s w })

/-! ## FENCE and MBOX (R243, R245) -/

/-- Whether the reply of an access has brought all that lands with it: the flags of an FVATOM that its link answered before it
performed come with its acknowledgement (R243, R405). -/
def landedAll (f : Flight) : Bool := f.replied && !(f.op = .vat && f.early && !f.acked)

/-- FENCE: every earlier far access has its reply and has completed at the scope. -/
def execFence (w : XWord) (s : State) : Out :=
  let l := flightsOf s s.cur.core s.cur.slot
  .next (if l.all (fun p => landedAll p.2 && (w.ci ≠ 4 || completeSys p.2)) && (me s).faults = [] then
      noteAcquire (noteRelease s s.cur.core 0 s.cur.slot) s.cur.core 0 s.cur.slot
    else blockNow s)

/-- The request of an MBOX, which leaves before its condition holds and is recorded as pending. An MBOX that meets a pending
request of an earlier one, whose bundle was left, sends none and takes that one's reply. (Log 101: DESIGN CHOICE.) -/
def preMbox (w : XWord) (s : State) : State :=
  if (me s).mboxReq.isSome || svc s then s
  else
    let c := s.cur.core
    let t := s.cur.slot
    let d := drawTicket s
    let s1 := modMe d.2 (fun th =>
      { th with mboxReq := some (body s w.b, body s w.ci), mboxTicket := d.1, mboxReply := none })
    post s1 (svcFor c) (8 * c + t)
      [msgWord0 0 3 (coord s c) t 0 d.1, s.cur.addr, 0, 0, nat s w.b, nat s w.ci, s.gcyc % 2 ^ 64, (me s).ttc]

/-- MBOX: the reply word lands, or its error traps. -/
def execMbox (w : XWord) (s : State) : Out :=
  if svc s then .next (trapNow s 0xA3)
  else
    match (me s).mboxReq, (me s).mboxReply with
    | some _, some r =>
      if r.kind = 5 then .next (trapNow s 0xA3)
      else .next (modMe (landW s w.da 1 r.value) (fun th => { th with mboxReq := none, mboxReply := none }))
    | _, _ => .next (blockNow s)

end Sys2Proof.Machine
end

