-- ==== Sys2Proof/Machine/Block.lean ====
section
/-! DEFINITION. Block formats (R45 to R49): the value of an element code under its shared bytes. A format has the code of
Table 11.2: 0 i8, 1 e4m3, 2 e5m2, 3 bf16, 4 f16, 5 mx8e4, 6 mx8e5, 7 mx4, 8 mxi8, 9 tx8, 10 tx4; 11 is plain f4. -/

namespace Sys2Proof.Machine

/-- The floating format of an element code. -/
def eltFmt (m : Nat) : Option Fmt :=
  match m with
  | 1 => some .e4m3 | 2 => some .e5m2 | 3 => some .bf16 | 4 => some .f16 | 5 => some .e4m3 | 6 => some .e5m2
  | 7 => some .e2m1 | 11 => some .e2m1 | _ => none

/-- The bits of an element. -/
def eltBits (m : Nat) : Nat :=
  match m with
  | 3 => 16 | 4 => 16 | 7 => 4 | 10 => 4 | 11 => 4 | _ => 8

/-- The shared bytes of a block: one scale, two exponents, or none. -/
def sharedBytes (m : Nat) : Nat :=
  match m with
  | 5 => 1 | 6 => 1 | 7 => 1 | 8 => 1 | 9 => 2 | 10 => 2 | _ => 0

/-- An exact value times a power of two. -/
def Val.scale (v : Val) (k : Int) : Val :=
  match v with
  | .fin n m e => .fin n m (e + k)
  | v => v

/-- A signed integer as a value; `neg` gives the sign of a zero. -/
def intVal (n : Int) : Val := .fin (n < 0) n.natAbs 0

/-- The exact value of an element code, `e0` and `e1` its shared bytes (R45 to R47). -/
def eltVal (m code e0 e1 : Nat) : Val :=
  match m with
  | 0 => intVal (sextNat 8 code)
  | 8 => if e0 = 0xFF then .nan false else (intVal (sextNat 8 code)).scale ((e0 : Int) - 133)
  | 9 =>
    let e := if bitsAt code 7 1 = 0 then e0 else e1
    if e = 0xFF then .nan false else .fin (bitsAt code 6 1 = 1) (code % 64) ((e : Int) - 132)
  | 10 =>
    let e := if bitsAt code 3 1 = 0 then e0 else e1
    if e = 0xFF then .nan false else .fin (bitsAt code 2 1 = 1) (code % 4) ((e : Int) - 128)
  | m =>
    match eltFmt m with
    | none => .nan false
    | some f =>
      let v := Held.val f ⟨code % 2 ^ f.width, 0⟩
      if sharedBytes m = 0 then v
      else if e0 = 0xFF then .nan false
      else v.scale ((e0 : Int) - 127)

end Sys2Proof.Machine
end

