-- ==== Sys2Proof/Machine/LocalMem.lean ====
section
/-! DEFINITION. The L slot: local loads and stores, spills, atomics, the synchronising accesses and the tag table
(R123 to R131, R201, R203, R204, R246 to R249). A thread-port access holds its bank words from its issue on and performs
four cycles later (R124, R201). What it will find is known at issue, so a load's value and every cause and condition are
decided there. -/

namespace Sys2Proof.Machine

/-! ## Pieces of an access -/

/-- R201: whether a load of these pieces meets poison. -/
def loadPoison (s : State) (ps : Pieces) : Bool := ps.any (fun p => readPoison s p.1 p.2)

/-- Whether a store of these pieces writes part of a poisoned bank word. -/
def storePoison (s : State) (ps : Pieces) : Bool :=
  ps.any (fun p => (unitsOf p.1 p.2).any (fun u => isPoison s u && !coversWord ps u))

/-- What the thread-port accesses of the bundle at work find (R124, R201). -/
def found (s : State) : State := settled s s.cur.core

/-- An access of the bundle at work: it performs in the fourth cycle from now. (Log 20: DEDUCED.) -/
def portAccess (s : State) (touch : Pieces) (writes : List (Nat × List Nat)) (full : Option Bool) : State :=
  modMyCore s (fun k =>
    { k with port := k.port ++ [{ due := s.gcyc + 4, touch := touch, writes := writes, full := full }] })

/-- The scratchpad's place in memory of the core at work. -/
def here (s : State) : Nat := scratch s.cur.core

/-- The lanes of the core at work whose guard bit is 1. -/
def activeLanes (s : State) : List Nat := (List.range (laneCount s)).filter (guardBit (me s) s.cur.g)

/-- A single-range access: it traps by R123, then by R201 where `bad` says so, else goes on at its place in memory. -/
def withPlace (s : State) (ea : Int) (size align : Nat) (bad : Nat → Bool) (k : Nat → State) : Out :=
  let c := localCause s s.cur.core ea size align
  if c ≠ 0 then .next (trapNow s c)
  else if bad (here s + ea.toNat) then .next (trapNow s 0x65)
  else .next (k (here s + ea.toNat))

/-- Counts the bank words of a thread-port access (R307, R381). -/
def tickPort (s : State) (c n : Nat) : State := tick s c 3 n

/-- The same with its bank words counted, one for each 16 bytes. (Log 20: DEDUCED.) -/
def withRange (s : State) (ea : Int) (size align : Nat) (bad : Nat → Bool) (k : Nat → State) : Out :=
  withPlace s ea size align bad (fun a => tickPort (k a) s.cur.core ((size + 15) / 16))

/-! ## LD and ST (R126) -/

def scalarEa (s : State) (w : LWord) : Int := localEa s w.base w.ofs 16 (szBytes w.sz)

def execLd (w : LWord) (s : State) : Out :=
  let n := szBytes w.sz
  let m := found s
  withRange s (scalarEa s w) n n (fun a => readPoison m a n) (fun a =>
    portAccess (landW s w.data 2 (loadExt w.sz (getNat m a n))) [(a, n)] [] none)

/-- The bytes that ST and scalar STE store, and the flags of the settle. -/
def scalarBytes (s : State) (w : LWord) (narrow : Bool) : List Nat × Nat :=
  let r := storeVal s.cur.cvp w.sz narrow (sreg s w.data)
  (leBytes (szBytes w.sz) r.1, r.2)

def execSt (w : LWord) (s : State) : Out :=
  let n := szBytes w.sz
  let r := scalarBytes s w (w.md2 = 1)
  withRange s (scalarEa s w) n n (fun a => storePoison (found s) [(a, n)])
    (fun a => landFlags (portAccess s [(a, n)] [(a, r.1)] none) r.2)

/-! ## LDV and STV (R127, R128) -/

/-- The place of lane `l` in an access at `a`: the image form, or the broadcast of cluster 0's bytes. -/
def lanePlace (bcast : Bool) (a l : Nat) : Nat := if bcast then a + 4 * (l % 16) else a + 4 * l

/-- The size of a vector access on the core at work: `n` bytes for all clusters, an eighth for one. -/
def vecSize (s : State) (n : Nat) : Nat := if svc s then n / 8 else n

def vecEa (s : State) (w : LWord) (unit : Nat) : Int := localEa s w.base w.ofs 16 unit

/-- The lanes of a register as they stand at their places. -/
def readLanes (s : State) (bcast : Bool) (a : Nat) (ls : List Nat) : List (Nat × Lane) :=
  ls.map (fun l => (l, { data := BitVec.ofNat 32 (getNat s (lanePlace bcast a l) 4), tail := 0 }))

def execLdv (w : LWord) (s : State) : Out :=
  let ls := activeLanes s
  let bcast : Bool := w.md2 = 1
  let m := found s
  let at4 := fun (a : Nat) => ls.map (fun l => (lanePlace bcast a l, 4))
  if ls.isEmpty then .next s
  else
    withRange s (vecEa s w 64) (if bcast then 64 else vecSize s 512) 64 (fun a => loadPoison m (at4 a))
      (fun a => portAccess (landV s w.data 2 (readLanes m bcast a ls)) (at4 a) [] none)

/-- The pieces that the image form of a vector store writes, and its flags. -/
def imageBytes (s : State) (w : LWord) (a : Nat) (ls : List Nat) : List (Nat × List Nat) × Nat :=
  let rs := ls.map (fun l => (a + 4 * l, storeLane s.cur.cvp w.sz (vlane s w.data l)))
  (rs.map (fun p => (p.1, leBytes 4 p.2.1)), rs.foldl (fun f p => flagOr f p.2.2) 0)

/-- The words of a vector access's lanes. -/
def laneAt (a : Nat) (ls : List Nat) : Pieces := ls.map (fun l => (a + 4 * l, 4))

/-- The image form of a vector store. -/
def storeImage (s : State) (w : LWord) : Out :=
  let ls := activeLanes s
  if ls.isEmpty then .next s
  else
    withRange s (vecEa s w 64) (vecSize s 512) 64 (fun a => storePoison (found s) (laneAt a ls))
      (fun a => let r := imageBytes s w a ls; landFlags (portAccess s (laneAt a ls) r.1 none) r.2)

/-- A lane's nibble of the .f4 form replaces its half of a byte. -/
def putNibble (s : State) (a l v : Nat) : State :=
  let p := a + l / 2
  let old := (getByte s p).toNat
  putByte s p (BitVec.ofNat 8 (if l % 2 = 0 then old / 16 * 16 + v % 16 else old % 16 + v % 16 * 16))

/-- The narrowing form. -/
def storeNarrow (s : State) (w : LWord) : Out :=
  let ls := activeLanes s
  let rs := ls.map (fun l => (l, narrowLane s.cur.cvp w.sz (vlane s w.data l)))
  let fl := rs.foldl (fun f p => flagOr f p.2.2) 0
  let m := found s
  if ls.isEmpty then .next s
  else if w.sz = 14 then
    let whole := fun (l : Nat) => ls.contains (2 * (l / 2)) && ls.contains (2 * (l / 2) + 1)
    withRange s (vecEa s w 8) (vecSize s 64) 8
      (fun a => storePoison m ((ls.filter whole).map (fun l => (a + l / 2, 1)))
        || ls.any (fun l => !whole l && isPoison m (a + l / 2)))
      (fun a =>
        let x := rs.foldl (fun x p => putNibble x a p.1 p.2.1) m
        let ps := ls.map (fun l => a + l / 2)
        landFlags (portAccess s (ps.map (fun p => (p, 1))) (ps.map (fun p => (p, [(getByte x p).toNat]))) none) fl)
  else
    let n := szBytes w.sz
    withRange s (vecEa s w (16 * n)) (vecSize s (128 * n)) (16 * n)
      (fun a => storePoison m (ls.map (fun l => (a + n * l, n))))
      (fun a => landFlags (portAccess s (ls.map (fun l => (a + n * l, n)))
        (rs.map (fun p => (a + n * p.1, leBytes n p.2.1))) none) fl)

def execStv (w : LWord) (s : State) : Out := if w.md2 = 1 then storeNarrow s w else storeImage s w

/-! ## LDX and STX (R129) -/

/-- The fields of Table 4.12. -/
def idxReg (w : LWord) : Nat := bitsAt w.ofs 10 6
def idxCluster (w : LWord) : Nat := bitsAt w.ofs 7 3

/-- The lanes of the cluster whose guard bit is 1, with their offsets. (Log 21: DEDUCED.) -/
def idxLanes (s : State) (w : LWord) : List (Nat × Int) :=
  ((List.range 16).map (fun i => 16 * idxCluster w + i)).filterMap (fun l =>
    if guardBit (me s) s.cur.g l then
      some (l, (nat s w.base : Int) + (vlane s (idxReg w) l).data.toNat) else none)

/-- The first cause of the lanes' checks, in ascending order. -/
def idxCause (s : State) (n : Nat) (ls : List (Nat × Int)) : Nat :=
  firstCause (ls.map (fun p => localCause s s.cur.core p.2 n n))

def execLdx (w : LWord) (s : State) : Out :=
  let n := szBytes w.sz
  let ls := idxLanes s w
  let c := idxCause s n ls
  let m := found s
  let ps := ls.map (fun p => (here s + p.2.toNat, n))
  if c ≠ 0 then .next (trapNow s c)
  else if loadPoison m ps then .next (trapNow s 0x65)
  else if ls.isEmpty then .next s
  else
    let s1 := landV s w.data 2 (ls.map (fun p => (p.1, loadLane w.sz (getNat m (here s + p.2.toNat) n))))
    .next (tickPort (portAccess s1 ps [] none) s.cur.core 16)

def execStx (w : LWord) (s : State) : Out :=
  let n := szBytes w.sz
  let ls := idxLanes s w
  let c := idxCause s n ls
  let ps := ls.map (fun p => (here s + p.2.toNat, n))
  let rs := ls.map (fun p => (here s + p.2.toNat, storeElem s.cur.cvp w.sz (w.md2 = 1) (vlane s w.data p.1)))
  if c ≠ 0 then .next (trapNow s c)
  else if storePoison (found s) ps then .next (trapNow s 0x65)
  else if ls.isEmpty then .next s
  else
    let s1 := portAccess s ps (rs.map (fun p => (p.1, leBytes n p.2.1))) none
    .next (tickPort (landFlags s1 (rs.foldl (fun f p => flagOr f p.2.2) 0)) s.cur.core 16)

/-! ## SPILL and FILL (R130) -/

/-- The clusters of the core at work. -/
def clusters (s : State) : List Nat := List.range (if svc s then 1 else 8)

def spillSize (s : State) (w : LWord) : Nat := if w.md2 = 1 then 16 else if svc s then 80 else 640

def execSpill (w : LWord) (s : State) : Out :=
  let n := spillSize s w
  let bytes :=
    if w.md2 = 1 then
      let r := sreg s w.data
      leBytes 8 r.body.toNat ++ [r.tail.toNat] ++ List.replicate 7 0
    else (clusters s).flatMap (fun c => spillCluster ((List.range 16).map (fun i => vlane s w.data (16 * c + i))))
  withRange s (vecEa s w 16) n 16 (fun a => storePoison (found s) [(a, n)]) (fun a => portAccess s [(a, n)] [(a, bytes)] none)

def execFill (w : LWord) (s : State) : Out :=
  let n := spillSize s w
  let m := found s
  withRange s (vecEa s w 16) n 16 (fun a => readPoison m a n) (fun a =>
    portAccess
      (if w.md2 = 1 then
        landS s w.data 2 { body := BitVec.ofNat 64 (getNat m a 8), tail := BitVec.ofNat 2 (getNat m (a + 8) 1) }
      else
        landV s w.data 2 ((clusters s).flatMap (fun c =>
          ((List.range 16).zip (fillCluster (getBytes m (a + 80 * c) 80))).map (fun p => (16 * c + p.1, p.2)))))
      [(a, n)] [] none)

/-! ## ATOM (R131) -/

def execAtom (w : LWord) (s : State) : Out :=
  let n := szBytes w.sz
  let x := match fmtOf w.sz with
    | some f => heldS s f w.data
    | none => ⟨nat s w.data, 0⟩
  withRange s (localEa s w.base (w.ofs % 4096) 12 n) n n (fun a => readPoison (found s) a n) (fun a =>
    let old := getNat (found s) a n
    let r := atomStep s.cur.cvp (w.ofs / 4096) (8 * n) (fmtOf w.sz) old x
    landFl (portAccess s [(a, n)] [(a, leBytes n r.1)] none) w.data 2 (loadExt w.sz old) r.2)

/-! ## LDF, STE and CLRF (R246 to R248) -/

/-- The words of pieces. -/
def wordsAt (ps : Pieces) : List Nat := ps.flatMap (fun p => wordsOf p.1 p.2)

/-- A load that waits until every word is full; `take` sets them empty. -/
def loadFull (take : Bool) (w : LWord) (s : State) : Out :=
  let m := found s
  let full := if take then some false else none
  let done := fun (x : State) (ps : Pieces) => portAccess (noteAcquire x s.cur.core 0 s.cur.slot) ps [] full
  if w.md1 = 0 then
    let n := szBytes w.sz
    withRange s (scalarEa s w) n n (fun a => readPoison m a n) (fun a =>
      if (wordsOf a n).all (isFull m) then done (landW s w.data 2 (loadExt w.sz (getNat m a n))) [(a, n)]
      else blockNow s)
  else
    let ls := activeLanes s
    if ls.isEmpty then .next s
    else
      withRange s (vecEa s w 64) (vecSize s 512) 64 (fun a => loadPoison m (laneAt a ls)) (fun a =>
        if (wordsAt (laneAt a ls)).all (isFull m) then done (landV s w.data 2 (readLanes m false a ls)) (laneAt a ls)
        else blockNow s)

def execLdf (w : LWord) (s : State) : Out := loadFull false w s

def execLdfTake (w : LWord) (s : State) : Out := loadFull true w s

/-- A store that sets its words full; unless `fill`, it waits until every word is empty. The flags of its settle are
decided before it waits (R324, R325). -/
def storeEmpty (fill : Bool) (w : LWord) (s : State) : Out :=
  let m := found s
  if w.md1 = 0 then
    let n := szBytes w.sz
    let r := scalarBytes s w false
    withRange s (scalarEa s w) n n (fun a => storePoison m [(a, n)]) (fun a =>
      if fill || (wordsOf a n).all (fun x => !isFull m x) then
        landFlags (portAccess s [(a, n)] [(a, r.1)] (some true)) r.2
      else blockNow (note s r.2))
  else
    let ls := activeLanes s
    if ls.isEmpty then .next s
    else
      withRange s (vecEa s w 64) (vecSize s 512) 64 (fun a => storePoison m (laneAt a ls)) (fun a =>
        let r := imageBytes s w a ls
        if fill || (wordsAt (laneAt a ls)).all (fun x => !isFull m x) then
          landFlags (portAccess s (laneAt a ls) r.1 (some true)) r.2
        else blockNow (note s r.2))

def execSte (w : LWord) (s : State) : Out := storeEmpty false w s

def execSteFill (w : LWord) (s : State) : Out := storeEmpty true w s

/-- CLRF changes the bits of a range of words (R248). (Log 20: DEDUCED.) -/
def clearBits (set : Bool) (w : LWord) (s : State) : Out :=
  let n := nat s w.data
  if n % 4 ≠ 0 then .next (trapNow s 0x41)
  else if n = 0 ∨ 512 < n then .next (trapNow s 0x40)
  else
    withPlace s (localEa s w.base w.ofs 16 4) n 4 (fun _ => false) (fun a => portAccess s [(a, n)] [] (some set))

def execClrf (w : LWord) (s : State) : Out := clearBits false w s

def execClrfSet (w : LWord) (s : State) : Out := clearBits true w s

/-! ## The tag table (R203, R204, R249) -/

/-- The set of a key. -/
def tagSet (k : Nat) : Nat := (List.range 10).foldl (fun h j => h ^^^ bitsAt k (7 * j) 7) 0

def tagAt (s : State) (n : Nat) : TagEntry := tget {} (myCore s).tags n

def setTag (s : State) (n : Nat) (e : TagEntry) : State := modMyCore s (fun k => { k with tags := tput {} k.tags n e })

/-- The slot of a key's live entry in its set. -/
def tagFind (s : State) (key : Word) : Option Nat :=
  ((List.range 8).map (fun y => tagSet key.toNat * 8 + y)).find? (fun n => (tagAt s n).v && (tagAt s n).key = key)

/-- Table 9.8. -/
def tagResult (st slot : Nat) : Word := BitVec.ofNat 64 (st * 2 ^ 62 + slot)

/-- A lookup; a miss advances the set's pointer and names the victim, which `claim` takes. -/
def tagLookup (claim : Bool) (w : LWord) (s : State) : Out :=
  let key := body s w.base
  match tagFind s key with
  | some n => .next (landW s w.data 2 (tagResult (if (tagAt s n).f then 1 else 0) n))
  | none =>
    let set := tagSet key.toNat
    let p := tget 0 (myCore s).tagPtr set
    let n := set * 8 + p
    let s1 := modMyCore s (fun k => { k with tagPtr := tput 0 k.tagPtr set ((p + 1) % 8) })
    let s2 := if claim then setTag s1 n { v := true, f := true, key := key } else s1
    .next (landW s2 w.data 2 (tagResult (if (tagAt s n).v then 3 else 2) n))

def execTagq (w : LWord) (s : State) : Out := tagLookup false w s

def execTagqClaim (w : LWord) (s : State) : Out := tagLookup true w s

/-- The entry that TAGW and TAGX write. -/
def tagNew (w : LWord) (s : State) : TagEntry :=
  { v := w.ofs / 2 % 2 = 1, f := w.ofs % 2 = 1, key := body s w.data }

def execTagw (w : LWord) (s : State) : Out :=
  if 1023 < nat s w.base then .next (trapNow s 0x43) else .next (setTag s (nat s w.base) (tagNew w s))

def execTagx (w : LWord) (s : State) : Out :=
  if 1023 < nat s w.base then .next (trapNow s 0x43)
  else .next (landW (setTag s (nat s w.base) (tagNew w s)) w.data 2 (tagAt s (nat s w.base)).key)

def execTagxRd (w : LWord) (s : State) : Out :=
  if 1023 < nat s w.base then .next (trapNow s 0x43)
  else .next (landW s w.data 2 (tagAt s (nat s w.base)).key)

end Sys2Proof.Machine
end

