-- ==== Sys2Proof/Machine/Matrix.lean ====
section
/-! DEFINITION. The matrix engine: commands and their acceptance, rings, weights, streams, drains, the repeat and remote
commands, and the engine's own events (R272 to R299). -/

namespace Sys2Proof.Machine

def engine (s : State) (c : Nat) : Engine := (core s c).eng

def modEngine (s : State) (c : Nat) (f : Engine → Engine) : State := modCore s c (fun k => { k with eng := f k.eng })

/-! ## Sync words and rings (R275, R281, Tables 11.3, 11.5) -/

abbrev syWsem (y : Nat) : Nat := bitsAt y 56 8
abbrev syWthr (y : Nat) : Nat := bitsAt y 40 16
abbrev sySsem (y : Nat) : Nat := bitsAt y 32 8
abbrev sySinc (y : Nat) : Nat := bitsAt y 24 8
abbrev syTadv (y : Nat) : Bool := bitsAt y 12 1 = 1
abbrev syTring (y : Nat) : Nat := bitsAt y 8 4
abbrev syNant (y : Nat) : Bool := bitsAt y 5 1 = 1

/-- The mode and saturation of a command's settles. -/
def syCvp (y : Nat) : Cvp := { mode := rmodeOf (bitsAt y 1 3), sat := bitsAt y 4 1 = 1, sow := false }

/-- A sync word that R275 refuses. -/
def syncBad (y : Nat) : Bool :=
  bitsAt y 13 11 ≠ 0 || bitsAt y 6 2 ≠ 0 || 4 < bitsAt y 1 3 || (!syTadv y && syTring y ≠ 0)

abbrev ringNone : Ring := { base := 0, nslot := 0, slotb := 0, head := 0, tail := 0 }

def ring (e : Engine) (r : Nat) : Ring := tget ringNone e.rings r

def Ring.count (r : Ring) : Nat := if r.nslot = 0 then 0 else (r.tail + 2 * r.nslot - r.head) % (2 * r.nslot)

def Ring.push (r : Ring) (n : Nat) : Ring := { r with tail := (r.tail + n) % (2 * r.nslot) }

def Ring.pop (r : Ring) (n : Nat) : Ring := { r with head := (r.head + n) % (2 * r.nslot) }

/-- The scratchpad offset of a span offset. (Log 45: DEDUCED.) -/
def Ring.at (r : Ring) (o : Nat) : Nat := r.base + (r.head + o / r.slotb) % r.nslot * r.slotb + o % r.slotb

def setRing (e : Engine) (r : Nat) (x : Ring) : Engine := { e with rings := tset e.rings r x }

/-- Whether a range of scratchpad bytes meets a ring. -/
def meetsRing (r : Ring) (lo n : Nat) : Bool := lo < r.base + r.nslot * r.slotb && r.base < lo + n

/-! ## Commands -/

abbrev opMwld : Nat := 2
abbrev opMwldv : Nat := 3
abbrev opMstrm : Nat := 4
abbrev opMdrain : Nat := 6
abbrev opMdrainv : Nat := 7
abbrev opMzero : Nat := 8

/-- The ring that a command reads. -/
def cmdRing (k : EngCmd) : Option Nat :=
  if k.op = opMwld then some (k.aval % 16)
  else if k.op = opMstrm then some (bitsAt (k.desc.getD 0 0) 56 4) else none

/-- The rings that a command makes live (R281). -/
def cmdRings (k : EngCmd) : List Nat := (cmdRing k).toList ++ (if syTadv k.sync then [syTring k.sync] else [])

/-- The live rings of a core: its engine's commands and its tephra cores' (R281, R308). -/
def liveRings (s : State) (c : Nat) : List Nat :=
  (engine s c).queue.flatMap cmdRings
    ++ (core s c).tes.flatMap (fun p => (p.2.queue ++ p.2.cur.toList).filterMap (fun q =>
        if syTadv q.sync then some (syTring q.sync) else none))

/-- Bytes of a drain format, and what it settles to (Table 11.12). -/
def drainBytes (d : Nat) : Nat := match d with | 0 => 4 | 1 => 2 | 2 => 2 | 3 => 1 | 4 => 1 | _ => 4
def drainFmt (d : Nat) : Option Fmt :=
  match d with
  | 0 => some .f32 | 1 => some .bf16 | 2 => some .f16 | 3 => some .e4m3 | 4 => some .e5m2 | _ => none

abbrev drDrs (a : Nat) : Nat := bitsAt a 48 16
abbrev drRows (a : Nat) : Nat := bitsAt a 41 7 + 1
abbrev drCols (a : Nat) : Nat := bitsAt a 34 7 + 1
abbrev drFmt (a : Nat) : Nat := bitsAt a 30 4
abbrev drOfs (a : Nat) : Nat := bitsAt a 0 21

/-- The destination rows of a drain, as ranges. -/
def drainRows (a : Nat) : List (Nat × Nat) :=
  (List.range (drRows a)).map (fun m => (drOfs a + m * drDrs a, drCols a * drainBytes (drFmt a)))

/-- Whether a ring meets the destination of a drain. -/
def drainMeets (r : Ring) (a : Nat) : Bool := (drainRows a).any (fun p => meetsRing r p.1 p.2)

/-- The element class of a format: 0 plain 8, 1 half, 2 block 8, 3 block 4. -/
def fmtClass (m : Nat) : Nat :=
  match m with
  | 3 => 1 | 4 => 1 | 5 => 2 | 6 => 2 | 8 => 2 | 9 => 2 | 7 => 3 | 10 => 3 | _ => 0

/-! ## The queue view (R277) -/

/-- The latched format, K and N, and the tile modes, once every accepted command has retired. -/
structure View where
  fmt : Nat
  k : Nat
  n : Nat
  tint : Nat
deriving DecidableEq, Repr

/-- What a command leaves of the view. -/
def View.after (v : View) (c : EngCmd) : View :=
  if c.op = opMwld then { v with fmt := bitsAt c.aval 4 4, k := bitsAt c.aval 17 7 + 1, n := bitsAt c.aval 10 7 + 1 }
  else if c.op = opMwldv then { v with fmt := c.imm % 16, k := 128, n := 128 }
  else if c.op = opMzero then
    { v with tint := ((List.range 4).map (fun t =>
        (if bitsAt c.imm t 1 = 1 then bitsAt c.imm 4 1 else bitsAt v.tint t 1) * 2 ^ t)).sum }
  else v

def queueView (e : Engine) : View := e.queue.foldl View.after { fmt := e.wfmt, k := e.wk + 1, n := e.wn + 1, tint := e.tint }

/-! ## Acceptance (R277, R284, R287, R292, R296) -/

/-- The limits of a parameter word of MWLD that the word alone decides (R284). -/
def mwldFieldBad (a : Nat) : Bool :=
  let m := bitsAt a 4 4
  bitsAt a 24 8 ≠ 0 || bitsAt a 8 2 ≠ 0 || 10 < m || (sharedBytes m = 0 && bitsAt a 48 16 ≠ 0)
    || (sharedBytes m ≠ 0 && (bitsAt a 17 7 + 1) % 32 ≠ 0)

/-- Step 3 for MWLD. -/
def mwldBad (e : Engine) (a : Nat) : Bool :=
  let m := bitsAt a 4 4
  let r := ring e (a % 16)
  let k := bitsAt a 17 7
  let n := bitsAt a 10 7
  let rs := bitsAt a 32 16
  let sofs := bitsAt a 48 16
  let last := k * rs + (match fmtClass m with | 1 => 2 * n + 1 | 3 => n / 2 | _ => n)
  let shared := match sharedBytes m with
    | 1 => sofs + 128 * (k / 32) + n
    | 2 => sofs + 2 * (128 * (k / 32) + n) + 1
    | _ => 0
  mwldFieldBad a || r.nslot = 0 || r.slotb ≤ last || r.slotb ≤ shared

/-- The fields of a stream descriptor (Table 11.9). -/
abbrev stFmt (d : List Nat) : Nat := bitsAt (d.getD 0 0) 60 4
abbrev stTiles (d : List Nat) : Nat := bitsAt (d.getD 0 0) 48 8
abbrev stPop (d : List Nat) : Nat := bitsAt (d.getD 0 0) 40 8
abbrev stM (d : List Nat) : Nat := bitsAt (d.getD 0 0) 33 7 + 1
abbrev stM0 (d : List Nat) : Nat := bitsAt (d.getD 0 0) 26 7
abbrev stTile (d : List Nat) : Nat := bitsAt (d.getD 0 0) 24 2
abbrev stAccm (d : List Nat) : Nat := bitsAt (d.getD 0 0) 22 2
abbrev stDims (d : List Nat) : Nat := bitsAt (d.getD 0 0) 19 3 + 1
abbrev stScofs (d : List Nat) : Nat := bitsAt (d.getD 1 0) 32 32
abbrev stScstr (d : List Nat) : Int := sextNat 32 (d.getD 1 0)
abbrev stBound (d : List Nat) (i : Nat) : Nat := bitsAt (d.getD (2 + i) 0) 0 16 + 1
abbrev stStride (d : List Nat) (i : Nat) : Int := sextNat 32 (d.getD (2 + i) 0 / 2 ^ 32)

/-- The least and the greatest offset of the nest. -/
def nestMin (d : List Nat) : Int := ((List.range (stDims d)).map (fun i => min 0 (((stBound d i : Nat) - 1 : Int) * stStride d i))).sum
def nestMax (d : List Nat) : Int := ((List.range (stDims d)).map (fun i => max 0 (((stBound d i : Nat) - 1 : Int) * stStride d i))).sum

/-- Step 3 for MSTRM; without latched weights the checks that use K are not made. -/
def mstrmBad (e : Engine) (v : View) (d : List Nat) : Bool :=
  let m := stFmt d
  let r := ring e (bitsAt (d.getD 0 0) 56 4)
  let span : Int := (stTiles d * r.slotb : Nat)
  let size : Int := if fmtClass m = 1 then 2 else 1
  let prod := ((List.range (stDims d)).map (stBound d)).prod
  let nb : Int := ((v.k + 31) / 32 * sharedBytes m : Nat)
  let s0 : Int := stScofs d
  let s1 : Int := s0 + ((stM d : Nat) - 1 : Int) * stScstr d
  10 < m || d.getD 0 0 % 2 ^ 19 ≠ 0 || stTiles d < stPop d || stTiles d = 0 || r.nslot < stTiles d
    || 128 < stM0 d + stM d || 1 < stAccm d || 6 < stDims d
    || (List.range 6).any (fun i => if i < stDims d then bitsAt (d.getD (2 + i) 0) 16 16 ≠ 0 else d.getD (2 + i) 0 ≠ 0)
    || (v.fmt ≠ 15 && (if fmtClass m = 3 then 2 * prod ≠ stM d * v.k else prod ≠ stM d * v.k))
    || nestMin d < 0 || span ≤ nestMax d + size - 1
    || (if sharedBytes m = 0 then d.getD 1 0 ≠ 0
        else v.fmt ≠ 15 && (s0 < 0 || s1 < 0 || span < s0 + nb || span < s1 + nb))

/-- Step 3 for MDRAIN. -/
def mdrainBad (a : Nat) : Bool :=
  5 < drFmt a || bitsAt a 21 9 ≠ 0 || drDrs a < drCols a * drainBytes (drFmt a) || drDrs a % drainBytes (drFmt a) ≠ 0

/-- Step 4 for MDRAIN. -/
def mdrainRange (s : State) (c a : Nat) : Nat :=
  let last := drOfs a + (drRows a - 1) * drDrs a + drCols a * drainBytes (drFmt a)
  if 0x200000 < last then 0x40
  else if drOfs a % drainBytes (drFmt a) ≠ 0 then 0x41
  else if inContext s c (drOfs a) (last - drOfs a) then 0x44 else 0

/-- Steps 3 to 6 for a command on core `c`, in the order of R277. -/
def commandCause (s : State) (c : Nat) (k : EngCmd) : Nat :=
  let e := engine s c
  let v := queueView e
  let drains := e.queue.filter (fun q => q.op = opMdrain)
  let bad3 : Bool := syncBad k.sync
    || (k.op = opMwld && mwldBad e k.aval) || (k.op = opMstrm && mstrmBad e v k.desc)
    || (k.op = opMdrain && mdrainBad k.aval)
  if bad3 then 0x86
  else if k.op = opMdrain ∧ mdrainRange s c k.aval ≠ 0 then mdrainRange s c k.aval
  else if k.op = opMstrm ∧ (v.fmt = 15 ∨ fmtClass v.fmt ≠ fmtClass (stFmt k.desc)
      ∨ (fmtClass v.fmt = 0 ∧ (v.fmt = 0) ≠ (stFmt k.desc = 0))
      ∨ (bitsAt v.tint (stTile k.desc) 1 = 1 ∧ stFmt k.desc ≠ 0)) then 0x83
  else if k.op = opMdrain ∧ (bitsAt v.tint (k.imm % 4) 1 = 1) ≠ (drFmt k.aval = 5) then 0x83
  else if k.op = opMdrain ∧ (liveRings s c).any (fun r => drainMeets (ring e r) k.aval) then 0x80
  else
    match cmdRing k with
    | some r => if drains.any (fun q => drainMeets (ring e r) q.aval) then 0x80 else 0
    | none => 0

/-- The eight words of a descriptor or record at an offset of a core's scratchpad, and the cause of step 2. -/
def readRecord (s : State) (c : Nat) (ofs : Nat) : List Nat × Nat :=
  let n := localCause s c ofs 64 64
  if n ≠ 0 then ([], n)
  else if readPoison s (scratch c + ofs) 64 then ([], 0x65)
  else ((List.range 8).map (fun i => getNat s (scratch c + ofs + 8 * i) 8), 0)

/-! ## The engine at work -/

/-- The engine starts its head command once its wait is met (R278). -/
def mayStart (s : State) (c : Nat) : Bool :=
  let e := engine s c
  !e.running && !e.frozen && e.fault = 0
    && (match e.queue with
        | k :: _ => syWthr k.sync ≤ sem s c (syWsem k.sync)
        | [] => false)

/-- Lets the engine take up its next command in this very cycle (R278), and the inbound buffer its next entry. -/
def kickEngine (s : State) (c : Nat) : State :=
  let s1 := if mayStart s c && !s.agenda.any (fun x => x.instr = .engineCommandStart && x.args = [c]) then
      at' s s.gcyc .engineCommandStart [c] else s
  if (engine s1 c).inbound ≠ [] && (engine s1 c).queue.length < 8
      && !s1.agenda.any (fun x => x.instr = .mcmdInboundAccept && x.args = [c]) then
    later s1 [] .mcmdInboundAccept [c] else s1

/-- A command of thread `t` of core `o` has retired, or is discarded. -/
def threadLess (s : State) (o t : Nat) : State := checkDone (modThread s o t (fun th => { th with busy := th.busy - 1 })) o

/-! ### The status that MSTAT reads (R297) -/

/-- The status as it stands for MSTAT. -/
def shownOf (e : Engine) : EngShown :=
  e.shown.getD { wfmt := e.wfmt, wk := e.wk, wn := e.wn, tint := e.tint, nansc := e.nansc, flags := e.flags }

/-- A command starts: what it does shows in the status only when it retires or faults. -/
def hideStatus (e : Engine) : Engine := { e with shown := some (shownOf { e with shown := none }), nansc := false, flags := 0 }

/-- A command retires or faults: what it did shows. -/
def showStatus (e : Engine) : Engine :=
  match e.shown with
  | none => e
  | some x => { e with shown := none, nansc := e.nansc || x.nansc, flags := flagOr e.flags x.flags }

/-- R280: the engine halts at its head command and reports to the service core of its quadrant. -/
def engineFault (s : State) (c cause : Nat) : State :=
  let e := engine s c
  let k := e.queue.headD {}
  let s1 := modEngine s c (fun e => { showStatus e with fault := cause, running := false, hand := false })
  post s1 (svcFor c) (8192 + c)
    [msgWord0 cause 4 (coord s c) 0 0 0, k.mword, k.aval, k.sync, 0, 0, s.gcyc % 2 ^ 64, 0]

/-- A byte read through the engine port; `none` where it meets poison. -/
def engByte (s : State) (c ofs : Nat) : Option Nat :=
  if isPoison s (scratch c + ofs) then none else some (getByte s (scratch c + ofs)).toNat

/-- `n` bytes little-endian from span offset `o` of a ring on; each byte has its own span offset (R281). (Log 45: DEDUCED.) -/
def engNat (s : State) (c : Nat) (r : Ring) (o n : Nat) : Option Nat :=
  ((List.range n).mapM (fun i => engByte s c (r.at (o + i)))).map leNat

/-- An element of `b` bits at a span offset, its half of the byte for four bits. (Log 45: DEDUCED.) -/
def engElt (s : State) (c : Nat) (r : Ring) (o b half : Nat) : Option Nat :=
  if b = 4 then (engByte s c (r.at o)).map (fun x => if half = 0 then x % 16 else x / 16) else engNat s c r o (b / 8)

/-- Words that the engine writes are set full (R261); a bank word covered in part must not be poisoned. -/
def engWrite (s : State) (c ofs : Nat) (bytes : List Nat) : Option State :=
  let a := scratch c + ofs
  if writePoison s a bytes.length then none
  else some (setFulls (clearPoison (putBytes s a bytes) a bytes.length) true (wordsOf a bytes.length))

/-- What one part of a command does: the state, and the cause of a fault that it meets. -/
abbrev Part := State × Nat

/-! ### MWLD (R284) -/

/-- The shared bytes of block `b`, column `n`. -/
def mwldShared (s : State) (c : Nat) (r : Ring) (a b n : Nat) : Option Nat :=
  let m := bitsAt a 4 4
  let sofs := bitsAt a 48 16
  match sharedBytes m with
  | 1 => engNat s c r (sofs + 128 * b + n) 1
  | 2 => engNat s c r (sofs + 2 * (128 * b + n)) 2
  | _ => some 0

/-- Whether a pair of shared bytes holds 0xFF. -/
def sharedNan (m x : Nat) : Bool := sharedBytes m ≠ 0 && (x % 256 = 0xFF || (sharedBytes m = 2 && x / 256 = 0xFF))

/-- Latches row `k` of the tile, with the shared bytes of its block where it is the block's first. -/
def mwldRow (s : State) (c : Nat) (q : EngCmd) (k : Nat) : Part :=
  let a := q.aval
  let m := bitsAt a 4 4
  let r := ring (engine s c) (a % 16)
  let cols := List.range (bitsAt a 10 7 + 1)
  let base := k * bitsAt a 32 16
  let es := cols.mapM (fun n =>
    engElt s c r (base + (match fmtClass m with | 1 => 2 * n | 3 => n / 2 | _ => n)) (eltBits m) (n % 2))
  let sh := if k % 32 = 0 ∧ sharedBytes m ≠ 0 then cols.mapM (fun n => mwldShared s c r a (k / 32) n) else some []
  match es, sh with
  | some es, some sh =>
    let bad := sh.any (sharedNan m)
    if bad && syNant q.sync then (s, 0x29)
    else
      (modEngine s c (fun e =>
        let e := if e.done = 0 then { e with weights := [], wshared := [], wfmt := m, wk := bitsAt a 17 7, wn := bitsAt a 10 7 }
          else e
        { e with
          weights := (cols.zip es).foldl (fun t p => tput 0 t (128 * k + p.1) p.2) e.weights
          wshared := (cols.zip sh).foldl (fun t p => tput 0 t (128 * (k / 32) + p.1) p.2) e.wshared
          nansc := e.nansc || bad }), 0)
  | _, _ => (s, 0x65)

/-! ### Accumulation (R289 to R291) -/

/-- A product and whether it is invalid: 0 × ∞, or one of a signalling NaN (R43). -/
def product (a b : Val) : Val × Bool := ((fpMul a b).1.toVal, (fpMul a b).2 != 0)

/-- The special of a set of products, with the flag NV: a NaN, or an infinity. -/
def specialOf (ps : List (Val × Bool)) : Option (Val × Nat) :=
  let inv := ps.any (fun p => p.2)
  let opp := ps.any (fun p => p.1 = .inf true) && ps.any (fun p => p.1 = .inf false)
  if inv || opp || ps.any (fun p => p.1.isNan) then some (.nan false, if inv || opp then fNV else 0)
  else if ps.any (fun p => p.1 = .inf true) then some (.inf true, 0)
  else if ps.any (fun p => p.1 = .inf false) then some (.inf false, 0)
  else none

/-- The finite products as sign, magnitude and exponent. -/
def finites (ps : List (Val × Bool)) : List (Bool × Nat × Int) :=
  ps.filterMap (fun p => match p.1 with | .fin n m e => some (n, m, e) | _ => none)

/-- The zero of a set of zero products. -/
def zeroSum (fs : List (Bool × Nat × Int)) : Val := .fin (fs.all (fun f => f.1) && fs ≠ []) 0 0

/-- xsum: the exact sum of products, or its special. -/
def xsum (mode : RMode) (ps : List (Val × Bool)) : Val × Nat :=
  match specialOf ps with
  | some r => r
  | none =>
    let fs := finites ps
    if fs.all (fun f => f.2.1 = 0) then (zeroSum fs, 0)
    else
      let e := fs.foldl (fun m f => min m f.2.2) 0
      let t : Int := (fs.map (fun f => (if f.1 then (-1 : Int) else 1) * ((f.2.1 * 2 ^ (f.2.2 - e).toNat : Nat) : Int))).sum
      (.fin (if t = 0 then zeroNeg mode else t < 0) t.natAbs e, 0)

/-- group: the 48-bit sum of a half-format group (R290). -/
def groupSum (mode : RMode) (ps : List (Val × Bool)) : Val × Nat :=
  match specialOf ps with
  | some r => r
  | none =>
    let fs := finites ps
    let nz := fs.filter (fun f => f.2.1 ≠ 0)
    match nz with
    | [] => (zeroSum fs, 0)
    | f :: r =>
      let top := fun f : Bool × Nat × Int => (Nat.log2 f.2.1 : Int) + f.2.2
      let e := r.foldl (fun m f => max m (top f)) (top f)
      let parts := nz.map (fun f =>
        let sh := f.2.2 - (e - 48)
        let v : Nat := if 0 ≤ sh then f.2.1 * 2 ^ sh.toNat else f.2.1 / 2 ^ (-sh).toNat
        let lost : Bool := sh < 0 && f.2.1 % 2 ^ (-sh).toNat ≠ 0
        ((if f.1 then -(v : Int) else (v : Int)), lost))
      let t : Int := (parts.map (fun p => p.1)).sum
      let st : Int := if parts.any (fun p => p.2) then 1 else 0
      let x : Int := 4 * t + (if t < 0 then (-1 : Int) else 1) * st
      (.fin (if x = 0 then zeroNeg mode else x < 0) x.natAbs (e - 50), 0)

/-- add to a held FP32 accumulator. -/
def accAdd (mode : RMode) (acc : Held × Nat) (x : Val × Nat) : Held × Nat :=
  let r := fpAdd mode (acc.1.val .f32) x.1
  (hold .f32 r.1, flagOr acc.2 (flagOr r.2 x.2))

/-- Pieces of at most 32. -/
def chunks32 {α : Type} : Nat → List α → List (List α)
  | 0, _ => []
  | n + 1, l => if l.isEmpty then [] else l.take 32 :: chunks32 n (l.drop 32)

/-- The new element of an FP32 tile from its old one and the products in ascending k. -/
def accumulate (mode : RMode) (cls : Nat) (acc : Held) (ps : List (Val × Bool)) : Held × Nat :=
  match cls with
  | 0 => accAdd mode (acc, 0) (xsum mode ps)
  | 1 => (chunks32 4 ps).foldl (fun a g => accAdd mode a (groupSum mode g)) (acc, 0)
  | _ => (chunks32 4 ps).foldl (fun a g => accAdd mode a (xsum mode g)) (acc, 0)

/-! ### MSTRM (R287 to R289) -/

/-- The indices of enumeration `j`, dimension 0 fastest, and their offset. -/
def nestOfs (d : List Nat) : Nat → Nat → Nat → Int
  | 0, _, _ => 0
  | n + 1, i, j => (j % stBound d i : Nat) * stStride d i + nestOfs d n (i + 1) (j / stBound d i)

/-- The codes of activation row `m` with K elements; `none` where a byte meets poison. -/
def rowCodes (s : State) (c : Nat) (r : Ring) (d : List Nat) (kk m : Nat) : Option (List Nat) :=
  let f := stFmt d
  (List.range kk).mapM (fun k =>
    let j := if fmtClass f = 3 then m * (kk / 2) + k / 2 else m * kk + k
    engElt s c r (nestOfs d (stDims d) 0 j).toNat (eltBits f) (k % 2))

/-- The shared bytes of row `m`, one number for each block. -/
def rowShared (s : State) (c : Nat) (r : Ring) (d : List Nat) (kk m : Nat) : Option (List Nat) :=
  let n := sharedBytes (stFmt d)
  if n = 0 then some []
  else (List.range (kk / 32)).mapM (fun (b : Nat) => engNat s c r ((stScofs d : Int) + m * stScstr d + n * b).toNat n)

def tileElt (e : Engine) (t m n : Nat) : TileElt := tget {} e.tiles (16384 * t + 128 * m + n)

/-- The value of a latched weight. -/
def weightVal (e : Engine) (k n : Nat) : Val :=
  let x := tget 0 e.wshared (128 * (k / 32) + n)
  eltVal e.wfmt (tget 0 e.weights (128 * k + n)) (x % 256) (x / 256)

/-- Column `n` of a row: the new element and its flags. -/
def streamElt (e : Engine) (mode : RMode) (anew : Bool) (t row n : Nat) (av : List Val) : TileElt × Nat :=
  let old := if anew then ({} : TileElt) else tileElt e t row n
  let ps := ((List.range av.length).zip av).map (fun p => product p.2 (weightVal e p.1 n))
  if bitsAt e.tint t 1 = 1 then
    let sum := match xsum mode ps with
      | (.fin neg m x, _) => (if neg then (-1 : Int) else 1) * ((m * 2 ^ x.toNat : Nat) : Int)
      | _ => 0
    ({ data := BitVec.ofInt 32 (old.data.toInt + sum), tail := 0 }, 0)
  else
    let r := accumulate mode (fmtClass e.wfmt) ⟨old.data.toNat, old.tail.toNat⟩ ps
    ({ data := BitVec.ofNat 32 r.1.body, tail := BitVec.ofNat 2 r.1.tail }, flagOr 0 (r.2 % 2))

/-- Streams row `m`. -/
def mstrmRow (s : State) (c : Nat) (q : EngCmd) (m : Nat) : Part :=
  let e := engine s c
  let d := q.desc
  let f := stFmt d
  let r := ring e (bitsAt (d.getD 0 0) 56 4)
  let kk := e.wk + 1
  match rowCodes s c r d kk m, rowShared s c r d kk m with
  | some cs, some sh =>
    let bad := sh.any (sharedNan f)
    if bad && syNant q.sync then (s, 0x29)
    else
      let av := ((List.range kk).zip cs).map (fun p =>
        let x := sh.getD (p.1 / 32) 0
        eltVal f p.2 (x % 256) (x / 256))
      let row := stM0 d + m
      let t := stTile d
      let rs := (List.range (e.wn + 1)).map (fun n => (n, streamElt e (syCvp q.sync).mode (stAccm d = 1) t row n av))
      (modEngine s c (fun e =>
        { e with
          tiles := rs.foldl (fun x p => tput {} x (16384 * t + 128 * row + p.1) p.2.1) e.tiles
          flags := rs.foldl (fun a p => flagOr a p.2.2) e.flags
          nansc := e.nansc || bad }), 0)
  | _, _ => (s, 0x65)

/-! ### MDRAIN, MZERO and the hand-overs (R285, R286, R292 to R294) -/

/-- Drains row `m`; with ZERO its elements become zero after they are read. -/
def mdrainRow (s : State) (c : Nat) (q : EngCmd) (m : Nat) : Part :=
  let e := engine s c
  let t := q.imm % 4
  let n := drCols q.aval
  let p := syCvp q.sync
  let rs := (List.range n).map (fun x =>
    let el := tileElt e t m x
    match drainFmt (drFmt q.aval) with
    | some f => settle .f32 ⟨el.data.toNat, el.tail.toNat⟩ f p.mode p.sat
    | none => (el.data.toNat, 0))
  let bytes := rs.flatMap (fun r => leBytes (drainBytes (drFmt q.aval)) r.1)
  match engWrite s c (drOfs q.aval + m * drDrs q.aval) bytes with
  | none => (s, 0x65)
  | some s1 =>
    (modEngine s1 c (fun e =>
      { e with
        tiles := if bitsAt q.imm 2 1 = 1 then (List.range n).foldl (fun x k => tdel x (16384 * t + 128 * m + k)) e.tiles
          else e.tiles
        flags := rs.foldl (fun a r => flagOr a r.2) e.flags }), 0)

/-- MZERO: the tiles of the mask and their mode. -/
def mzeroPart (s : State) (c : Nat) (q : EngCmd) : Part :=
  (modEngine s c (fun e =>
    { e with
      tiles := e.tiles.filter (fun p => bitsAt q.imm (p.1 / 16384) 1 = 0)
      tint := (View.after { fmt := 0, k := 0, n := 0, tint := e.tint } q).tint }), 0)

/-- MWLDV latches from the thread's registers as they stand (Table 11.8). -/
def mwldvPart (s : State) (c : Nat) (q : EngCmd) : Part :=
  let f := q.imm % 16
  let hi := bitsAt q.imm 4 1
  let th := thread s q.core q.slot
  let p := syCvp q.sync
  let wd := eltBits f
  let rs := ((List.range 32).zip q.regs).flatMap (fun r =>
    (List.range 128).flatMap (fun l =>
      let lane := tget laneZero th.vregs (128 * r.2 + l)
      (elems wd).map (fun j =>
        let row := (if wd = 16 then 2 * r.1 + j + 64 * hi else 4 * r.1 + j)
        let x := match eltFmt f with
          | some g => settle g (elemHeld g j lane) g p.mode p.sat
          | none => (elemBits wd j lane, 0)
        (128 * row + l, x))))
  (modEngine s c (fun e =>
    { e with
      weights := rs.foldl (fun t x => tput 0 t x.1 x.2.1) (if hi = 1 then e.weights else [])
      wshared := [], wfmt := f, wk := 127, wn := 127
      flags := rs.foldl (fun a x => flagOr a x.2.2) e.flags }), 0)

/-! ### Parts, start and retirement -/

/-- How many parts a command performs in. -/
def cmdParts (q : EngCmd) : Nat :=
  if q.op = opMwld then bitsAt q.aval 17 7 + 1
  else if q.op = opMstrm then stM q.desc
  else if q.op = opMdrain then drRows q.aval else 1

/-- Part `i` of a command. -/
def cmdPart (s : State) (c : Nat) (q : EngCmd) (i : Nat) : Part :=
  if q.op = opMwld then mwldRow s c q i
  else if q.op = opMstrm then mstrmRow s c q i
  else if q.op = opMdrain then mdrainRow s c q i
  else if q.op = opMwldv then mwldvPart s c q
  else if q.op = opMzero then mzeroPart s c q else (s, 0)

/-- The tiles that a command needs at its start, and those that it pops. -/
def cmdNeeds (q : EngCmd) : Nat := if q.op = opMwld then 1 else if q.op = opMstrm then stTiles q.desc else 0
def cmdPops (q : EngCmd) : Nat := if q.op = opMwld then q.imm % 2 else if q.op = opMstrm then stPop q.desc else 0

/-- The next part of the running command is any of those that are left (R279). -/
def nextPart (s : State) (c : Nat) (l : List (Nat × Nat)) : State :=
  let p := drawFrom s l
  modEngine p.2 c (fun e => { e with row := p.1.1, left := p.1.2 })

/-- ENGINE_COMMAND_START [core] (R278). Its accesses come after the thread-port accesses of its bundle, and those of a
command that waited after every one that a thread of the core issued before (R254, R255). (Log 8: DESIGN CHOICE.) -/
def execEngineCommandStart (s : State) : Out :=
  let c := arg s 0
  .next (if !mayStart s c then s
    else
      match (engine s c).queue with
      | [] => s
      | q :: _ =>
        let s1 := if syWthr q.sync ≠ 0 then noteAcquire s c 1 0 else s
        let low : Bool := match cmdRing q with
          | some r => (ring (engine s c) r).count < cmdNeeds q
          | none => false
        if low then engineFault s1 c 0x82
        else
          laterFrom (nextPart (modEngine s1 c (fun e => { hideStatus e with running := true, done := 0 })) c [(0, cmdParts q)])
            (if syWthr q.sync = 0 then q.floor else max q.floor (portFree s c)) [] .enginePortAccess [c])

/-- Counts the events of part `i` of a command (Table 17.12): a streamed row, a pair of rows of four-bit elements, and a
bank word for each 16 bytes of the part. (Log 44: DEDUCED.) -/
def tickPart (s : State) (c : Nat) (q : EngCmd) (i : Nat) : State :=
  let bits :=
    if q.op = opMwld then eltBits (bitsAt q.aval 4 4) * (bitsAt q.aval 10 7 + 1)
    else if q.op = opMstrm then eltBits (stFmt q.desc) * ((engine s c).wk + 1)
    else if q.op = opMdrain then 8 * drainBytes (drFmt q.aval) * drCols q.aval else 0
  let s1 := tick s c 3 ((bits + 127) / 128)
  if q.op ≠ opMstrm then s1
  else
    match fmtClass (stFmt q.desc) with
    | 1 => tick s1 c 6 1
    | 3 => if i % 2 = 0 then tick s1 c 5 1 else s1
    | _ => tick s1 c 4 1

/-- Whether the next part of a command has to wait at the engine port: a row that a drain writes for bank words that the thread
port holds, and a row that is written or read behind what waits there (R198, R251). -/
def partBarred (s : State) (c : Nat) (q : EngCmd) (i : Nat) : Bool :=
  if q.op = opMdrain then
    portBars s c (scratch c + drOfs q.aval + i * drDrs q.aval) (drCols q.aval * drainBytes (drFmt q.aval))
  else (q.op = opMwld || q.op = opMstrm) && !(core s c).waits.isEmpty

/-- ENGINE_PORT_ACCESS [core] (R279): the next part of the running command performs: the rows of a command in any order, every word
of a row in one cycle. (Log 86: DEDUCED.) -/
def execEnginePortAccess (s : State) : Out :=
  let c := arg s 0
  let e := engine s c
  .next (match e.queue with
    | [] => s
    | q :: _ =>
      if !e.running || e.hand then s
      else if partBarred s c q e.row then portWait s c .enginePortAccess [c]
      else
        let r := cmdPart s c q e.row
        if r.2 ≠ 0 then engineFault r.1 c r.2
        else
          let s1 := modEngine (tickPart r.1 c q e.row) c (fun e => { e with done := e.done + 1 })
          let s2 := wakeCore s1 c
          if e.left = [] then later s2 [] .engineCommandRetire [c] else later (nextPart s2 c e.left) [] .enginePortAccess [c])

/-- A packet on the engine channel (R390) from the die of core `c` to the place of a key. -/
def enginePacket (s : State) (c k len : Nat) : State :=
  conduitPacket s (dieOf c) (homeDie (homeOf k) ((gateGroup s k (coord s c)).getD 0)) 2 (coord s c) k len

/-- The notify write of a remote command (R296); the second component is the cause of a fault. (Log 43: DEDUCED.) -/
def notifyWrite (s0 : State) (c : Nat) (n : Nat × Nat) : State × Nat :=
  let node := bitsAt n.1 30 10
  let target := coreNo (bitsAt n.1 28 2) (bitsAt n.1 24 4) (bitsAt n.1 21 3)
  let ofs := bitsAt n.1 0 21
  let k := keyOf s0 (node * 2 ^ 50 + scratch target + ofs)
  let s := enginePacket s0 c k 4
  if isBeyond k then
    (if linkRefusal s k (coord s c) ≠ 0 then (s, linkRefusal s k (coord s c)) else (setFull (putNat s k 4 n.2) k true, 0))
  else
    let f : Flight := { core := c, op := .st, operand := ⟨0, 0⟩, cvp := syCvp 0, st := .sent }
    if !granted s f target ofs 4 then (s, 0x62)
    else if writePoison s k 4 then (s, 0x65)
    else (wakeCore (setFull (putNat s k 4 n.2) k true) target, 0)

/-- TADV and the signal, checked before any effect is made (R278): the cause of a fault, 0 where both can be made. `pops`
is what the retirement pops of ring TRING before TADV advances it. -/
def retireCause (s : State) (c : Nat) (y pops : Nat) : Nat :=
  let r := ring (engine s c) (syTring y)
  if syTadv y ∧ r.nslot < r.count - pops + 1 then 0x82
  else if 0xFFFF < sem s c (sySsem y) + sySinc y then 0xA2 else 0

/-- TADV and the signal. -/
def retireSync (s : State) (c : Nat) (y : Nat) : State :=
  let s1 := if syTadv y then modEngine s c (fun e => setRing e (syTring y) ((ring e (syTring y)).push 1)) else s
  if sySinc y = 0 then s1 else noteRelease (setSem s1 c (sySsem y) (sem s1 c (sySsem y) + sySinc y)) c 1 0

/-- The head command leaves the queue. -/
def dequeue (s : State) (c : Nat) (q : EngCmd) : State :=
  let s1 := modEngine s c (fun e => { showStatus e with queue := e.queue.drop 1, running := false, hand := false, done := 0 })
  kickEngine (threadLess s1 q.core q.slot) c

/-- The retirement of the running command, all in one cycle (R278). -/
def retireCommand (s : State) (c : Nat) (q : EngCmd) : State :=
  let n := retireCause s c q.sync (if cmdRing q = some (syTring q.sync) then cmdPops q else 0)
  if n ≠ 0 then engineFault s c n
  else
    let s1 := match cmdRing q with
      | some r => modEngine s c (fun e => setRing e r ((ring e r).pop (cmdPops q)))
      | none => s
    let s2 := retireSync s1 c q.sync
    match q.notify with
    | none => dequeue s2 c q
    | some n =>
      let r := notifyWrite s2 c n
      if r.2 ≠ 0 then engineFault r.1 c r.2 else dequeue r.1 c q

/-- The core of this package whose engine port a notify write uses, and the word's place. -/
def notifyCore (s : State) (n : Nat × Nat) : Option (Nat × Nat) :=
  let target := coreNo (bitsAt n.1 28 2) (bitsAt n.1 24 4) (bitsAt n.1 21 3)
  if bitsAt n.1 30 10 = s.node then some (target, scratch target + bitsAt n.1 0 21) else none

/-- The core at which the retirement of a command has to wait for the bank word of its notify write (R198). -/
def notifyBarred (s : State) (q : EngCmd) : Option Nat :=
  (q.notify.bind (notifyCore s)).bind (fun p => if portBars s p.1 p.2 4 then some p.1 else none)

/-- ENGINE_COMMAND_RETIRE [core]. -/
def execEngineCommandRetire (s : State) : Out :=
  let c := arg s 0
  .next (match (engine s c).queue with
    | [] => s
    | q :: _ =>
      if (engine s c).running && !(engine s c).hand then
        (match notifyBarred s q with
         | some d => portWait s d .engineCommandRetire [c]
         | none => retireCommand s c q)
      else s)

/-- ENGINE_HANDOVER_END [core] (R286): the weights are latched from the registers as they stand; the command retires
in the cycle before the thread's first turn in RUN. -/
def execEngineHandoverEnd (s : State) : Out :=
  let c := arg s 0
  .next (match (engine s c).queue with
    | [] => s
    | q :: _ =>
      if !(engine s c).hand then s
      else
        let r := cmdPart s c q 0
        retireCommand (modThread r.1 q.core q.slot (fun th => if th.st = .out then { th with st := .run } else th)) c q)

/-! ## M-slot instructions -/

/-- The A and B values of the command at work: the repeat's, or the registers'. -/
def mA (s : State) (w : MWord) : Nat := match s.cur.rep with | some r => r.1.toNat | none => nat s w.a
def mB (s : State) (w : MWord) : Nat := match s.cur.rep with | some r => r.2 | none => nat s w.b

/-- A command of the thread at work; it reads nothing before its bundle's thread-port accesses have performed. -/
def newCmd (s : State) (op : Nat) (w : MWord) (word : Nat) : EngCmd :=
  { op := op, aval := mA s w, sync := mB s w, imm := w.imm, core := s.cur.core, slot := s.cur.slot,
    mword := word + s.cur.g, floor := s.gcyc + 5 }

/-- The thread-port access with which a bundle reads a descriptor or record (R276). -/
def recordAccess (s : State) (ofs : Nat) : State := tickPort (portAccess s [(here s + ofs, 64)] [] none) s.cur.core 4

/-- An accepted command takes a queue entry and counts for its thread. -/
def enqueue (s : State) (q : EngCmd) : State :=
  let s1 := modEngine s s.cur.core (fun e => { e with queue := e.queue ++ [q] })
  kickEngine (modMe s1 (fun th => { th with busy := th.busy + 1 })) s.cur.core

/-- Accepts a command that its checks pass, or blocks while the queue is full (R276); `read` is the access that reads its
descriptor. -/
def submit (s : State) (q : EngCmd) (read : State → State := fun x => x) : Out :=
  let n := commandCause s s.cur.core q
  if n ≠ 0 then .next (trapNow s n)
  else if 8 ≤ (engine s s.cur.core).queue.length then .next (blockNow s)
  else .next (enqueue (read s) q)

/-- RINGSET (R282). -/
def execRingsetDef (w : MWord) (s : State) : Out :=
  let c := s.cur.core
  let x := nat s w.a
  let n := bitsAt x 40 8 + 1
  let b := bitsAt x 24 16 * 64
  let base := bitsAt x 0 21
  if bitsAt x 48 16 ≠ 0 ∨ b = 0 ∨ 32768 * 64 < b ∨ bitsAt x 21 3 ≠ 0 then .next (trapNow s 0x86)
  else if 0x200000 < base + n * b then .next (trapNow s 0x40)
  else if base % 64 ≠ 0 then .next (trapNow s 0x41)
  else if inContext s c base (n * b) then .next (trapNow s 0x44)
  else if (liveRings s c).contains (w.imm % 16) then .next (trapNow s 0x80)
  else
    let r : Ring := { base := base, nslot := n, slotb := b, head := 0, tail := 0 }
    .next (modEngine s c (fun e => setRing e (w.imm % 16) r))

def execRingsetTail (w : MWord) (s : State) : Out :=
  let r := ring (engine s s.cur.core) (w.imm % 16)
  let n := nat s w.a % 65536
  if r.nslot = 0 ∨ r.nslot < r.count + n then .next (trapNow s 0x86)
  else .next (modEngine s s.cur.core (fun e => setRing e (w.imm % 16) (r.push n)))

def execRingsetHead (w : MWord) (s : State) : Out :=
  let r := ring (engine s s.cur.core) (w.imm % 16)
  let n := nat s w.a % 65536
  if r.nslot = 0 then .next (trapNow s 0x86)
  else if r.count < n then .next (trapNow s 0x82)
  else .next (modEngine s s.cur.core (fun e => setRing e (w.imm % 16) (r.pop n)))

def execMwld (w : MWord) (s : State) : Out := submit s (newCmd s opMwld w (w.word 0x02))

/-- MSTRM reads its descriptor before its other checks. -/
def execMstrm (w : MWord) (s : State) : Out :=
  let r := readRecord (found s) s.cur.core (mA s w)
  if r.2 ≠ 0 then .next (trapNow s r.2)
  else submit s { newCmd s opMstrm w (w.word 0x04) with desc := r.1 } (fun x => recordAccess x (mA s w))

def execMdrain (w : MWord) (s : State) : Out := submit s (newCmd s opMdrain w (w.word 0x06))

def execMzero (w : MWord) (s : State) : Out :=
  submit s { newCmd s opMzero w (w.word 0x08) with aval := 0 }

/-- A hand-over (R285, R286, R293): it is accepted only by an idle, healthy engine and puts the thread OUT for the four
turns after its own. -/
def handOver (s : State) (w : MWord) (q : EngCmd) (view : Nat) (after : State → State) : Out :=
  let th := me s
  let e := engine s s.cur.core
  if th.nv ≤ w.a + 31 then .next (trapNow s 0x04)
  else if syncBad q.sync || syWthr q.sync ≠ 0 then .next (trapNow s 0x86)
  else if view ≠ 0 then .next (trapNow s view)
  else if e.queue ≠ [] ∨ e.running ∨ e.fault ≠ 0 ∨ e.frozen then .next (blockNow s)
  else
    let s1 := modEngine s s.cur.core (fun e => { e with queue := [q], running := true, hand := true })
    let s2 := modMe s1 (fun th => { th with busy := th.busy + 1, outUntil := th.ttc + 5 })
    .next (at' (after s2) (s.gcyc + 40) .engineHandoverEnd [s.cur.core])

/-- The physical registers of the 32 names from `n` on. -/
def handRegs (s : State) (n : Nat) : List Nat := (List.range 32).map (fun i => physV (me s) (n + i))

def execMwldv (w : MWord) (s : State) : Out :=
  let q := { newCmd s opMwldv w (w.word 0x03) with aval := 0, sync := nat s w.b, regs := handRegs s w.a }
  let v := queueView (engine s s.cur.core)
  handOver s w q (if bitsAt w.imm 4 1 = 1 ∧ v.fmt ≠ w.imm % 16 then 0x83 else 0) (fun x => x)

/-- MDRAINV: the registers land at the start of turn k + 5. -/
def execMdrainv (w : MWord) (s : State) : Out :=
  let q := { newCmd s opMdrainv w (w.word 0x07) with aval := 0, sync := nat s w.b, regs := handRegs s w.a }
  let e := engine s s.cur.core
  let t := w.imm % 4
  let j := w.imm / 4 % 4
  handOver s w q 0 (fun x =>
    let y := ((List.range 32).zip q.regs).foldl (fun x r =>
      land x 5 (.lanes r.2 ((List.range 128).map (fun l =>
        let el := tileElt e t (32 * j + r.1) l
        (l, { data := el.data, tail := BitVec.ofNat 8 el.tail.toNat })))) 0) x
    if bitsAt w.imm 4 1 = 1 then
      modEngine y s.cur.core (fun e =>
        { e with tiles := e.tiles.filter (fun p => p.1 / 16384 ≠ t || p.1 % 16384 / 128 / 32 ≠ j) })
    else y)

/-- MREP (R295). -/
def execMrep (w : MWord) (s : State) : Out :=
  let r : Repeat := { left := w.imm + 1, a := 0, b := 0, inc := body s w.a, made := 0, cmd := none }
  .next (modMe s (fun th => { th with mrep := some r }))

/-- Table 11.15. -/
def statusWord (e : Engine) : Nat :=
  let x := shownOf e
  e.queue.length * 2 ^ 60 + e.fault * 2 ^ 48 + x.wfmt * 2 ^ 44 + x.wk * 2 ^ 37 + x.wn * 2 ^ 30 + x.tint * 2 ^ 16
    + (if e.fault = 0 then 0 else 2 ^ 8) + (if x.nansc then 2 ^ 7 else 0) + x.flags

/-- The W1C bits of Table 11.15 that a mask selects clear. -/
def clearNansc (mask : Nat) (b : Bool) : Bool := b && mask / 128 = 0
def clearFlags (mask f : Nat) : Nat := ((List.range 5).map (fun k => if bitsAt mask k 1 = 1 then 0 else bitsAt f k 1 * 2 ^ k)).sum

/-- MSTAT (R297): the status as it stands, then the selected bits clear. -/
def execMstat (w : MWord) (s : State) : Out :=
  let e := engine s s.cur.core
  let s1 := landW s w.a 1 (BitVec.ofNat 64 (statusWord e))
  .next (modEngine s1 s.cur.core (fun e =>
    match e.shown with
    | none => { e with nansc := clearNansc w.imm e.nansc, flags := clearFlags w.imm e.flags }
    | some x => { e with shown := some { x with nansc := clearNansc w.imm x.nansc, flags := clearFlags w.imm x.flags } }))

/-! ## Remote commands (R296) -/

/-- Steps 2 and 3 on an MCMD record at the issuing core. (Log 43: DEDUCED.) -/
def recordBad (r : List Nat) : Bool :=
  let w := fun i => r.getD i 0
  bitsAt (w 1) 14 50 ≠ 0 || !([2, 4, 6, 8].contains (w 1 % 64)) || syncBad (w 3) || bitsAt (w 4) 40 23 ≠ 0 || w 4 % 4 ≠ 0
    || bitsAt (w 5) 32 32 ≠ 0 || w 6 ≠ 0 || w 7 ≠ 0

/-- Whether the parameter word of a record breaks a limit that the word alone decides (R277 step 3, R284, R292). -/
def recordAvalBad (op a : Nat) : Bool :=
  match op with
  | 2 => mwldFieldBad a
  | 6 => mdrainBad a
  | _ => false

/-- The limits that IMM8 has for the opcode of a record. -/
def recordImmBad (op imm : Nat) : Bool :=
  match op with
  | 2 => 1 < imm
  | 4 => imm ≠ 0
  | 6 => 7 < imm
  | _ => 31 < imm

def execMcmd (w : MWord) (s : State) : Out :=
  let c := s.cur.core
  let a : Addr := match s.cur.rep with | some r => BitVec.ofNat 72 r.2 | none => areg s w.b
  if !isMesh a || meshOfs a ≠ 0 || meshRsvd a ≠ 0 then .next (trapNow s 0x86)
  else
    let r := readRecord (found s) c (mA s w)
    let op := r.1.getD 1 0 % 64
    if r.2 ≠ 0 then .next (trapNow s r.2)
    else if recordBad r.1 || recordImmBad op (r.1.getD 1 0 / 64) || recordAvalBad op (r.1.getD 2 0) then .next (trapNow s 0x86)
    else if 4 ≤ (engine s c).port then .next (blockNow s)
    else
      let s1 := modMe (modEngine (recordAccess s (mA s w)) c (fun e => { e with port := e.port + 1 }))
        (fun th => { th with busy := th.busy + 1 })
      .next (laterFrom (enginePacket s1 c (meshKey s a) 64) (s.gcyc + 5) [4, c, a.toNat] .mcmdRequestArrival
        ([a.toNat, c, s.cur.slot, (me s).ttc, s.cur.pos] ++ r.1))

/-- The command that an MCMD request carries, for its target. (Log 43: DEDUCED.) -/
def remoteCmd (l : List Nat) : EngCmd :=
  let w := fun i => l.getD (5 + i) 0
  { op := w 1 % 64, aval := w 2, sync := w 3, imm := w 1 / 64 % 256, core := l.getD 1 0, slot := l.getD 2 0,
    mword := (w 1 % 64) * 2 ^ 26 + (w 1 / 64 % 256) * 64,
    notify := if bitsAt (w 4) 63 1 = 1 then some (w 4 % 2 ^ 40, w 5) else none }

/-- The reply to an MCMD: acceptance (0), or the cause of its refusal; it crosses the dies on the engine channel (R390). -/
def mcmdReply (s : State) (l : List Nat) (cause : Nat) : State :=
  let k := meshKey s (BitVec.ofNat 72 (l.getD 0 0))
  let die := homeDie (homeOf k) ((gateGroup s k (coord s (l.getD 1 0))).getD 0)
  later (conduitPacket s die (dieOf (l.getD 1 0)) 2 (homeEndpt s (homeOf k)) k 8) []
    .mcmdReplyArrival [l.getD 1 0, l.getD 2 0, cause, l.getD 0 0, l.getD 3 0, l.getD 4 0]

/-- MCMD_REQUEST_ARRIVAL [address, core, slot, issue turn, position, record] (R296). A request to another node leaves
the module: its link refuses it or its target accepts it. One to a saved gang is refused, but the gang's own requests wait
for its return (R342). (Log 43: DEDUCED.) -/
def execMcmdRequestArrival (s : State) : Out :=
  let l := s.cur.args
  let a : Addr := BitVec.ofNat 72 (arg s 0)
  let k := meshKey s a
  let held : Bool := match gangOf s (meshCore a) with | some g => g.savedAll | none => false
  let own : Bool := (core s (arg s 1)).gang = (core s (meshCore a)).gang
  .next (if 2 ^ 32 ≤ arg s 1 || held && own && !isBeyond k then later s [4, arg s 1, arg s 0] .mcmdRequestArrival l
    else if isBeyond k then
      (let n := linkRefusal s k (coord s (arg s 1))
       mcmdReply (if n = 0 then threadLess s (arg s 1) (arg s 2) else s) l n)
    else if conduitDown s (dieOf (arg s 1)) (dieOf (meshCore a)) then mcmdReply s l 0xC0
    else if held then mcmdReply s l 0x81
    else if 8 ≤ (engine s (meshCore a)).inbound.length then later s [4, arg s 1, arg s 0] .mcmdRequestArrival l
    else
      let d := fresh s
      kickEngine (modEngine { d.2 with retry := tset d.2.retry (2 ^ 20 + d.1) l } (meshCore a) (fun e =>
        { e with inbound := e.inbound ++ [(d.1, remoteCmd l, l.getD 5 0)] })) (meshCore a))

/-- MCMD_INBOUND_ACCEPT [core]: capability first, then R277 against this core's queue view. -/
def execMcmdInboundAccept (s : State) : Out :=
  let c := arg s 0
  .next (match (engine s c).inbound with
    | [] => s
    | (id, q, cap) :: r =>
      if 8 ≤ (engine s c).queue.length || (match gangOf s c with | some g => g.savedAll | none => false) then s
      else
        let l := tget [] s.retry (2 ^ 20 + id)
        let s0 := { s with retry := tdel s.retry (2 ^ 20 + id) }
        let s1 := modEngine s0 c (fun e => { e with inbound := r })
        let d := if q.op = opMstrm then readRecord s c q.aval else ([], 0)
        let q1 := { q with desc := d.1 }
        let n := if (engine s c).mcap = 0 || cap ≠ (engine s c).mcap then 0x81
          else if d.2 ≠ 0 then d.2 else commandCause s1 c q1
        if n ≠ 0 then kickEngine (mcmdReply s1 l n) c
        else
          let s2 := modEngine s1 c (fun e => { e with queue := e.queue ++ [q1] })
          kickEngine (mcmdReply s2 l 0) c)

/-- MCMD_REPLY_ARRIVAL [core, slot, cause, address, issue turn, position]: a refusal is a delivery fault of the issuing
thread, with bits 71:64 of the address alone in its access word. (Log 103: DESIGN CHOICE.) -/
def execMcmdReplyArrival (s : State) : Out :=
  let c := arg s 0
  let t := arg s 1
  let s1 := modEngine s c (fun e => { e with port := e.port - 1 })
  if arg s 2 = 0 then .next s1
  else
    let f : FaultRec := { cause := arg s 2, addr := BitVec.ofNat 72 (arg s 3), aword := arg s 3 / 2 ^ 64, dest := none,
                          code := 0, issued := arg s 4, pos := arg s 5 }
    .next (threadLess (modThread s1 c t (fun th => { th with faults := th.faults ++ [f] })) c t)

end Sys2Proof.Machine
end

