-- ==== Sys2Proof/Machine/Rv.lean ====
section
/-! DEFINITION. The RISC-V base of a tephra core: RV32I with M and C in machine mode (R300), its state and its faults
(R301, R305, R306). -/

namespace Sys2Proof.Machine

/-! ## The tephra core at work -/

def tephra (s : State) (c k : Nat) : Tephra := tget {} (core s c).tes k

def modTephra (s : State) (c k : Nat) (f : Tephra → Tephra) : State :=
  modCore s c (fun x => { x with tes := tset x.tes k (f (tget {} x.tes k)) })

/-- A tephra core as at release (Table 12.1), with its memories and image. -/
def freshTephra (te : Tephra) (idx coordWord : Nat) : Tephra :=
  { ({} : Tephra) with
    x := [(10, BitVec.ofNat 32 idx), (11, BitVec.ofNat 32 coordWord)].filter (fun p => p.2 ≠ 0), pc := te.entry
    imem := te.imem, dmem := te.dmem, entry := te.entry, std := te.std, imemBad := te.imemBad }

/-- The two tephra cores of a core with a standard image that has just been written (R302). -/
def stdTephras (coordWord : Nat) : Tab Tephra := [0, 1].map (fun k => (k, freshTephra {} k coordWord))

/-- The index of the tephra core at work: its latch slot is 8 or 9. -/
def teIdx (s : State) : Nat := s.cur.slot - 8

def myTe (s : State) : Tephra := tephra s s.cur.core (teIdx s)

def modTe (s : State) (f : Tephra → Tephra) : State := modTephra s s.cur.core (teIdx s) f

/-- x0 reads as zero. -/
def getX (te : Tephra) (n : Nat) : W32 := if n = 0 then 0 else tget 0 te.x n

def putX (te : Tephra) (n : Nat) (v : W32) : Tephra := if n = 0 then te else { te with x := tput 0 te.x n v }

/-- The instruction is done: the pc moves on. -/
def stepPc (te : Tephra) (len : Nat) : Tephra := { te with pc := (te.pc + len) % 2 ^ 32 }

/-- Data memory lies at 0x0001_0000 to 0x0001_7FFF. -/
def inDmem (a n : Nat) : Bool := 0x10000 ≤ a && a + n ≤ 0x18000

def dmemNat (te : Tephra) (a : Nat) : Nat → Nat
  | 0 => 0
  | n + 1 => (tget (0 : Byte) te.dmem a).toNat + 256 * dmemNat te (a + 1) n

def putDmem (te : Tephra) (a : Nat) : List Nat → Tephra
  | [] => te
  | b :: r => putDmem { te with dmem := tput 0 te.dmem a (BitVec.ofNat 8 b) } (a + 1) r

def imemByte (te : Tephra) (a : Nat) : Nat := (tget (0 : Byte) te.imem a).toNat

/-- The bytes of the instruction at the pc: 4 where its low two bits are 11. -/
def insLen (te : Tephra) : Nat := if imemByte te te.pc % 4 = 3 then 4 else 2

/-- The instruction at the pc. -/
def insWord (te : Tephra) : Nat :=
  ((List.range (insLen te)).map (fun i => imemByte te (te.pc + i) * 256 ^ i)).sum

/-- Far accesses of a tephra core that are outstanding; `pending` is the blocking one. -/
def posted (s : State) (c k : Nat) : List (Nat × Flight) :=
  (outstanding s c (8 + k)).filter (fun p => (tephra s c k).pending ≠ some p.1)

/-! ## Faults (R306) -/

/-- The pc that a message carries. -/
def messagePc (s : State) (te : Tephra) : Nat × State :=
  if te.std then (Config.imagePc s.draw % 0x8000, { s with draw := s.draw + 1 }) else (te.pc, s)

/-- Posts a message of tephra core `k` of core `c`, with a fresh ticket (R331); `w` follows the pc. -/
def postTephra (s : State) (c k kind cause : Nat) (w : List Nat) : State :=
  let d := drawTicket s
  let p := messagePc d.2 (tephra s c k)
  let s1 := modTephra p.2 c k (fun te => { te with ticket := d.1, reply := none })
  post s1 (svcFor c) (16384 + 2 * c + k)
    ([msgWord0 cause kind (coord s c + 2 + k) 0 0 d.1, p.1] ++ w ++ List.replicate (4 - w.length) 0
      ++ [s.gcyc % 2 ^ 64, 0])

/-- The tephra core at work halts in tephra fault. -/
def teFaultAt (s : State) (c k cause : Nat) (ea : Nat) (word : Nat) : State :=
  let s1 := modTephra s c k (fun te => { te with fault := cause })
  postTephra s1 c k 5 cause [ea % 2 ^ 64, word % 2 ^ 32 + ea / 2 ^ 64 * 2 ^ 32]

def teFault (s : State) (cause ea : Nat) : State :=
  teFaultAt s s.cur.core (teIdx s) cause ea (if (myTe s).std then 0 else insWord (myTe s))

/-- A translation that failed: a message, and the core waits (R306). -/
def teMiss (s : State) (a : Addr) (aword : Nat) (t : Trans) : State :=
  modTe (postTephra s s.cur.core (teIdx s) 0 t.cause [a.toNat % 2 ^ 64, aword, t.entry % 2 ^ 64, t.entry / 2 ^ 64])
    (fun te => { te with wait := .translation, missed := (core s s.cur.core).gang.map (fun n => (n, a.toNat)) })

/-! ## Decoding (RV32IMC) -/

/-- The sign extension of the low `n` bits to 32. -/
def sx (n x : Nat) : Nat := wrapNat 32 (sextNat n x)

/-- The branch condition of a funct3. -/
def rvCond (f3 : Nat) : Option RvCond :=
  match f3 with
  | 0 => some .eq | 1 => some .ne | 4 => some .lt | 5 => some .ge | 6 => some .ltu | 7 => some .geu | _ => none

def rvLoad (f3 : Nat) : Option RvSize :=
  match f3 with
  | 0 => some .b | 1 => some .h | 2 => some .w | 4 => some .bu | 5 => some .hu | _ => none

def rvStore (f3 : Nat) : Option RvSize := match f3 with | 0 => some .b | 1 => some .h | 2 => some .w | _ => none

def rvOpImm (f3 f7 : Nat) : Option RvOp :=
  match f3 with
  | 0 => some .add | 2 => some .slt | 3 => some .sltu | 4 => some .xor | 6 => some .or | 7 => some .and
  | 1 => if f7 = 0 then some .sll else none
  | 5 => if f7 = 0 then some .srl else if f7 = 0x20 then some .sra else none
  | _ => none

def rvOp (f3 f7 : Nat) : Option RvOp :=
  if f7 = 1 then
    match f3 with
    | 0 => some .mul | 1 => some .mulh | 2 => some .mulhsu | 3 => some .mulhu
    | 4 => some .div | 5 => some .divu | 6 => some .rem | 7 => some .remu | _ => none
  else if f7 = 0x20 then (match f3 with | 0 => some .sub | 5 => some .sra | _ => none)
  else if f7 = 0 then
    match f3 with
    | 0 => some .add | 1 => some .sll | 2 => some .slt | 3 => some .sltu
    | 4 => some .xor | 5 => some .srl | 6 => some .or | 7 => some .and | _ => none
  else none

/-- A 32-bit instruction outside custom-0 and custom-1. (Log 34: PRESUMED.) -/
def rvDecode32 (x : Nat) : Rv :=
  let rd := bitsAt x 7 5
  let rs1 := bitsAt x 15 5
  let rs2 := bitsAt x 20 5
  let f3 := bitsAt x 12 3
  let f7 := bitsAt x 25 7
  let ok := fun (o : Option Rv) => o.getD .illegal
  match x % 128 with
  | 0x37 => .lui rd (x / 4096 % 2 ^ 20 * 4096)
  | 0x17 => .auipc rd (x / 4096 % 2 ^ 20 * 4096)
  | 0x6F => .jal rd (sx 21 (bitsAt x 31 1 * 2 ^ 20 + bitsAt x 12 8 * 2 ^ 12 + bitsAt x 20 1 * 2 ^ 11 + bitsAt x 21 10 * 2))
  | 0x67 => if f3 = 0 then .jalr rd rs1 (sx 12 (bitsAt x 20 12)) else .illegal
  | 0x63 => ok ((rvCond f3).map (fun c => .branch c rs1 rs2
      (sx 13 (bitsAt x 31 1 * 2 ^ 12 + bitsAt x 7 1 * 2 ^ 11 + bitsAt x 25 6 * 32 + bitsAt x 8 4 * 2))))
  | 0x03 => ok ((rvLoad f3).map (fun z => .load z rd rs1 (sx 12 (bitsAt x 20 12))))
  | 0x23 => ok ((rvStore f3).map (fun z => .store z rs1 rs2 (sx 12 (f7 * 32 + rd))))
  | 0x13 => ok ((rvOpImm f3 f7).map (fun o =>
      .opImm o rd rs1 (if f3 = 1 ∨ f3 = 5 then rs2 else sx 12 (bitsAt x 20 12))))
  | 0x33 => ok ((rvOp f3 f7).map (fun o => .op o rd rs1 rs2))
  | 0x0F => if f3 = 0 then .fence else .illegal
  | _ => .illegal

/-- Quadrant 0 of the C extension. (Log 34: PRESUMED.) -/
def rvQuad0 (x : Nat) : Rv :=
  let r1 := 8 + bitsAt x 7 3
  let r2 := 8 + bitsAt x 2 3
  let sp := bitsAt x 11 2 * 16 + bitsAt x 7 4 * 64 + bitsAt x 6 1 * 4 + bitsAt x 5 1 * 8
  let w := bitsAt x 10 3 * 8 + bitsAt x 6 1 * 4 + bitsAt x 5 1 * 64
  match bitsAt x 13 3 with
  | 0 => if sp = 0 then .illegal else .opImm .add r2 2 sp
  | 2 => .load .w r2 r1 w
  | 6 => .store .w r1 r2 w
  | _ => .illegal

/-- The offset of C.J and C.JAL, and that of C.BEQZ and C.BNEZ. -/
def rvJump (x : Nat) : Nat :=
  sx 12 (bitsAt x 12 1 * 2 ^ 11 + bitsAt x 11 1 * 16 + bitsAt x 9 2 * 256 + bitsAt x 8 1 * 1024 + bitsAt x 7 1 * 64
    + bitsAt x 6 1 * 128 + bitsAt x 3 3 * 2 + bitsAt x 2 1 * 32)
def rvBranch (x : Nat) : Nat :=
  sx 9 (bitsAt x 12 1 * 256 + bitsAt x 10 2 * 8 + bitsAt x 5 2 * 64 + bitsAt x 3 2 * 2 + bitsAt x 2 1 * 32)

/-- Quadrant 1. (Log 34: PRESUMED.) -/
def rvQuad1 (x : Nat) : Rv :=
  let rd := bitsAt x 7 5
  let rc := 8 + bitsAt x 7 3
  let r2 := 8 + bitsAt x 2 3
  let im := bitsAt x 12 1 * 32 + bitsAt x 2 5
  let sp := sx 10 (bitsAt x 12 1 * 512 + bitsAt x 6 1 * 16 + bitsAt x 5 1 * 64 + bitsAt x 3 2 * 128 + bitsAt x 2 1 * 32)
  match bitsAt x 13 3 with
  | 0 => .opImm .add rd rd (sx 6 im)
  | 1 => .jal 1 (rvJump x)
  | 2 => .opImm .add rd 0 (sx 6 im)
  | 3 =>
    if im = 0 then .illegal
    else if rd = 2 then .opImm .add 2 2 sp else .lui rd (sx 18 (im * 4096))
  | 4 =>
    match bitsAt x 10 2 with
    | 0 => if im < 32 then .opImm .srl rc rc im else .illegal
    | 1 => if im < 32 then .opImm .sra rc rc im else .illegal
    | 2 => .opImm .and rc rc (sx 6 im)
    | _ =>
      if bitsAt x 12 1 = 1 then .illegal
      else .op (match bitsAt x 5 2 with | 0 => .sub | 1 => .xor | 2 => .or | _ => .and) rc rc r2
  | 5 => .jal 0 (rvJump x)
  | 6 => .branch .eq rc 0 (rvBranch x)
  | _ => .branch .ne rc 0 (rvBranch x)

/-- Quadrant 2. (Log 34: PRESUMED.) -/
def rvQuad2 (x : Nat) : Rv :=
  let rd := bitsAt x 7 5
  let r2 := bitsAt x 2 5
  match bitsAt x 13 3 with
  | 0 => if bitsAt x 12 1 = 1 then .illegal else .opImm .sll rd rd r2
  | 2 => if rd = 0 then .illegal else .load .w rd 2 (bitsAt x 12 1 * 32 + bitsAt x 4 3 * 4 + bitsAt x 2 2 * 64)
  | 4 =>
    if bitsAt x 12 1 = 0 then
      (if r2 ≠ 0 then .op .add rd 0 r2 else if rd = 0 then .illegal else .jalr 0 rd 0)
    else if r2 ≠ 0 then .op .add rd rd r2
    else if rd = 0 then .illegal else .jalr 1 rd 0
  | 6 => .store .w 2 r2 (bitsAt x 9 4 * 4 + bitsAt x 7 2 * 64)
  | _ => .illegal

/-- An instruction outside Xtephra, from its bits. (Log 34: PRESUMED.) -/
def rvDecode (x : Nat) : Rv :=
  match x % 4 with
  | 0 => rvQuad0 x
  | 1 => rvQuad1 x
  | 2 => rvQuad2 x
  | _ => rvDecode32 x

/-! ## Executing the base -/

/-- The result of an operation. (Log 34: PRESUMED.) -/
def rvAlu (o : RvOp) (a b : W32) : W32 :=
  match o with
  | .add => a + b
  | .sub => a - b
  | .sll => a <<< (b.toNat % 32)
  | .slt => if a.toInt < b.toInt then 1 else 0
  | .sltu => if a.toNat < b.toNat then 1 else 0
  | .xor => a ^^^ b
  | .srl => a >>> (b.toNat % 32)
  | .sra => a.sshiftRight (b.toNat % 32)
  | .or => a ||| b
  | .and => a &&& b
  | .mul => a * b
  | .mulh => BitVec.ofInt 32 (a.toInt * b.toInt / 2 ^ 32)
  | .mulhsu => BitVec.ofInt 32 (a.toInt * b.toNat / 2 ^ 32)
  | .mulhu => BitVec.ofNat 32 (a.toNat * b.toNat / 2 ^ 32)
  | .div => if b = 0 then BitVec.allOnes 32 else BitVec.ofInt 32 (a.toInt.tdiv b.toInt)
  | .divu => if b = 0 then BitVec.allOnes 32 else BitVec.ofNat 32 (a.toNat / b.toNat)
  | .rem => if b = 0 then a else BitVec.ofInt 32 (a.toInt.tmod b.toInt)
  | .remu => if b = 0 then a else BitVec.ofNat 32 (a.toNat % b.toNat)

def rvHolds (c : RvCond) (a b : W32) : Bool :=
  match c with
  | .eq => a = b
  | .ne => a ≠ b
  | .lt => a.toInt < b.toInt
  | .ge => b.toInt ≤ a.toInt
  | .ltu => a.toNat < b.toNat
  | .geu => b.toNat ≤ a.toNat

def rvBytes (z : RvSize) : Nat := match z with | .b => 1 | .bu => 1 | .h => 2 | .hu => 2 | .w => 4

def rvExtend (z : RvSize) (v : Nat) : W32 :=
  match z with
  | .b => BitVec.ofNat 32 (sx 8 v)
  | .h => BitVec.ofNat 32 (sx 16 v)
  | _ => BitVec.ofNat 32 v

/-- R305: whether an outstanding te.rdw of the core will write bytes of the range. -/
def awaitsRead (s : State) (a n : Nat) : Bool :=
  (posted s s.cur.core (teIdx s)).any (fun p => p.2.op = .rdw && p.2.sink < a + n && a < p.2.sink + 64)

/-- A good data-memory range of a load or store, or its fault. -/
def withDmem (s : State) (a n : Nat) (go : Tephra → Tephra) : State :=
  if a % n ≠ 0 ∨ !inDmem a n then teFault s 0x85 a
  else if awaitsRead s a n then s
  else modTe s (fun te => stepPc (go te) s.cur.rvLen)

/-! ## The standard image's arithmetic (R312, R316) -/

/-- R312: an element converted from type `sf` to type `df`, with its flags. -/
def tephraConv (sf df : Nat) (p : Cvp) (v : Nat) : Nat × Nat :=
  if sf = df then (v, 0)
  else
    match fmtOf sf, fmtOf df with
    | some f, some g =>
      let x := convExact f ⟨v, 0⟩
      let r := settle g (hold g x.1) g p.mode p.sat
      (r.1, flagOr x.2 r.2)
    | _, _ =>
      match intOf sf, intOf df with
      | some (ws, sg), some (wd, dg) =>
        let n : Int := if sg then sextNat ws v else (v % 2 ^ ws : Nat)
        (wrapNat wd (if p.sat && wd ≤ ws then clampInt wd dg n else n), 0)
      | _, _ => (v, 0)

/-- One step of a reduction on held FP32, or on integers of 32 bits. A signalling NaN raises NV (R43). -/
def reduceStep (mode : RMode) (ty rop : Nat) (acc : Held × Nat) (x : Nat) : Held × Nat :=
  match fmtOf ty with
  | some f =>
    let v := (Held.val f ⟨x, 0⟩)
    let h := hold .f32 v.exact
    if rop = 0 then
      let r := fpAdd mode (acc.1.val .f32) v
      (hold .f32 r.1, flagOr acc.2 r.2)
    else
      let r := fpMinMax .f32 (rop = 2) false acc.1 h
      (r.1, flagOr acc.2 (flagOr r.2 (snanFlag [v])))
  | none =>
    let a := acc.1.body
    (⟨if rop = 0 then (a + x) % 2 ^ 32
      else if ty = 4 then (if (sextNat 32 a ≤ sextNat 32 x) = (rop = 1) then a else x)
      else if rop = 1 then min a x else max a x, 0⟩, acc.2)

/-- R316: element values in ascending member order reduced and settled, with the flags; a signalling NaN of any member raises
NV (R43). -/
def reduceElem (ty rop : Nat) (p : Cvp) (l : List Nat) : Nat × Nat :=
  match l with
  | [] => (0, 0)
  | x :: r =>
    match fmtOf ty with
    | some f =>
      let v := Held.val f ⟨x, 0⟩
      let a := r.foldl (reduceStep p.mode ty rop) (hold .f32 v.exact, snanFlag [v])
      let w := settle .f32 a.1 f p.mode p.sat
      (w.1, flagOr a.2 w.2)
    | none => let a := r.foldl (reduceStep p.mode ty rop) (⟨x, 0⟩, 0); (a.1.body, 0)

end Sys2Proof.Machine
end

