-- ==== Sys2Proof/Machine/Tephra.lean ====
section
/-! DEFINITION. Tephra cores: the Xtephra instructions, TCOPY and TCOLL, and the standard image that carries them out
(R302 to R319). -/

namespace Sys2Proof.Machine

/-! ## Far accesses of a tephra core (R303 to R305) -/

/-- The settles of a tephra core follow its current RM and SATF. -/
def teCvp (te : Tephra) : Cvp := { mode := rmodeOf te.rm, sat := te.satf, sow := false }

def tx (s : State) (n : Nat) : Nat := (getX (myTe s) n).toNat

/-- The instruction at work is done: a register takes a value and the pc moves on. -/
def teDoneX (s : State) (rd v : Nat) : State := modTe s (fun te => stepPc (putX te rd (BitVec.ofNat 32 v)) 4)

/-- R303: the effective address and the cause of a bad sum. -/
def teEa (s : State) (k rs1 : Nat) : Addr × Nat := addAddr (tget 0 (myTe s).fa k) (getX (myTe s) rs1).toInt

/-- The access word of an Xtephra access. -/
def teWord (f3 : Nat) (a : Addr) : Nat := a.toNat / 2 ^ 64 + (0x40 + f3) * 256

/-- A flight of the tephra core at work. -/
def teFlight (s : State) (op : FarOp) (a : Addr) (t : Trans) (size aword : Nat) : Flight :=
  { core := s.cur.core, who := s.cur.slot, op := op, rx := true, size := size, addr := a, key := t.key, win := t.win,
    raw := winRaw t.entry, operand := ⟨0, 0⟩, cvp := teCvp (myTe s), st := .sent, aword := aword }

/-- Alignment, translation and the checks of a mesh address, then the access. -/
def teTranslate (s : State) (a : Addr) (size align aword : Nat) (need : Need) (go : Trans → State) : State :=
  if isMesh a && meshRsvd a ≠ 0 then teFault s 0x42 a.toNat
  else if isMesh a && 0x200000 < meshOfs a + size then teFault s 0x40 a.toNat
  else if a.toNat % align ≠ 0 then teFault s 0x41 a.toNat
  else
    let t := translate s s.cur.core a need
    if t.cause ≠ 0 then teMiss s a aword t else go t

/-- A blocking access (R305): it waits until no posted access is outstanding, performs, and completes with its
reply. -/
def teBlocking (s : State) (a : Addr × Nat) (size f3 : Nat) (need : Need) (mk : Trans → Flight)
    (done : State → Nat → State) : State :=
  let te := myTe s
  match te.value with
  | some v => done (modTe s (fun te => { te with value := none })) v
  | none =>
    if te.pending.isSome then s
    else if a.2 ≠ 0 then teFault s a.2 0
    else
      teTranslate s a.1 size size (teWord f3 a.1) need (fun t =>
        if posted s s.cur.core (teIdx s) ≠ [] then s
        else modTe (issueFlight s (mk t)) (fun te => { te with pending := some s.nextId }))

/-- A posted access (R305): it waits for a free entry among 16. -/
def tePosted (s : State) (a : Addr × Nat) (size f3 : Nat) (need : Need) (mk : Trans → Flight) : State :=
  if a.2 ≠ 0 then teFault s a.2 0
  else
    teTranslate s a.1 size size (teWord f3 a.1) need (fun t =>
      if 16 ≤ (posted s s.cur.core (teIdx s)).length then s
      else modTe (issueFlight s (mk t)) (fun te => stepPc te 4))

abbrev teK (w : TWord) : Nat := w.f7 % 8

/-- te.rd. -/
def execTeRd (w : TWord) (s : State) : Out :=
  let a := teEa s (teK w) w.rs1
  .next (teBlocking s a 4 0 .read (fun t => { teFlight s .ld a.1 t 4 (teWord 0 a.1) with code := 5 })
    (fun x v => teDoneX x w.rd v))

/-- te.wr. -/
def execTeWr (w : TWord) (s : State) : Out :=
  let a := teEa s (teK w) w.rs1
  .next (tePosted s a 4 1 .write (fun t =>
    { teFlight s .st a.1 t 4 (teWord 1 a.1) with data := leBytes 4 (tx s w.rs2) }))

/-- A data-memory block of 64 bytes at x[rs2], a multiple of `align`: te.rdw alone asks for 64 (R304). -/
def withBlock (s : State) (d align : Nat) (go : State) : State :=
  if d % align ≠ 0 ∨ !inDmem d 64 then teFault s 0x85 d else go

/-- te.rdw; a bad data-memory address goes before the faults of its far address. (Log 104: DEDUCED.) -/
def execTeRdw (w : TWord) (s : State) : Out :=
  let a := teEa s (teK w) w.rs1
  let d := tx s w.rs2
  .next (withBlock s d 64 (tePosted s a 64 2 .read (fun t => { teFlight s .rdw a.1 t 64 (teWord 2 a.1) with sink := d })))

/-- The 64 bytes of data memory at an address. -/
def dmemBlock (s : State) (d : Nat) : List Nat :=
  (List.range 64).map (fun i => (tget (0 : Byte) (myTe s).dmem (d + i)).toNat)

/-- te.wrw. -/
def execTeWrw (w : TWord) (s : State) : Out :=
  let a := teEa s (teK w) w.rs1
  let d := tx s w.rs2
  .next (withBlock s d 1
    (tePosted s a 64 3 .write (fun t => { teFlight s .wrw a.1 t 64 (teWord 3 a.1) with data := dmemBlock s d })))

/-- te.atom. -/
def execTeAtom (w : TWord) (s : State) : Out :=
  let a := teEa s (teK w) w.rs1
  .next (teBlocking s a 4 4 .atomic (fun t =>
    { teFlight s .atom a.1 t 4 (teWord 4 a.1) with
      code := if w.f7 / 8 = 9 then 2 else 0, aop := w.f7 / 8, operand := ⟨tx s w.rs2, 0⟩ })
    (fun x v => teDoneX x w.rd v))

/-- te.vat. -/
def execTeVat (w : TWord) (s : State) : Out :=
  let a := teEa s (teK w) w.rs1
  let d := tx s w.rs2
  let n := if w.f7 / 8 = 1 then 2 else 4
  .next (withBlock s d 1
    (tePosted s a 64 5 .atomic (fun t =>
      let b := dmemBlock s d
      { teFlight s .vat a.1 t 64 (teWord 5 a.1) with
        code := w.f7 / 8
        elems := (List.range (64 / n)).map (fun i => (n * i, ⟨leNat ((b.drop (n * i)).take n), 0⟩)) })))

/-- te.full in a mode of R237. -/
def teFull (mode : Nat) (w : TWord) (s : State) : Out :=
  let a := teEa s (teK w) w.rs1
  .next (teBlocking s a 4 6 .read (fun t => { teFlight s .ld a.1 t 4 (teWord 6 a.1) with code := 5, mode := mode })
    (fun x v => teDoneX x w.rd v))

def execTeFullWf (w : TWord) (s : State) : Out := teFull 1 w s

def execTeFullWfe (w : TWord) (s : State) : Out := teFull 2 w s

/-- te.empty. -/
def execTeEmpty (w : TWord) (s : State) : Out :=
  let a := teEa s (teK w) w.rs1
  .next (teBlocking s a 4 7 .write (fun t =>
    { teFlight s .st a.1 t 4 (teWord 7 a.1) with mode := 3, data := leBytes 4 (tx s w.rs2) })
    (fun x _ => modTe x (fun te => stepPc te 4)))

/-! ## Semaphores, polling, windows, messages and time (R304) -/

/-- Whether every posted access has completed: at device scope, or at system scope. -/
def postedDone (s : State) (c k : Nat) (sys : Bool) : Bool :=
  if sys then (flightsOf s c (8 + k)).all (fun p => completeSys p.2) else (posted s c k).isEmpty

/-- A release by tephra core `k`. -/
def teSignal (s : State) (c k n v : Nat) : State := kickEngine (noteRelease (setSem s c n v) c 2 k) c

/-- te.sig. -/
def teSig (w : TWord) (s : State) (f : Nat → Nat → Int) : Out :=
  let c := s.cur.core
  let n := tx s w.rs1 % 256
  let v := f (sem s c n) (tx s w.rs2 % 65536)
  .next (if !postedDone s c (teIdx s) (bitsAt w.f7 2 1 = 1) then s
    else if v < 0 ∨ 0xFFFF < v then teFault s 0xA2 0
    else modTe (teSignal s c (teIdx s) n v.toNat) (fun te => stepPc te 4))

def execTeSigAdd (w : TWord) (s : State) : Out := teSig w s (fun a b => (a : Int) + b)

def execTeSigSub (w : TWord) (s : State) : Out := teSig w s (fun a b => (a : Int) - b)

def execTeSigSet (w : TWord) (s : State) : Out := teSig w s (fun _ b => b)

/-- te.poll. -/
def execTePoll (w : TWord) (s : State) : Out :=
  let n := (posted s s.cur.core (teIdx s)).length
  let l := (flightsOf s s.cur.core s.cur.slot).filter (fun p => p.2.replied)
  .next (if tx s w.rs1 < n ∨ (w.f7 % 2 = 1 ∧ !l.all (fun p => completeSys p.2)) then s else teDoneX s w.rd n)

/-- te.win: a part of fa[k]. -/
def teWin (w : TWord) (s : State) (lo n : Nat) : Out :=
  .next (modTe s (fun te =>
    let old := (tget 0 te.fa (teK w)).toNat
    let v := (getX te w.rs1).toNat % 2 ^ n
    stepPc { te with fa := tput 0 te.fa (teK w)
                      (BitVec.ofNat 72 (old / 2 ^ (lo + n) * 2 ^ (lo + n) + v * 2 ^ lo + old % 2 ^ lo)) } 4))

def execTeWinLo (w : TWord) (s : State) : Out := teWin w s 0 32

def execTeWinMid (w : TWord) (s : State) : Out := teWin w s 32 32

def execTeWinHi (w : TWord) (s : State) : Out := teWin w s 64 8

/-- The probe result (Table 12.3). -/
def probeWord (s : State) (a : Addr) : Nat :=
  if isMesh a then 2 ^ 31 + 1
  else
    match winMatch (core s s.cur.core).windows a.toNat with
    | none => 0
    | some p =>
      2 ^ 31 + p.1 / 512 * 2 ^ 28 + (if winRaw p.2 then 2 ^ 27 else 0) + bitsAt p.2 62 1 * 2 ^ 26 + bitsAt p.2 61 1 * 2 ^ 25
        + bitsAt p.2 60 1 * 2 ^ 24 + winState p.2 * 2 ^ 22

/-- te.win probe. -/
def execTeWinProbe (w : TWord) (s : State) : Out :=
  let a := teEa s (teK w) w.rs1
  .next (if a.2 ≠ 0 then teFault s a.2 0 else teDoneX s w.rd (probeWord s a.1))

/-- te.mbox: it blocks until its reply. -/
def execTeMbox (w : TWord) (s : State) : Out :=
  let te := myTe s
  .next (match te.wait, te.reply with
    | .mbox, none => s
    | .mbox, some r =>
      let s1 := modTe s (fun te => { te with wait := .none, reply := none })
      if r.kind = 5 then teFault s1 0xA3 0 else teDoneX s1 w.rd r.value.toNat
    | _, _ =>
      if posted s s.cur.core (teIdx s) ≠ [] then s
      else modTe (postTephra s s.cur.core (teIdx s) 3 0 [0, 0, tx s w.rs1, tx s w.rs2]) (fun te => { te with wait := .mbox }))

/-- te.gcyc. -/
def execTeGcyc (w : TWord) (s : State) : Out :=
  .next (if w.f7 % 2 = 0 then
      modTe (teDoneX s w.rd (s.gcyc % 2 ^ 32)) (fun te => { te with gcycHi := s.gcyc / 2 ^ 32 % 2 ^ 32 })
    else teDoneX s w.rd (myTe s).gcycHi)

/-- The destination of te.save: translated for a write beside the source. -/
def saveFlight (s : State) (a b : Addr) (go : Flight → State) : State :=
  if isMesh a ∨ isMesh b ∨ a.toNat % 4096 ≠ 0 ∨ b.toNat % 4096 ≠ 0 then teFault s 0x41 a.toNat
  else
    let t := translate s s.cur.core a .read
    let u := translate s s.cur.core b .write
    if t.cause ≠ 0 then teMiss s a (teWord 7 a) t
    else if u.cause ≠ 0 then teMiss s b (teWord 7 b) u
    else if 16 ≤ (posted s s.cur.core (teIdx s)).length then s
    else go { teFlight s .save a t 4096 (teWord 7 a) with data := [u.key, if winRaw u.entry then 1 else 0, u.win, b.toNat] }

/-- te.save (R318). (Log 30: DEDUCED.) -/
def execTeSave (w : TWord) (s : State) : Out :=
  let a := teEa s (teK w) w.rs1
  let b := teEa s (w.f7 / 8) w.rs2
  .next (if a.2 ≠ 0 then teFault s a.2 0
    else if b.2 ≠ 0 then teFault s b.2 0
    else saveFlight s a.1 b.1 (fun f => modTe (issueFlight s f) (fun te => stepPc te 4)))

/-! ## Commands (R309, R310) -/

/-- The head command of a tephra core whose wait is met. -/
def teHead (s : State) (c k : Nat) : Option TeCmd :=
  match (tephra s c k).queue with
  | [] => none
  | q :: _ => if syWthr q.sync ≤ sem s c (syWsem q.sync) then some q else none

/-- Rounding of a command: its sync word's, or FRND of a COPY that the front end queued (Table 12.4). -/
def cmdCvp (q : TeCmd) : Nat × Bool :=
  if q.token ≠ 0 ∧ !q.coll then (q.desc.getD 3 0 % 8, bitsAt (q.desc.getD 3 0) 3 1 = 1)
  else (bitsAt q.sync 1 3, bitsAt q.sync 4 1 = 1)

/-- Starts the head command. -/
def teStart (s : State) (c k : Nat) (q : TeCmd) : State :=
  let s1 := if syWthr q.sync ≠ 0 then noteAcquire s c 2 k else s
  modTephra s1 c k (fun te =>
    { te with queue := te.queue.drop 1, cur := some q, rm := (cmdCvp q).1, satf := (cmdCvp q).2,
              stdSt := { phase := 1, floor := portFree s c } })

/-- The kind that te.cmd lands. -/
def cmdKind (q : TeCmd) : Nat := (if q.coll then 2 else 1) + (if q.token ≠ 0 then 32 else 4 * q.slot)

/-- te.cmd. -/
def execTeCmd (w : TWord) (s : State) : Out :=
  let c := s.cur.core
  let d := tx s w.rs1
  .next (if (myTe s).cur.isSome ∨ d % 8 ≠ 0 ∨ !inDmem d 136 then teFault s 0x85 0
    else
      match teHead s c (teIdx s) with
      | none => s
      | some q =>
        let s1 := modTe (teStart s c (teIdx s) q) (fun te => putDmem te d ((q.desc ++ [q.sync]).flatMap (leBytes 8)))
        teDoneX s1 w.rd (cmdKind q))

/-- The end of a share of the front end (R373, R374). -/
def shareEnd (s : State) (token cause : Nat) : State :=
  match tfind s.front.shares token with
  | none => s
  | some x => { s with front := { s.front with shares := tset s.front.shares token { x with ended := some cause } } }

/-- A command leaves its tephra core: its thread or share is told. -/
def teGone (s : State) (c : Nat) (q : TeCmd) (cause : Nat) : State :=
  if q.token ≠ 0 then shareEnd s q.token cause else threadLess s c q.slot

/-- TADV and the signal at retirement (R310). -/
def teSync (s : State) (c k y : Nat) : State :=
  let s1 := if syTadv y then modEngine s c (fun e => setRing e (syTring y) ((ring e (syTring y)).push 1)) else s
  if sySinc y = 0 then kickEngine s1 c else teSignal s1 c k (sySsem y) (sem s1 c (sySsem y) + sySinc y)

/-- Retires the started command, or faults with 0x82 or 0xA2, which a reply may answer too. `go` is what the image does
next. (Log 36: DEDUCED.) -/
def teRetire (s : State) (c k : Nat) (q : TeCmd) (go : State → State) : State :=
  if !postedDone s c k (bitsAt q.sync 0 1 = 1) then s
  else
    let n := retireCause s c q.sync 0
    if n ≠ 0 then modTephra (teFault s n 0) c k (fun te => { te with wait := .delivery })
    else go (teGone (modTephra (teSync s c k q.sync) c k (fun te => { te with cur := none, stdSt := {} })) c q 0)

/-- te.done. -/
def execTeDone (w : TWord) (s : State) : Out :=
  let c := s.cur.core
  let n := tx s w.rs1 % 256
  .next (match (myTe s).cur with
    | none => teFault s 0x85 0
    | some q =>
      if n = 0x84 then teFault s 0x84 0 else if n ≠ 0 then teFault s 0x85 0
      else teRetire s c (teIdx s) q (fun x => modTe x (fun te => stepPc te 4)))

/-! ## Descriptors (R311, R312, R314, Tables 12.4, 12.5) -/

abbrev tcW (d : List Nat) (i : Nat) : Nat := d.getD i 0
abbrev tcSrc (d : List Nat) : Nat := tcW d 0 + bitsAt (tcW d 2) 56 8 * 2 ^ 64
abbrev tcDst (d : List Nat) : Nat := tcW d 1 + bitsAt (tcW d 2) 48 8 * 2 ^ 64
abbrev tcSkind (d : List Nat) : Nat := bitsAt (tcW d 2) 46 2
abbrev tcDkind (d : List Nat) : Nat := bitsAt (tcW d 2) 44 2
abbrev tcSmode (d : List Nat) : Nat := bitsAt (tcW d 2) 42 2
abbrev tcPack (d : List Nat) : Bool := bitsAt (tcW d 2) 41 1 = 1
abbrev tcStatw (d : List Nat) : Bool := bitsAt (tcW d 2) 40 1 = 1
abbrev tcSfmt (d : List Nat) : Nat := bitsAt (tcW d 2) 36 4
abbrev tcDfmt (d : List Nat) : Nat := bitsAt (tcW d 2) 32 4
abbrev tcDims (d : List Nat) : Nat := bitsAt (tcW d 2) 29 3 + 1
abbrev tcStat (d : List Nat) : Nat := bitsAt (tcW d 2) 0 21

/-- Dimension `i`, 96 bits. -/
def tcDim (d : List Nat) (i : Nat) : Nat := bitsAt (((List.range 12).map (fun j => tcW d (4 + j) * 2 ^ (64 * j))).sum) (96 * i) 96
def tcBound (d : List Nat) (i : Nat) : Nat := bitsAt (tcDim d i) 0 24 + 1
def tcSstr (d : List Nat) (i : Nat) : Int := sextNat 36 (tcDim d i / 2 ^ 24)
def tcDstr (d : List Nat) (i : Nat) : Int := sextNat 36 (tcDim d i / 2 ^ 60)

def tcTotal (d : List Nat) : Nat := ((List.range (tcDims d)).map (tcBound d)).prod

/-- The offset of element `j`, dimension 0 fastest. -/
def tcOfs (d : List Nat) (str : Nat → Int) : Nat → Nat → Nat → Int
  | 0, _, _ => 0
  | n + 1, i, j => ((j % tcBound d i : Nat) : Int) * str i + tcOfs d str n (i + 1) (j / tcBound d i)

/-- Whether a pair of types converts (R312). -/
def convOk (a b : Nat) : Bool := a = b || (fmtOf a).isSome = (fmtOf b).isSome

/-- Step 3 for a TCOPY; `front`: the front end queued it. -/
def copyBad (front : Bool) (d : List Nat) : Bool :=
  let ss := szBytes (tcSfmt d)
  let ds := szBytes (tcDfmt d)
  let unit := fun (n : Nat) => if tcPack d then 4096 else n
  1 < tcSkind d || 1 < tcDkind d || tcSmode d = 3 || 13 < tcSfmt d || 13 < tcDfmt d || bitsAt (tcW d 2) 21 8 ≠ 0
    || (if front then 16 ≤ tcW d 3 || 4 < tcW d 3 % 8 else tcW d 3 ≠ 0)
    || (List.range 8).any (fun i => tcDims d ≤ i && tcDim d i ≠ 0)
    || (tcSkind d = 0 && 0x200000 ≤ tcSrc d) || (tcDkind d = 0 && 0x200000 ≤ tcDst d)
    || !convOk (tcSfmt d) (tcDfmt d)
    || tcSrc d % unit ss ≠ 0 || tcDst d % unit ds ≠ 0
    || (List.range (tcDims d)).any (fun i => tcSstr d i % (unit ss : Int) ≠ 0 || tcDstr d i % (unit ds : Int) ≠ 0)
    || (tcPack d && (tcSfmt d ≠ 0 || tcDfmt d ≠ 0 || tcSkind d ≠ 1 || tcDkind d ≠ 1))

/-- The least and the greatest byte of one side, as a range. -/
def tcSpan (d : List Nat) (base : Nat) (str : Nat → Int) (size : Nat) : Int × Int :=
  let e := (List.range (tcDims d)).map (fun i => ((tcBound d i - 1 : Nat) : Int) * str i)
  ((base : Int) + (e.map (fun x => min 0 x)).sum, (base : Int) + (e.map (fun x => max 0 x)).sum + size)

/-- Step 4: the ranges with their alignments; 0x40 first, then 0x41, then 0x44. -/
def rangesCause (s : State) (c : Nat) (l : List (Int × Int × Nat)) : Nat :=
  if l.any (fun r => r.1 < 0 || 0x200000 < r.2.1) then 0x40
  else if l.any (fun r => r.1 % r.2.2 ≠ 0) then 0x41
  else if l.any (fun r => inContext s c r.1.toNat (r.2.1 - r.1).toNat) then 0x44 else 0

def copyRanges (d : List Nat) : List (Int × Int × Nat) :=
  (if tcSkind d = 0 then let r := tcSpan d (tcSrc d) (tcSstr d) (szBytes (tcSfmt d)); [(r.1, r.2, 1)] else [])
  ++ (if tcDkind d = 0 then let r := tcSpan d (tcDst d) (tcDstr d) (szBytes (tcDfmt d)); [(r.1, r.2, 1)] else [])
  ++ (if tcStatw d then [((tcStat d : Int), (tcStat d : Int) + 4, 4)] else [])

/-! ## Collectives (R315, Table 12.6) -/

abbrev tlKind (d : List Nat) : Nat := bitsAt (tcW d 0) 61 3
abbrev tlType (d : List Nat) : Nat := bitsAt (tcW d 0) 57 4
abbrev tlRop (d : List Nat) : Nat := bitsAt (tcW d 0) 55 2
abbrev tlStatw (d : List Nat) : Bool := bitsAt (tcW d 0) 54 1 = 1
abbrev tlMem (d : List Nat) : Nat := bitsAt (tcW d 0) 42 12 + 1
abbrev tlMy (d : List Nat) : Nat := bitsAt (tcW d 0) 30 12
abbrev tlMtab (d : List Nat) : Nat := bitsAt (tcW d 0) 0 21
abbrev tlRoot (d : List Nat) : Nat := bitsAt (tcW d 1) 52 12
abbrev tlCnt (d : List Nat) : Nat := bitsAt (tcW d 1) 0 24
abbrev tlDst (d : List Nat) : Nat := bitsAt (tcW d 2) 32 21
abbrev tlSrc (d : List Nat) : Nat := bitsAt (tcW d 2) 0 21
abbrev tlStat (d : List Nat) : Nat := bitsAt (tcW d 3) 32 21
abbrev tlWork (d : List Nat) : Nat := bitsAt (tcW d 3) 0 21
abbrev tlCid (d : List Nat) : Nat := tcW d 4

/-- Whether the collective reduces. -/
def tlReduces (d : List Nat) : Bool := tlKind d = 0 || tlKind d = 1 || tlKind d = 4

/-- Whether a member writes a destination. -/
def tlWrites (d : List Nat) : Bool := tlKind d ≠ 1 || tlMy d = tlRoot d

def collBad (d : List Nat) : Bool :=
  4 < tlKind d || (if tlReduces d then tlType d < 4 || 8 < tlType d else 13 < tlType d) || tlRop d = 3
    || tlMem d < 2 || tlMem d ≤ tlMy d || bitsAt (tcW d 0) 21 9 ≠ 0 || tlMem d ≤ tlRoot d || bitsAt (tcW d 1) 24 28 ≠ 0
    || tlCnt d = 0 || bitsAt (tcW d 2) 53 11 ≠ 0 || bitsAt (tcW d 2) 21 11 ≠ 0 || bitsAt (tcW d 3) 53 11 ≠ 0
    || bitsAt (tcW d 3) 21 11 ≠ 0 || (List.range 11).any (fun i => tcW d (5 + i) ≠ 0)

/-- Elements of a member's source and destination. -/
def tlSrcN (d : List Nat) : Nat := if tlKind d = 4 then tlMem d * tlCnt d else tlCnt d
def tlDstN (d : List Nat) : Nat := if tlKind d = 3 then tlMem d * tlCnt d else tlCnt d

def collRanges (d : List Nat) : List (Int × Int × Nat) :=
  let n := szBytes (tlType d)
  let r := fun (o k al : Nat) => ((o : Int), (o : Int) + k, al)
  [r (tlMtab d) (4 * tlMem d) 4, r (tlSrc d) (n * tlSrcN d) n, r (tlWork d) 8192 64]
  ++ (if tlWrites d then [r (tlDst d) (n * tlDstN d) n] else [])
  ++ (if tlStatw d then [r (tlStat d) 4 4] else [])

/-! ## TCOPY and TCOLL (R307, R308) -/

/-- The sixteen words of a descriptor in the core's scratchpad, and the cause of step 2. -/
def readDesc (s : State) (c ofs : Nat) : List Nat × Nat :=
  let n := localCause s c ofs 128 64
  if n ≠ 0 then ([], n)
  else if readPoison s (scratch c + ofs) 128 then ([], 0x65)
  else ((List.range 16).map (fun i => getNat s (scratch c + ofs + 8 * i) 8), 0)

/-- The acceptance checks in their order. -/
def tensorCause (s : State) (c : Nat) (coll : Bool) (ofs y : Nat) : Nat :=
  let r := readDesc (settled s c) c ofs
  let ranges := rangesCause s c (if coll then collRanges r.1 else copyRanges r.1)
  if syncBad y then 0x86
  else if r.2 ≠ 0 then r.2
  else if (if coll then collBad r.1 else copyBad false r.1) then 0x84
  else if ranges ≠ 0 then ranges
  else if syTadv y && (ring (engine s c) (syTring y)).nslot = 0 then 0x86 else 0

/-- A command of a thread on tephra core CI[0] of its core. -/
def tensor (coll : Bool) (w : XWord) (s : State) : Out :=
  let c := s.cur.core
  let k := w.ci % 2
  let y := nat s w.b
  let n := tensorCause s c coll (nat s w.da) y
  .next (if n ≠ 0 then trapNow s n
    else if 8 ≤ (tephra s c k).queue.length then blockNow s
    else
      let d := (readDesc (found s) c (nat s w.da)).1
      let q : TeCmd :=
        { coll := coll, desc := d, sync := y, core := c, slot := s.cur.slot
          work := if coll then tslice s.mem (here s + tlWork d) 8192 0 else [] }
      let s1 := tickPort (portAccess s [(here s + nat s w.da, 128)] [] none) c 8
      modTephra (modMe s1 (fun th => { th with busy := th.busy + 1 })) c k (fun te => { te with queue := te.queue ++ [q] }))

def execTcopy (w : XWord) (s : State) : Out := tensor false w s

def execTcoll (w : XWord) (s : State) : Out := tensor true w s

/-! ## The standard image: copies (R312 to R314) -/

/-- The address of an offset of the core's own scratchpad. -/
def ownAddr (s : State) (ofs : Nat) : Addr :=
  meshAddr s.node (dieOf s.cur.core) (colOf s.cur.core) (rowOf s.cur.core) ofs

/-- One side of element `j`. -/
def elemAddr (s : State) (kind base : Nat) (ofs : Int) : Addr × Nat :=
  if kind = 0 then (ownAddr s ((base : Int) + ofs).toNat, 0) else addAddr (BitVec.ofNat 72 base) ofs

def setStd (s : State) (f : StdState → StdState) : State := modTe s (fun te => { te with stdSt := f te.stdSt })

/-- Reads element `i`. -/
def stdRead (s : State) (d : List Nat) (i : Nat) : State :=
  let a := elemAddr s (tcSkind d) (tcSrc d) (tcOfs d (tcSstr d) (tcDims d) 0 i)
  let n := szBytes (tcSfmt d)
  let f3 := if tcSmode d = 0 then 0 else 6
  if a.2 ≠ 0 then teFault s a.2 a.1.toNat
  else
    teTranslate s a.1 n 1 (teWord f3 a.1) .read (fun t =>
      modTe (issueFlight s { teFlight s .ld a.1 t n (teWord f3 a.1) with code := tcSfmt d, mode := tcSmode d })
        (fun te => { te with pending := some s.nextId }))

/-- Writes element `i`, whose source holds `v`. -/
def stdWrite (s : State) (d : List Nat) (i v : Nat) : State :=
  let a := elemAddr s (tcDkind d) (tcDst d) (tcOfs d (tcDstr d) (tcDims d) 0 i)
  let n := szBytes (tcDfmt d)
  let x := tephraConv (tcSfmt d) (tcDfmt d) (teCvp (myTe s)) v
  if a.2 ≠ 0 then teFault s a.2 a.1.toNat
  else if 16 ≤ (posted s s.cur.core (teIdx s)).length then s
  else
    teTranslate s a.1 n 1 (teWord 1 a.1) .write (fun t =>
      modTe (issueFlight s { teFlight s .st a.1 t n (teWord 1 a.1) with data := leBytes n x.1 }) (fun te =>
        { te with value := none, stdSt := { te.stdSt with begun := false, flags := flagOr te.stdSt.flags x.2 } }))

/-- One page of a packed copy. -/
def stdPage (s : State) (d : List Nat) (i : Nat) : State :=
  let a := addAddr (BitVec.ofNat 72 (tcSrc d)) (tcOfs d (tcSstr d) (tcDims d) 0 i)
  let b := addAddr (BitVec.ofNat 72 (tcDst d)) (tcOfs d (tcDstr d) (tcDims d) 0 i)
  if a.2 ≠ 0 then teFault s a.2 a.1.toNat
  else if b.2 ≠ 0 then teFault s b.2 b.1.toNat
  else saveFlight s a.1 b.1 (fun f => setStd (issueFlight s f) (fun x => { x with begun := false }))

/-- An access at the element at work of a copy, or the choice of the next, any of those that are left (R312). (Log 35: DEDUCED.) -/
def stdCopy (s : State) (d : List Nat) : State :=
  let x := (myTe s).stdSt
  if !x.begun then
    if x.left = [] then setStd s (fun x => { x with phase := 2 })
    else
      let p := drawFrom s x.left
      setStd p.2 (fun x => { x with index := p.1.1, left := p.1.2, begun := true })
  else if tcPack d then stdPage s d x.index
  else
    match (myTe s).value with
    | some v => stdWrite s d x.index v
    | none => if (myTe s).pending.isSome then s else stdRead s d x.index

/-! ## The standard image: collectives (R315 to R317) -/

/-- Entry `j` of the member table. -/
def memberEntry (s : State) (c : Nat) (d : List Nat) (j : Nat) : Nat := getNat s (scratch c + tlMtab d + 4 * j) 4

/-- The core and index of a member of this device; `none`: a member of another node. -/
def memberAt (s : State) (c : Nat) (d : List Nat) (j : Nat) : Option (Nat × Nat) :=
  let e := memberEntry s c d j
  if bitsAt e 22 10 = s.node then some (coreNo (bitsAt e 20 2) (bitsAt e 16 4) (bitsAt e 13 3), bitsAt e 12 1) else none

/-- The cause of the first broken way from a member to another (R317, Table 9.3), 0 where every way stands. (Log 35: DEDUCED.) -/
def collWayCause (s : State) (c k : Nat) (d : List Nat) : Nat :=
  firstCause ((List.range (tlMem d)).map (fun j =>
    match memberAt s c d j with
    | some m => if conduitDown s (dieOf c) (dieOf m.1) then 0xC0 else 0
    | none => linkRefusal s (2 ^ 60 + bitsAt (memberEntry s c d j) 22 10 * 2 ^ 50) (coord s c + 2 + k)))

/-- The cause that a member finds before it supplies its data: a bad table, a broken way. (Log 35: DEDUCED.) -/
def collStartCause (s : State) (c k : Nat) (d : List Nat) : Nat :=
  let js := List.range (tlMem d)
  if readPoison s (scratch c + tlMtab d) (4 * tlMem d) || readPoison s (scratch c + tlSrc d) (szBytes (tlType d) * tlSrcN d)
  then 0x65
  else if memberAt s c d (tlMy d) ≠ some (c, k) || js.any (fun j => memberEntry s c d j % 4096 ≠ 0) then 0x84
  else collWayCause s c k d

/-- A member that has supplied its data and is not stopped by a save: its descriptor. (Log 35: DEDUCED.) -/
def supplied (s : State) (cid : Nat) (m : Nat × Nat) : Option (List Nat) :=
  let te := tephra s m.1 m.2
  match te.cur with
  | none => none
  | some q => if q.coll && te.stdSt.phase = 12 && te.fault = 0 && !te.saveWait && tlCid q.desc = cid then some q.desc else none

/-- Whether two members' descriptors differ in a field that they share. (Log 35: DEDUCED.) -/
def collDiffers (a b : List Nat) (j : Nat) : Bool :=
  tlKind a ≠ tlKind b || tlType a ≠ tlType b || tlRop a ≠ tlRop b || tlMem a ≠ tlMem b || tlRoot a ≠ tlRoot b
    || tlCnt a ≠ tlCnt b || tlMy b ≠ j

/-- Whether a member may write the WORK area of another (R215). -/
def workOpen (s : State) (c : Nat) (m : Nat × Nat) (d : List Nat) : Bool :=
  c = m.1 || granted s { core := c, who := 8, op := .wrw, operand := ⟨0, 0⟩, cvp := syCvp 0, st := .sent } m.1 (tlWork d) 8192

/-- A member of a collective that has supplied its data: a tephra core of this device with its descriptor, or a member of
another node with the place of its contribution among the free values. -/
inductive Member
  | here (core te : Nat) (desc : List Nat)
  | away (base : Nat)
deriving DecidableEq, Repr

/-- Element `e`, of `n` bytes, of a member's contribution. (Log 35: DEDUCED.) -/
def srcElem (s : State) (n : Nat) (m : Member) (e : Nat) : Nat :=
  match m with
  | .here c _ d => getNat s (scratch c + tlSrc d + n * e) n
  | .away b => Config.freeWord (b + e) % 256 ^ n

/-- What a member writes, and its flags (R316). -/
def collResult (s : State) (ms : List Member) (p : Cvp) (d : List Nat) : List Nat × Nat :=
  let cnt := List.range (tlCnt d)
  let src := srcElem s (szBytes (tlType d))
  let red := fun (base : Nat) =>
    let rs := cnt.map (fun e => reduceElem (tlType d) (tlRop d) p (ms.map (fun m => src m (base + e))))
    (rs.map (fun r => r.1), rs.foldl (fun a r => flagOr a r.2) 0)
  match tlKind d with
  | 0 => red 0
  | 1 => if tlMy d = tlRoot d then red 0 else ([], 0)
  | 2 => (match ms[tlRoot d]? with
      | some m => (cnt.map (src m), 0)
      | none => ([], 0))
  | 3 => (ms.flatMap (fun m => cnt.map (src m)), 0)
  | _ => red (tlMy d * tlCnt d)

/-- Whether software changed a member's WORK area since its command was accepted: a breach of R315. -/
def workTouched (s : State) (m : Member) : Bool :=
  match m with
  | .here c k d => (tephra s c k).cur.any (fun q => tslice s.mem (scratch c + tlWork d) 8192 0 ≠ q.work)
  | .away _ => false

/-- One member takes what it writes. The data have moved through its WORK area, which holds free values from now on; what a
collective whose WORK area was touched writes is free too (R9, R315). (Log 35: DEDUCED; log 80: DESIGN CHOICE.) -/
def collTake (broken : Bool) (s0 : State) (ms : List Member) (s : State) (m : Member) : State :=
  match m with
  | .away _ => s
  | .here c k d =>
    let r := collResult s0 ms (teCvp (tephra s0 c k)) d
    let w := drawWords s (r.1.length + 1)
    let r1 := if broken then (w.1.take r.1.length, w.1.getLastD 0 % 32) else r
    let s1 := setFulls (freeBytes w.2 (scratch c + tlWork d) 8192) true (wordsOf (scratch c + tlWork d) 8192)
    modTephra s1 c k (fun te => { te with stdSt := { phase := 13, index := 0, acc := r1.1, flags := r1.2 } })

/-- All members have supplied their data: each takes what it writes. (Log 35: DEDUCED; log 80: DESIGN CHOICE.) -/
def collPerform (s : State) (ms : List Member) : State :=
  ms.foldl (collTake (ms.any (workTouched s)) s ms) s

/-- The members in their order, as far as they have supplied their data: those of another node do so, with free values,
at a moment of their own (R317). (Log 35: DEDUCED.) -/
def collMembers (s : State) (c : Nat) (d : List Nat) (ready : Bool) : List (Option Member) :=
  (List.range (tlMem d)).map (fun j =>
    match memberAt s c d j with
    | some m => (supplied s (tlCid d) m).map (Member.here m.1 m.2)
    | none => if ready then some (.away (s.draw + 1 + j * tlSrcN d)) else none)

/-- A member waits for the others, while every way to them stands (R317), and for the bank words of the WORK areas that thread
ports hold (R198). (Log 35: DEDUCED.) -/
def stdGather (s : State) (d : List Nat) : State :=
  let c := s.cur.core
  let ch := drawChoice s
  let l := collMembers s c d ch.1
  let bad : Bool := ((List.range (tlMem d)).zip l).any (fun p => match p.2 with
    | some (.here _ _ x) => collDiffers d x p.1
    | _ => false)
  let way := collWayCause s c (teIdx s) d
  if bad then teFault s 0x84 0
  else if way ≠ 0 then teFault s way 0
  else
    match l.mapM id with
    | none => ch.2
    | some ms =>
      let near := ms.filterMap (fun m => match m with | .here c k d => some ((c, k), d) | .away _ => none)
      if near.any (fun m => !workOpen s c m.1 m.2) then teFault s 0x62 0
      else if near.any (fun a => near.any (fun b => !workOpen s a.1.1 b.1 b.2)) then s
      else if near.any (fun m => portBars s m.1.1 (scratch m.1.1 + tlWork m.2) 8192) then s
      else collPerform { ch.2 with draw := ch.2.draw + tlMem d * tlSrcN d } ms

/-- A member writes its destination. (Log 35: DEDUCED.) -/
def stdScatter (s : State) (d : List Nat) : State :=
  let x := (myTe s).stdSt
  let n := szBytes (tlType d)
  match x.acc[x.index]? with
  | none => setStd s (fun x => { x with phase := 2 })
  | some v =>
    if 16 ≤ (posted s s.cur.core (teIdx s)).length then s
    else
      let a := ownAddr s (tlDst d + n * x.index)
      let t := translate s s.cur.core a .write
      setStd (issueFlight s { teFlight s .st a t n (teWord 1 a) with data := leBytes n v })
        (fun x => { x with index := x.index + 1 })

/-! ## The standard image -/

/-- The status word (R313). -/
def stdStatus (s : State) (ofs : Nat) : State :=
  let a := ownAddr s ofs
  let t := translate s s.cur.core a .write
  setStd (issueFlight s { teFlight s .st a t 4 (teWord 1 a) with data := leBytes 4 ((myTe s).stdSt.flags % 32) })
    (fun x => { x with phase := 3 })

/-- One piece of the standard image's work: phase 1 begins, 11 copies, 12 and 13 are a collective's, 2 writes the status word once
every element write has performed (R313), 3 is te.done. (Log 35: DEDUCED.) -/
def stdStep (s : State) : State :=
  let c := s.cur.core
  let k := teIdx s
  let te := myTe s
  match te.cur with
  | none => (match teHead s c k with
      | none => s
      | some q => teStart s c k q)
  | some q =>
    let d := q.desc
    match te.stdSt.phase with
    | 12 => stdGather s d
    | 13 => stdScatter s d
    | 2 =>
      if !(if q.coll then tlStatw d else tcStatw d) then setStd s (fun x => { x with phase := 3 })
      else if !postedDone s c k true then s
      else stdStatus s (if q.coll then tlStat d else tcStat d)
    | 11 => stdCopy s d
    | 3 => teRetire s c k q (fun x => x)
    | _ =>
      if q.coll then
        if s.gcyc < te.stdSt.floor then s else
        let n := collStartCause s c k d
        if n ≠ 0 then teFault s n 0 else setStd s (fun x => { x with phase := 12 })
      else setStd s (fun x => { x with phase := 11, left := [(0, tcTotal d)] })

/-! ## The base (R300) -/

/-- TEPHRA_BASE_INSTRUCTION: the instruction in the latch. (Log 34: PRESUMED.) -/
def execTephraBaseInstruction (s : State) : Out :=
  let te := myTe s
  let len := s.cur.rvLen
  let put := fun (rd : Nat) (v : W32) => modTe s (fun te => stepPc (putX te rd v) len)
  .next (match s.cur.rv with
    | .lui rd imm => put rd (BitVec.ofNat 32 imm)
    | .auipc rd imm => put rd (BitVec.ofNat 32 (te.pc + imm))
    | .jal rd off =>
      modTe s (fun te => { putX te rd (BitVec.ofNat 32 (te.pc + len)) with pc := (te.pc + off) % 2 ^ 32 })
    | .jalr rd rs1 off =>
      let t := ((getX te rs1).toNat + off) % 2 ^ 32 / 2 * 2
      modTe s (fun te => { putX te rd (BitVec.ofNat 32 (te.pc + len)) with pc := t })
    | .branch c rs1 rs2 off =>
      if rvHolds c (getX te rs1) (getX te rs2) then modTe s (fun te => { te with pc := (te.pc + off) % 2 ^ 32 })
      else modTe s (fun te => stepPc te len)
    | .load z rd rs1 off =>
      let a := ((getX te rs1).toNat + off) % 2 ^ 32
      withDmem s a (rvBytes z) (fun te => putX te rd (rvExtend z (dmemNat te a (rvBytes z))))
    | .store z rs1 rs2 off =>
      let a := ((getX te rs1).toNat + off) % 2 ^ 32
      withDmem s a (rvBytes z) (fun te => putDmem te a (leBytes (rvBytes z) (getX te rs2).toNat))
    | .opImm o rd rs1 imm => put rd (rvAlu o (getX te rs1) (BitVec.ofNat 32 imm))
    | .op o rd rs1 rs2 => put rd (rvAlu o (getX te rs1) (getX te rs2))
    | .fence => modTe s (fun te => stepPc te len)
    | .illegal => teFault s 0x85 0
    | .stdImage => stdStep s)

/-! ## A cycle of a tephra core (R306) -/

/-- The next instruction in place of one that faulted. -/
def teSkip (te : Tephra) : Tephra :=
  if te.std then
    { te with value := none
              stdSt := (if te.stdSt.phase = 11 then { te.stdSt with begun := false } else { te.stdSt with index := te.stdSt.index + 1 }) }
  else stepPc { te with value := none } (insLen te)

/-- What a reply does to a core that waits for one: RETRY executes the instruction again, RESUME goes on with the next, ERROR
halts the core (R306), which keeps the reply: the front end's copy on it ends with it (R373). (Log 36: DEDUCED.) -/
def teReplied (te : Tephra) (r : Reply) : Tephra :=
  let t := { te with wait := .none, reply := none, serving := none, missed := none }
  if r.kind = 3 then { t with fault := r.value.toNat % 256, reply := some r }
  else if te.wait = .translation then (if r.kind = 0 then t else teSkip t)
  else if te.wait = .delivery then
    if te.fault ≠ 0 then (if te.std || r.kind = 0 then { t with fault := 0 } else teSkip { t with fault := 0 })
    else
      match te.serving with
      | some f => if f.pos = 1 ∧ r.kind ≠ 0 then teSkip t else t
      | none => t
  else t

/-- Posts the first delivery fault and waits. (Log 36: DEDUCED.) -/
def tePostFault (s : State) (c k : Nat) (f : FaultRec) : State :=
  modTephra (postTephra s c k 1 f.cause [f.addr.toNat % 2 ^ 64, f.aword]) c k (fun te =>
    { te with wait := .delivery, serving := some f, faults := te.faults.drop 1 })

/-- Fetches and executes the instruction at the pc of tephra core `k`. -/
def teFetch (ex : Instr → State → Out) (s : State) (te : Tephra) : Out :=
  if te.imemBad then .next (teFault s 0x85 0)
  else if te.std then ex .tephraBaseInstruction { s with cur := { s.cur with rv := .stdImage } }
  else if 0x8000 < te.pc + insLen te then .next (teFault s 0x85 0)
  else
    let x := insWord te
    if x % 128 = 0x0B ∨ x % 128 = 0x2B then
      match decodeT x with
      | .ok i => ex i s
      | .bad c => .next (teFault s c 0)
    else ex .tephraBaseInstruction { s with cur := { s.cur with rv := rvDecode x, rvLen := insLen te } }

/-- A cycle of tephra core `k` of core `c`. (Log 34: PRESUMED.) -/
def tephraTurn (ex : Instr → State → Out) (s : State) (c k : Nat) : Out :=
  let s0 := { s with cur := { core := c, slot := 8 + k } }
  let te := tephra s c k
  if te.saveWait then .next s
  else if te.wait = .translation ∨ te.wait = .delivery then
    match te.reply with
    | none => .next s
    | some r => .next (modTephra s c k (fun te => teReplied te r))
  else if te.fault ≠ 0 then .next s
  else if te.wait = .none ∧ te.pending = none ∧ te.value = none ∧ te.faults ≠ [] then
    match te.faults with
    | f :: _ => .next (tePostFault s0 c k f)
    | [] => .next s
  else teFetch ex s0 te

end Sys2Proof.Machine
end

