-- ==== Sys2Proof/Machine/Context.lean ====
section
/-! DEFINITION. Saving and restoring contexts (R320, R337 to R344): the save turn, the image in the context region and the
save area, whole gangs, and the return to rotation. -/

namespace Sys2Proof.Machine

/-! ## The image of a thread (R343, Tables 14.11, 14.12) -/

/-- Pieces of an image: an offset, a number of bytes and their value. -/
abbrev Piece := Nat × Nat × Nat

/-- Bytes as one piece. -/
def piece (ofs : Nat) (b : List Nat) : Piece := (ofs, b.length, leNat b)

/-- Writes an image of `len` bytes at `base`: zero where no piece lies. Compressed pages are expanded first (R219); no
full/empty bit changes (Table 8.2). -/
def writePieces (s1 : State) (base len : Nat) (l : List Piece) : State :=
  let s := expandRange s1 base len
  let s0 := { s with mem := tclear s.mem base len }
  clearPoison (l.foldl (fun x p => putNat x (base + p.1) p.2.1 p.2.2) s0) base len

/-- A register of 128 lanes in the spill layout. -/
def spillImage (ofs : Nat) (f : Nat → Lane) : List Piece :=
  (List.range 8).map (fun c => piece (ofs + 80 * c) (spillCluster ((List.range 16).map (fun i => f (16 * c + i)))))

/-- STATE of Table 14.11. -/
def stateCode (t : TState) : Nat := match t with | .run => 0 | .fetch => 1 | .block => 2 | .halt => 3 | _ => 4

def waitCode (th : Thread) : Nat :=
  match th.wait with
  | .translation => 1
  | .delivery => 2
  | _ => if th.mboxReq.isSome then 3 else 0

/-- The reply that an image holds: its kind or 0xFF, and its value. -/
def replyCode (th : Thread) : Nat × Nat :=
  match (if th.reply.isSome then th.reply else th.mboxReply) with
  | some r => (r.kind, r.value.toNat)
  | none => (0xFF, 0)

def halfCode (h : Option Half) : Nat := match h with | some h => 2 ^ 31 + h.seg | none => 0

/-- XHALF and XREM. -/
def expansion (th : Thread) : Nat × Nat :=
  match th.half0, th.half1 with
  | some h, k => if h.left ≠ 0 then (0, h.left) else (match k with | some k => if k.left ≠ 0 then (1, k.left) else (0xFF, 0) | none => (0xFF, 0))
  | none, some k => if k.left ≠ 0 then (1, k.left) else (0xFF, 0)
  | none, none => (0xFF, 0)

/-- The M word of a repeat's command (R295). -/
def repeatWord (r : Repeat) : Nat := match r.cmd with | some c => (shape c.1).word + c.2 | none => 0

/-- The region part. -/
def regionPart (th : Thread) : List Piece :=
  let x := expansion th
  let lces := (List.range 6).map (fun i =>
    let e := tget ({} : LoopEntry) th.lces i
    e.lstart.toNat * 2 ^ 33 + e.lepi.toNat * 2 ^ 29 + e.lcnt.toNat)
  (List.range th.nv).flatMap (fun n => spillImage (640 * n) (fun l => tget laneZero th.vregs (128 * n + l)))
  ++ (List.range 64).map (fun n => (0x7800 + 8 * n, 8, (tget sZero th.sregs n).body.toNat))
  ++ [(0x7A00, 16, ((List.range 64).map (fun n => (tget sZero th.sregs n).tail.toNat * 4 ^ n)).sum)]
  ++ (List.range 16).map (fun n => (0x7A10 + 16 * n, 16, (tget 0 th.aregs n).toNat))
  ++ (List.range 48).map (fun n => (0x7B10 + 16 * n, 16, (if n = 0 then BitVec.allOnes 128 else tget 0 th.pregs n).toNat))
  ++ [(0x7E10, 8, th.ttc), (0x7E18, 1, stateCode (if th.st = .done then .done else th.savedSt)), (0x7E19, 1, waitCode th), (0x7E1A, 1, if th.hact then 1 else 0),
      (0x7E1C, 2, if waitCode th = 3 then th.mboxTicket else th.ticket), (0x7E1E, 1, (replyCode th).1)]
  ++ [piece 0x7E20 [th.flags, th.ften, th.trapc, th.srb, th.vrb, th.prb, th.lsd, th.nv], (0x7E28, 8, th.trapa)]
  ++ ((List.range 6).zip lces).map (fun p => (0x7E30 + 8 * p.1, 8, p.2))
  ++ [(0x7E60, 8, th.next), (0x7E68, 4, halfCode th.half0), (0x7E6C, 4, halfCode th.half1),
      piece 0x7E70 [x.1, x.2, th.curHalf, (match th.pin with | some p => p.n | none => 0)],
      (0x7E74, 4, match th.pin with | some p => p.seg * 32 + p.idx | none => 0)]
  ++ (match th.mrep with
      | some r => [(0x7E78, 2, r.left), (0x7E80, 8, r.a.toNat), (0x7E88, 8, r.b), (0x7E90, 8, r.inc.toNat), (0x7E98, 4, repeatWord r)]
      | none => [(0x7E78, 2, 0), (0x7E80, 8, 0), (0x7E88, 8, 0), (0x7E90, 8, 0), (0x7E98, 4, 0)])
  ++ (List.range 4).map (fun b => (0x7EA0 + 8 * b, 8,
      let p := tget 0 th.arrivals b
      if p = 0 then 0 else 2 ^ 32 + (p - 1) % 2 ^ 32))
  ++ [(0x7EC0, 8, (replyCode th).2)]
  ++ (match th.mboxReq with
      | some r => [(0x7EC8, 8, r.1.toNat), (0x7ED0, 8, r.2.toNat)]
      | none => [(0x7EC8, 8, 0), (0x7ED0, 8, 0)])

/-- A small landing: CLASS, register number and value pieces, `none` for lanes. -/
def smallLanding (a : LandAct) : Option (Nat × Nat × List Piece) :=
  match a with
  | .nothing => some (0, 0, [])
  | .sreg n v => some (0, n, [(16, 8, v.body.toNat), (24, 1, v.tail.toNat)])
  | .preg n v m => some (1, n, [(16, 16, v.toNat), (32, 16, m.toNat)])
  | .areg n v => some (2, n, [(16, 16, v.toNat)])
  | .sys n v => some (if n = 0x019 then 4 else 3, n, [(16, 8, v.toNat)])
  | .trap c a => some (3, 0x014, [(16, 8, c), (24, 8, a)])
  | .lce n e => some (4, n, [(16, 8, e.lstart.toNat * 2 ^ 33 + e.lepi.toNat * 2 ^ 29 + e.lcnt.toNat)])
  | .fma n f a b _ => some (if f = .f64 then 5 else 6, n, [(16, 8, a.body), (24, 8, b.body), (32, 2, a.tail + 256 * b.tail)])
  | .ins n a pos wid => some (7, n, [(16, 8, a.toNat), (24, 2, pos + 256 * wid)])
  | .movaHi n v => some (8, n, [(16, 1, v.toNat)])
  | .lanes _ _ => none

/-- Moves pieces. -/
def shiftPieces (o : Nat) (l : List Piece) : List Piece := l.map (fun p => (o + p.1, p.2.1, p.2.2))

/-- The clusters that a vector landing writes. -/
def clusterMask (ls : List (Nat × Lane)) : Nat :=
  ((List.range 8).map (fun c => if ls.any (fun p => p.1 / 16 = c) then 2 ^ c else 0)).sum

/-- Entry `k` of the vector landings, `r` turns from its end. -/
def vecLanding (k r : Nat) (l : Landing) (n : Nat) (ls : List (Nat × Lane)) : List Piece :=
  shiftPieces (0x40 + 672 * k)
    ([piece 0 [n, clusterMask ls, r, l.pos], (4, 4, l.issued % 2 ^ 32), (8, 1, l.flags),
      (16, 16, (ls.map (fun p => 2 ^ p.1)).sum)]
      ++ spillImage 32 (fun i => (tfind ls i).getD laneZero))

/-- The values of far accesses that arrived and have not landed, with their landings (R338, R343). -/
def farLanded (th : Thread) : List (Landing × Nat × Addr × Bool) :=
  th.lands.filterMap (fun l => l.far.map (fun f => (l, f)))

/-- The landings of a thread saved at TTC `k` but those of far accesses: those of vectors, and the others.
(Log 40: DESIGN CHOICE.) -/
def landingPieces (th : Thread) : List Piece × Nat × Nat :=
  (th.lands.filter (fun l => l.far.isNone)).foldl (fun acc l =>
    match l.act, smallLanding l.act with
    | .lanes n ls, _ => (acc.1 ++ vecLanding acc.2.1 (l.due - th.ttc) l n ls, acc.2.1 + 1, acc.2.2)
    | _, some x =>
      (acc.1 ++ shiftPieces (0x17E0 + 48 * acc.2.2)
        ([(0, 1, x.1), (1, 2, x.2.1), (3, 1, l.due - th.ttc), (4, 1, l.pos), (5, 1, l.flags), (8, 4, l.issued % 2 ^ 32)] ++ x.2.2),
       acc.2.1, acc.2.2 + 1)
    | _, none => acc) ([], 0, 0)

/-- A far access to be sent again. -/
def farPieces (k : Nat) (f : Flight) : List Piece :=
  shiftPieces (0x1F60 + 32 * k)
    [piece 0 [1, bitsAt f.aword 8 7, bitsAt f.aword 15 6, bitsAt f.aword 21 6, f.dest.getD 0, f.operand.tail, f.oflags,
        if f.rx then 1 else 0],
     (8, 9, f.addr.toNat), (24, 8, if f.op = .atom then f.operand.body else leNat (f.data.take 8))]

/-- A far value that arrived (KIND 2). -/
def landedPieces (k : Nat) (p : Landing × Nat × Addr × Bool) : List Piece :=
  let w := p.2.1
  let v := match p.1.act with | .sreg n v => (n, v) | _ => (0, sZero)
  shiftPieces (0x1F60 + 32 * k)
    [piece 0 [2, bitsAt w 8 7, bitsAt w 15 6, bitsAt w 21 6, v.1, v.2.tail.toNat, p.1.flags, if p.2.2.2 then 1 else 0],
     (8, 9, p.2.2.1.toNat), (24, 8, v.2.body.toNat)]

/-- The extension; `q`: the receive queues are saved too. (Log 40: DESIGN CHOICE.) -/
def extensionPart (th : Thread) (far : List Flight) (q : Bool) : List Piece :=
  let l := landingPieces th
  let occ := fun (n : Nat) => (tget ({} : RecvQueue) th.queues n).words.length
  let got := farLanded th
  [piece 0 [l.2.1, l.2.2, far.length + got.length], piece 4 [occ 0, occ 1, occ 2, occ 3], (8, 1, if q then 1 else 0)] ++ l.1
  ++ ((List.range far.length).zip far).flatMap (fun p => farPieces p.1 p.2)
  ++ ((List.range got.length).zip got).flatMap (fun p => landedPieces (far.length + p.1) p.2)
  ++ (if q then (List.range 4).flatMap (fun n =>
        ((List.range 4).zip (tget ({} : RecvQueue) th.queues n).words).map (fun p =>
          piece (0x2180 + 320 * n + 80 * p.1) (spillCluster p.2.lanes))) else [])

/-- The base of a core's rank block in its gang's save area (R344). -/
def rankBlock (g : Gang) (c : Nat) : Nat := g.savb + rankIn g c * 0x400000

/-- The far accesses of a thread to send again. -/
def cancelled (s : State) (c t : Nat) : List (Nat × Flight) := (flightsOf s c t).filter (fun p => p.2.cancelled)

/-- The mark, in the core's place, of the accesses of a core that its gang's save freed: those that were cancelled, and those
that await their end-to-end acknowledgement. -/
def awayMark (n c : Nat) : Nat := 2 ^ 32 * (n + 1) + c

/-- Moves the accesses of a gang from one place to another. -/
def moveFlights (s : State) (src dst : Nat) : State :=
  { s with flights := s.flights.map (fun p => (p.1, if p.2.core = src ∧ !p.2.gone then { p.2 with core := dst } else p.2)) }

/-- The gang that was saved with HOLD 0 from a core that is still free. (Log 40: DESIGN CHOICE.) -/
def savedAway (s : State) (c : Nat) : Option Nat :=
  if (core s c).gang.isSome then none
  else (s.gangs.find? (fun p => p.2.savedAll && !p.2.hold && inRect p.2 (dieOf c) (colOf c) (rowOf c))).map (fun p => p.1)

/-- Where the accesses of core `c` itself stand while the image of another gang is in its place. -/
abbrev asideMark (c : Nat) : Nat := awayMark (2 ^ 20) c

/-- The state with the image of core `c` of gang `n` in its place, to read it. (Log 42: DEDUCED.) -/
def viewGang (s : State) (n c : Nat) : State :=
  setCore (moveFlights (moveFlights s c (asideMark c)) (awayMark n c) c) c (tget {} (gang s n).image (rankIn (gang s n) c))

/-- The state with the image of a freed core in its place, to read it. (Log 42: DEDUCED.) -/
def viewImage (s : State) (c : Nat) : State :=
  match savedAway s c with
  | none => s
  | some n => viewGang s n c

/-- What `f` does to the image of core `c` of gang `n`; what the core itself holds by now stays. (Log 42: DEDUCED.) -/
def onGang (s : State) (n c : Nat) (f : State → State) : State :=
  let s1 := f (viewGang s n c)
  let s2 := modGang s1 n (fun g => { g with image := tset g.image (rankIn g c) (core s1 c) })
  setCore (moveFlights (moveFlights s2 c (awayMark n c)) (asideMark c) c) c (core s c)

/-- An event that reaches a saved thread of a freed core acts on its image (R341): what `f` does there. (Log 42: DEDUCED.) -/
def onImage (s : State) (c : Nat) (f : State → State) : State :=
  match savedAway s c with
  | none => f s
  | some n => onGang s n c f

/-- Writes the image of thread (c, t). The region part is in the core's context region, or in the rank's block once the
cores are freed (R342); the receive queues stay in the extension of a thread saved with its gang. -/
def writeImage (s : State) (c t : Nat) (q : Bool) : State :=
  match gangOf s c with
  | none => s
  | some g =>
    let th := thread s c t
    let b := if g.savedAll && !g.hold then keyOf s (rankBlock g c) else scratch c
    let s1 := writePieces s (b + 0x1C0000 + 0x8000 * t) 0x8000 (regionPart th)
    writePieces s1 (keyOf s (rankBlock g c + 0x200000 + 0x3000 * t)) 0x3000
      (extensionPart th ((cancelled s c t).map (fun p => p.2)) (q || g.savedAll))

/-- Whether a piece stands in memory at a base. -/
def pieceStands (s : State) (base : Nat) (p : Piece) : Bool := getNat s (base + p.1) p.2.1 = p.2.2 % 256 ^ p.2.1

/-- Whether the image of a saved thread in memory is as it was written: every field of it, but neither the registers at or above
NV nor a reserved byte, which CTXLD ignores (R343), nor the receive queues, whose words go on arriving (R340). (Log 40: DESIGN CHOICE.) -/
def imageIntact (s : State) (c t : Nat) : Bool :=
  match gangOf s c with
  | none => true
  | some g =>
    let th := thread s c t
    let b := (if g.savedAll && !g.hold then keyOf s (rankBlock g c) else scratch c) + 0x1C0000 + 0x8000 * t
    let e := keyOf s (rankBlock g c + 0x200000 + 0x3000 * t)
    (regionPart th).all (pieceStands s b)
      && (extensionPart th ((cancelled s c t).map (fun p => p.2)) false).all (fun p => (4 ≤ p.1 && p.1 ≤ 8) || pieceStands s e p)

/-- Free values in the place of a landing of a changed image: it may be gone, or land another value. (Log 91: DESIGN CHOICE.) -/
def freeLanding (w : Nat → Nat) (i : Nat) (l : Landing) : Option Landing :=
  let v := w i
  let act : LandAct := match l.act with
    | .sreg n _ => .sreg n { body := BitVec.ofNat 64 v, tail := BitVec.ofNat 2 (v / 2 ^ 64) }
    | .areg n _ => .areg n (BitVec.ofNat 72 v)
    | .preg n _ m => .preg n (BitVec.ofNat 128 v) m
    | .lanes n ls => .lanes n (((List.range ls.length).zip ls).map (fun p =>
        (p.2.1, { data := BitVec.ofNat 32 (v / 2 ^ (40 * p.1)), tail := BitVec.ofNat 8 (v / 2 ^ (40 * p.1 + 32)) })))
    | a => a
  if v % 2 = 0 then none else some { l with due := l.due + v / 2 % 64, act := act, flags := v / 128 % 32 }

/-- The registers, the loop stack, the landings and the next bundle of a thread whose image software changed: free values (R9,
R343). (Log 91: DESIGN CHOICE.) -/
def freeThread (s : State) (c t : Nat) : State :=
  let d := drawWords s 20000
  let w := fun (i : Nat) => d.1.getD i 0
  modThread d.2 c t (fun th =>
    { th with
      sregs := (List.range 63).map (fun n => (n + 1, { body := BitVec.ofNat 64 (w n), tail := BitVec.ofNat 2 (w (64 + n)) }))
      aregs := (List.range 16).map (fun n => (n, BitVec.ofNat 72 (w (128 + n))))
      pregs := (List.range 47).map (fun n => (n + 1, BitVec.ofNat 128 (w (144 + n))))
      vregs := (List.range (128 * th.nv)).map (fun n =>
        (n, { data := BitVec.ofNat 32 (w (192 + n)), tail := BitVec.ofNat 8 (w (6400 + n)) }))
      lces := (List.range 6).map (fun i => (i, { lstart := BitVec.ofNat 29 (w (6360 + i)), lepi := BitVec.ofNat 4 (w (6366 + i)),
                                                 lcnt := BitVec.ofNat 29 (w (6372 + i)) }))
      lsd := w 6378 % 7, srb := w 6379 % 32, vrb := w 6380 % (max 1 (th.nv - 16)), prb := w 6381 % 16
      ften := w 6382 % 32, trapc := w 6383 % 256, trapa := w 6384 % 2 ^ 29, ttc := w 6385 % 2 ^ 64, hact := w 6386 % 2 = 1
      flags := w 6390 % 32, next := w 6391 % 2 ^ 29
      lands := ((List.range th.lands.length).zip th.lands).filterMap (fun p => freeLanding w (12800 + p.1) p.2) })

/-! ## Saving a thread (R337, R338) -/

/-- The state in which a thread is in its save turn: one whose next bundle is not yet issuable is in FETCH (R21, R358). -/
def saveState (s : State) (c : Nat) (th : Thread) : TState :=
  if th.st = .run ∨ th.st = .fetch ∨ th.st = .out then
    (match findHalf th (th.next / 32) with
     | some h => if (halfOf th h).any (fun x => x.left ≠ 0) then .fetch else .run
     | none => if inStore (th.next / 32) && (expand s c (th.next / 32)).bundles.isSome then .fetch else .run)
  else th.st

/-- Cancels the accesses of a party that wait in retry lists. -/
def cancelWaiting (s : State) (c who : Nat) : State :=
  ((outstanding s c who).filter (fun p => (p.2.st = .waiting || p.2.st = .refused) && cancels s p.1 p.2)).foldl
    (fun x p => sendCancel x p.1) s

/-- CONTEXT_SAVE_TURN: the save turn of thread (args 0, args 1). -/
def execContextSaveTurn (s : State) : Out :=
  let c := arg s 0
  let t := arg s 1
  if (thread s c t).saveReq then
    let s1 := modThread s c t (fun th => { th with saveReq := false, saving := true, st := saveState s c th })
    .next (checkSaved (postWhileSaving (cancelWaiting s1 c t) c t) c t)
  else .next s

/-- A thread whose image is complete; a TRET or HALT.end that came while it was written acts on the image (R341). (Log 41: DEDUCED.) -/
def savedThread (th : Thread) : Thread :=
  let x := { th with st := .saved, saving := false }
  if th.endReq then { x with savedSt := .done, endReq := false }
  else
    match th.st, th.resume with
    | .halt, some a => { x with savedSt := .run, next := a, resume := none }
    | _, _ => { x with savedSt := th.st }

/-- The image is complete: the thread is SAVED. -/
def becomeSaved (s : State) (c t : Nat) : State := writeImage (modThread s c t savedThread) c t false

/-! ## Whole gangs (R320, R342, Table 14.13) -/

/-- The words of an engine command. -/
def commandBytes (q : EngCmd) : List Nat :=
  leBytes 8 q.aval ++ leBytes 8 q.sync ++ leBytes 8 q.mword ++ q.desc.flatMap (leBytes 8)

/-- The MCMD port of a core: its requests that await their replies, each as address, core, slot, issue turn, position and
record. -/
def portRequests (s : State) (c : Nat) : List (List Nat) :=
  (s.agenda.filter (fun e => e.instr = .mcmdRequestArrival && e.args.getD 1 0 = c)).map (fun e => e.args)

/-- The pieces of a matrix engine and the core's small state, at 0x21_8000 and up. (Log 40: DESIGN CHOICE.) -/
def corePieces (s : State) (g : Gang) (c : Nat) : List Piece :=
  let k := core s c
  let e := k.eng
  let first : Bool := rankIn g c % (g.cols * g.rows) = 0
  k.sems.map (fun p => (0x218000 + 2 * p.1, 2, p.2))
  ++ k.tagPtr.map (fun p => (0x218200 + p.1, 1, p.2))
  ++ e.rings.map (fun p => (0x218280 + 16 * p.1, 16, p.2.base + p.2.nslot * 2 ^ 32 + p.2.slotb * 2 ^ 48 + p.2.head * 2 ^ 80 + p.2.tail * 2 ^ 96))
  ++ [(0x218380, 8, statusWord e), (0x218388, 1, e.tint)]
  ++ (if first then (List.range 4).map (fun b => (0x218400 + 16 * b, 16, tget 0 g.gens b + tget 0 g.arrived b * 2 ^ 64))
        ++ [(0x218440, 8, tget 0 g.counters (dieIndex g (dieOf c)))] else [])
  ++ k.tags.map (fun p => (0x219000 + 16 * p.1, 16, p.2.key.toNat + (if p.2.v then 2 ^ 64 else 0) + (if p.2.f then 2 ^ 65 else 0)))
  ++ e.tiles.map (fun p => (0x220000 + p.1 / 16384 * 0x14000 + 4 * (p.1 % 16384), 4, p.2.data.toNat))
  ++ e.tiles.map (fun p => (0x220000 + p.1 / 16384 * 0x14000 + 0x10000 + p.1 % 16384, 1, p.2.tail.toNat))
  ++ e.weights.map (fun p => (0x270000 + 2 * p.1, 2, p.2)) ++ e.wshared.map (fun p => (0x278000 + 2 * p.1, 2, p.2))
  ++ [(0x278400, 3, e.wfmt + e.wk * 2 ^ 8 + e.wn * 2 ^ 16)]
  ++ ((List.range e.queue.length).zip e.queue).map (fun p =>
      piece (0x279000 + 128 * p.1) (commandBytes p.2))
  ++ ((List.range e.inbound.length).zip e.inbound).map (fun p =>
      piece (0x279000 + 128 * (e.queue.length + p.1)) (commandBytes p.2.2.1 ++ leBytes 8 p.2.2.2))
  ++ ((List.range (portRequests s c).length).zip (portRequests s c)).map (fun p =>
      piece (0x279000 + 128 * (e.queue.length + e.inbound.length + p.1)) (p.2.flatMap (leBytes 8)))

/-- The words of a tephra command. -/
def teCmdBytes (q : TeCmd) : List Nat := (q.desc ++ [q.sync]).flatMap (leBytes 8) ++ [cmdKind q]

/-- The pieces of tephra core `k`. (Log 40: DESIGN CHOICE.) -/
def tephraPieces (te : Tephra) (k : Nat) : List Piece :=
  shiftPieces (0x280000 + 0x10000 * k)
    (te.dmem.map (fun p => (p.1 - 0x10000, 1, p.2.toNat)) ++ te.x.map (fun p => (0x8000 + 4 * p.1, 4, p.2.toNat))
      ++ [(0x8080, 4, te.pc)] ++ te.fa.map (fun p => (0x8088 + 16 * p.1, 16, p.2.toNat))
      ++ [(0x8108, 8, te.rm + (if te.satf then 16 else 0) + te.gcycHi * 2 ^ 32)]
      ++ (match te.cur with | some q => [piece 0x8110 (teCmdBytes q)] | none => [])
      ++ [piece 0x81A0 [te.stdSt.phase, te.stdSt.flags, if te.stdSt.begun then 1 else 0], (0x81A8, 8, te.stdSt.index),
          piece 0x8800 ((te.stdSt.left.take 512).flatMap (fun r => leBytes 24 r.1 ++ leBytes 24 r.2))]
      ++ ((List.range te.queue.length).zip te.queue).map (fun p => piece (0x8200 + 160 * p.1) (teCmdBytes p.2))
      ++ (match te.cancelled with
          | some a => [(0x8700, 4, a.1 % 2 ^ 32), (0x8708, 9, a.2.1.toNat), (0x8718, 8, a.2.2 % 2 ^ 64)]
          | none => []))

/-- A tephra core that waits for a reply is saved at its instruction, which executes again on resumption: it awaits that
reply no more, and a fault of a posted access is met afresh (R320, R244). (Log 36: DEDUCED.) -/
def stallSaved (te : Tephra) : Tephra :=
  if te.wait = .none then te
  else
    { te with
      wait := .none, reply := none, missed := none, serving := none
      fault := if te.fault = 0x82 ∨ te.fault = 0xA2 then 0 else te.fault
      faults := (match te.serving with | some f => if f.pos = 1 then [] else [f] | none => []) ++ te.faults }

/-- Whether an MCMD of core `c` has a reply on its way, or lies at a core outside its gang. (Log 39: DESIGN CHOICE.) -/
def mcmdAbroad (s : State) (g : Gang) (c : Nat) : Bool :=
  s.agenda.any (fun e => e.instr = .mcmdReplyArrival && e.args.getD 0 0 = c)
    || s.agenda.any (fun e => e.instr = .mcmdRequestArrival && e.args.getD 1 0 = c
        && !(coresOf g).contains (meshCore (BitVec.ofNat 72 (e.args.getD 0 0))))
    || s.cores.any (fun p => !(coresOf g).contains p.1
        && (p.2.eng.queue.any (fun q => q.core = c) || p.2.eng.inbound.any (fun x => x.2.1.core = c)))

/-- Moves the MCMD requests on their way from one place to another. (Log 43: DEDUCED.) -/
def moveRequests (s : State) (src dst : Nat) : State :=
  { s with agenda := s.agenda.map (fun e =>
      if e.instr = .mcmdRequestArrival ∧ e.args.getD 1 0 = src then { e with args := e.args.set 1 dst } else e) }

/-- Whether a core of a gang that is being saved is quiet. (Log 39: DESIGN CHOICE.) -/
def coreQuiet (s : State) (g : Gang) (c : Nat) : Bool :=
  let k := core s c
  (slotsOf g.slotm).all (fun t =>
      (thread s c t).st = .saved || (thread s c t).st = .done && (outstanding s c t).isEmpty)
    && (!k.eng.running || k.eng.fault ≠ 0) && k.port = [] && k.waits = []
    && (outstanding s c 8).isEmpty && (outstanding s c 9).isEmpty && (g.hold || !mcmdAbroad s g c)
    && !s.agenda.any (fun e => e.instr = .channelWordArrival && e.args.getD 0 0 = c)

/-- Copies the bytes of a scratchpad to another place in memory; compressed pages there are expanded first (R219), and every
unit that is written loses its poison. -/
def moveScratch (s1 : State) (src dst : Nat) : State :=
  let n := 0x200000
  let s := expandRange s1 dst n
  { s with mem := tmerge memDefault (tclear s.mem dst n) (tslice s.mem src n dst), poison := tclear s.poison dst n }

/-- The full/empty bits and the poison of a scratchpad at `a`: no field of the save area holds them, and the DRAM there keeps
its own (Table 8.2). (Log 85: DESIGN CHOICE.) -/
def scratchBits (s : State) (a : Nat) : Tab Bool × Tab Bool :=
  (tslice s.empty (a / 4) 0x80000 0, tslice s.poison a 0x200000 0)

/-- Puts them back. -/
def putScratchBits (s : State) (a : Nat) (b : Tab Bool × Tab Bool) : State :=
  { s with
    empty := tmerge false (tclear s.empty (a / 4) 0x80000) (tslice b.1 0 0x80000 (a / 4))
    poison := tmerge false (tclear s.poison a 0x200000) (tslice b.2 0 0x200000 a) }

/-- The pieces of a core's block from 0x21_8000 on. -/
def blockPieces (s : State) (g : Gang) (c : Nat) : List Piece :=
  (corePieces s g c ++ (core s c).tes.flatMap (fun p => tephraPieces p.2 p.1)).map (fun p => (p.1 - 0x218000, p.2.1, p.2.2))

/-- Writes the block of one core. -/
def saveCore (n : Nat) (s : State) (c : Nat) : State :=
  let g := gang s n
  let b := keyOf s (rankBlock g c)
  let s0 := modCore s c (fun k => { k with tes := k.tes.map (fun p => (p.1, stallSaved p.2)) })
  let s1 := (slotsOf g.slotm).foldl (fun x t => writeImage x c t true) s0
  let s2 := writePieces s1 (b + 0x218000) 0x1E8000 (blockPieces s1 g c)
  if g.hold then s2
  else
    let s3 := moveScratch s2 (scratch c) b
    let k := core s3 c
    let s4 := moveRequests (moveFlights (modQueue s3 g.queue (fun q => { q with charge := q.charge + chargeOf k })) c (awayMark n c))
      c (awayMark n c)
    setCore (modGang s4 n (fun g =>
      { g with
        image := tset g.image (rankIn g c) { k with activity := [] }
        kept := tset g.kept (rankIn g c) (scratchBits s2 (scratch c)) })) c { codeBad := k.codeBad, tes := stdTephras (coord s c) }

/-- CTXSV.gang reaches the cores: every thread is asked to save, the engines take no further command, the tephra cores
stop. -/
def beginGangSave (s : State) (n : Nat) (hold : Bool) : State :=
  let g := gang s n
  let s1 := modGang s n (fun g => { g with hold := hold })
  let s2 := (coresOf g).foldl (fun x c =>
    let y := modCore x c (fun k =>
      { k with
        eng := { k.eng with frozen := true }
        tes := k.tes.map (fun p => (p.1, { p.2 with saveWait := true }))
        threads := k.threads.map (fun p =>
          (p.1, if p.2.st = .vacant || p.2.st = .done || p.2.st = .saved || p.2.saving then p.2 else { p.2 with saveReq := true })) })
    let z := (slotsOf g.slotm).foldl (fun z t => if (thread z c t).st = .done then cancelWaiting z c t else z) y
    cancelWaiting (cancelWaiting z c 8) c 9) s1
  at' s2 (s.gcyc + 8) .contextSaveComplete [0x100000 + n]

/-- The last piece of a gang's save. (Log 39: DESIGN CHOICE.) -/
def finishGangSave (s : State) (n : Nat) : State :=
  match tfind s.gangs n with
  | none => s
  | some g =>
    if g.completed.isSome then s
    else if (coresOf g).all (coreQuiet s g) then
      modGang ((coresOf g).foldl (saveCore n) s) n (fun g => { g with savedAll := true })
    else at' s (s.gcyc + 8) .contextSaveComplete [0x100000 + n]

/-- CONTEXT_SAVE_COMPLETE [core, slot], or [2^20 + gang]. (Log 39: DESIGN CHOICE.) -/
def execContextSaveComplete (s : State) : Out :=
  let c := arg s 0
  let t := arg s 1
  .next (if 0x100000 ≤ c then finishGangSave s (c - 0x100000)
    else if (thread s c t).saving && (outstanding s c t).isEmpty then becomeSaved s c t else s)

/-! ## Restoring (R339, R342) -/

/-- The thread re-enters rotation; its halves are expanded again (R40), a translation fault that it waited for is met afresh, and
its cancelled accesses are sent again in its next turn. What a changed image leaves is free (R9). (Log 91: DESIGN CHOICE.) -/
def resumeThread (s0 : State) (c t : Nat) : State :=
  let s := if (thread s0 c t).st = .saved && !imageIntact s0 c t then freeThread s0 c t else s0
  let ids := (cancelled s c t).map (fun p => p.1)
  let s1 := if (thread s c t).st = .saved ∧ (thread s c t).savedSt = .done then becomeDone s c t else s
  modThread s1 c t (fun th =>
    if th.st = .done then (if ids = [] then th else { th with resend := ids })
    else if th.st ≠ .saved then th
    else
      { th with
        half0 := th.half0.map (expandAgain s c)
        half1 := th.half1.map (expandAgain s c)
        st := th.savedSt
        wait := if th.wait = .translation then .none else th.wait
        reply := if th.wait = .translation then none else th.reply
        resend := ids })

/-- What an access needs of its window. -/
def flightNeed (f : Flight) : Need :=
  match f.op with
  | .ld => .read
  | .rdw => .read
  | .atom => .atomic
  | .vat => .atomic
  | _ => .write

/-- Sends a cancelled access again (R241). Its window may have been killed and installed anew since it was cancelled (R214):
it is translated afresh, and a translation that fails is a delivery fault of the thread. (Log 92: DESIGN CHOICE.) -/
def resendOne (s : State) (id : Nat) : State :=
  match flight s id with
  | none => s
  | some f =>
    let t := translate s f.core f.addr (flightNeed f)
    if t.cause ≠ 0 then threadReply (dropFlight s id) { f with cause := t.cause }
    else
      sendHome s 0 id { f with st := .sent, cancelled := false, replied := false, arrived := false, key := t.key, win := t.win
                               raw := winRaw t.entry, home := homeOf t.key }

/-- The turn in which a resumed thread sends its cancelled accesses again. -/
def resendAll (s : State) (c t : Nat) : State :=
  match (thread s c t).resend with
  | [] => s
  | l => l.foldl resendOne (modThread s c t (fun th => { th with resend := [] }))

/-- Whether a saved gang can take its cores back. -/
def coresFree (s : State) (n : Nat) (g : Gang) : Bool :=
  (coresOf g).all (fun c => if g.hold then (core s c).gang = some n else (core s c).gang = none)

/-- Writes a program image of `n` bytes into a core's code store (R352); its bytes have no error any more. -/
def writeCode (s : State) (c : Nat) (code : Tab Byte) (n : Nat) : State :=
  modCore { s with mem := tmerge memDefault (tclear s.mem (codeStore c) n) (code.map (fun p => (codeStore c + p.1, p.2))) } c
    (fun k => { k with codeBad := k.codeBad.filter (fun a => n ≤ a) })

/-- What a changed block of the save area leaves of a core's semaphores, tags, rings, tiles, weights and tephra cores: free values
(R9). (Log 91: DESIGN CHOICE.) -/
def freeBlock (s : State) (c : Nat) : State :=
  let d := drawWords s 400000
  let w := fun (i : Nat) => d.1.getD i 0
  modCore d.2 c (fun k =>
    { k with
      sems := (List.range 256).map (fun i => (i, w i % 65536))
      tags := (List.range 1024).map (fun i => (i, { v := w (390000 + i) % 2 = 1, f := w (390000 + i) / 2 % 2 = 1
                                                    key := BitVec.ofNat 64 (w (390000 + i) / 4) }))
      tagPtr := (List.range 128).map (fun i => (i, w (389000 + i) % 8))
      eng := { k.eng with
        rings := k.eng.rings.map (fun p => (p.1,
          { p.2 with head := w (388000 + p.1) % p.2.nslot, tail := w (388100 + p.1) % p.2.nslot }))
        tiles := (List.range 65536).map (fun i =>
          (i, { data := BitVec.ofNat 32 (w (256 + i)), tail := BitVec.ofNat 2 (w (300000 + i)) }))
        weights := (List.range 16384).map (fun i => (i, w (66000 + i) % 65536))
        wshared := (List.range 512).map (fun i => (i, w (387000 + i) % 65536))
        tint := w 386000 % 2 ^ 14, nansc := w 386001 % 2 = 1, flags := w 386002 % 32 }
      tes := k.tes.map (fun p => (p.1, { p.2 with
        x := (List.range 31).map (fun i => (i + 1, BitVec.ofNat 32 (w (83000 + 32 * p.1 + i))))
        fa := (List.range 8).map (fun i => (i, BitVec.ofNat 72 (w (83100 + 8 * p.1 + i))))
        dmem := (List.range 0x8000).map (fun i => (0x10000 + i, BitVec.ofNat 8 (w (100000 + 0x8000 * p.1 + i))))
        pc := w (83200 + p.1) % 2 ^ 32, rm := w (83202 + p.1) % 5, satf := w (83204 + p.1) % 2 = 1
        gcycHi := w (83206 + p.1) % 2 ^ 32 })) })

/-- Whether the block of a core that its gang's save freed is as it was written. -/
def blockIntact (s : State) (g : Gang) (c : Nat) : Bool :=
  let b := keyOf s (rankBlock g c) + 0x218000
  tslice s.mem b 0x1E8000 0 = tslice (writePieces s b 0x1E8000 (blockPieces s g c)).mem b 0x1E8000 0

/-- The front end's copies that stand on a core whose images are written anew are queued again. (Log 47: DEDUCED.) -/
def requeueShares (s : State) (c : Nat) : State :=
  let here := (core s c).tes.flatMap (fun p => (p.2.cur.toList ++ p.2.queue).map (fun q => q.token))
  { s with front := { s.front with
      shares := s.front.shares.map (fun x =>
        if x.2.core = c ∧ x.2.ended.isNone ∧ here.contains x.1 then (x.1, { x.2 with sent := false }) else x) } }

/-- One core of a gang is restored. (Log 40: DESIGN CHOICE; log 91: DESIGN CHOICE.) -/
def restoreCore (n : Nat) (s : State) (c : Nat) : State :=
  let g := gang s n
  let s1 := if g.hold then s
    else
      let s := forsake (requeueShares s c) c (fun _ => true)
      let x := putScratchBits (moveScratch s (keyOf s (rankBlock g c)) (scratch c)) (scratch c) (tget ([], []) g.kept (rankIn g c))
      let y := setCore (writeCode (moveFlights x (awayMark n c) c) c g.code g.codeLen) c (tget {} g.image (rankIn g c))
      let z := if blockIntact (moveRequests y (awayMark n c) c) g c then y else freeBlock y c
      moveRequests z (awayMark n c) c
  let s2 := modCore s1 c (fun k =>
    { k with
      eng := { k.eng with frozen := false, mcap := g.mcap }
      tes := k.tes.map (fun p =>
        (p.1, { p.2 with saveWait := false, cancelled := none, imemBad := false })) })
  kickEngine ((slotsOf g.slotm).foldl (fun x t => resumeThread x c t) s2) c

/-- CONTEXT_RESTORE_COMPLETE [core, slot], or [2^20 + gang]. (Log 39: DESIGN CHOICE.) -/
def execContextRestoreComplete (s : State) : Out :=
  let c := arg s 0
  .next (if 0x100000 ≤ c then
      (let n := c - 0x100000
       match tfind s.gangs n with
       | none => s
       | some g =>
         if g.savedAll && coresFree s n g then
           let s1 := modGang ((coresOf g).foldl (restoreCore n) s) n (fun g => { g with savedAll := false, image := [], kept := [] })
           checkDone s1 ((coresOf g).headD 0)
         else s)
    else checkDone (resumeThread s c (arg s 1)) c)

/-! ## Acknowledgements (R341, R405) -/

/-- What an acknowledgement brings its party: poison that the far end reports is a delivery fault, and the flags of an FVATOM
that its link had answered before it performed land now. The image of a saved thread takes it (R341). (Log 27: DEDUCED.) -/
def acknowledgeParty (s : State) (id : Nat) (f : Flight) : State :=
  if f.cause = 0 && !(f.who < 8 && f.early && f.oflags ≠ 0) then s
  else if 8 ≤ f.who then tephraReply s id f
  else if (thread s f.core f.who).st = .saved && imageIntact s f.core f.who then
    writeImage (threadReply s f) f.core f.who false
  else threadReply s f

/-- END_TO_END_ACKNOWLEDGEMENT [id, cause] (R405): the access is complete at system scope. (Log 27: DEDUCED.) -/
def execEndToEndAcknowledgement (s : State) : Out :=
  let id := arg s 0
  .next (match flight s id with
    | none => s
    | some f =>
      if f.acked then s
      else
        let f1 := { f with acked := true, cause := arg s 1, core := srcCore f }
        let s1 := if f.gone then s
          else if 2 ^ 32 ≤ f.core then onGang s (f.core / 2 ^ 32 - 1) (srcCore f) (fun x => acknowledgeParty x id f1)
          else acknowledgeParty s id f1
        if f.replied then dropFlight s1 id else setFlight s1 id { f with acked := true })

end Sys2Proof.Machine
end

