-- ==== Sys2Proof/Machine/Control.lean ====
section
/-! DEFINITION. Control transfers, loops, system registers and rotating bases (R28, R31 to R33, R38, R116 to R122, R187). -/

namespace Sys2Proof.Machine

/-! ## Transfers (Table 4.7) -/

def execBr (w : SWord) (s : State) : Out := .next (jumpTo s (w.imm.getD 0 % 2 ^ 29))

def execBri (w : SWord) (s : State) : Out := .next (jumpTo s (nat s w.a % 2 ^ 29))

/-- CALL writes the return address into a15 (R13, R117). -/
def callTo (s : State) (target : Nat) : Out :=
  .next (jumpTo (landA s 15 (BitVec.ofNat 72 (following (me s) s.cur.addr))) target)

def execCallLabel (w : SWord) (s : State) : Out := callTo s (w.imm.getD 0 % 2 ^ 29)

def execCallRegister (w : SWord) (s : State) : Out := callTo s (nat s w.a % 2 ^ 29)

def execRet (s : State) : Out := .next (jumpTo s ((areg s 15).toNat % 2 ^ 29))

/-- END: the thread is DONE in its next turn (R118, Table 6.2). -/
def execEndThread (s : State) : Out := .next (modMe s (fun th => { th with ending := true, endAddr := s.cur.addr }))

def execTrap (w : SWord) (s : State) : Out := .next (trapNow s (0x10 + w.b))

/-! ## Loops -/

abbrev lceZero : LoopEntry := { lstart := 0, lepi := 0, lcnt := 0 }

/-- All ones or all zeros in a stage predicate. -/
def stage (b : Bool) : Pred := if b then BitVec.allOnes 128 else 0

/-- A stage predicate lands whole at latency 1. -/
def landStage (s : State) (j : Nat) (v : Pred) : State := land s 1 (.preg (32 + j) v (BitVec.allOnes 128)) 0

/-- LOOP with count `n` and `st` stages (R32, R120). -/
def loop (s : State) (n st : Nat) : Out :=
  let lsd := (me s).lsd
  if st = 0 ∨ 16 < st then .next (trapNow s 0x02)
  else if lsd = 6 then .next (trapNow s 0x09)
  else if 2 ^ 29 < n then .next (trapNow s 0x02)
  else
    let e : LoopEntry :=
      { lstart := BitVec.ofNat 29 (following (me s) s.cur.addr)
        lepi := if n = 0 then 0 else BitVec.ofNat 4 (st - 1)
        lcnt := BitVec.ofNat 29 (n - 1) }
    let s1 := landSys (land s 1 (.lce lsd e) 0) 0x019 (BitVec.ofNat 64 (lsd + 1))
    .next ((List.range st).foldl (fun x j => landStage x j (stage (j = 0 && n != 0))) s1)

def execLoopRegister (w : SWord) (s : State) : Out := loop s (nat s w.a) w.d

def execLoopImmediate (w : SWord) (s : State) : Out := loop s (w.imm.getD 0) w.d

/-- LEND (R33). -/
def execLend (s : State) : Out :=
  let th := me s
  if th.lsd = 0 then .next (trapNow s 0x0A)
  else
    let e := tget lceZero th.lces (th.lsd - 1)
    let s1 := landSys s 0x016 (BitVec.ofNat 64 ((th.srb + 1) % 32))
    let s2 := landSys s1 0x018 (BitVec.ofNat 64 ((th.prb + 1) % 16))
    let s3 := if 16 < th.nv then landSys s2 0x017 (BitVec.ofNat 64 ((th.vrb + 1) % (th.nv - 16))) else s2
    let again : Bool := e.lcnt ≠ 0 || e.lepi ≠ 0
    let e' : LoopEntry :=
      if e.lcnt ≠ 0 then { e with lcnt := e.lcnt - 1 } else if e.lepi ≠ 0 then { e with lepi := e.lepi - 1 } else e
    let s4 := if again then jumpTo (land s3 1 (.lce (th.lsd - 1) e') 0) e.lstart.toNat
      else landSys s3 0x019 (BitVec.ofNat 64 (th.lsd - 1))
    let s5 := landStage s4 0 (stage (e.lcnt ≠ 0))
    .next ((List.range 15).foldl (fun x j => landStage x (j + 1) (tget 0 th.pregs (32 + j))) s5)

/-- LPIN (R38): the range must lie within the current segment and its successor. -/
def execLpin (w : SWord) (s : State) : Out :=
  let th := me s
  match halfOf th th.curHalf with
  | none => .next (trapNow s 0x0B)
  | some h =>
    let n := w.b + 1
    let idx := s.cur.addr % 32 + 1
    let p : Pin := { seg := h.seg, idx := idx, len := h.len, n := n, succ := h.next }
    let len2 := min (getNat s (codeStore s.cur.core + h.next) 1 % 64) 32
    if h.len < idx + n ∧ (!inStore h.next ∨ len2 < n - (h.len - idx)) then .next (trapNow s 0x0B)
    else .next (modMe s (fun th => { th with pin := some p }))

/-! ## System registers (R18, R121, R122, R193, Table 1.2, Table 14.3) -/

/-- GSHAPE (Table 7.9). -/
def gshape (g : Gang) : Nat :=
  g.nbar * 2 ^ 24 + g.slotm * 2 ^ 16 + (g.dies.length - 1) * 2 ^ 8 + (g.cols - 1) * 16 + (g.rows - 1) * 2
    + (if g.dist then 1 else 0)

/-- GORIG (Table 7.10). -/
def gorig (g : Gang) (c : Nat) : Nat :=
  dieIndex g (dieOf c) * 128 + (originOf g (dieOf c)).1 * 8 + (originOf g (dieOf c)).2

/-- A register of the gang that holds the core; zero where none does (R193). -/
def ofGang (s : State) (c : Nat) (f : Gang → Nat) : Nat :=
  match gangOf s c with
  | none => 0
  | some g => f g

/-- Table 1.5. -/
def lceNat (e : LoopEntry) : Nat := e.lstart.toNat * 2 ^ 33 + e.lepi.toNat * 2 ^ 29 + e.lcnt.toNat

/-- The value of system register `n` of thread (c, t), for the bundle at address `addr`. (Log 19: DEDUCED.) -/
def sysReg (s : State) (c t n addr : Nat) : Nat :=
  let th := thread s c t
  let v := (core s c).svc
  match n with
  | 0x000 => t
  | 0x001 => ofGang s c (fun g => rankIn g c)
  | 0x002 => ofGang s c (fun g => 8 * rankIn g c + t)
  | 0x003 => if isSvc c then noItem.toNat else th.wid.toNat
  | 0x004 => coord s c
  | 0x005 => ofGang s c gshape
  | 0x006 => ofGang s c (fun g => gorig g c)
  | 0x010 => th.flags
  | 0x011 => th.ften
  | 0x012 => th.ttc
  | 0x013 => s.gcyc % 2 ^ 64
  | 0x014 => th.trapc
  | 0x015 => th.trapa
  | 0x016 => th.srb
  | 0x017 => th.vrb
  | 0x018 => th.prb
  | 0x019 => th.lsd
  | 0x01A => addr
  | 0x01B => th.nv
  | 0x01C => 0x0111
  | 0x800 => v.inqw
  | 0x801 => v.inqr
  | 0x802 => th.pstat
  | 0x803 => v.scdrop
  | 0x804 => v.gsel
  | 0x805 => v.dbgsel.toNat
  | 0x806 => v.dbgval.toNat
  | 0x807 => v.dbgst
  | _ => if 0x020 ≤ n ∧ n ≤ 0x025 then lceNat (tget lceZero th.lces (n - 0x020)) else 0

/-- An RDS of DBGVAL blocks until the debug read that was started completes (Table 14.3). (Log 19: DEDUCED.) -/
def execRds (w : SWord) (s : State) : Out :=
  let n := w.a * 64 + w.b
  if n = 0x806 ∧ (myCore s).svc.dbgBusy then .next (blockNow s)
  else .next (landW s w.d 1 (BitVec.ofNat 64 (sysReg s s.cur.core s.cur.slot n s.cur.addr)))

/-- R121: whether a value may be written to a system register. -/
def wrsOk (s : State) (n v : Nat) : Bool :=
  let th := me s
  let k := (myCore s).svc
  match n with
  | 0x010 => v < 32
  | 0x011 => v < 32
  | 0x014 => v < 256
  | 0x015 => v < 2 ^ 29
  | 0x016 => v < 32
  | 0x017 => v < 32 && (v < th.nv - 16 || v = 0 && th.nv = 16)
  | 0x018 => v < 16
  | 0x019 => v ≤ th.lsd
  | 0x801 => v < 65536 && (v + 65536 - k.inqr) % 65536 ≤ (k.inqw + 65536 - k.inqr) % 65536
  | 0x804 => v < 2 ^ 22
  | 0x805 => v < 2 ^ 53
  | _ => v < 2 ^ 62

def execWrs (w : SWord) (s : State) : Out :=
  let n := w.d * 64 + w.b
  if wrsOk s n (nat s w.a) then .next (landSys s n (body s w.a)) else .next (trapNow s 0x02)

/-- ROTSET (R122). -/
def execRotset (w : SWord) (s : State) : Out :=
  let th := me s
  let x := nat s w.a
  let vrb := bitsAt x 8 5
  if w.b / 2 % 2 = 1 ∧ !(vrb < th.nv - 16 || vrb = 0 && th.nv = 16) then .next (trapNow s 0x02)
  else
    let s1 := if w.b % 2 = 1 then landSys s 0x016 (BitVec.ofNat 64 (bitsAt x 0 5)) else s
    let s2 := if w.b / 2 % 2 = 1 then landSys s1 0x017 (BitVec.ofNat 64 vrb) else s1
    .next (if w.b / 4 % 2 = 1 then landSys s2 0x018 (BitVec.ofNat 64 (bitsAt x 16 4)) else s2)

/-! ## Cycle gates (R187) -/

/-- The target is compared with the count of cycles, which does not wrap as RDS shows it. (Log 98: DESIGN CHOICE.) -/
def waitc (s : State) (target : Nat) : Out := if target ≤ s.gcyc then .next s else .next (blockNow s)

def execWaitcRegister (w : SWord) (s : State) : Out := waitc s (nat s w.a)

def execWaitcImmediate (w : SWord) (s : State) : Out := waitc s (w.imm.getD 0)

end Sys2Proof.Machine
end

