-- ==== Sys2Proof/Machine/Coop.lean ====
section
/-! DEFINITION. Cooperation: channels, barriers, work and semaphores (R164 to R191). -/

namespace Sys2Proof.Machine

/-! ## Channels (R170, R171, R180 to R183) -/

/-- R171: the core of the gang that a channel of thread `t` of core `c` leads to; `none` where the channel traps. -/
def neighbour (s : State) (c t ch : Nat) : Option Nat :=
  if isSvc c then none
  else
    match gangOf s c with
    | none => none
    | some g =>
      let x : Int := (colOf c : Int) + (match ch with | 1 => 1 | 3 => -1 | _ => 0)
      let y : Int := (rowOf c : Int) + (match ch with | 0 => -1 | 2 => 1 | _ => 0)
      if 0 ≤ x && x < 16 && 0 ≤ y && y < 8 && inRect g (dieOf c) x.toNat y.toNat && bitsAt g.slotm t 1 = 1 then
        some (coreNo (dieOf c) x.toNat y.toNat)
      else none

def recvQ (th : Thread) (ch : Nat) : RecvQueue := tget {} th.queues ch

/-- R170: the occupancy that a CHSEND or CHPEEK of this turn sees. -/
def occupancy (s : State) (q : RecvQueue) : Nat :=
  q.words.length + q.coming + (if q.taken = some s.gcyc then 1 else 0)

/-- A lane as an argument of an event, and back. -/
def laneArg (l : Lane) : Nat := l.tail.toNat * 2 ^ 32 + l.data.toNat
def argLane (n : Nat) : Lane := { data := BitVec.ofNat 32 n, tail := BitVec.ofNat 8 (n / 2 ^ 32) }

/-- R180: the channel word of a scalar register. -/
def scalarWord (r : SReg) : List Lane :=
  [{ data := BitVec.ofNat 32 r.body.toNat, tail := BitVec.ofNat 8 r.tail.toNat },
   { data := BitVec.ofNat 32 (r.body.toNat / 2 ^ 32), tail := 0 }] ++ List.replicate 14 laneZero

/-- The scalar register of a channel word. -/
def wordScalar (l : List Lane) : SReg :=
  { body := BitVec.ofNat 64 ((l.getD 0 laneZero).data.toNat + (l.getD 1 laneZero).data.toNat * 2 ^ 32)
    tail := BitVec.ofNat 2 (l.getD 0 laneZero).tail.toNat }

/-- CHSEND (R181): the word is in the neighbour's queue at the start of the next turn. -/
def execChsend (w : XWord) (s : State) : Out :=
  let t := s.cur.slot
  .next (match neighbour s s.cur.core t w.da with
    | none => trapNow s 0xA1
    | some n =>
      let ch := (w.da + 2) % 4
      if 4 ≤ occupancy s (recvQ (thread s n t) ch) then blockNow s
      else
        let lanes := if w.ci / 8 % 2 = 1 then (List.range 16).map (fun i => vlane s w.b (16 * (w.ci % 8) + i))
          else scalarWord (sreg s w.b)
        let s1 := modThread s n t (fun th =>
          let q := recvQ th ch
          { th with queues := tset th.queues ch { q with coming := q.coming + 1 } })
        at' s1 (s.gcyc + 8) .channelWordArrival ([n, t, ch] ++ lanes.map laneArg))

/-- CHRECV (R182). -/
def execChrecv (w : XWord) (s : State) : Out :=
  let t := s.cur.slot
  .next (match neighbour s s.cur.core t w.b with
    | none => trapNow s 0xA1
    | some _ =>
      let q := recvQ (me s) w.b
      match q.words with
      | [] => blockNow s
      | x :: r =>
        let s1 := modMe s (fun th => { th with queues := tset th.queues w.b { q with words := r, taken := some s.gcyc } })
        if w.ci / 8 % 2 = 1 then
          landV s1 w.da 1 ((List.range 16).map (fun i => (16 * (w.ci % 8) + i, x.lanes.getD i laneZero)))
        else landS s1 w.da 1 (wordScalar x.lanes))

/-- CHPEEK (R183). -/
def execChpeek (w : XWord) (s : State) : Out :=
  .next (match neighbour s s.cur.core s.cur.slot w.b with
    | none => trapNow s 0xA1
    | some _ => landW s w.da 1 (BitVec.ofNat 64 (recvQ (me s) w.b).words.length))

/-- CHANNEL_WORD_ARRIVAL [core, slot, channel, lanes]. -/
def execChannelWordArrival (s : State) : Out :=
  .next (modThread s (arg s 0) (arg s 1) (fun th =>
    let q := recvQ th (arg s 2)
    if q.coming = 0 then th
    else
      { th with queues := tset th.queues (arg s 2)
                  { q with coming := q.coming - 1, words := q.words ++ [{ lanes := (s.cur.args.drop 3).map argLane }] } }))

/-! ## Barriers (R173, R174, R185) -/

/-- Whether a thread is a member of barrier `b` of its gang. -/
def barMember (g : Gang) (t b : Nat) : Bool := b < g.nbar && bitsAt (g.bslots.getD b 0) t 1 = 1

/-- How many arrivals release a generation. -/
def barMembers (g : Gang) (b : Nat) : Nat := (slotsOf (g.bslots.getD b 0)).length * (g.cols * g.rows * g.dies.length)

/-- Whether conduits between the dies of a gang have failed (R393): its arrivals no longer meet. (Log 33: DEDUCED.) -/
def gangCut (s : State) (g : Gang) : Bool := g.dies.any (fun a => g.dies.any (fun b => conduitDown s a b))

/-- An arrival of the thread at work in the current generation, which becomes its pending arrival. (Log 33: DEDUCED.) -/
def arriveBar (s : State) (n : Nat) (g : Gang) (b : Nat) : State :=
  let gen := tget 0 g.gens b
  let k := tget 0 g.arrived b + 1
  let s1 := noteRelease s s.cur.core 0 s.cur.slot
  let s2 := modMe (modGang s1 n (fun g => { g with arrived := tput 0 g.arrived b k }))
    (fun th => { th with arrivals := tput 0 th.arrivals b (gen + 1) })
  if k = barMembers g b && !gangCut s g then
    at' s2 (s.gcyc + (if g.dies.length = 1 then 16 else 64)) .barrierRelease [n, b]
  else s2

/-- Whether the pending arrival of a thread names a generation that is not yet released. -/
def barPending (g : Gang) (th : Thread) (b : Nat) : Bool := tget 0 th.arrivals b = tget 0 g.gens b + 1

/-- The gang of the thread at work, where the thread is a member of barrier `b`. -/
def barGang (s : State) (b : Nat) : Option (Nat × Gang) :=
  match (myCore s).gang, gangOf s s.cur.core with
  | some n, some g => if barMember g s.cur.slot b then some (n, g) else none
  | _, _ => none

/-- BARA (R185). -/
def execBara (w : XWord) (s : State) : Out :=
  .next (match barGang s w.ci with
    | none => trapNow s 0xA0
    | some (n, g) =>
      if barPending g (me s) w.ci then trapNow s 0xA0
      else arriveBar (landW s w.da 1 (BitVec.ofNat 64 (tget 0 g.gens w.ci))) n g w.ci)

/-- The pre-effect of BAR: the arrival, where none is pending (R161, R185). -/
def preBar (w : XWord) (s : State) : State :=
  match barGang s w.ci with
  | none => s
  | some (n, g) => if tget 0 (me s).arrivals w.ci = 0 then arriveBar s n g w.ci else s

/-- BAR: it blocks until its pending generation is released. -/
def execBar (w : XWord) (s : State) : Out :=
  .next (match barGang s w.ci with
    | none => trapNow s 0xA0
    | some (_, g) =>
      if tget 0 (me s).arrivals w.ci = 0 || barPending g (me s) w.ci then blockNow s
      else noteAcquire (modMe s (fun th => { th with arrivals := tdel th.arrivals w.ci })) s.cur.core 0 s.cur.slot)

/-- BARRIER_RELEASE [gang, barrier]. -/
def execBarrierRelease (s : State) : Out :=
  let n := arg s 0
  let b := arg s 1
  match tfind s.gangs n with
  | none => .next s
  | some g =>
    .next (if tget 0 g.arrived b = 0 then s
      else modGang s n (fun g =>
        { g with gens := tput 0 g.gens b ((tget 0 g.gens b + 1) % 2 ^ 32), arrived := tdel g.arrived b }))

/-! ## Work (R165 to R168, R188) -/

/-- The work identifier of item `q` (R165). -/
def widOf (g : Gang) (q : Nat) : Nat :=
  ((g.widths.zip g.counts).reverse.foldl (fun (acc : Nat × Nat × Nat) f =>
    let n := max f.2 1
    (acc.1 / n, acc.2.1 + f.1, acc.2.2 + acc.1 % n * 2 ^ acc.2.1)) (q, 0, 0)).2.2

/-- The number of items. -/
def itemsOf (g : Gang) : Nat := g.counts.foldl (fun a n => a * n) 1

/-- R168: the `n`-th item of the share of die index `j`. -/
def dealt (g : Gang) (j n : Nat) : Nat :=
  let gs := max 1 ((g.counts.drop g.glev).foldl (fun a n => a * n) 1)
  (n / gs * g.dies.length + j) * gs + n % gs

/-- NXT: an item of the die's work counter lands 6 turns later. -/
def execNxt (w : XWord) (s : State) : Out :=
  let c := s.cur.core
  .next (match (core s c).gang, gangOf s c with
    | some n, some g =>
      if isSvc c || !g.dist then landW s w.da 6 noItem
      else
        let j := dieIndex g (dieOf c)
        let q := dealt g j (tget 0 g.counters j)
        if itemsOf g ≤ q then landW s w.da 6 noItem
        else modGang (landW s w.da 6 (BitVec.ofNat 64 (widOf g q))) n (fun g =>
          { g with counters := tput 0 g.counters j (tget 0 g.counters j + 1) })
    | _, _ => landW s w.da 6 noItem)

/-! ## Semaphores (R189 to R191) -/

abbrev semIdx (s : State) (w : XWord) : Nat := bitsAt (nat s w.b) 0 8
abbrev semArg (s : State) (w : XWord) : Nat := bitsAt (nat s w.b) 16 16

/-- A change of the count `v` of a semaphore by a thread, which is a release (R269). -/
def signal (s : State) (n v : Nat) : State :=
  kickEngine (noteRelease (setSem s s.cur.core n v) s.cur.core 0 s.cur.slot) s.cur.core

def execSemsigAdd (w : XWord) (s : State) : Out :=
  let v := sem s s.cur.core (semIdx s w) + semArg s w
  .next (if 0xFFFF < v then trapNow s 0xA2 else signal s (semIdx s w) v)

def execSemsigSub (w : XWord) (s : State) : Out :=
  let v := sem s s.cur.core (semIdx s w)
  .next (if v < semArg s w then trapNow s 0xA2 else signal s (semIdx s w) (v - semArg s w))

def execSemsigSet (w : XWord) (s : State) : Out := .next (signal s (semIdx s w) (semArg s w))

/-- The count drops by `v` and the thread acquires. -/
def takeSem (s : State) (n v : Nat) : State :=
  noteAcquire (setSem s s.cur.core n (sem s s.cur.core n - v)) s.cur.core 0 s.cur.slot

def execSemwait (w : XWord) (s : State) : Out :=
  .next (if semArg s w ≤ sem s s.cur.core (semIdx s w) then takeSem s (semIdx s w) 0 else blockNow s)

def execSemwaitDec (w : XWord) (s : State) : Out :=
  .next (if semArg s w ≤ sem s s.cur.core (semIdx s w) then takeSem s (semIdx s w) (semArg s w) else blockNow s)

/-- SEMTRY: success lands all ones and acquires. -/
def semTry (w : XWord) (s : State) (dec : Nat) : State :=
  if semArg s w ≤ sem s s.cur.core (semIdx s w) then landB (takeSem s (semIdx s w) dec) w.da true else landB s w.da false

def execSemtry (w : XWord) (s : State) : Out := .next (semTry w s 0)

def execSemtryDec (w : XWord) (s : State) : Out := .next (semTry w s (semArg s w))

end Sys2Proof.Machine
end

