-- ==== Sys2Proof/Machine/Keccak.lean ====
section
/-! DEFINITION. SHAKE256, with which the Fumarole measures images (R384, R386): the sponge of Keccak-f[1600] with a rate
of 136 bytes. The spec names the function; its permutation is that of FIPS 202. (Log 96: PRESUMED.) -/

namespace Sys2Proof.Machine

/-- The 25 lanes, lane (x, y) at x + 5 y. -/
abbrev Lanes := List (BitVec 64)

def klane (a : Lanes) (x y : Nat) : BitVec 64 := a.getD (x % 5 + 5 * (y % 5)) 0

/-- Lanes given by a function of their coordinates. -/
def klanes (f : Nat → Nat → BitVec 64) : Lanes := (List.range 25).map (fun i => f (i % 5) (i / 5))

/-- The rotation of each lane. -/
def krho : List Nat :=
  [0, 1, 62, 28, 27, 36, 44, 6, 55, 20, 3, 10, 43, 25, 39, 41, 45, 15, 21, 8, 18, 2, 61, 56, 14]

/-- The round constants. -/
def kround : Lanes :=
  [0x0000000000000001, 0x0000000000008082, 0x800000000000808A, 0x8000000080008000, 0x000000000000808B, 0x0000000080000001,
   0x8000000080008081, 0x8000000000008009, 0x000000000000008A, 0x0000000000000088, 0x0000000080008009, 0x000000008000000A]
  ++ [0x000000008000808B, 0x800000000000008B, 0x8000000000008089, 0x8000000000008003, 0x8000000000008002, 0x8000000000000080,
   0x000000000000800A, 0x800000008000000A, 0x8000000080008081, 0x8000000000008080, 0x0000000080000001, 0x8000000080008008]

/-- Theta: each lane with the parities of two columns. -/
def ktheta (a : Lanes) : Lanes :=
  let c := (List.range 5).map (fun x => klane a x 0 ^^^ klane a x 1 ^^^ klane a x 2 ^^^ klane a x 3 ^^^ klane a x 4)
  klanes (fun x y => klane a x y ^^^ c.getD ((x + 4) % 5) 0 ^^^ (c.getD ((x + 1) % 5) 0).rotateLeft 1)

/-- Rho and pi: each lane rotated and moved. -/
def krhopi (a : Lanes) : Lanes :=
  klanes (fun x y => (klane a (x + 3 * y) x).rotateLeft (krho.getD ((x + 3 * y) % 5 + 5 * x) 0))

/-- Chi and iota: the rows combined, and the round's constant. -/
def kchi (a : Lanes) (rc : BitVec 64) : Lanes :=
  klanes (fun x y =>
    (klane a x y ^^^ (~~~ (klane a (x + 1) y) &&& klane a (x + 2) y)) ^^^ (if x = 0 ∧ y = 0 then rc else 0))

/-- Keccak-f[1600]. -/
def keccakF (a : Lanes) : Lanes := kround.foldl (fun s rc => kchi (krhopi (ktheta s)) rc) a

/-- Eight bytes as a lane, and a lane as eight bytes. -/
def kword (l : List Nat) : BitVec 64 := BitVec.ofNat 64 (l.foldr (fun b n => b % 256 + 256 * n) 0)
def kbytes (w : BitVec 64) : List Nat := (List.range 8).map (fun i => w.toNat / 256 ^ i % 256)

/-- Absorbs one block of 136 bytes. -/
def kabsorb (a : Lanes) (block : List Nat) : Lanes :=
  keccakF (klanes (fun x y =>
    if x + 5 * y < 17 then klane a x y ^^^ kword ((block.drop (8 * (x + 5 * y))).take 8) else klane a x y))

/-- The message with its domain bits and padding, a whole number of blocks. -/
def kpad (m : List Nat) : List Nat :=
  let z := 135 - m.length % 136
  if z = 0 then m ++ [0x9F] else m ++ [0x1F] ++ List.replicate (z - 1) 0 ++ [0x80]

/-- Absorbs `n` blocks. -/
def kblocks : Nat → Lanes → List Nat → Lanes
  | 0, a, _ => a
  | n + 1, a, m => kblocks n (kabsorb a (m.take 136)) (m.drop 136)

/-- The first 64 bytes of SHAKE256 of a message. (Log 96: PRESUMED.) -/
def shake256 (m : List Nat) : List Nat :=
  let p := kpad m
  ((kblocks (p.length / 136) (List.replicate 25 0) p).flatMap kbytes).take 64

end Sys2Proof.Machine
end

