-- ==== Sys2Proof/Machine/Service.lean ====
section
/-! DEFINITION. Service cores: the inbound queue, replies, the privileged instructions and their requests, windows, grants
and the debug read (R212 to R216, R328 to R336, R341). -/

namespace Sys2Proof.Machine

/-! ## Messages and replies (R329, R334) -/

/-- INBOUND_MESSAGE_WRITE [service core, words]. -/
def execInboundMessageWrite (s : State) : Out :=
  let c := arg s 0
  let s1 := modCore s c (fun k => { k with svc := { k.svc with inbox := k.svc.inbox ++ [s.cur.args.drop 1] } })
  .next (drainInbox 1024 s1 c)

/-- The route word (Table 14.6). -/
abbrev rtEndpt (a : Nat) : Nat := bitsAt a 0 22
abbrev rtSlot (a : Nat) : Nat := bitsAt a 22 3
abbrev rtEng (a : Nat) : Bool := bitsAt a 25 1 = 1
abbrev rtIdx (a : Nat) : Nat := bitsAt a 26 6
abbrev rtTicket (a : Nat) : Nat := bitsAt a 32 16
abbrev rtHclr (a : Nat) : Bool := bitsAt a 48 1 = 1
abbrev rtHold (a : Nat) : Bool := bitsAt a 49 1 = 1
abbrev rtKind (a : Nat) : Nat := a % 8

/-- Whether the target lies outside this device (R333). -/
def rtAway (s : State) (a : Nat) : Bool := bitsAt a 12 10 ≠ s.node

/-- A reply that its target discarded: the notice goes back to the service core (R334). -/
def discard (s : State) (origin : Nat) : State := later s [] .discardNoticeReturn [origin]

/-- Whether thread (c, t) awaits a reply with this ticket for a fault, and whether for its mailbox. -/
def awaitsFault (th : Thread) (ticket : Nat) : Bool := th.wait ≠ .none && th.reply.isNone && th.ticket = ticket
def awaitsMbox (th : Thread) (ticket : Nat) : Bool := th.mboxReq.isSome && th.mboxReply.isNone && th.mboxTicket = ticket

/-- A reply that reaches a thread; one that is saved keeps it in its image (R341), and one that is DONE is complete with it if it
has nothing else to await (R118, R169). -/
def threadReplied (s : State) (origin c t ticket : Nat) (r : Reply) : State :=
  let th := thread s c t
  let im := fun (x : State) => if th.st = .saved then writeImage x c t false else x
  if 4 ≤ r.kind ∧ awaitsMbox th ticket then im (setThread s c t { th with mboxReply := some r })
  else if r.kind < 4 ∧ awaitsFault th ticket then
    if th.st = .saved ∧ th.wait = .translation then im (setThread s c t { th with wait := .none })
    else if th.st = .done then checkDone (doneReply (setThread s c t { th with reply := some r }) c t) c
    else im (setThread s c t { th with reply := some r })
  else discard s origin

/-- Whether an install that was accepted and is not complete covers the address of a fault (R213). -/
def covered (s : State) (m : Option (Nat × Nat)) : Bool :=
  m.any (fun p => s.winops.any (fun w =>
    w.2.table = p.1 && !w.2.kill && w.2.begun
      && winVpn w.2.entry * 2 ^ 12 / 2 ^ classShift (winClass w.2.entry) = p.2 / 2 ^ classShift (winClass w.2.entry)))

/-- The address of the fault that the source of a route word awaits a reply to, with its window table. -/
def faultAt (s : State) (c a : Nat) : Option (Nat × Nat) :=
  if rtKind a = 2 ∨ rtKind a = 3 then
    (let te := tephra s c (rtKind a - 2)
     if te.wait = .translation ∧ te.ticket = rtTicket a then te.missed else none)
  else
    (let th := thread s c (rtSlot a)
     if th.wait = .translation ∧ th.ticket = rtTicket a then th.missed else none)

/-- A reply that reaches a tephra core; one that stands in tephra fault takes an ERROR to its message (R306, R373). -/
def tephraReplied (s : State) (origin c k ticket : Nat) (r : Reply) : State :=
  let te := tephra s c k
  if te.wait ≠ .none ∧ te.reply = none ∧ te.ticket = ticket ∧ (te.wait = .mbox) = (4 ≤ r.kind) then
    modTephra s c k (fun te => { te with reply := some r })
  else if te.fault ≠ 0 ∧ te.wait = .none ∧ te.reply = none ∧ te.ticket = ticket ∧ r.kind = 3 then
    modTephra s c k (fun te => { te with fault := r.value.toNat % 256, reply := some r })
  else discard s origin

/-- SERVICE_REPLY_ARRIVAL [service core, route word, kind, value]. The answer to a fault whose address an accepted install
covers waits for the install to complete (R213). -/
def execServiceReplyArrival (s : State) : Out :=
  let a := arg s 1
  let r : Reply := { kind := arg s 2, value := BitVec.ofNat 64 (arg s 3) }
  .next (match coreAt (rtEndpt a) with
    | none => discard s (arg s 0)
    | some c =>
      if covered s (faultAt s c a) then at' s (s.gcyc + 1) .serviceReplyArrival s.cur.args
      else if rtKind a = 2 ∨ rtKind a = 3 then tephraReplied s (arg s 0) c (rtKind a - 2) (rtTicket a) r
      else if rtKind a = 0 then onImage s c (fun x => threadReplied x (arg s 0) c (rtSlot a) (rtTicket a) r)
      else discard s (arg s 0))

/-- DISCARD_NOTICE_RETURN [service core]. -/
def execDiscardNoticeReturn (s : State) : Out :=
  .next (modCore s (arg s 0) (fun k => { k with svc := { k.svc with scdrop := (k.svc.scdrop + 1) % 2 ^ 32 } }))

/-! ## The mould of the privileged instructions (R332, R333) -/

/-- A route word that R333 refuses: reserved bits, and HOLD or HCLR where the instruction has none. -/
def routeBad (a : Nat) (hold hclr : Bool) : Bool :=
  bitsAt a 50 14 ≠ 0 || (rtHold a && !hold) || (rtHclr a && !hclr)

/-- The bundle of a privileged instruction: it waits for its acknowledgement, whose PSTAT then lands. -/
def privileged (s : State) (bad : Bool) : Out :=
  .next (if bad then trapNow s 0x02
    else
      match (me s).privDone with
      | none => blockNow s
      | some st => landSys (modMe s (fun th => { th with priv := none, privDone := none })) 0x802 (BitVec.ofNat 64 st))

/-- A route word in A, without HOLD; HCLR for TRET. -/
abbrev routeA (s : State) (w : SWord) (hclr : Bool) : Bool := routeBad (nat s w.a) false hclr

def execTretRetry (w : SWord) (s : State) : Out := privileged s (routeA s w true)

def execTretAt (w : SWord) (s : State) : Out := privileged s (routeA s w true)

def execTretNext (w : SWord) (s : State) : Out := privileged s (routeA s w true)

def execTretSkip (w : SWord) (s : State) : Out := privileged s (routeA s w true)

def execWinset (_ : SWord) (s : State) : Out := privileged s false

def execWinkill (_ : SWord) (s : State) : Out := privileged s false

def execGrant (w : SWord) (s : State) : Out := privileged s (routeBad (nat s w.b) false false)

def execCtxsvThr (w : SWord) (s : State) : Out := privileged s (routeA s w false)

def execCtxsvGang (w : SWord) (s : State) : Out := privileged s (routeBad (nat s w.a) true false)

def execCtxldThr (w : SWord) (s : State) : Out := privileged s (routeA s w false)

def execCtxldGang (w : SWord) (s : State) : Out := privileged s (routeA s w false)

def execHaltStop (w : SWord) (s : State) : Out := privileged s (routeA s w false)

def execHaltEnd (w : SWord) (s : State) : Out := privileged s (routeA s w false)

def execHaltReset (w : SWord) (s : State) : Out := privileged s (routeA s w false)

/-- MBREPLY of kind `k` takes effect at issue (R332, R334). An ERROR carries a cause that may reach a thread: any other value
is outside the limits of its field (R327). (Log 90: DEDUCED.) -/
def mbreply (k : Nat) (w : SWord) (s : State) : Out :=
  let a := nat s w.a
  .next (if routeA s w false || (k = 3 && !raisable (nat s w.b % 256)) then trapNow s 0x02
    else if rtAway s a then landSys s 0x802 8
    else
      landSys (later s [5, s.cur.core, rtEndpt a, rtSlot a] .serviceReplyArrival [s.cur.core, a, k, nat s w.b]) 0x802 0)

def execMbreplyRetry (w : SWord) (s : State) : Out := mbreply 0 w s

def execMbreplyResume (w : SWord) (s : State) : Out := mbreply 1 w s

def execMbreplyResumev (w : SWord) (s : State) : Out := mbreply 2 w s

def execMbreplyError (w : SWord) (s : State) : Out := mbreply 3 w s

def execMbreplyMbok (w : SWord) (s : State) : Out := mbreply 4 w s

def execMbreplyMberr (w : SWord) (s : State) : Out := mbreply 5 w s

/-- The opcode, less 0x70, and sub-operation of a privileged instruction that sends a request. -/
def privOp (i : Instr) : Option (Nat × Nat × SWord) :=
  match i with
  | .tretRetry w => some (0, 0, w)
  | .tretAt w => some (0, 1, w)
  | .tretNext w => some (0, 2, w)
  | .tretSkip w => some (0, 3, w)
  | .winset w => some (1, 0, w)
  | .winkill w => some (2, 0, w)
  | .grant w => some (3, 0, w)
  | .ctxsvThr w => some (5, 0, w)
  | .ctxsvGang w => some (5, 1, w)
  | .ctxldThr w => some (6, 0, w)
  | .ctxldGang w => some (6, 1, w)
  | .haltStop w => some (7, 0, w)
  | .haltEnd w => some (7, 1, w)
  | .haltReset w => some (7, 2, w)
  | _ => none

/-- The pre-effect: the request leaves once, with GSEL as it stands. -/
def prePriv (i : Instr) (s : State) : State :=
  match privOp i with
  | none => s
  | some (op, k, w) =>
    if (me s).priv.isSome then s
    else
      let d := fresh s
      let r : PrivReq :=
        { core := s.cur.core, slot := s.cur.slot, op := op, k := k, a := body s w.a, b := body s w.b, left := 0
          gsel := (myCore s).svc.gsel }
      let s1 := modMe { d.2 with privs := tset d.2.privs d.1 r } (fun th => { th with priv := some d.1, privDone := none })
      later s1 [] .privilegedRequestArrival [d.1]

/-- The acknowledgement of request `id` with its PSTAT. -/
def acknowledge (s : State) (id st : Nat) : State := later s [] .privilegedAcknowledgement [id, st]

/-! ## TRET and HALT (R335, R341, Table 14.7) -/

/-- The address at which a halted thread trapped; one still to land counts. -/
def trapAddress (th : Thread) : Nat :=
  th.lands.foldl (fun a l => match l.act with | .trap _ x => x | _ => a) th.trapa

/-- TRET.retry and TRET.at on a thread. -/
def tretThread (s : State) (c t : Nat) (target : Option Nat) (hclr : Bool) : State × Nat :=
  let th := thread s c t
  let a := target.getD (trapAddress th)
  let hact := th.hact && !hclr
  if th.st = .halt then (setThread s c t { th with resume := some a, hact := hact }, 0)
  else if th.st = .saved ∧ th.savedSt = .halt then
    (writeImage (setThread s c t { th with savedSt := .run, next := a, hact := hact }) c t false, 0)
  else (s, 1)

/-- TRET.retry on an engine: the faulting command restarts. -/
def tretEngine (s : State) (c : Nat) : State × Nat :=
  if (engine s c).fault = 0 then (s, 1)
  else (kickEngine (modEngine s c (fun e => { e with fault := 0, running := false, done := 0 })) c, 0)

/-- TRET.skip: the faulting command retires with those of its pops, TADV and signal that fit. -/
def skipEngine (s : State) (c : Nat) : State × Nat :=
  match (engine s c).queue with
  | [] => (s, 1)
  | q :: _ =>
    if (engine s c).fault = 0 then (s, 1)
    else
      let y := q.sync
      let s1 := match cmdRing q with
        | some r =>
          if cmdPops q ≤ (ring (engine s c) r).count then modEngine s c (fun e => setRing e r ((ring e r).pop (cmdPops q)))
          else s
        | none => s
      let r := ring (engine s1 c) (syTring y)
      let s2 := if syTadv y ∧ r.count < r.nslot then modEngine s1 c (fun e => setRing e (syTring y) (r.push 1)) else s1
      let v := sem s2 c (sySsem y) + sySinc y
      let s3 := if sySinc y ≠ 0 ∧ v ≤ 0xFFFF then noteRelease (setSem s2 c (sySsem y) v) c 1 0 else s2
      (dequeue (modEngine s3 c (fun e => { e with fault := 0 })) c q, 0)

/-- TRET.retry and TRET.next on a tephra core. -/
def tretTephra (s : State) (c k : Nat) (next : Bool) : State × Nat :=
  if (tephra s c k).fault = 0 then (s, 1)
  else
    (modTephra s c k (fun te =>
      let t := { te with fault := 0, wait := .none, reply := none, serving := none }
      if next then teSkip t else t), 0)

/-- Whether an event is one of the command that the engine of core `c` runs. -/
def ofRunning (c : Nat) (i : Instr) (args : List Nat) : Bool :=
  args = [c] && (i = .enginePortAccess || i = .engineCommandRetire || i = .engineHandoverEnd || i = .engineCommandStart)

/-- The running command of an engine comes to nothing: no event of it is left. -/
def dropRunning (s : State) (c : Nat) : State :=
  { s with
    agenda := s.agenda.filter (fun e => !ofRunning c e.instr e.args)
    cores := s.cores.map (fun p => (p.1, { p.2 with waits := p.2.waits.filter (fun w => !ofRunning c w.1 w.2) })) }

/-- HALT.reset on an engine. (Log 44: DEDUCED.) -/
def resetEngine (s0 : State) (c : Nat) : State :=
  let s := dropRunning s0 c
  let q := (engine s c).queue
  let s1 := modEngine s c (fun e => { showStatus e with queue := [], running := false, hand := false, fault := 0, done := 0 })
  kickEngine (q.foldl (fun x k => threadLess x k.core k.slot) s1) c

/-- HALT.reset on a tephra core. (Log 36: DEDUCED.) -/
def resetTephra (s : State) (c k : Nat) : State :=
  let te := tephra s c k
  let s1 := forsake (modTephra s c k (fun te => { freshTephra te k (coord s c) with saveWait := te.saveWait })) c (fun f => f.who = 8 + k)
  (te.queue ++ te.cur.toList).foldl (fun x q => teGone x c q 0x85) s1

/-- HALT.end. -/
def endThread (s : State) (c t : Nat) : State × Nat :=
  let th := thread s c t
  if th.st = .vacant ∨ th.st = .done then (s, 1)
  else
    let s1 := match (core s c).gang with
      | none => s
      | some n => modGang s n (fun g => { g with ended := true })
    if th.st = .saved then (writeImage (setThread s1 c t { th with savedSt := .done, endAddr := th.next }) c t false, 0)
    else (setThread s1 c t { th with endReq := true, endAddr := th.next }, 0)

/-- HALT.stop. (Log 41: DEDUCED.) -/
def stopThread (s : State) (c t : Nat) : State × Nat :=
  let th := thread s c t
  if !th.saving ∧ (th.st = .run ∨ th.st = .fetch ∨ th.st = .block ∨ th.st = .out) then (setThread s c t { th with stopReq := true }, 0)
  else (s, 1)

/-! ## Windows (R208, R210, R213, R214) -/

/-- The table that GSEL names: a gang's number, or 2^20 + a service core. -/
def tableOf (s : State) (gsel : Nat) : Option Nat :=
  match coreAt gsel with
  | none => none
  | some c => if isSvc c then some (0x100000 + c) else if rtKind gsel = 0 then (core s c).gang else none

/-- The cores that hold copies of a table. -/
def tableCores (s : State) (t : Nat) : List Nat := if 0x100000 ≤ t then [t - 0x100000] else coresOf (gang s t)

/-- Whether a range of local addresses may be the frame of a window (R208). -/
def frameOk (lo n : Nat) : Bool :=
  let side := (List.range 4).any (fun d => lo < (d + 1) * 0x1800000000 && d * 0x1800000000 + 0x17E0000000 < lo + n)
  !side && !(lo < 2 ^ 48 && 0x6000000000 < lo + n) && !(3 * 2 ^ 48 < lo + n)

/-- Why an install is refused: a PSTAT value, 0 where it is not. (Log 37: DEDUCED.) -/
def installCause (s : State) (cores : List Nat) (e : Nat) : Nat :=
  let sh := classShift (winClass e)
  let low := 2 ^ (sh - 12)
  let pa := winFrame e * 2 ^ 12
  if 1 < winState e ∨ bitsAt e 48 10 ≠ 0 ∨ winVpn e % low ≠ 0 ∨ winFrame e % low ≠ 0 ∨ winVpn e / 2 ^ 56 = 15 then 3
  else if pa / 2 ^ 50 = s.node ∧ !frameOk (pa % 2 ^ 50) (2 ^ sh) then 4
  else if cores.any (fun c => winV (tget 0 (core s c).windows (winPlace (winClass e) (winVpn e * 2 ^ 12)))) then 2 else 0

/-- Begins an install or a kill whose turn has come. -/
def beginWin (s : State) (id : Nat) (w : WinOp) : State :=
  let cs := tableCores s w.table
  let st := if w.kill then
      (if cs.any (fun c => let x := tget 0 (core s c).windows w.index; winV x && winVpn x = winVpn w.entry) then 0 else 5)
    else installCause s cs w.entry
  if st ≠ 0 then acknowledge { s with winops := tdel s.winops id } w.req st
  else
    let s1 := { s with winops := tset s.winops id { w with begun := true, left := cs } }
    cs.foldl (fun x c => later x [] (if w.kill then .windowKillInvalidate else .windowInstallApply) [id, c]) s1

/-- Begins the oldest operation of each table that has none at work (R213). -/
def nextWin (s : State) (t : Nat) : State :=
  let l := s.winops.filter (fun p => p.2.table = t)
  if l.any (fun p => p.2.begun) then s
  else
    match l with
    | [] => s
    | p :: _ => beginWin s p.1 p.2

/-- A WINSET or WINKILL arrives: it takes its place in the order of acceptance. -/
def acceptWin (s : State) (req t : Nat) (kill : Bool) (e : Nat) : State :=
  let d := fresh s
  let w : WinOp := { req := req, kill := kill, table := t, index := winPlace (winClass e) (winVpn e * 2 ^ 12), entry := e,
                     begun := false, left := [] }
  nextWin { d.2 with winops := tset d.2.winops d.1 w } t

def winop (s : State) (id : Nat) : Option WinOp := tfind s.winops id

/-- WINDOW_INSTALL_APPLY [operation, core]. -/
def execWindowInstallApply (s : State) : Out :=
  .next (match winop s (arg s 0) with
    | none => s
    | some w =>
      let s1 := modCore s (arg s 1) (fun k => { k with windows := tput 0 k.windows w.index w.entry })
      let left := w.left.filter (fun c => c ≠ arg s 1)
      let s2 := { s1 with winops := tset s1.winops (arg s 0) { w with left := left } }
      if left = [] then later s2 [] .windowInstallComplete [arg s 0] else s2)

/-- The operation is complete. -/
def finishWin (s : State) (id : Nat) : State :=
  match winop s id with
  | none => s
  | some w => nextWin (acknowledge { s with winops := tdel s.winops id } w.req 0) w.table

/-- WINDOW_INSTALL_COMPLETE [operation]. -/
def execWindowInstallComplete (s : State) : Out := .next (finishWin s (arg s 0))

/-- WINDOW_KILL_INVALIDATE [operation, core]. A packet that is open in the entry is outstanding until it closes (R223). -/
def execWindowKillInvalidate (s : State) : Out :=
  .next (match winop s (arg s 0) with
    | none => s
    | some w =>
      let s1 := checkKills (modCore s (arg s 1) (fun k => { k with windows := tdel k.windows w.index })) (arg s 1)
      if packetThrough s (arg s 1) w.index then at' s1 (s.gcyc + 8) .windowKillInvalidate s.cur.args else s1)

/-- KILL_ACKNOWLEDGE [operation, core]. -/
def execKillAcknowledge (s : State) : Out :=
  .next (match winop s (arg s 0) with
    | none => s
    | some w =>
      let left := w.left.filter (fun c => c ≠ arg s 1)
      let s1 := { s with winops := tset s.winops (arg s 0) { w with left := left } }
      if left = [] && w.left ≠ [] then later s1 [] .windowKillComplete [arg s 0] else s1)

/-- WINDOW_KILL_COMPLETE [operation]. -/
def execWindowKillComplete (s : State) : Out := .next (finishWin s (arg s 0))

/-! ## Requests at their targets (R332) -/

/-- GRANT: entry IDX of the target's grant table. (Log 38: DEDUCED.) -/
def grantAt (s : State) (e route : Nat) : State × Nat :=
  match coreAt (rtEndpt route) with
  | none => (s, 7)
  | some c =>
    if isSvc c ∨ (core s c).gang = none then (s, 7)
    else if bitsAt e 44 1 = 1 ∧ 0x7FFF < bitsAt e 15 15 + bitsAt e 0 15 then (s, 3)
    else (modCore s c (fun k => { k with grants := tput 0 k.grants (rtIdx route) e }), 0)

/-- CTXSV: the state, and the PSTAT where it does not begin. (Log 37: DEDUCED.) -/
def beginSave (s : State) (c t k : Nat) (hold : Bool) : State × Option Nat :=
  match (core s c).gang with
  | none => (s, some 7)
  | some n =>
    if isSvc c then (s, some 7)
    else if !(gang s n).pre then (s, some 6)
    else if k = 1 then
      (if !(gang s n).released || (gang s n).completed.isSome || (gang s n).savedAll || s.agenda.any (fun e => e.instr = .contextSaveComplete && e.args = [0x100000 + n]) then (s, some 1)
       else (beginGangSave s n hold, none))
    else
      let th := thread s c t
      if th.st = .vacant ∨ th.st = .done ∨ th.st = .saved ∨ th.saving then (s, some 1)
      else (setThread s c t { th with saveReq := true }, none)

/-- The saved gang that holds a core, or else one whose rectangle the core lies in. -/
def savedGangAt (s : State) (c : Nat) : Option Nat :=
  match (core s c).gang.bind (fun n => if (gang s n).savedAll then some n else none) with
  | some n => some n
  | none => (s.gangs.find? (fun p => p.2.savedAll && inRect p.2 (dieOf c) (colOf c) (rowOf c))).map (fun p => p.1)

/-- CTXLD. (Log 37: DEDUCED.) -/
def beginLoad (s : State) (c t k : Nat) : State × Option Nat :=
  if isSvc c then (s, some 7)
  else if k = 1 then
    match savedGangAt s c with
    | none => (s, some (if (core s c).gang.isSome then 1 else 7))
    | some n =>
      if coresFree s n (gang s n) then (later s [] .contextRestoreComplete [0x100000 + n], none) else (s, some 7)
  else if (core s c).gang = none then (s, some 7)
  else if (thread s c t).st = .saved then (later s [] .contextRestoreComplete [c, t], none)
  else (s, some 1)

/-- The gang that a save or restore of a whole gang works on. -/
def gangNamed (s : State) (r : PrivReq) : Nat :=
  match coreAt (rtEndpt r.a.toNat) with
  | none => 0
  | some c => (if r.op = 5 then (core s c).gang else savedGangAt s c).getD 0

/-- Whether a save or restore that has begun is complete, and with which PSTAT: a restore that found its cores taken when it came
to them gives 0x07 (R342). -/
def progress (s : State) (r : PrivReq) : Option Nat :=
  let a := r.a.toNat
  match coreAt (rtEndpt a) with
  | none => some 7
  | some c =>
    let th := thread s c (rtSlot a)
    if r.op = 5 then
      if r.k = 1 then
        (match tfind s.gangs r.gang with
         | none => some 1
         | some g => if g.savedAll then some 0 else if g.completed.isSome then some 1 else none)
      else if th.st = .saved then some 0 else if th.st = .done ∨ th.st = .vacant then some 1 else none
    else if r.k = 1 then
      (match tfind s.gangs r.gang with
       | none => some 1
       | some g =>
         if !g.savedAll then some 0
         else if s.agenda.any (fun e => e.instr = .contextRestoreComplete && e.args = [0x100000 + r.gang]) then none
         else some 7)
    else if th.st = .saved then none else some 0

/-- The request `f`, on the image where the thread is saved and its core freed (R341), and its PSTAT. (Log 42: DEDUCED.) -/
def imaged (s : State) (c : Nat) (f : State → State × Nat) : State × Nat := (onImage s c (fun x => (f x).1), (f (viewImage s c)).2)

/-- A request takes effect: the state, and its PSTAT where it is acknowledged at once. (Log 37: DEDUCED.) -/
def takeRequest (s : State) (id : Nat) (r : PrivReq) : State × Option Nat :=
  let a := r.a.toNat
  let b := r.b.toNat
  let now := fun (x : State × Nat) => (x.1, some x.2)
  if r.op = 1 ∨ r.op = 2 then
    let gsel := r.gsel
    if rtAway s gsel then (s, some 8)
    else
      match tableOf s gsel with
      | none => (s, some 7)
      | some t =>
        if r.op = 1 then (acceptWin s id t false (b * 2 ^ 64 + a), none)
        else (acceptWin s id t true (a * 2 ^ 64), none)
  else if r.op = 3 then (if rtAway s b then (s, some 8) else now (grantAt s a b))
  else if rtAway s a then (s, some 8)
  else
    match coreAt (rtEndpt a) with
    | none => (s, some 7)
    | some c =>
      let t := rtSlot a
      let te : Bool := rtKind a = 2 || rtKind a = 3
      let k := rtKind a - 2
      match r.op, r.k with
      | 0, 0 =>
        if te then now (tretTephra s c k false)
        else if rtEng a then now (if isSvc c then (s, 7) else tretEngine s c)
        else now (imaged s c (fun x => tretThread x c t none (rtHclr a)))
      | 0, 1 => if te || rtEng a then (s, some 1) else now (imaged s c (fun x => tretThread x c t (some (b % 2 ^ 29)) (rtHclr a)))
      | 0, 2 => if te then now (tretTephra s c k true) else (s, some 1)
      | 0, _ => if !te && rtEng a && !isSvc c then now (skipEngine s c) else (s, some 1)
      | 5, k => if te || rtEng a then (s, some 7) else beginSave s c t k (rtHold a)
      | 6, k => if te || rtEng a then (s, some 7) else beginLoad s c t k
      | 7, 0 => if te || rtEng a then (s, some 1) else now (stopThread s c t)
      | 7, 1 => if te || rtEng a then (s, some 1) else now (imaged s c (fun x => endThread x c t))
      | _, _ =>
        if te then (resetTephra s c k, some 0)
        else if rtEng a && !isSvc c then (resetEngine s c, some 0) else (s, some 1)

/-- PRIVILEGED_REQUEST_ARRIVAL [request]: it takes effect; a save or restore is acknowledged when it is complete. -/
def execPrivilegedRequestArrival (s : State) : Out :=
  let id := arg s 0
  .next (match tfind s.privs id with
    | none => s
    | some r =>
      if r.left = 0 then
        let x := takeRequest s id r
        match x.2 with
        | some st => acknowledge x.1 id st
        | none =>
          let s1 := { x.1 with privs := tset x.1.privs id { r with left := 1, gang := gangNamed s r } }
          if r.op = 1 ∨ r.op = 2 then s1 else at' s1 (s.gcyc + 8) .privilegedRequestArrival [id]
      else
        match progress s r with
        | some st => acknowledge s id st
        | none => at' s (s.gcyc + 8) .privilegedRequestArrival [id])

/-- PRIVILEGED_ACKNOWLEDGEMENT [request, PSTAT]: it reaches the bundle that sent the request, if that waits still. (Log 89: DEDUCED.) -/
def execPrivilegedAcknowledgement (s : State) : Out :=
  .next (match tfind s.privs (arg s 0) with
    | none => s
    | some r =>
      modThread { s with privs := tdel s.privs (arg s 0) } r.core r.slot (fun th =>
        if th.priv = some (arg s 0) then { th with privDone := some (arg s 1) } else th))

/-! ## The debug read (R336, Table 14.9) -/

/-- The state at the start of the current turn of thread (c, t) (R336): in the cycle of a turn that it has yet to take, the
landings that are due have applied; else TTC, the next bundle and GCYC are those of the turn that it took last. -/
def turnView (s : State) (c t : Nat) : State :=
  let th := thread s c t
  if th.st = .vacant || th.st = .saved || th.saving then s
  else if s.gcyc % 8 = t then applyLandings s c t th.ttc
  else { setThread s c t { th with ttc := th.turnTtc, next := th.turnBa } with gcyc := s.gcyc - (s.gcyc + 8 - t) % 8 }

/-- The value of a register of thread (c, t) that a selector names, its tail byte and its status. (Log 37: DEDUCED.) -/
def debugValue (s0 : State) (c t sel : Nat) : Nat × Nat × Nat :=
  let s := turnView s0 c t
  let th := thread s c t
  let n := bitsAt sel 28 6
  let l := 16 * bitsAt sel 34 3 + bitsAt sel 37 4
  if th.st = .vacant then (0, 0, 2)
  else
    match bitsAt sel 25 3 with
    | 0 => ((getS th n).body.toNat, (getS th n).tail.toNat, 0)
    | 1 => if 16 ≤ n then (0, 0, 3) else ((getA th n).toNat % 2 ^ 64, 0, 0)
    | 2 =>
      if 48 ≤ n then (0, 0, 3) else if th.nv ≤ n then (0, 0, 1)
      else ((getV th n l).data.toNat, (getV th n l).tail.toNat, 0)
    | 3 => if 48 ≤ n then (0, 0, 3) else (bitsAt (getP th n).toNat (64 * bitsAt sel 37 1) 64, 0, 0)
    | 4 => if rdsNumber false (bitsAt sel 41 12) then (sysReg s c t (bitsAt sel 41 12) th.next, 0, 0) else (0, 0, 3)
    | 5 => if 16 ≤ n then (0, 0, 3) else ((getA th n).toNat / 2 ^ 64, 0, 0)
    | _ => (0, 0, 3)

/-- DEBUG_READ_COMPLETE [service core, slot, selector]. -/
def execDebugReadComplete (s : State) : Out :=
  let c := arg s 0
  let sel := arg s 2
  let v := match coreAt (rtEndpt sel) with
    | some d => if rtAway s sel || rtKind sel ≠ 0 then (0, 0, 3) else debugValue (viewImage s d) d (rtSlot sel) sel
    | none => (0, 0, 3)
  .next (if (core s c).svc.dbgsel.toNat ≠ sel then s
    else modCore s c (fun k =>
      { k with svc := { k.svc with dbgval := v.1, dbgst := v.2.1 + 256 * v.2.2, dbgBusy := false } }))

end Sys2Proof.Machine
end

