-- ==== Sys2Proof/Machine/Loader.lean ====
section
/-! DEFINITION. Code objects: the load checks, the launch header and the images, and writing them to the cores of a gang
or to the service cores (R162 to R169, R328, R346 to R355, R371). An object is read through a function from offsets to
bytes. -/

namespace Sys2Proof.Machine

/-! ## Reading -/

/-- A byte of memory as the front end reads it: that of a compressed page is rebuilt (R218); one whose read returns poison
(R206, Table 8.10) is a free value. (Log 93: DESIGN CHOICE.) -/
def visByte (s : State) (k : Nat) : Nat :=
  let r := pageRec s k
  if recForm r = 3 then Config.poisonByte k % 256
  else if recForm r ≠ 0 then recByte r (k % 4096)
  else if isPoison s k then Config.poisonByte k % 256
  else memByte s k

/-- `n` bytes little-endian of an object. -/
def le (b : Nat → Nat) (o : Nat) : Nat → Nat
  | 0 => 0
  | n + 1 => b o % 256 + 256 * le b (o + 1) n

/-- `n` bytes of an object. -/
def bytesOf (b : Nat → Nat) (o n : Nat) : List Nat := (List.range n).map (fun i => b (o + i) % 256)

def allZero (b : Nat → Nat) (o n : Nat) : Bool := le b o n = 0

/-! ## Sections (R346, R347, Tables 15.1 to 15.3) -/

/-- A section: type, offset and size. -/
structure Sect where
  typ : Nat
  ofs : Nat
  size : Nat
deriving DecidableEq, Repr

/-- The section table. -/
def sectsOf (b : Nat → Nat) : List Sect :=
  (List.range (le b 8 4)).map (fun i => ⟨le b (64 + 16 * i) 2, le b (68 + 16 * i) 4, le b (72 + 16 * i) 4⟩)

def sectOf (b : Nat → Nat) (t : Nat) : Option Sect := (sectsOf b).find? (fun x => x.typ = t)

/-- The offset and size of a section, of no bytes where it is absent. -/
def secOfs (b : Nat → Nat) (t : Nat) : Nat := match sectOf b t with | some x => x.ofs | none => 0
def secSize (b : Nat → Nat) (t : Nat) : Nat := match sectOf b t with | some x => x.size | none => 0

/-- Whether two entries of a list satisfy a relation. -/
def anyPair {α : Type} (f : α → α → Bool) : List α → Bool
  | [] => false
  | x :: r => r.any (f x) || anyPair f r

def meets (a n b m : Nat) : Bool := a < b + m && b < a + n

/-- Step 4 of Table 15.4. (Log 47: DEDUCED.) -/
def layoutBad (b : Nat → Nat) : Bool :=
  let n := le b 8 4
  let total := le b 12 4
  le b 0 4 ≠ 0x314F4354 || bitsAt (le b 4 4) 12 4 ≠ 0 || !allZero b 16 48 || n = 0 || 32 < n || total < 64 + 16 * n
    || (List.range n).any (fun i => !allZero b (66 + 16 * i) 2 || !allZero b (76 + 16 * i) 4)
    || (sectsOf b).any (fun x => x.ofs % 8 ≠ 0 || total < x.ofs + x.size || x.ofs < 64 + 16 * n
        || (x.typ < 32768 && (x.typ = 0 || 9 < x.typ)))
    || anyPair (fun x y => x.typ = y.typ || meets x.ofs x.size y.ofs y.size) (sectsOf b)
    || [1, 2, 3].any (fun t => (sectOf b t).isNone)

/-! ## The launch header (R349, Tables 15.5 to 15.7); `h` is its offset -/

abbrev hGeom (b : Nat → Nat) : Nat := le b (secOfs b 1) 8
abbrev hWork (b : Nat → Nat) : Nat := le b (secOfs b 1 + 8) 8
def hCols (b : Nat → Nat) : Nat := bitsAt (hGeom b) 60 4 + 1
def hRows (b : Nat → Nat) : Nat := bitsAt (hGeom b) 57 3 + 1
def hDies (b : Nat → Nat) : Nat := bitsAt (hGeom b) 55 2 + 1
def hSlotm (b : Nat → Nat) : Nat := bitsAt (hGeom b) 47 8
def hDist (b : Nat → Nat) : Bool := bitsAt (hGeom b) 46 1 = 1
def hGlev (b : Nat → Nat) : Nat := bitsAt (hGeom b) 43 3
def hNbar (b : Nat → Nat) : Nat := bitsAt (hGeom b) 40 3
def hBslot (b : Nat → Nat) (i : Nat) : Nat := bitsAt (hGeom b) (8 + 8 * i) 8
def hTsz (b : Nat → Nat) : Nat := bitsAt (hGeom b) 4 4 + 8
def hNv (b : Nat → Nat) : Nat := 16 + 8 * bitsAt (hGeom b) 1 3
def hPre (b : Nat → Nat) : Bool := bitsAt (hGeom b) 0 1 = 1
def hK (b : Nat → Nat) : Nat := bitsAt (hWork b) 0 3
def hWidth (b : Nat → Nat) (i : Nat) : Nat := bitsAt (hWork b) (3 + 7 * i) 7
def hWidths (b : Nat → Nat) : List Nat := (List.range (hK b)).map (hWidth b)
def hEntry (b : Nat → Nat) : Nat := le b (secOfs b 1 + 0x70) 4
abbrev hRace (b : Nat → Nat) : Nat := le b (secOfs b 1 + 0x78) 8
def hRmode (b : Nat → Nat) : Nat := bitsAt (hRace b) 0 2
def hLogLen (b : Nat → Nat) : Nat := 32 * bitsAt (hRace b) 2 30
def hRaceBase (b : Nat → Nat) : Nat := le b (secOfs b 1 + 0x80) 9
def hRaceLen (b : Nat → Nat) : Nat := 4096 * le b (secOfs b 1 + 0x8C) 4

/-- Counts n1 to n6 at an offset: the header's, or an override block's. -/
def countsAt (b : Nat → Nat) (o : Nat) : List Nat := (List.range 6).map (fun i => le b (o + 16 * i) 16)

/-- Whether counts break Table 15.5. -/
def countsBad (b : Nat → Nat) (l : List Nat) : Bool :=
  ((List.range 6).zip l).any (fun p => if p.1 < hK b then 2 ^ hWidth b p.1 < p.2 else p.2 ≠ 0)

/-- R165: whether some item would have the identifier of no item; judged on the counts that the launch takes effect with. -/
def reachesNone (b : Nat → Nat) (l : List Nat) : Bool :=
  (hWidths b).sum = 64 && (List.range (hK b)).all (fun i => l.getD i 0 = 2 ^ hWidth b i)

/-- A preload: class, register and value. -/
abbrev Preload := Nat × Nat × Nat

/-- NPRE at `o` and the preloads 16 bytes on. -/
def preloadsAt (b : Nat → Nat) (o : Nat) : List Preload :=
  (List.range (le b o 4)).map (fun i => (b (o + 16 + 16 * i) % 256, b (o + 17 + 16 * i) % 256, le b (o + 23 + 16 * i) 9))

def preloadsBad (b : Nat → Nat) (o : Nat) : Bool :=
  32 < le b o 4 || !allZero b (o + 4) 12
    || (List.range (le b o 4)).any (fun i => !allZero b (o + 18 + 16 * i) 5)
    || (preloadsAt b o).any (fun p =>
        match p.1 with
        | 0 => p.2.1 = 0 || 63 < p.2.1 || 2 ^ 64 ≤ p.2.2
        | 1 => 15 < p.2.1
        | _ => true)

/-- The segments of the chain table. -/
def chainOf (b : Nat → Nat) : List Nat := (List.range (secSize b 3 / 4)).map (fun i => le b (secOfs b 3 + 4 * i) 4)

/-- The window entries of an image. -/
def windowsOf (b : Nat → Nat) : List Nat := (List.range (secSize b 5 / 16)).map (fun i => le b (secOfs b 5 + 16 * i) 16)

/-- R351: whether the tracked range meets no window; an entry with V 0 is none (Table 8.7). -/
def raceUncovered (b : Nat → Nat) : Bool :=
  !(windowsOf b).any (fun e => winV e && meets (winVpn e * 2 ^ 12) (2 ^ classShift (winClass e)) (hRaceBase b) (hRaceLen b))

/-- Step 5; `dsize` is the size of the tenant's DRAM range. (Log 47: DEDUCED.) -/
def headerBad (b : Nat → Nat) (dsize : Nat) : Bool :=
  let h := secOfs b 1
  let k := hK b
  let tooLong : Bool := 4194304 * 4096 < hRaceLen b
  secSize b 1 < 0xA0 || secSize b 1 < 0xA0 + 16 * le b (h + 0x90) 4
    || hSlotm b = 0 || hGlev b = 0 || k < hGlev b || 4 < hNbar b || 8 < bitsAt (hGeom b) 4 4 || 4 < bitsAt (hGeom b) 1 3
    || (List.range 4).any (fun i => hBslot b i &&& (255 - hSlotm b) ≠ 0 || (hBslot b i ≠ 0 && hNbar b ≤ i))
    || bitsAt (hWork b) 45 19 ≠ 0 || k = 0 || 6 < k
    || (List.range 6).any (fun i => if i < k then hWidth b i = 0 || 64 < hWidth b i else hWidth b i ≠ 0)
    || 64 < (hWidths b).sum || countsBad b (countsAt b (h + 0x10))
    || !(chainOf b).contains (hEntry b) || 2 ^ 24 ≤ hEntry b || !allZero b (h + 0x74) 4
    || hRmode b = 3 || 2 ^ 32 ≤ hRace b || hRaceBase b % 4096 ≠ 0 || tooLong
    || (hRmode b ≠ 0 && (hLogLen b < 64 || dsize < hLogLen b || !allZero b (h + 0x89) 3 || hRaceLen b = 0
        || raceUncovered b))
    || preloadsBad b (h + 0x90)

/-! ## Images (R352 to R355) -/

/-- A listed segment that does not lie in the section, or is malformed. -/
def segmentBad (b : Nat → Nat) (o : Nat) : Bool :=
  let base := secOfs b 2
  let n := secSize b 2
  let h := le b (base + o) 8
  n < o + 8 || segHeaderBad o h || n < o + 8 + segBytes h
    || (readBundles (segLen h) (bytesOf b (base + o + 8) (segBytes h))).isNone

/-- Whether a range meets the context region of a pre-emptible launch. -/
def inRegion (b : Nat → Nat) (o n : Nat) : Bool := hPre b && meets o n 0x1C0000 0x40000

/-- The data records: scratchpad offset, object offset of the bytes, length; `none` where a record does not fit. -/
def dataRecords (b : Nat → Nat) : Nat → Nat → Nat → Option (List (Nat × Nat × Nat))
  | 0, _, _ => some []
  | fuel + 1, o, left =>
    if left = 0 then some []
    else
      let h := le b o 8
      let at0 := bitsAt h 0 21
      let n := bitsAt h 32 22
      let len := 8 + (n + 7) / 8 * 8
      if left < 8 ∨ bitsAt h 21 11 ≠ 0 ∨ bitsAt h 54 10 ≠ 0 ∨ n = 0 ∨ left < len ∨ 0x200000 < at0 + n ∨ inRegion b at0 n
          ∨ !allZero b (o + 8 + n) (len - 8 - n) then none
      else (dataRecords b fuel (o + len) (left - len)).map (fun l => (at0, o + 8, n) :: l)

def dataOf (b : Nat → Nat) : Option (List (Nat × Nat × Nat)) :=
  dataRecords b (secSize b 4 / 16 + 1) (secOfs b 4) (secSize b 4)

/-- The place of a window entry in a table. -/
def entryPlace (e : Nat) : Nat := winPlace (winClass e) (winVpn e * 2 ^ 12)

/-- An entry that WINSET would refuse because an earlier one of the list is live in its slot (R213). -/
def slotTaken (x y : Nat) : Bool := winV x && entryPlace x = entryPlace y

def windowsBad (s : State) (b : Nat → Nat) : Bool :=
  secSize b 5 % 16 ≠ 0 || 4096 * 16 < secSize b 5 || (windowsOf b).any (fun e => installCause s [] e ≠ 0)
    || anyPair slotTaken (windowsOf b)

def grantsOf (b : Nat → Nat) : List Nat := (List.range (secSize b 6 / 8)).map (fun i => le b (secOfs b 6 + 8 * i) 8)

def grantsBad (b : Nat → Nat) : Bool :=
  secSize b 6 % 8 ≠ 0 || 64 * 8 < secSize b 6
    || (grantsOf b).any (fun e => bitsAt e 44 1 = 1
        && (0x7FFF < bitsAt e 15 15 + bitsAt e 0 15 || inRegion b (bitsAt e 15 15 * 64) ((bitsAt e 0 15 + 1) * 64)))

/-- Ring entries: index and word (Table 11.5). -/
def ringsOf (b : Nat → Nat) : List (Nat × Nat) :=
  (List.range (secSize b 7 / 16)).map (fun i => (le b (secOfs b 7 + 16 * i) 8, le b (secOfs b 7 + 16 * i + 8) 8))

def ringFrom (w : Nat) : Ring :=
  { base := bitsAt w 0 21, nslot := bitsAt w 40 8 + 1, slotb := bitsAt w 24 16 * 64, head := 0, tail := 0 }

/-- What RINGSET.def would refuse. -/
def ringBad (b : Nat → Nat) (w : Nat) : Bool :=
  let r := ringFrom w
  bitsAt w 48 16 ≠ 0 || bitsAt w 21 3 ≠ 0 || r.slotb = 0 || 32768 * 64 < r.slotb || r.base % 64 ≠ 0
    || 0x200000 < r.base + r.nslot * r.slotb || inRegion b r.base (r.nslot * r.slotb)

def ringsBad (b : Nat → Nat) : Bool :=
  secSize b 7 % 16 ≠ 0 || (ringsOf b).any (fun p => 15 < p.1 || ringBad b p.2)
    || anyPair (fun x y => x.1 = y.1) (ringsOf b)

def tephraBad (b : Nat → Nat) : Bool :=
  match sectOf b 8 with
  | none => false
  | some x =>
    let e := le b x.ofs 4
    let i := le b (x.ofs + 4) 4
    let d := le b (x.ofs + 8) 4
    x.size < 16 || !allZero b (x.ofs + 12) 4 || i % 4 ≠ 0 || d % 4 ≠ 0 || 0x8000 < i || 0x8000 < d || e % 2 ≠ 0 || i ≤ e
      || x.size < 16 + i + d

/-- The trap vectors: class and segment of each handler. -/
def trapvOf (b : Nat → Nat) : List (Nat × Nat) :=
  if (sectOf b 9).isNone then []
  else ((List.range 9).map (fun i => (i, le b (secOfs b 9 + 4 * i) 4))).filterMap (fun p =>
    if bitsAt p.2 31 1 = 1 then some (p.1, bitsAt p.2 0 24) else none)

def trapvBad (b : Nat → Nat) : Bool :=
  match sectOf b 9 with
  | none => false
  | some x =>
    x.size ≠ 36 || (List.range 9).any (fun i => bitsAt (le b (x.ofs + 4 * i) 4) 24 7 ≠ 0)
      || (trapvOf b).any (fun p => !(chainOf b).contains p.2)

/-- Step 6. -/
def imagesBad (s : State) (b : Nat → Nat) : Bool :=
  secSize b 3 % 4 ≠ 0 || 0x40000 < secSize b 2 || (chainOf b).any (fun o => 2 ^ 24 ≤ o || segmentBad b o)
    || (dataOf b).isNone || windowsBad s b || grantsBad b || ringsBad b || tephraBad b || trapvBad b

/-- Table 15.4: the step at which an object is refused, 0 where it passes. The device's levels are those of ISAL. (Log 47: DEDUCED.) -/
def loadCause (s : State) (b : Nat → Nat) (dsize : Nat) : Nat :=
  let v := le b 4 4
  if bitsAt v 8 4 ≠ 1 then 1
  else if bitsAt v 4 4 ≠ 1 then 2
  else if bitsAt v 0 4 ≠ 1 then 3
  else if layoutBad b then 4
  else if headerBad b dsize then 5
  else if imagesBad s b then 6 else 0

/-! ## Writing (R164, R348, R350, R371) -/

/-- The bytes of a range of an object as a table from 0. -/
def bytesTab (b : Nat → Nat) (o n base : Nat) : Tab Byte :=
  ((List.range n).map (fun i => (base + i, BitVec.ofNat 8 (b (o + i))))).filter (fun p => p.2 ≠ 0)

/-- Writes the data image of a core. -/
def writeData (s : State) (b : Nat → Nat) (c : Nat) : State :=
  ((dataOf b).getD []).foldl (fun x p =>
    clearPoison (putBytes x (scratch c + p.1) (bytesOf b p.2.1 p.2.2)) (scratch c + p.1) p.2.2) s

/-- Sets every scratchpad word of a core full (R200). -/
def fillScratch (s : State) (c : Nat) : State :=
  { s with empty := tclear s.empty (scratch c / 4) (scratchLimit c / 4) }

/-- The window table of an image. -/
def windowTab (b : Nat → Nat) : Tab Nat := (windowsOf b).foldl (fun t e => tput 0 t (entryPlace e) e) []

def trapvTab (b : Nat → Nat) : Tab Nat := (trapvOf b).foldl (fun t p => tset t p.1 p.2) []

/-- A preload written to a thread. -/
def preload (th : Thread) (p : Preload) : Thread :=
  if p.1 = 0 then { th with sregs := putSreg th.sregs p.2.1 { body := BitVec.ofNat 64 p.2.2, tail := 0 } }
  else { th with aregs := tput 0 th.aregs p.2.1 (BitVec.ofNat 72 p.2.2) }

/-- Tephra core `k` of a core with the object's own image (R302, R355, Table 12.1). (Log 47: DEDUCED.) -/
def ownTephra (s : State) (b : Nat → Nat) (c k : Nat) : Tephra :=
  let o := secOfs b 8
  let i := le b (o + 4) 4
  freshTephra
    { imem := bytesTab b (o + 16) i 0, dmem := bytesTab b (o + 16 + i) (le b (o + 8) 4) 0x10000, entry := le b o 4,
      std := false } k (coord s c)

/-- The tephra cores of a core whose images have been written: they begin at the release (R302). -/
def releasedTephras (s : State) (b : Nat → Nat) (c : Nat) : Tab Tephra :=
  (if (sectOf b 8).isSome then [0, 1].map (fun k => (k, ownTephra s b c k)) else stdTephras (coord s c)).map
    (fun p => (p.1, { p.2 with saveWait := true }))

/-- The thread of slot `t` before its release. -/
def newThread (b : Nat → Nat) (g : Gang) (ps : List Preload) (c t : Nat) : Thread :=
  let lane := rankIn g c * 8 + t
  let th : Thread :=
    { nv := hNv b, next := hEntry b * 32
      wid := if !g.dist && lane < itemsOf g then BitVec.ofNat 64 (widOf g lane) else noItem }
  ps.foldl preload th

/-- Writes one core of gang `n` (R371, step 5). No access is outstanding for its new threads and tephra cores (R301).
(Log 47: DEDUCED.) -/
def writeCore (b : Nat → Nat) (n : Nat) (ps : List Preload) (s : State) (c : Nat) : State :=
  let g := gang s n
  let s1 := writeData (writeCode (fillScratch s c) c g.code g.codeLen) b c
  let rings := (ringsOf b).foldl (fun t p => tset t p.1 (ringFrom p.2)) []
  let grants := ((List.range 64).zip (grantsOf b)).foldl (fun t p => tput 0 t p.1 p.2) []
  let k : Core :=
    { threads := (slotsOf g.slotm).map (fun t => (t, newThread b g ps c t))
      tsz := hTsz b, windows := windowTab b, grants := grants, trapv := trapvTab b, gang := some n, pre := g.pre
      eng := { rings := rings, mcap := g.mcap }
      tes := releasedTephras s b c
      codeBad := (core s1 c).codeBad }
  setCore (forsake (requeueShares s1 c) c (fun _ => true)) c k

/-- A launch of no items holds its cores and reads no image (R166); what the front end writes without one it writes (R200,
R371). The slots keep the DONE threads of the gang before. (Log 47: DEDUCED; log 99: DESIGN CHOICE.) -/
def holdCore (n : Nat) (s : State) (c : Nat) : State :=
  let g := gang s n
  modCore (fillScratch s c) c (fun k => { k with gang := some n, pre := g.pre, eng := { k.eng with mcap := g.mcap } })

/-- The number of a new gang. (Log 47: DEDUCED.) -/
def freeGang (s : State) : Nat := ((List.range (s.gangs.length + 1)).find? (fun n => (tfind s.gangs n).isNone)).getD 0

/-- Whether local addresses meet the side storage of a die (Table 8.5). -/
def meetsSide (lo n : Nat) : Bool := (List.range 4).any (fun d => meets lo n (d * 0x1800000000 + 0x17E0000000) 0x20000000)

/-- The bytes of the race detector's three areas. -/
def raceBytes (g : Gang) : Nat := shadowBytes g + histBytes + g.raceLogLen

/-- Where the log of a new gang lies: its shadow area, histories and log are allocated from the firmware area upward, above
those in use (R268) and beyond a side storage that they would meet. (Log 31: DEDUCED.) -/
def logBase (s : State) (part farea : Nat) (new : Gang) : Nat :=
  let a := s.gangs.foldl (fun m g => if g.2.part = part ∧ g.2.raceMode ≠ 0 then max m (g.2.raceLog + g.2.raceLogLen) else m) farea
  (if meetsSide (a % 2 ^ 50) (raceBytes new) then (a + raceBytes new + 0x20000000) / 0x1800000000 * 0x1800000000 else a)
    + shadowBytes new + histBytes

/-- The gang that an object and a launch's own fields describe. -/
def gangFrom (b : Nat → Nat) (counts : List Nat) (dies : List Nat) (orgs : List (Nat × Nat)) : Gang :=
  { cols := hCols b, rows := hRows b, dies := dies, orgs := orgs, slotm := hSlotm b, widths := hWidths b
    counts := counts.take (hK b), dist := hDist b, glev := hGlev b, nbar := hNbar b, bslots := (List.range 4).map (hBslot b)
    pre := hPre b, code := bytesTab b (secOfs b 2) (secSize b 2) 0, codeLen := secSize b 2
    raceMode := hRmode b, raceBase := hRaceBase b, raceLen := hRaceLen b, raceLogLen := hLogLen b }

/-- The least multiple of 8 at or after a cycle. -/
def nextRelease (g : Nat) : Nat := (g + 7) / 8 * 8

/-- Writes a gang's cores and sets its release: 256 cycles after the last write has performed (R371, steps 4 to 6). -/
def placeGang (s : State) (b : Nat → Nat) (ps : List Preload) (g : Gang) : State :=
  let n := freeGang s
  let s1 := { s with
    gangs := tset s.gangs n g
    barriersUsed := g.dies.foldl (fun t d => tput 0 t d (tget 0 t d + g.nbar)) s.barriersUsed }
  let s2 := if itemsOf g = 0 then (coresOf g).foldl (holdCore n) s1 else (coresOf g).foldl (writeCore b n ps) s1
  let s3 := if g.raceMode ≠ 0 then putNat (expandPage s2 (keyOf s g.raceLog)) (keyOf s g.raceLog) 16 0 else s2
  let d := drawLat s3
  at' d.2 (nextRelease (s.gcyc + 1 + d.1 + 256)) .gangRelease [n]

/-! ## Release and completion (R164, R166, R169) -/

/-- A thread is released: the entry segment stands expanded in H0 (R35). -/
def startThread (s : State) (c : Nat) (th : Thread) : Thread :=
  { th with st := .run, half0 := some { expand s c (th.next / 32) with left := 0 } }

/-- The threads and tephra cores of a core start. -/
def startCore (g : Gang) (s : State) (c : Nat) : State :=
  modCore s c (fun k =>
    { k with
      threads := k.threads.map (fun p => if bitsAt g.slotm p.1 1 = 1 then (p.1, startThread s c p.2) else p)
      tes := k.tes.map (fun p => (p.1, { p.2 with saveWait := false })) })

/-- The words that remain in the receive queues of a core's threads are discarded (R184). -/
def discardWords (k : Core) : Core :=
  { k with threads := k.threads.map (fun p => (p.1, { p.2 with queues := [] })) }

/-- The words that remain in a gang's queues, and those on their way to them, are discarded (R184). -/
def emptyQueues (s : State) (n : Nat) : State :=
  { modGang s n (fun g => { g with image := g.image.map (fun p => (p.1, discardWords p.2)) }) with
    cores := s.cores.map (fun p => if p.2.gang = some n then (p.1, discardWords p.2) else p) }

/-- The gang's completion, once. -/
def completeGang (s : State) (n : Nat) : State :=
  emptyQueues (modGang s n (fun g => { g with completed := some s.gcyc })) n

/-- GANG_RELEASE [gang]: every bound thread of every rank on one value of GCYC; a gang with no work completes. -/
def execGangRelease (s : State) : Out :=
  let n := arg s 0
  .next (match tfind s.gangs n with
    | none => s
    | some g =>
      if g.released then s
      else
        let s1 := modGang s n (fun g => { g with released := true, release := s.gcyc })
        if itemsOf g = 0 then completeGang s1 n else (coresOf g).foldl (startCore g) s1)

/-- GANG_COMPLETION [gang]: the last bound task lane is complete. -/
def execGangCompletion (s : State) : Out :=
  let n := arg s 0
  .next (match tfind s.gangs n with
    | none => s
    | some g => if gangDone s g && g.completed.isNone then completeGang s n else s)

/-- Whether a command of a tephra core is the front end's and has not ended. -/
def isShare (s : State) (q : TeCmd) : Bool :=
  q.token ≠ 0 && (match tfind s.front.shares q.token with | some x => x.ended.isNone | none => false)

/-- Whether a core's freed tephra core goes on with the front end's copy that it runs. -/
def keepsTephra (s : State) (c k : Nat) : Bool :=
  (tephra s c k).std && (match (tephra s c k).cur with | some q => isShare s q | none => false)

/-- A tephra core that a gang leaves: the standard image is written and begins (R302); the front end's copies on a standard
image go on, a thread's commands are gone. (Log 48: DEDUCED.) -/
def freeTephra (s : State) (c k : Nat) : Tephra :=
  let te := tephra s c k
  let new : Tephra := freshTephra {} k (coord s c)
  if !te.std then new
  else if keepsTephra s c k then { te with queue := te.queue.filter (isShare s) }
  else { new with queue := te.queue.filter (isShare s) }

/-- The default window table of the partition of a core (PWIN). -/
def defaultWindows (s : State) (c : Nat) : Tab Nat :=
  match (partOfCore s c).bind (fun n => tfind s.front.parts n) with
  | some p => p.wins
  | none => []

/-- A core that its gang leaves: its registers and memories stay as they are, but the words of its receive queues (R184); its
window table is its partition's (R373), and its tephra cores run the standard image. The accesses of the gang's threads and
of a tephra core with a new image are outstanding for no one (R301). (Log 48: DEDUCED.) -/
def freeCore (s0 : State) (c : Nat) : State :=
  let s := forsake s0 c (fun f => f.who < 8 || !keepsTephra s0 c (f.who - 8))
  let s1 := modCore s c (fun k =>
    { discardWords k with gang := none, pre := false, windows := defaultWindows s c
                          tes := [0, 1].map (fun i => (i, freeTephra s c i)) })
  { s1 with agenda := s1.agenda.filter (fun e => !(e.instr = .channelWordArrival && e.args.getD 0 0 = c)) }

/-- The far accesses of gang `n`'s threads and tephra cores; one that was cancelled performs no more. -/
def gangFlights (s : State) (n : Nat) : List (Nat × Flight) :=
  s.flights.filter (fun p => !p.2.cancelled && !p.2.gone && !isPeer p.2
    && (p.2.core / 2 ^ 32 = n + 1
      || ((core s p.2.core).gang = some n && (p.2.who < 8 || !keepsTephra s p.2.core (p.2.who - 8)))))

/-- Whether an event is about gang `n` alone. -/
def aboutGang (n : Nat) (e : Event) : Bool :=
  match e.instr with
  | .gangRelease => e.args.getD 0 0 = n
  | .gangCompletion => e.args.getD 0 0 = n
  | .barrierRelease => e.args.getD 0 0 = n
  | .contextSaveComplete => e.args.getD 0 0 = 0x100000 + n
  | .contextRestoreComplete => e.args.getD 0 0 = 0x100000 + n
  | _ => false

/-- The cores and barrier contexts of a gang are freed (R371, step 7). (Log 48: DEDUCED.) -/
def dropGang (s : State) (n : Nat) : State :=
  let g := gang s n
  let held := (coresOf g).filter (fun c => (core s c).gang = some n)
  let s1 := (coresOf g).foldl (fun x c => forsake x (awayMark n c) (fun _ => true)) (held.foldl freeCore s)
  { s1 with
    gangs := tdel s1.gangs n
    barriersUsed := g.dies.foldl (fun t d => tput 0 t d (tget 0 t d - g.nbar)) s1.barriersUsed
    agenda := s1.agenda.filter (fun e => !aboutGang n e)
    front := { s1.front with kept := tdel s1.front.kept n } }

/-! ## Service cores (R328) -/

/-- Whether the service image can be loaded: a launch header, code store and chain table, and optionally data, window and
trap-vector sections. (Log 71: DEDUCED.) -/
def serviceOk (s : State) (b : Nat → Nat) : Bool :=
  bitsAt (le b 4 4) 0 12 = 0x111 && !layoutBad b && (sectsOf b).all (fun x => [1, 2, 3, 4, 5, 9].contains x.typ)
    && !headerBad b 0 && !imagesBad s b && ((dataOf b).getD []).all (fun p => p.1 + p.2.2 ≤ 0x80000)

/-- Writes one service core. -/
def writeService (b : Nat → Nat) (s : State) (c : Nat) : State :=
  let s1 := writeData (writeCode (fillScratch s c) c (bytesTab b (secOfs b 2) (secSize b 2) 0) (secSize b 2)) b c
  let th : Thread := { nv := hNv b, next := hEntry b * 32 }
  setCore s1 c { threads := (slotsOf (hSlotm b)).map (fun t => (t, th)), windows := windowTab b, trapv := trapvTab b,
                 codeBad := (core s1 c).codeBad }

/-- The sixteen service cores. -/
def serviceCores : List Nat := (List.range 16).map (fun i => 512 + i)

/-- Writes the service image into the service cores; a refused one is not written. (Log 71: DEDUCED.) -/
def writeServices (s : State) : State :=
  let b := fun i => s.board.serviceImage.getD i 0
  if serviceOk s b then serviceCores.foldl (writeService b) s else s

/-- Releases every slot that the service image binds, on one value of GCYC. -/
def releaseServices (s : State) : State :=
  serviceCores.foldl (fun x c =>
    modCore x c (fun k => { k with threads := k.threads.map (fun p => (p.1, startThread x c p.2)) })) s

end Sys2Proof.Machine
end

