-- ==== Sys2Proof/Machine/Links.lean ====
section
/-! DEFINITION. The links: conduit packets and failures, the time word, node sets and their streams, the states of an edge
group, link deaths and the requests of peers (R391 to R411). -/

namespace Sys2Proof.Machine

/-! ## Retirement of commands (R367, R368) -/

/-- Command `seq` of queue `q`, accepted and not retired. -/
def command (s : State) (q seq : Nat) : Option Command := (queue s q).cmds.find? (fun k => k.seq = seq)

/-- Its completion (Table 17.8); `after`: the accesses that must be complete at system scope first. -/
def completionOf (s : State) (k : Command) (status cause detail value : Nat) (after : List Nat) : Completion :=
  { cmdseq := k.seq, kind := k.kind, detail := detail, cause := cause, status := status, value := value
    quiet := bitsAt k.flags 2 1 = 1 && status = 0, notify := bitsAt k.flags 1 1 = 1, frame := s.front.frames, after := after }

/-- A command retires; one that is not there any more has its completion already. (Log 8: DESIGN CHOICE.) -/
def retireCmd (s : State) (q seq status cause detail value : Nat) (after : List Nat) : State :=
  match command s q seq with
  | none => s
  | some k =>
    modQueue s q (fun x =>
      { x with cmds := x.cmds.filter (fun k => k.seq ≠ seq)
               due := x.due ++ [completionOf s k status cause detail value after] })

/-! ## The state block (R410, Tables 18.8, 18.9) -/

/-- The state word of a group. -/
def groupWord (e : EdgeGroup) : Nat :=
  e.gen * 2 ^ 48 + e.peer * 2 ^ 40 + e.pers * 2 ^ 36 + e.tries * 2 ^ 30 + e.lanes * 2 ^ 16 + e.state * 2 ^ 8

/-- The time word. -/
def timeWord (l : Links) : Nat := l.tdom * 2 ^ 56 + (if l.talign then 2 ^ 47 else 0) + l.tskew % 2 ^ 32

/-- A word of the block, written full in every service core by vent core 0; to another die it goes as a packet of that
core's stream (R391, R394). The word arrives at the core's engine port (R198). -/
def writeBlock (s : State) (ofs v : Nat) : State :=
  serviceCores.foldl (fun x c =>
    let k := scratch c + 0x6FF00 + ofs
    conduitPacket (takePub x c k v) 0 (dieOf c) 0 (ventEndpt s 0) k 8) s

/-- Publishes the state word of a group. (Log 72: DEDUCED.) -/
def publish (s : State) (g : Nat) : State := writeBlock s (8 * g) (groupWord (edge s g))

/-- The whole block: every group's state word and the time word. -/
def publishAll (s : State) : State := writeBlock ((List.range 17).foldl publish s) 0x88 (timeWord s.links)

/-! ## Conduits (R391, R393) -/

/-- The tag on which a stream opens: its own, a free one, or that of the stream whose last packet is oldest. (Log 66: DEDUCED.) -/
def tagFor (s : State) (ch src dst : Nat) : Nat :=
  let l := contextsOf s ch
  match l.find? (fun p => p.2.src = src && p.2.dst = dst) with
  | some p => p.1 % 65536
  | none =>
    if l.length < 4096 then ((List.range 4096).find? (fun n => !l.any (fun p => p.1 % 65536 = n))).getD 0
    else (l.foldl (fun (m : Nat × Nat) p => if p.2.used < m.2 then (p.1 % 65536, p.2.used) else m)
      ((l.head?.map (fun p => (p.1 % 65536, p.2.used))).getD (0, 0))).1

/-- A packet's context after it: the stream and the address that follows. (Log 66: DEDUCED.) -/
def setContext (s : State) (ch tag src dst next : Nat) : State :=
  { s with links := { s.links with
      contexts := tset s.links.contexts (ch * 65536 + tag) { src := src, dst := dst, next := next, used := s.gcyc } } }

/-- OPEN_PACKET [channel, source, destination die, address, bytes]; a channel is a virtual channel of one conduit direction. -/
def execOpenPacket (s : State) : Out :=
  .next (setContext s (arg s 0) (tagFor s (arg s 0) (arg s 1) (arg s 2)) (arg s 1) (arg s 2) (arg s 3 + arg s 4))

/-- CONT_PACKET, of a stream that has a context. -/
def execContPacket (s : State) : Out :=
  .next (if (contextsOf s (arg s 0)).any (fun p => p.2.src = arg s 1 && p.2.dst = arg s 2) then
      setContext s (arg s 0) (tagFor s (arg s 0) (arg s 1) (arg s 2)) (arg s 1) (arg s 2) (arg s 3 + arg s 4)
    else s)

/-- CLOSE_PACKET [channel, tag]: the context is free. (Log 66: DEDUCED.) -/
def execClosePacket (s : State) : Out :=
  .next { s with links := { s.links with contexts := tdel s.links.contexts (arg s 0 * 65536 + arg s 1) } }

/-- The die at which a far access is served. -/
def servedAt (s : State) (f : Flight) : Nat :=
  homeDie f.home (match f.group with | some g => g | none => (gateGroup s f.key (srcOf s f)).getD 0)

/-- Whether anything inside the module acts: it is supplied and RST_N is not asserted (R421). -/
def outOfReset (s : State) : Bool := s.board.supply && !s.board.rst

/-- A far access that waits beyond a failed conduit receives LINKDOWN. -/
def cutWaiting (s : State) (p : Nat × Flight) : State :=
  if (p.2.st = .waiting || p.2.st = .refused) && conduitDown s (srcDie p.2) (servedAt s p.2) then
    answer (setRetry s p.2.home ((retryOf s p.2.home).filter (fun x => x ≠ p.1))) p.1 p.2 0xC0 0 0
  else s

/-- CONDUIT_FAILURE [boundary] (R393); in reset no conduit runs (R421). (Log 33: DEDUCED.) -/
def execConduitFailure (s : State) : Out :=
  let b := arg s 0
  if s.links.failed.contains b || !outOfReset s then .next s
  else
    let s1 := report0 { s with links := { s.links with failed := b :: s.links.failed } } 0xC0 (0x80 + b)
    let cut := fun (e : Event) => e.instr = .barrierRelease && (match tfind s1.gangs (e.args.getD 0 0) with
      | some g => gangCut s1 g
      | none => false)
    let s2 := { s1 with agenda := s1.agenda.filter (fun e => !cut e) }
    .next (s2.flights.foldl cutWaiting s2)

/-! ## Time (R398) -/

/-- TIME_SYNC_EXCHANGE: every group with TSYNC measures the offset to its peer; the greatest is published. -/
def execTimeSyncExchange (s : State) : Out :=
  let gs := (List.range 16).filter (fun g => (edge s g).tsync && (edge s g).state = 0)
  let r := gs.foldl (fun (acc : State × Nat) _ => let d := drawLat acc.1; (d.2, max acc.2 (d.1 % 2 ^ 32))) (s, 0)
  let s1 := if gs = [] then s
    else
      let l := { r.1.links with tskew := r.2, talign := r.1.links.talign && r.2 ≤ 64 }
      writeBlock { r.1 with links := l } 0x88 (timeWord l)
  .next (at' s1 (s.gcyc + 2 ^ 20) .timeSyncExchange [])

/-! ## Node sets and streams (R396, R397) -/

def nodeOfKey (k : Nat) : Nat := (k - 2 ^ 60) / 2 ^ 50

/-- Holds the streams whose element changes with the node sets from `s0` on; each resumes when its requests on the old
group are complete. -/
def holdStreams (s0 s : State) : State :=
  s.flights.foldl (fun x p =>
    let f := p.2
    let st := (srcOf s f, nodeOfKey f.key)
    if f.group.isSome && !isPeer f && 2 ^ 60 ≤ f.key && nodeSet s0 st.2 ≠ nodeSet s st.2 && nodeSet s st.2 ≠ []
        && groupFor s f.key st.1 ≠ f.group && !x.links.heldStreams.contains st then
      at' { x with links := { x.links with heldStreams := st :: x.links.heldStreams } } (x.gcyc + 1) .streamResume [st.1, st.2]
    else x) s

/-- The streams of the nodes that group `g` alone served stay bound to it. -/
def bindStreams (g mask : Nat) (s : State) : State :=
  ((List.range 1024).filter (fun n => bitsAt mask n 1 = 1 && nodeSet s n = [])).foldl (fun x n =>
    { x with links := { x.links with bound := tset x.links.bound n g } }) s

/-- STREAM_RESUME [source, node]. (Log 63: DEDUCED.) -/
def execStreamResume (s : State) : Out :=
  let st := (arg s 0, arg s 1)
  if s.flights.any (fun p => p.2.group.isSome && 2 ^ 60 ≤ p.2.key && (srcOf s p.2, nodeOfKey p.2.key) = st) then
    .next (at' s (s.gcyc + 1) .streamResume [st.1, st.2])
  else .next { s with links := { s.links with heldStreams := s.links.heldStreams.filter (fun x => x ≠ st) } }

/-! ## States of a group (R408, Table 18.6) -/

/-- A change of a group's state, published. -/
def enter (s : State) (g : Nat) (f : EdgeGroup → EdgeGroup) : State := publish (modEdge s g f) g

/-- A group leaves ACTIVE: it leaves every node set in this cycle. -/
def leaveActive (s : State) (g st : Nat) : State :=
  let s1 := enter s g (fun e => { e with state := st })
  if (edge s g).state = 0 ∧ ((edge s g).pers = 2 ∨ (edge s g).pers = 3) then
    holdStreams s (bindStreams g (edge s g).nmask s1)
  else s1

/-- Drops the events of a group that a change of state overtakes. -/
def dropEvents (s : State) (g : Nat) : State :=
  { s with agenda := s.agenda.filter (fun e =>
      !((e.instr = .drainComplete || e.instr = .drainTimeout || e.instr = .quiesceAcknowledged || e.instr = .enumerationDone
        || e.instr = .mapDone) && e.args = [g])) }

/-- Requests of the peer that wait at homes leave their retry lists, performed zero times (R408). -/
def dropInbound (s : State) (g : Nat) : State :=
  (s.flights.filter (fun p => p.2.core = 0x10000 + g && p.2.st ≠ .served)).foldl (fun x p =>
    dropFlight (forgetSeen (setRetry x p.2.home ((retryOf x p.2.home).filter (fun n => n ≠ p.1)))
      (streamKey g (p.2.aword % 2 ^ 22)) p.2.issued) p.1) s

/-- The start of DOWN: the lanes will be reconfigured. -/
def goDown (s : State) (g : Nat) : State :=
  later (dropInbound (enter (dropEvents s g) g (fun e => { e with state := 3, lanes := 0 })) g) [] .lanesReconfigured [g]

/-- The start of TRAIN in the new personality, and of each further attempt. (Log 62: DESIGN CHOICE.) -/
def attempt (s : State) (g : Nat) : State :=
  let d := drawChoice s
  later d.2 [] (if d.1 then .linkTrained else .trainingFailed) [g]

def goTrain (s : State) (g : Nat) : State := attempt (enter s g (fun e => { e with state := 4, pers := e.newPers })) g

/-- Every SWITCH that waits for a group completes. -/
def endSwitch (s : State) (g status cause : Nat) : State :=
  (edge s g).req.foldl (fun x seq => retireCmd x 0 seq status cause 0 0 []) (modEdge s g (fun e => { e with req := [] }))

/-- Accesses that are on their way to a group and have not been sent. -/
def unsent (s : State) (g : Nat) : Bool :=
  s.flights.any (fun p => !isPeer p.2 && p.2.group.isNone && !p.2.replied && isBeyond p.2.key
    && gateGroup s p.2.key (srcOf s p.2) = some g)

/-- QUIESCE_ACKNOWLEDGED [group]: no core issues to it any more. -/
def execQuiesceAcknowledged (s : State) : Out :=
  let g := arg s 0
  if (edge s g).state ≠ 1 then .next s
  else
    let s1 := at' (enter s g (fun e => { e with state := 2 })) (s.gcyc + 8) .drainComplete [g]
    .next (at' s1 (s.gcyc + 2 ^ 21) .drainTimeout [g])

/-- DRAIN_COMPLETE [group]: every sent access has its reply. (Log 63: DEDUCED.) -/
def execDrainComplete (s : State) : Out :=
  let g := arg s 0
  .next (if (edge s g).state ≠ 2 then s
    else if s.flights.any (fun p => p.2.group = some g && !p.2.replied) || unsent s g then
      at' s (s.gcyc + 8) .drainComplete [g]
    else goDown s g)

/-- What of an access may have performed when its link failed: each element of an FVATOM that the gateway decomposes zero
times or once by itself (R265). (Log 64: DESIGN CHOICE.) -/
def tornFlight (s : State) (f : Flight) : State × Flight :=
  if f.op = .vat ∧ !hasFe s f then
    ({ s with draw := s.draw + f.elems.length },
     { f with elems := (((List.range f.elems.length).zip f.elems).filter (fun e => Config.choice (s.draw + e.1))).map (fun e => e.2) })
  else (s, f)

/-- A load whose link failed after its peer served it has no effect (Table 9.3): the words that it emptied are full again (R240).
(Log 64: DESIGN CHOICE.) -/
def unserve (s : State) (f : Flight) : State :=
  if f.op = .ld ∧ f.mode = 2 ∧ f.st = .served ∧ f.cause = 0 ∧ hasFe s f then setFulls s true (wordsOf f.key f.size) else s

/-- R227, R411: an access that was sent and has no reply: LINKDOWN for one that reads, UNKNOWN for any other, which performed
zero times or once. One that has its reply and not its acknowledgement is acknowledged. (Log 64: DESIGN CHOICE.) -/
def failFlight (g : Nat) (s : State) (p : Nat × Flight) : State :=
  let f := p.2
  if f.group ≠ some g || isPeer f then s
  else
    let s1 := setRetry s f.home ((retryOf s f.home).filter (fun x => x ≠ p.1))
    let d := drawChoice s1
    let may : Bool := f.st = .sent && d.1 && homeCause s1 f = 0 && conditionHolds s1 f && flightWrites f
    let torn := tornFlight d.2 f
    let s2 := if may then (perform torn.1 torn.2).1 else d.2
    if f.replied then later (setFlight s2 p.1 { f with st := .served }) [] .endToEndAcknowledgement [p.1, 0]
    else
      let c := if f.op = .ld ∨ f.op = .rdw ∨ (f.op = .save ∧ !f.leg2) then 0xC0 else 0x63
      later (setFlight (unserve s2 f) p.1 { f with st := .served, cause := c, acked := true }) [] .farReplyArrival [p.1]

/-- Every remaining access of a group has the outcome of R411; the full/empty bits that this changes wake what waits for
them (R238). -/
def failFlights (s : State) (g : Nat) : State :=
  let gone := fun (e : Event) => (e.instr = .farReplyArrival || e.instr = .endToEndAcknowledgement || e.instr = .homeServeAccess)
    && (match flight s (e.args.getD 0 0) with | some f => f.group = some g | none => false)
  let s1 := { s with agenda := s.agenda.filter (fun e => !gone e) }
  (s1.flights.filter (fun p => p.2.group = some g && !isPeer p.2)).foldl (fun x p => wakeAfter x p.2)
    (s1.flights.foldl (failFlight g) s1)

/-- Whether a copy share writes pages through group `g`: that of its first, of its last, or a CXL group between them. -/
def writesThrough (s : State) (g : Nat) (x : Share) : Bool :=
  let group := fun (a : Nat) => match translate s x.core (BitVec.ofNat 72 a) .write with
    | t => if t.cause = 0 ∧ isBeyond t.key then gateGroup s t.key (coord s x.core + 2 + x.te) else none
  let dst := x.desc.getD 1 0 + bitsAt (x.desc.getD 2 0) 48 8 * 2 ^ 64
  match group dst, group (dst + 4096 * bitsAt (x.desc.getD 4 0) 0 24) with
  | some a, some b => a ≤ g && g ≤ b
  | some a, none => a = g
  | none, b => b = some g

/-- A group dies: the shares of checkpoints that write through it fail with UNKNOWN (R413). -/
def markShares (s : State) (g : Nat) : State :=
  { s with front := { s.front with
      shares := s.front.shares.map (fun x =>
        if x.2.ended.isNone && writesThrough s g x.2 then (x.1, { x.2 with died := true }) else x) } }

/-- DRAIN_TIMEOUT [group]: 2^21 cycles have passed. -/
def execDrainTimeout (s : State) : Out :=
  .next (if (edge s (arg s 0)).state ≠ 2 then s else goDown (failFlights s (arg s 0)) (arg s 0))

/-- LANES_RECONFIGURED [group]. -/
def execLanesReconfigured (s : State) : Out :=
  .next (if (edge s (arg s 0)).state = 3 then goTrain s (arg s 0) else s)

/-- LINK_TRAINED [group]: one to eight lanes. (Log 62: DESIGN CHOICE.) -/
def execLinkTrained (s : State) : Out :=
  let g := arg s 0
  if (edge s g).state ≠ 4 then .next s
  else
    let d := drawLat s
    .next (later (enter d.2 g (fun e => { e with state := 5, lanes := d.1 % (if g = 16 then 16 else 8) + 1 })) [] .enumerationDone [g])

/-- TRAINING_FAILED [group]: the third attempt that fails ends in FAILED. -/
def execTrainingFailed (s : State) : Out :=
  let g := arg s 0
  if (edge s g).state ≠ 4 then .next s
  else if 2 ≤ (edge s g).tries then .next (endSwitch (enter s g (fun e => { e with tries := 3, state := 7 })) g 7 0xC0)
  else .next (attempt (enter s g (fun e => { e with tries := e.tries + 1 })) g)

/-- ENUMERATION_DONE [group]: the peer is known. (Log 62: DESIGN CHOICE.) -/
def execEnumerationDone (s : State) : Out :=
  let g := arg s 0
  if (edge s g).state ≠ 5 then .next s
  else
    let d := drawChoice s
    let peer := if (edge s g).pers = 2 ∨ (edge s g).pers = 3 then (if d.1 then 1 else 2) else 2
    .next (later (enter d.2 g (fun e => { e with state := 6, peer := peer })) [] .mapDone [g])

/-- A group that is ACTIVE again joins the node sets that it marks; none stays bound to it, and none of those nodes to another
(R396, R397, R408). -/
def joinSets (g : Nat) (s : State) : State :=
  let joins : Bool := (edge s g).pers = 2 || (edge s g).pers = 3
  { s with links := { s.links with
      bound := s.links.bound.filter (fun p => p.2 ≠ g && !(joins && bitsAt (edge s g).nmask p.1 1 = 1)) } }

/-- MAP_DONE [group]: ACTIVE. -/
def execMapDone (s : State) : Out :=
  let g := arg s 0
  if (edge s g).state ≠ 6 then .next s
  else
    let s1 := enter s g (fun e => { e with state := 0, gen := (e.gen + 1) % 65536 })
    .next (endSwitch (holdStreams s (joinSets g s1)) g 0 0)

/-! ## SWITCH (R407, Tables 18.5, 18.7) -/

/-- The bytes of a record in the admin queue's memory. -/
def recordAt (s : State) (a n : Nat) : Nat := le (visByte s) (keyOf s a) n

/-- Whether a configuration record breaks Table 18.7. -/
def configBad (s : State) (pers r : Nat) : Bool :=
  bitsAt r 9 55 ≠ 0 || bitsAt r 256 256 ≠ 0 || bitsAt r (512 + s.node) 1 ≠ 0 || bitsAt r 252 4 ≠ 0
    || (pers = 2 && (bitsAt r 64 128 ≠ s.node || bitsAt r 192 64 ≠ 0))

/-- The status with which a SWITCH is refused, 0 where it begins. -/
def switchRefused (s : State) (g a : Nat) : Nat :=
  let pers := a % 16
  let cfg := bitsAt a 6 54
  if 15 < g ∨ pers = 0 ∨ 3 < pers ∨ bitsAt a 60 4 ≠ 0 ∨ bitsAt a 4 2 ≠ 0 then 1
  else if pers = 1 ∧ cfg ≠ 0 then 1
  else if pers ≠ 1 ∧ configBad s pers (recordAt s (64 * cfg) 192) then 1
  else if (edge s g).state ≠ 0 ∧ (edge s g).state ≠ 3 ∧ (edge s g).state ≠ 7 then 2 else 0

/-- The configuration that a SWITCH gives a group. -/
def configure (s : State) (g seq a : Nat) : State :=
  let pers := a % 16
  let r := if pers = 1 then 0 else recordAt s (64 * bitsAt a 6 54) 192
  let s1 := modEdge s g (fun e =>
    { e with newPers := pers, req := e.req ++ [seq], tries := 0, tsync := bitsAt r 8 1 = 1, tdom := bitsAt r 0 8
             addr := bitsAt r 64 128, ntab := bitsAt r 192 60 })
  if bitsAt r 8 1 = 1 then
    let l := { s1.links with tdom := bitsAt r 0 8 }
    writeBlock { s1 with links := l } 0x88 (timeWord l)
  else s1

/-- SWITCH of queue 0 [0, SEQ]. -/
def execSwitch (s : State) : Out :=
  match command s 0 (arg s 1) with
  | none => .next s
  | some k =>
    let g := k.args.getD 0 0
    let a := k.args.getD 1 0
    let n := switchRefused s g a
    let mask := if a % 16 = 1 then 0 else bitsAt (recordAt s (64 * bitsAt a 6 54) 192) 512 1024
    .next (if n ≠ 0 then retireCmd s 0 k.seq n 0 0 0 []
      else if (edge s g).state = 0 then
        laterIn (modEdge (leaveActive (configure s g k.seq a) g 1) g (fun e => { e with nmask := mask }))
          (250 * s.board.clk) .quiesceAcknowledged [g]
      else goTrain (modEdge (configure s g k.seq a) g (fun e => { e with nmask := mask })) g)

/-! ## Link deaths (R411) -/

/-- A group whose link was up goes down at once and retrains. (Log 63: DEDUCED.) -/
def linkDies (s : State) (g : Nat) : State :=
  if (edge s g).state = 3 ∨ (edge s g).state = 4 ∨ (edge s g).state = 7 then s
  else
    let s1 := leaveActive (markShares s g) g 3
    goDown (failFlights (modEdge s1 g (fun e => { e with newPers := if e.req ≠ [] then e.newPers else e.pers, tries := 0 })) g) g

/-- LINK_DEATH [group]: the link or transport layer reports an unrecoverable failure. (Log 65: DESIGN CHOICE.) -/
def execLinkDeath (s : State) : Out := .next (linkDies s (arg s 0))

/-- ACKNOWLEDGEMENT_TIMEOUT [group]: no acknowledgement has arrived on the link for 2^20 cycles. (Log 65: DESIGN CHOICE.) -/
def execAcknowledgementTimeout (s : State) : Out := .next (linkDies s (arg s 0))

/-! ## Requests of peers (R396, R399 to R403) -/

/-- Whether a range lies in some partition's DRAM range, to which side storage does not belong (R363, R396). -/
def inSomeRange (s : State) (k n : Nat) : Bool :=
  s.front.parts.any (fun p => p.2.dbase % 2 ^ 50 ≤ k && k + n ≤ p.2.dbase % 2 ^ 50 + p.2.dsize) && !meetsSide k n

/-! ### Side storage as the host sees it (R217, Table 8.5) -/

/-- The page whose compression record holds a byte of side storage. (Log 94: DEDUCED.) -/
def recordPage (k : Nat) : Option Nat :=
  let o := k % 0x1800000000
  if isDram k ∧ k < 0x6000000000 ∧ 0x17E0000000 ≤ o ∧ o < 0x17F8000000 then some (k / 0x1800000000 * 0x1800000 + (o - 0x17E0000000) / 16)
  else none

/-- A byte of side storage: one of a record, or plain. -/
def sideByte (s : State) (k : Nat) : Nat :=
  match recordPage k with
  | some p => bitsAt (tget plainPage s.pages p) (8 * (k % 16)) 8
  | none => (getByte s k).toNat

/-- A byte written there. -/
def putSide (s : State) (k b : Nat) : State :=
  match recordPage k with
  | some p =>
    let r := tget plainPage s.pages p
    { s with pages := tput plainPage s.pages p (r - bitsAt r (8 * (k % 16)) 8 * 2 ^ (8 * (k % 16)) + b % 256 * 2 ^ (8 * (k % 16))) }
  | none => putByte s k (BitVec.ofNat 8 b)

/-- A host access that meets side storage: its bytes, or what it writes, if no poison turns it away (R206). (Log 94: DEDUCED.) -/
def serveSide (s : State) (id : Nat) (f : Flight) : State :=
  if poisonCause s f ≠ 0 then answer s id f (poisonCause s f) 0 0
  else if f.op = .ld then answer s id f 0 (leNat ((List.range f.size).map (fun i => sideByte s (f.key + i)))) 0
  else answer (clearPoison (((List.range f.size).zip f.data).foldl (fun x p => putSide x (f.key + p.1) p.2) s) f.key f.size) id f 0 0 0

/-- Whether this device serves a request of `n` bytes at `key` from group `g`; the host group reaches DRAM alone. (Log 67: DEDUCED.) -/
def peerReaches (s : State) (g key n : Nat) : Bool :=
  let e := edge s g
  e.state ≤ 1
    && (if g = 16 then key + n ≤ 0x6000000000
        else (e.pers = 2 || e.pers = 3)
          && (if isDram key then key + n ≤ 0x6000000000
              else 0x3000000000000 ≤ key && key + n ≤ 0x3000040000000))

/-- The elements of a native peer's FVATOM: two or four bytes each, with the tails in the same order, a byte each. -/
def peerElems (code n v tails : Nat) : List (Nat × Held) :=
  let w := if code = 1 then 2 else 4
  (List.range (n / w)).map (fun i => (w * i, ⟨bitsAt v (8 * w * i) (8 * w), bitsAt tails (8 * i) 2⟩))

/-- What the standard of a group lets a peer ask for (Table 18.3): kind 0 reads, 1 writes, 2 is an atomic, 3 a compare-and-swap
(the upper half of the value against the lower); 4, an FVATOM, and 5, a packed write, are those of native peers. -/
def peerSupports (s : State) (g kind n aop : Nat) : Bool :=
  let native : Bool := (edge s g).peer = 1 && g ≠ 16
  n ≠ 0 && (if native ∨ g = 16 ∨ (edge s g).pers ≠ 2 then true else n ≤ 256) && !(g = 16 && 1 < kind) && kind ≤ 5
    && (kind ≤ 1 || 4 ≤ kind || n = 4 || n = 8) && (kind ≠ 4 || (native && n ≤ 128)) && (kind ≠ 5 || native) && (kind ≠ 2 || aop ≤ 9)
    && (native || kind ≠ 2 || aop = 0 || aop = 8)

/-- The access that a peer's request makes (R401, R403). -/
def peerFlight (s : State) (g : Nat) : Flight :=
  let k := arg s 2
  let n := arg s 3
  let native : Bool := (edge s g).peer = 1 && g ≠ 16
  let op : FarOp := match arg s 1 with | 0 => .ld | 1 => .st | 4 => .vat | 5 => .st | _ => .atom
  let part := s.front.parts.find? (fun p => p.2.dbase % 2 ^ 50 ≤ k && k < p.2.dbase % 2 ^ 50 + p.2.dsize)
  let listed : Bool := match part with
    | some p => (List.range 4).any (fun i => bitsAt p.2.rawp (16 * i) 16 = 0x8000 + bitsAt (arg s 6) 12 10)
    | none => false
  { core := 0x10000 + g, who := 15, op := op, mode := if native then arg s 5 else 0, size := n, key := k, home := homeOf k
    code := if op = .vat then arg s 7 % 2 else (if n = 8 then 1 else 0) + (if arg s 1 = 2 ∧ 9 ≤ arg s 7 then 2 else 0)
    aop := if arg s 1 = 3 then 10 else arg s 7
    data := leBytes n (arg s 4), operand := ⟨arg s 4, arg s 9 % 4⟩, elems := peerElems (arg s 7 % 2) n (arg s 4) (arg s 9)
    cvp := { mode := rmodeOf (arg s 10 % 8), sat := bitsAt (arg s 10) 3 1 = 1, sow := false }
    aword := if native then arg s 6 else arg s 6 / 8 * 8, st := .sent, raw := native && arg s 8 = 1 && listed, issued := arg s 11 }

/-- INBOUND_PEER_REQUEST [group, kind, key, bytes, value, mode, source endpoint, operation, raw, tails, prefix, 1 + sequence
number or 0]. What is not served has no effect; one that a failed conduit cuts off receives LINKDOWN (R393); one of DRAM
outside every partition is denied (R396); a packed write is refused with 0x66 (R218). A request that the stream's record holds
is not performed again: it is answered from there, once it is answered at all (R406). (Log 9: DESIGN CHOICE; log 67: DEDUCED.) -/
def execInboundPeerRequest (s : State) : Out :=
  let g := arg s 0
  let kind := arg s 1
  let f := peerFlight s g
  let st := streamKey g (f.aword % 2 ^ 22)
  let told := if f.issued = 0 then none else (tget [] s.links.seen st).find? (fun p => p.1 = f.issued)
  let d := fresh s
  let die := homeDie f.home 0
  let enter := fun (x : State) => conduitPacket (setFlight x d.1 f) (srcDie f) die 0 f.aword f.key f.size
  .next (if !peerReaches s g f.key f.size || !peerSupports s g kind f.size f.aop then s
    else
      match told with
      | some (_, none) => s
      | some (_, some r) => answer (enter d.2) d.1 f 0 r.1 r.2
      | none =>
        let s2 := enter (if f.issued = 0 then d.2 else noteSeen d.2 st f.issued)
        if conduitDown s2 (srcDie f) die then answer s2 d.1 f 0xC0 0 0
        else if kind = 5 then answer s2 d.1 f 0x66 0 0
        else if g ≠ 16 ∧ isDram f.key ∧ !inSomeRange s f.key f.size then answer s2 d.1 f 0x62 0 0
        else if isDram f.key ∧ meetsSide f.key f.size then serveSide s2 d.1 f
        else serveHome s2 d.1 f)

end Sys2Proof.Machine
end

