-- ==== Sys2Proof/Machine/Front.lean ====
section
/-! DEFINITION. The front end: partitions, queues, completions, launches, copies, graphs and the executive's frames (R362 to
R386, R419). A command's row runs in the frame in which the command starts, with its queue, its SEQ and, for a node
of a graph, 1 + the node's index. -/

namespace Sys2Proof.Machine

/-! ## Status values (Table 17.7) -/

abbrev stField : Nat := 1
abbrev stRange : Nat := 2
abbrev stLoadref : Nat := 3
abbrev stNoctx : Nat := 4
abbrev stEnded : Nat := 5
abbrev stAborted : Nat := 6
abbrev stFault : Nat := 7
abbrev stLooplim : Nat := 8
abbrev stNoatt : Nat := 9

/-! ## Memory as the front end reads and writes it -/

/-- Whether the home refuses byte `a` of a write of `n` bytes at `k`: it covers a poisoned line or bank word in part (R201,
R206), or its page returns poison (Table 8.10). -/
def writeRefused (s : State) (k n a : Nat) : Bool :=
  recForm (pageRec s a) = 3 || (isPoison s a && !coversUnit k n (a / eccUnit a * eccUnit a))

/-- Writes bytes at a key; a compressed page is expanded first (R218), and what its home refuses stays unchanged. -/
def frontWrite (s : State) (k : Nat) (b : List Nat) : State :=
  let s1 := expandRange s k b.length
  if (List.range b.length).any (fun i => writeRefused s1 k b.length (k + i)) then
    let l := ((List.range b.length).zip b).filter (fun p => !writeRefused s1 k b.length (k + p.1))
    clearPoison (l.foldl (fun x p => putMem x (k + p.1) [p.2]) s1) k b.length
  else clearPoison (putMem s1 k b) k b.length

/-- `n` bytes at a device physical address. -/
def wordAt (s : State) (a n : Nat) : Nat := le (visByte s) (keyOf s a) n

/-- An object at a device physical address. -/
def objAt (s : State) (a : Nat) : Nat → Nat := fun o => visByte s (keyOf s a + o)

/-! ## Partitions (R363) -/

def partOf (s : State) (q : Nat) : Option (Nat × Partition) := s.front.parts.find? (fun p => bitsAt p.2.qmask q 1 = 1)

def setPart (s : State) (n : Nat) (p : Partition) : State :=
  { s with front := { s.front with parts := tset s.front.parts n p } }

/-- Whether `n` bytes lie in a partition's DRAM range. -/
def inDram (p : Partition) (a n : Nat) : Bool :=
  p.dbase ≤ a && a + n ≤ p.dbase + p.dsize && !meetsSide (a % 2 ^ 50) n

/-- Whether `n` bytes lie in the host memory region (R207). -/
def inHost (s : State) (a n : Nat) : Bool := a / 2 ^ 50 = s.node && 2 ^ 49 ≤ a % 2 ^ 50 && a % 2 ^ 50 + n ≤ 3 * 2 ^ 48

/-- Whether a partition contains a core. -/
def Partition.has (p : Partition) (c : Nat) : Bool := p.rects.any (fun r => rectHas r (dieOf c) (colOf c) (rowOf c))

/-- Its compute cores in ascending endpoint identifier. -/
def Partition.cores (p : Partition) : List Nat :=
  ((List.range 4).flatMap (fun d => (List.range 16).flatMap (fun x => (List.range 8).map (fun y => coreNo d x y)))).filter p.has

/-- The gangs of partition `n`. -/
def gangsIn (s : State) (n : Nat) : List (Nat × Gang) := s.gangs.filter (fun g => g.2.part = n)

/-- Whether a whole-gang save is in progress. -/
def gangSaving (s : State) (n : Nat) : Bool :=
  s.agenda.any (fun e => e.instr = .contextSaveComplete && e.args = [0x100000 + n])

/-- Whether a gang runs: released, not complete, not saved and not being saved. -/
def gangRuns (s : State) (g : Nat × Gang) : Bool :=
  g.2.released && g.2.completed.isNone && !g.2.savedAll && !gangSaving s g.1

/-! ## Graphs (R375 to R377) -/

/-- The graph of command `seq` of queue `q` that has not retired. -/
def graphOf (s : State) (q seq : Nat) : Option (Nat × Graph) :=
  s.front.graphs.find? (fun g => g.2.queue = q && g.2.seq = seq && !g.2.closed)

def setGraph (s : State) (k : Nat) (g : Graph) : State :=
  { s with front := { s.front with graphs := tset s.front.graphs k g } }

def node (g : Graph) (i : Nat) : Node := tget { st := .idle } g.nodes i

def modNode (g : Graph) (i : Nat) (f : Node → Node) : Graph := { g with nodes := tset g.nodes i (f (node g i)) }

/-- How a graph ends: the first frame decides, and in it the lowest index. -/
def Graph.fail (g : Graph) (status cause i frame : Nat) : Graph :=
  match g.ended with
  | none => { g with ended := some (status, cause, i, frame) }
  | some (_, _, j, f) => if f = frame ∧ i < j then { g with ended := some (status, cause, i, frame) } else g

/-- The count of a successor falls; one that would fall below zero ends the graph. -/
def lower (frame : Nat) (g : Graph) (i : Nat) : Graph :=
  if (node g i).count = 0 then g.fail stField 0 i frame
  else modNode g i (fun n => { n with count := n.count - 1, since := frame })

/-- The edges along which a node retires that does not re-arm: a conditional's exit edge alone (R377). -/
def exits (x : Node) : List Nat := if x.typ = 5 then (x.succs.drop 1).take 1 else x.succs

/-- Node `i` retires along some of its edges with a status. -/
def retireNode (g : Graph) (i status cause frame : Nat) (edges : List Nat) : Graph :=
  let g1 := modNode g i (fun n => { n with st := .retired, fin := none, after := [] })
  let g2 := if status = 0 then g1 else g1.fail status cause i frame
  edges.foldl (lower frame) g2

/-- A node of a graph that still runs ends. -/
def nodeDone (s : State) (q seq i status cause : Nat) : State :=
  match graphOf s q seq with
  | none => s
  | some (k, g) =>
    if (node g i).st = .running then setGraph s k (retireNode g i status cause s.front.frames (exits (node g i))) else s

/-- A node ends once some accesses have completed at system scope: its successors see every write of it (R368, R377). -/
def nodeEnds (s : State) (q seq i status cause : Nat) (after : List Nat) : State :=
  match graphOf s q seq with
  | none => s
  | some (k, g) =>
    if after = [] then nodeDone s q seq i status cause
    else if (node g i).st = .running then
      setGraph s k (modNode g i (fun n => { n with fin := some (status, cause), after := after }))
    else s

/-- The end of a command, or of a node where `n` is 1 + its index. -/
def finish (s : State) (q seq n status cause detail value : Nat) (after : List Nat) : State :=
  if n = 0 then retireCmd s q seq status cause detail value after else nodeEnds s q seq (n - 1) status cause after

/-- The arguments of a command or node; a launch node's are those of the record that it names. -/
def argsOf (s : State) (q seq n : Nat) : Option (List Nat) :=
  if n = 0 then (command s q seq).map (fun k => k.args)
  else
    match graphOf s q seq with
    | none => none
    | some (_, g) =>
      let x := node g (n - 1)
      if x.st ≠ .running then none
      else if x.typ = 1 then some ((List.range 6).map (fun i => wordAt s (x.body.getD 0 0 + 16 + 8 * i) 8))
      else some x.body

/-- A node as its 64 bytes give it (Table 17.10), of a graph of `n` nodes. -/
def parseNode (b : Nat → Nat) (n i : Nat) : Node :=
  let w := fun j => le b (64 * (i + 1) + 8 * j) 8
  let typ := bitsAt (w 0) 56 8
  let ns := bitsAt (w 0) 40 8
  let succs := (List.range (min ns 4)).map (fun k => bitsAt (w 1) (16 * k) 8)
  let bad := typ = 0 || 5 < typ || 4 < ns || bitsAt (w 0) 0 40 ≠ 0
    || (List.range 4).any (fun k => if k < ns then bitsAt (w 1) (16 * k + 8) 8 ≠ 0 else bitsAt (w 1) (16 * k) 16 ≠ 0)
    || succs.any (fun x => n ≤ x) || (typ = 5 && (ns ≠ 2 || bitsAt (w 4) 16 48 ≠ 0 || bitsAt (w 3) 34 30 ≠ 0))
    || (typ = 4 && bitsAt (w 3) 34 30 ≠ 0) || (typ = 3 && (bitsAt (w 3) 9 55 ≠ 0 || bitsAt (w 5) 16 48 ≠ 0))
  { typ := typ, npred := bitsAt (w 0) 48 8, succs := succs.filter (fun x => x < n), bad := bad
    body := (List.range 6).map (fun j => w (2 + j)), count := bitsAt (w 0) 48 8, st := .idle }

/-- RFIRST and RLAST of a conditional node. -/
def rangeOf (x : Node) : Nat × Nat := (bitsAt (x.body.getD 2 0) 0 8, bitsAt (x.body.getD 2 0) 8 8)

/-- R377: node `i` is a conditional whose re-arm edge, successor 0, does not name a node in its range. -/
def rangeBad (b : Nat → Nat) (n i : Nat) : Bool :=
  let x := parseNode b n i
  let e := b (64 * (i + 1) + 8) % 256
  x.typ = 5 && (n ≤ e || e < (rangeOf x).1 || (rangeOf x).2 < e)

/-- GRAPH [queue, SEQ]: the graph is copied into vent memory, where it takes the place of the queue's retired ones. -/
def execGraph (s : State) : Out :=
  let q := arg s 0
  let seq := arg s 1
  .next (match argsOf s q seq 0, partOf s q with
    | none, _ => s
    | some _, none => retireCmd s q seq stRange 0 0 0 []
    | some a, some (_, p) =>
      let b := objAt s (a.getD 0 0)
      let h := le b 0 8
      let n := bitsAt h 56 8 + 1
      let nodes := (List.range n).map (fun i => (i, { parseNode b n i with since := s.front.frames }))
      if !inDram p (a.getD 0 0) 64 then retireCmd s q seq stRange 0 0 0 []
      else if bitsAt h 0 32 ≠ 0 ∨ bitsAt h 32 24 = 0 ∨ !allZero b 8 56 then retireCmd s q seq stField 0 0 0 []
      else if !inDram p (a.getD 0 0) (64 * (n + 1)) then retireCmd s q seq stRange 0 0 0 []
      else if (List.range n).any (rangeBad b n) then retireCmd s q seq stField 0 0 0 []
      else
        let d := fresh { s with front := { s.front with graphs := s.front.graphs.filter (fun g => !(g.2.queue = q && g.2.closed)) } }
        setGraph d.2 d.1 { queue := q, seq := seq, loopmax := bitsAt h 32 24, nodes := nodes })

/-- The comparison of WAIT (Table 17.6): the word and whether it meets the condition. (Log 50: DEDUCED.) -/
def waitMet (s : State) (a : List Nat) : Nat × Bool :=
  let k := keyOf s (a.getD 0 0)
  let w := wordAt s (a.getD 0 0) 4
  let v := bitsAt (a.getD 1 0) 0 32
  (w, match bitsAt (a.getD 1 0) 32 2 with
    | 0 => v ≤ w
    | 1 => w = v
    | 2 => w ≠ v
    | _ => isBeyond k || (if recForm (pageRec s k) = 0 then isFull s k else bitsAt (pageRec s k) 125 1 = 1))

/-- Tests a WAIT in a frame. -/
def testWait (s : State) (q seq n : Nat) : State :=
  match argsOf s q seq n with
  | none => s
  | some a =>
    let r := waitMet s a
    if r.2 then finish s q seq n 0 0 0 r.1 [] else s

def setCmdSt (s : State) (q seq : Nat) (st : CmdSt) : State :=
  modQueue s q (fun x => { x with cmds := x.cmds.map (fun k => if k.seq = seq then { k with st := st } else k) })

/-- WAIT [queue, SEQ, node]. (Log 50: DEDUCED.) -/
def execWait (s : State) : Out :=
  let q := arg s 0
  let seq := arg s 1
  let n := arg s 2
  .next (match argsOf s q seq n with
    | none => s
    | some a =>
      let x := a.getD 0 0
      let inside : Bool := inHost s x 4 || (match partOf s q with | some (_, p) => inDram p x 4 | none => false)
      if bitsAt (a.getD 1 0) 34 30 ≠ 0 ∨ x % 4 ≠ 0 then finish s q seq n stField 0 0 0 []
      else if !inside then finish s q seq n stRange 0 0 0 []
      else testWait (setCmdSt s q seq .waiting) q seq n)

/-- A host-notify node (R376): its bytes go to the host ring, and a record of it is due. -/
def notifyNode (s : State) (p : Partition) (k : Nat) (g : Graph) (i : Nat) : State :=
  let x := node g i
  let bytes := bitsAt (x.body.getD 1 0) 0 9 + 1
  let slots := bitsAt (x.body.getD 3 0) 0 16 + 1
  let size := (bytes + 63) / 64 * 64
  let ring := x.body.getD 2 0
  let bad := fun (st : Nat) => setGraph s k (retireNode g i st 0 s.front.frames x.succs)
  if ring % 4096 ≠ 0 ∨ !inHost s ring 64 ∨ !inDram p (x.body.getD 0 0) bytes then bad stField
  else
    let s1 := frontWrite s (keyOf s ring + size * (x.counter % slots)) (bytesOf (objAt s (x.body.getD 0 0)) 0 bytes)
    let c : Completion :=
      { cmdseq := g.seq, kind := 0xF0, detail := i, cause := 0, status := 0, value := x.counter, quiet := false
        notify := match command s g.queue g.seq with | some c => bitsAt c.flags 1 1 = 1 | none => false
        frame := s.front.frames, after := [], host := true }
    setGraph (modQueue s1 g.queue (fun q => { q with due := q.due ++ [c] })) k
      (modNode g i (fun n => { n with st := .running, counter := n.counter + 1 }))

/-- A conditional node (R377) whose range has come to rest re-arms it. -/
def tryRearm (g : Graph) (i frame : Nat) : Graph :=
  let x := node g i
  let r := rangeOf x
  let inR := fun (j : Nat) => r.1 ≤ j && j ≤ r.2
  let quiet := g.nodes.all (fun n => !inR n.1 || n.1 = i || n.2.st = .retired || n.2.st = .idle)
  if x.st ≠ .rearming || !quiet then g
  else
    let g1 := { g with
      rearms := g.rearms + 1
      nodes := g.nodes.map (fun n =>
        if inR n.1 then (n.1, { n.2 with count := n.2.npred, st := .idle, since := frame })
        else if n.1 = i then (n.1, { n.2 with st := .retired }) else n) }
    lower frame g1 (x.succs.getD 0 0)

/-- A conditional node starts. -/
def condNode (s : State) (p : Partition) (g : Graph) (i : Nat) : Graph :=
  let x := node g i
  let a := x.body.getD 0 0
  let w := wordAt s a 4
  let v := bitsAt (x.body.getD 1 0) 0 32
  let holds : Bool := match bitsAt (x.body.getD 1 0) 32 2 with
    | 0 => w = v
    | 1 => w ≠ v
    | 2 => w < v
    | _ => v ≤ w
  if !inDram p a 4 then retireNode g i stField 0 s.front.frames (exits x)
  else if holds ∧ g.rearms < g.loopmax then tryRearm (modNode g i (fun n => { n with st := .rearming })) i s.front.frames
  else retireNode { g with limit := g.limit || holds } i 0 0 s.front.frames (exits x)

/-- A launch node's record must be a plain LAUNCH. -/
def launchRecord (s : State) (p : Partition) (a : Nat) : Nat :=
  if !inDram p a 64 then stRange else if wordAt s (a + 8) 8 ≠ 1 then stField else 0

/-- Whether node `i` of a graph is left for a later frame: it is ready since this one, and starts within one frame (R378).
(Log 95: DESIGN CHOICE.) -/
def leftForLater (s : State) (x : Node) : Bool × State :=
  if x.since = s.front.frames then drawChoice s else (false, s)

/-- Starts node `i` of graph `k` if it is ready. (Log 51: DEDUCED; log 95: DESIGN CHOICE.) -/
def startNode (p : Partition) (k : Nat) (s0 : State) (i : Nat) : State :=
  match tfind s0.front.graphs k with
  | none => s0
  | some g =>
    let x := node g i
    if x.st ≠ .idle || x.count ≠ 0 || g.ended.isSome then s0
    else
    let d := leftForLater s0 x
    let s := d.2
    let run := fun (y : Instr) =>
      at' (setGraph s k (modNode g i (fun n => { n with st := .running }))) s.gcyc y [g.queue, g.seq, i + 1]
    let bad := fun (st : Nat) => setGraph s k (retireNode g i st 0 s.front.frames (exits x))
    if d.1 then s
    else if x.bad then bad stField
    else
      match x.typ with
      | 1 => if launchRecord s p (x.body.getD 0 0) ≠ 0 then bad (launchRecord s p (x.body.getD 0 0)) else run .launch
      | 2 => run .copy
      | 3 => notifyNode s p k g i
      | 4 => run .wait
      | _ => setGraph s k (condNode s p g i)

/-- A node that has ended retires once its accesses are complete; a running WAIT node is tested; a conditional that waits tries
to re-arm. -/
def stepNode (k : Nat) (s : State) (i : Nat) : State :=
  match tfind s.front.graphs k with
  | none => s
  | some g =>
    let x := node g i
    match x.fin with
    | some e => if x.after.any (fun id => (flight s id).isSome) then s else nodeDone s g.queue g.seq i e.1 e.2
    | none =>
    if x.typ = 4 && x.st = .running then testWait s g.queue g.seq (i + 1)
    else if x.st = .rearming then setGraph s k (tryRearm g i s.front.frames) else s

/-- Whether a graph still has something to wait for. -/
def graphLive (g : Graph) : Bool :=
  g.nodes.any (fun n => n.2.st = .running || n.2.st = .rearming || (n.2.st = .idle && n.2.count = 0 && g.ended.isNone))

/-- A graph in a frame: its nodes in ascending index, then its retirement, after which vent memory keeps it (R414); `starts`: nodes
may start. The walk in which it has come to rest may precede the slot that brought it there, so that the next walk retires it
(R378). (Log 51: DEDUCED; log 95: DESIGN CHOICE.) -/
def walkGraph (starts : Bool) (s : State) (k : Nat) : State :=
  match tfind s.front.graphs k with
  | none => s
  | some g =>
    let ids := g.nodes.map (fun n => n.1)
    let s1 := ids.foldl (stepNode k) s
    let s2 := match partOf s g.queue with
      | some (_, p) => if starts then ids.foldl (startNode p k) s1 else s1
      | none => s1
    match tfind s2.front.graphs k with
    | none => s2
    | some g2 =>
      if graphLive g2 then s2
      else
        let d := if g2.rest then (false, s2) else drawChoice s2
        if d.1 then setGraph d.2 k { g2 with rest := true }
        else
        let s3 := setGraph d.2 k { g2 with closed := true }
        match g2.ended with
        | some (st, c, d, _) => retireCmd s3 g2.queue g2.seq st c d 0 []
        | none => retireCmd s3 g2.queue g2.seq (if g2.limit then stLooplim else 0) 0 0 0 []

/-! ## Launches (R371, R372) -/

/-- The override block of ARG2. -/
def overrideAt (a : Nat) : Nat := bitsAt a 6 54 * 64

/-- The counts and preloads of a launch, as overridden. -/
def launchCounts (s : State) (a : List Nat) (b : Nat → Nat) : List Nat :=
  if bitsAt (a.getD 2 0) 0 1 = 1 then countsAt (objAt s (overrideAt (a.getD 2 0))) 0 else countsAt b (secOfs b 1 + 0x10)

def launchPreloads (s : State) (a : List Nat) (b : Nat → Nat) : List Preload :=
  if bitsAt (a.getD 2 0) 1 1 = 1 then preloadsAt (objAt s (overrideAt (a.getD 2 0))) 0x60 else preloadsAt b (secOfs b 1 + 0x90)

/-- An ARG1 that breaks R372, for `d` dies. (Log 46: DEDUCED.) -/
def placementBad (x d : Nat) : Bool :=
  if bitsAt x 63 1 = 1 then
    bitsAt x 32 16 ≠ 0 || bitsAt x 52 11 ≠ 0
      || (List.range 4).any (fun j => bitsAt x (8 * j + 3) 1 = 1 || (d ≤ j && bitsAt x (8 * j) 8 ≠ 0))
  else bitsAt x 0 63 ≠ 0

/-- Whether a rectangle at a place lies in one of the partition's, on cores that are free. -/
def fitsAt (p : Partition) (b : Nat → Nat) (free : Nat → Bool) (d x y : Nat) : Bool :=
  p.rects.any (fun r => bitsAt r 16 2 = d && bitsAt r 12 4 ≤ x && x + hCols b ≤ bitsAt r 12 4 + bitsAt r 5 4 + 1
      && bitsAt r 9 3 ≤ y && y + hRows b ≤ bitsAt r 9 3 + bitsAt r 2 3 + 1)
    && (List.range (hRows b)).all (fun j => (List.range (hCols b)).all (fun i => free (coreNo d (x + i) (y + j))))

/-- The first place on a die, in ascending row and then column. -/
def firstFit (p : Partition) (b : Nat → Nat) (free : Nat → Bool) (d : Nat) : Option (Nat × Nat) :=
  ((List.range 8).flatMap (fun y => (List.range 16).map (fun x => (x, y)))).find? (fun o => fitsAt p b free d o.1 o.2)

/-- The dies and origins of a launch. (Log 46: DEDUCED.) -/
def findPlace (p : Partition) (b : Nat → Nat) (x : Nat) (free : Nat → Bool) : Option (List Nat × List (Nat × Nat)) :=
  if bitsAt x 63 1 = 1 then
    let dies := (List.range 4).filter (fun d => bitsAt x (48 + d) 1 = 1)
    let orgs := (List.range dies.length).map (fun j => (bitsAt x (8 * j + 4) 4, bitsAt x (8 * j) 3))
    if dies.length = hDies b && (dies.zip orgs).all (fun o => fitsAt p b free o.1 o.2.1 o.2.2) then some (dies, orgs) else none
  else
    let l := ((List.range 4).filterMap (fun d => (firstFit p b free d).map (fun o => (d, o)))).take (hDies b)
    if l.length = hDies b then some (l.map (fun o => o.1), l.map (fun o => o.2)) else none

/-- Whether a core is free for a launch: no gang holds it, and no tephra core of it runs a copy of the front end, which the
image that the launch writes (R302) would cut short. (Log 47: DEDUCED.) -/
def coreFree (s : State) (c : Nat) : Bool :=
  (core s c).gang.isNone
    && (core s c).tes.all (fun p => p.2.fault ≠ 0 || (p.2.cur.toList ++ p.2.queue).all (fun q => !isShare s q))

/-- Steps 1 to 3: status, cause and detail of a refusal; status 0 where the launch goes on. (Log 46: DEDUCED.) -/
def launchRefused (s : State) (p : Partition) (a : List Nat) : Nat × Nat × Nat :=
  let b := objAt s (a.getD 0 0)
  let x := a.getD 2 0
  let o := objAt s (overrideAt x)
  let n := loadCause s b p.dsize
  let size := if bitsAt x 1 1 = 1 then 0x70 + 16 * min (le o 0x60 4) 32 else 0x60
  if !inDram p (a.getD 0 0) 64 || (x ≠ 0 && (!inDram p (overrideAt x) 0x60 || !inDram p (overrideAt x) size)) then (stRange, 0, 0)
  else if bitsAt x 60 4 ≠ 0 || bitsAt x 2 4 ≠ 0 || a.getD 5 0 ≠ 0 then (stField, 0, 0)
  else if n ≠ 0 then (stLoadref, 0x07, n)
  else if !inDram p (a.getD 0 0) (le b 12 4) then (stRange, 0, 0)
  else if countsBad b (launchCounts s a b) || reachesNone b (launchCounts s a b) then (stField, 0, 0)
  else if bitsAt x 1 1 = 1 && preloadsBad o 0x60 then (stField, 0, 0)
  else if placementBad (a.getD 1 0) (hDies b) then (stField, 0, 0)
  else if (findPlace p b (a.getD 1 0) (fun _ => true)).isNone then (stRange, 0, 0) else (0, 0, 0)

/-- Whether a queue's launches may be placed now. (Log 46: DEDUCED.) -/
def mayPlace (s : State) (q : Nat) (p : Partition) : Bool :=
  (queue s q).state = 1 && !(queue s q).bexh && p.resetting.isNone && !s.front.heldLaunches

/-- Removes a waiting launch. -/
def dropWait (s : State) (w : Waiting) : State :=
  { s with front := { s.front with waits := s.front.waits.filter (fun x => x ≠ w) } }

/-- Places a waiting launch if it fits: steps 3 to 6. -/
def placeLaunch (s : State) (w : Waiting) : State :=
  match partOf s w.queue with
  | none => s
  | some (n, p) =>
    let b := objAt s (w.args.getD 0 0)
    let refused := launchRefused s p w.args
    if !mayPlace s w.queue p then s
    else if refused.1 ≠ 0 then finish (dropWait s w) w.queue w.seq w.node refused.1 refused.2.1 refused.2.2 0 []
    else
      match findPlace p b (w.args.getD 1 0) (coreFree s) with
      | none => s
      | some pl =>
        let prio := (queue s w.queue).desc.prio
        let g0 := gangFrom b (launchCounts s w.args b) pl.1 pl.2
        let g : Gang :=
          { g0 with
            mcap := w.args.getD 3 0, savb := w.args.getD 4 0, queue := w.queue, seq := w.seq, node := w.node, prio := prio
            part := n, raceLog := logBase s n p.farea g0 }
        let s1 := dropWait s w
        if pl.1.any (fun d => 16 < tget 0 s.barriersUsed d + g.nbar) then finish s1 w.queue w.seq w.node stNoctx 0 0 0 []
        else if g.pre && (g.savb % 0x400000 ≠ 0 || !inDram p g.savb (g.cols * g.rows * g.dies.length * 0x400000)) then
          finish s1 w.queue w.seq w.node stRange 0 0 0 []
        else if g.raceMode ≠ 0 && !inDram p (g.raceLog - histBytes - shadowBytes g) (raceBytes g) then
          finish s1 w.queue w.seq w.node stRange 0 0 0 []
        else
          placeGang { s1 with front := { s1.front with served := tset s1.front.served (8 * n + prio) w.queue } } b
            (launchPreloads s w.args b) g

/-! ### Priority (R379) -/

/-- The order in which waiting launches are served: descending PRIO, then the queues in turn from the one after the last
served at that level, one launch of each at a time. (Log 51: DEDUCED.) -/
def waitKey (s : State) (n : Nat) (w : Waiting) : Nat :=
  let prio := (queue s w.queue).desc.prio
  let last := tget 63 s.front.served (8 * n + prio)
  let before := ((s.front.waits.takeWhile (fun x => x ≠ w)).filter (fun x => x.queue = w.queue)).length
  ((7 - prio) * (s.front.waits.length + 1) + before) * 64 + (w.queue + 127 - last) % 64

def insWait (s : State) (n : Nat) (w : Waiting) : List Waiting → List Waiting
  | [] => [w]
  | x :: r => if waitKey s n x ≤ waitKey s n w then x :: insWait s n w r else w :: x :: r

/-- The waiting launches of partition `n` in their order. (Log 51: DEDUCED.) -/
def waitsOf (s : State) (n : Nat) : List Waiting :=
  (s.front.waits.filter (fun w => match partOf s w.queue with | some (m, _) => m = n | none => false)).foldr (insWait s n) []

/-- Running gangs of partition `n` that a launch of level `l` may pre-empt: lowest level first, then latest released. (Log 52: DEDUCED.) -/
def insVictim (g : Nat × Gang) : List (Nat × Gang) → List (Nat × Gang)
  | [] => [g]
  | x :: r =>
    if x.2.prio < g.2.prio ∨ (x.2.prio = g.2.prio ∧ g.2.release ≤ x.2.release) then x :: insVictim g r else g :: x :: r

def victims (s : State) (n l : Nat) : List (Nat × Gang) :=
  ((gangsIn s n).filter (fun g => g.2.pre && g.2.prio < l && gangRuns s g)).foldr insVictim []

/-- Whether a launch fits once gangs have left their cores. -/
def fitsWithout (s : State) (p : Partition) (w : Waiting) (gs : List (Nat × Gang)) : Bool :=
  let b := objAt s (w.args.getD 0 0)
  (findPlace p b (w.args.getD 1 0) (fun c => coreFree s c || gs.any (fun g => (core s c).gang = some g.1))).isSome

/-- The shortest beginning of the victims with which the launch fits, then without those that it does not need. (Log 52: DEDUCED.) -/
def takeVictims (s : State) (p : Partition) (w : Waiting) (base : List (Nat × Gang)) :
    List (Nat × Gang) → List (Nat × Gang) → Option (List (Nat × Gang))
  | taken, [] => if fitsWithout s p w (base ++ taken) then some taken else none
  | taken, v :: r => if fitsWithout s p w (base ++ taken) then some taken else takeVictims s p w base (taken ++ [v]) r

def prune (s : State) (p : Partition) (w : Waiting) (base : List (Nat × Gang)) : List (Nat × Gang) → List (Nat × Gang) → List (Nat × Gang)
  | kept, [] => kept
  | kept, v :: r => if fitsWithout s p w (base ++ kept ++ r) then prune s p w base kept r else prune s p w base (kept ++ [v]) r

def keep (s : State) (n why : Nat) : State := { s with front := { s.front with kept := tset s.front.kept n why } }

/-- Pre-empts for a launch that still waits. (Log 52: DEDUCED.) -/
def preemptFor (s : State) (n : Nat) (p : Partition) (w : Waiting) : State :=
  let base := (gangsIn s n).filter (fun g => gangSaving s g.1 && !g.2.hold)
  if !s.front.waits.contains w || !mayPlace s w.queue p || fitsWithout s p w base then s
  else
    match takeVictims s p w base [] (victims s n (queue s w.queue).desc.prio) with
    | none => s
    | some l => (prune s p w base [] l.reverse).foldl (fun x g => keep (beginGangSave x g.1 false) g.1 1) s

/-- Whether a rectangle of an object's size at a place holds a core of a gang. -/
def coversGang (b : Nat → Nat) (g : Gang) (d x y : Nat) : Bool :=
  (coresOf g).any (fun c => dieOf c = d && x ≤ colOf c && colOf c < x + hCols b && y ≤ rowOf c && rowOf c < y + hRows b)

/-- Whether a waiting launch needs the cores of a gang: its explicit placement holds one of them, or it could be placed over
one (R379). (Log 51: DEDUCED.) -/
def needs (s : State) (p : Partition) (w : Waiting) (g : Gang) : Bool :=
  let b := objAt s (w.args.getD 0 0)
  let x := w.args.getD 1 0
  if bitsAt x 63 1 = 1 then
    match findPlace p b x (fun _ => true) with
    | none => false
    | some pl => (pl.1.zip pl.2).any (fun o => coversGang b g o.1 o.2.1 o.2.2)
  else
    g.dies.any (fun d => (List.range 8).any (fun y => (List.range 16).any (fun x =>
      coversGang b g d x y && fitsAt p b (fun _ => true) d x y)))

/-- A saved gang is restored now. -/
def restoreNow (s : State) (n : Nat) : State :=
  at' { s with front := { s.front with kept := tdel s.front.kept n } } s.gcyc .contextRestoreComplete [0x100000 + n]

/-- A pre-empted gang resumes when its cores are free and no waiting launch of a higher level needs them. -/
def resumeVictim (n : Nat) (p : Partition) (s : State) (g : Nat × Gang) : State :=
  let blocked := (waitsOf s n).any (fun w => g.2.prio < (queue s w.queue).desc.prio && needs s p w g.2)
  if tfind s.front.kept g.1 = some 1 ∧ g.2.savedAll ∧ coresFree s g.1 g.2 ∧ !blocked ∧ !s.front.heldLaunches then
    restoreNow s g.1
  else s

/-- One partition's launches in a frame. -/
def servePart (s : State) (n : Nat) : State :=
  match tfind s.front.parts n with
  | none => s
  | some p =>
    let s1 := (waitsOf s n).foldl (fun x w => preemptFor (placeLaunch x w) n p w) s
    (gangsIn s1 n).foldl (resumeVictim n p) s1

/-- The last launch that starts in a frame has the waiting ones taken in their order (R379). (Log 51: DEDUCED.) -/
def serveLaunches (s : State) : State :=
  if s.agenda.any (fun e => e.instr = .launch && e.due ≤ s.gcyc) then s else (List.range 8).foldl servePart s

/-- LAUNCH [queue, SEQ, node]: accepted and checked, it is placed when its cores are free. -/
def execLaunch (s : State) : Out :=
  let q := arg s 0
  let seq := arg s 1
  let n := arg s 2
  .next (serveLaunches (match argsOf s q seq n, partOf s q with
    | none, _ => s
    | some _, none => finish s q seq n stRange 0 0 0 []
    | some a, some (_, p) =>
      let r := launchRefused s p a
      if r.1 ≠ 0 then finish s q seq n r.1 r.2.1 r.2.2 0 []
      else
        let w : Waiting := { queue := q, seq := seq, node := n, args := a }
        let s1 := setCmdSt s q seq .waiting
        { s1 with front := { s1.front with waits := s1.front.waits ++ [w] } }))

/-! ## Copies and checkpoints (R373, R374) -/

/-- The tephra core of COPYEP: core and index. -/
def copyCore (s : State) (p : Partition) : Option (Nat × Nat) :=
  if bitsAt p.copyep 0 3 = 0 ∧ bitsAt p.copyep 12 10 = s.node then (coreAt (p.copyep % 2 ^ 22)).map (fun c => (c, bitsAt p.copyep 63 1))
  else none

/-- Whether a tephra core belongs to a gang that brought its own image. -/
def ownImage (s : State) (c k : Nat) : Bool := (core s c).gang.isSome && !(tephra s c k).std

/-- A core that no gang holds translates through the partition's default table. -/
def lendWindows (s : State) (p : Partition) (c : Nat) : State :=
  if (core s c).gang.isNone then modCore s c (fun k => { k with windows := p.wins }) else s

/-- How a share ends that finds its tephra core with an image of its own (R302, R373, R374): beyond every cause. -/
abbrev endRange : Nat := 0x100

/-- A share is queued on its tephra core while that has an entry free, if the core runs a standard image (R302). -/
def sendShare (s : State) (x : Nat × Share) : State :=
  let c := x.2.core
  let k := x.2.te
  if x.2.sent ∨ x.2.ended.isSome then s
  else if ownImage s c k then shareEnd s x.1 endRange
  else if 8 ≤ (tephra s c k).queue.length then s
  else
    let s1 := match partOf s x.2.queue with | some (_, p) => lendWindows s p c | none => s
    let q : TeCmd := { desc := x.2.desc, sync := x.2.sync, core := c, slot := 0, token := x.1 }
    let s2 := modTephra s1 c k (fun te => { te with queue := te.queue ++ [q] })
    { s2 with front := { s2.front with shares := tset s2.front.shares x.1 { x.2 with sent := true } } }

/-- Adds a share and queues it. -/
def addShare (q seq n c k : Nat) (s : State) (d : List Nat) : State :=
  let i := fresh s
  let x : Share := { queue := q, seq := seq, node := n, core := c, te := k, desc := d, sync := 1, sent := false, ended := none }
  sendShare { i.2 with front := { i.2.front with shares := tset i.2.front.shares (i.1 + 1) x } } (i.1 + 1, x)

/-- Whether `n` bytes at a far address, translated on core `c`, lie in DRAM of this device outside a partition's range (R363). -/
def strays (s : State) (p : Partition) (c : Nat) (need : Need) (a : Addr × Nat) (n : Nat) : Bool :=
  let t := translate s c a.1 need
  a.2 = 0 && t.win ≠ 0 && isDram t.key
    && !(p.dbase % 2 ^ 50 ≤ t.key && t.key + n ≤ p.dbase % 2 ^ 50 + p.dsize && !meetsSide t.key n)

/-- Whether some element that a copy reads or writes strays, by the translations of the moment in which it starts. (Log 102: DEDUCED.) -/
def copyStrays (s0 : State) (p : Partition) (c : Nat) (d : List Nat) : Bool :=
  let s := lendWindows s0 p c
  let n := fun (fmt : Nat) => if tcPack d then 4096 else szBytes fmt
  (List.range (tcTotal d)).any (fun i =>
    (tcSkind d = 1 && strays s p c .read (elemAddr s 1 (tcSrc d) (tcOfs d (tcSstr d) (tcDims d) 0 i)) (n (tcSfmt d)))
    || (tcDkind d = 1 && strays s p c .write (elemAddr s 1 (tcDst d) (tcOfs d (tcDstr d) (tcDims d) 0 i)) (n (tcDfmt d))))

/-- COPY [queue, SEQ, node]. (Log 50: DEDUCED.) -/
def execCopy (s : State) : Out :=
  let q := arg s 0
  let seq := arg s 1
  let n := arg s 2
  .next (match argsOf s q seq n, partOf s q with
    | none, _ => s
    | some _, none => finish s q seq n stRange 0 0 0 []
    | some a, some (_, p) =>
      let d := (List.range 16).map (fun i => wordAt s (a.getD 0 0 + 8 * i) 8)
      match copyCore s p with
      | none => finish s q seq n stRange 0 0 0 []
      | some (c, k) =>
        if !inDram p (a.getD 0 0) 128 || !p.has c || ownImage s c k then finish s q seq n stRange 0 0 0 []
        else if copyBad true d then finish s q seq n stField 0 0 0 []
        else if rangesCause s c (copyRanges d) ≠ 0 ∨ copyStrays s p c d then finish s q seq n stRange 0 0 0 []
        else addShare q seq n c k s d)

/-- A TCOPY descriptor of `m` pages. -/
def pageCopy (src dst m : Nat) : List Nat :=
  let dim := (m - 1) + 4096 * 2 ^ 24 + 4096 * 2 ^ 60
  [src % 2 ^ 64, dst % 2 ^ 64, src / 2 ^ 64 * 2 ^ 56 + dst / 2 ^ 64 * 2 ^ 48 + 2 ^ 46 + 2 ^ 44 + 2 ^ 41, 0, dim % 2 ^ 64, dim / 2 ^ 64]
    ++ List.replicate 10 0

/-- A share as copies of at most 2^24 pages each. (Log 50: DEDUCED.) -/
def pageCopies : Nat → Nat → Nat → Nat → List (List Nat)
  | 0, _, _, _ => []
  | fuel + 1, src, dst, m =>
    if m = 0 then []
    else
      let x := min m (2 ^ 24)
      pageCopy src dst x :: pageCopies fuel (src + 4096 * x) (dst + 4096 * x) (m - x)

/-- CKPT [queue, SEQ]: equal shares for the tephra cores of the partition; the last takes the remainder. (Log 50: DEDUCED.) -/
def execCkpt (s : State) : Out :=
  let q := arg s 0
  let seq := arg s 1
  .next (match argsOf s q seq 0, partOf s q with
    | none, _ => s
    | some _, none => retireCmd s q seq stRange 0 0 0 []
    | some a, some (_, p) =>
      let src := a.getD 0 0
      let pages := a.getD 1 0 / 4096
      let dst := a.getD 2 0
      let ts := p.cores.flatMap (fun c => [(c, 0), (c, 1)])
      let each := pages / ts.length
      let run := fun (t : Nat × (Nat × Nat)) =>
        let m := if t.1 + 1 = ts.length then pages - each * (ts.length - 1) else each
        pageCopies 64 (src + 4096 * each * t.1) (dst + 4096 * each * t.1) m
      let runs := (List.range ts.length).zip ts
      if a.getD 1 0 % 4096 ≠ 0 ∨ src % 4096 ≠ 0 ∨ dst % 4096 ≠ 0 then
        retireCmd s q seq stField 0 0 0 []
      else if ts.any (fun t => ownImage s t.1 t.2) ∨ runs.any (fun t => (run t).any (copyStrays s p t.2.1)) then
        retireCmd s q seq stRange 0 0 0 []
      else if pages = 0 then retireCmd s q seq 0 0 0 0 []
      else runs.foldl (fun x t => (run t).foldl (addShare q seq 0 t.2.1 t.2.2) x) (setCmdSt s q seq .waiting))

/-- A share whose tephra core stands in tephra fault has ended with its cause, once a service core has answered with ERROR (R373). -/
def faultShare (s : State) (x : Nat × Share) : State :=
  let te := tephra s x.2.core x.2.te
  match te.cur with
  | some q => if q.token = x.1 ∧ te.fault ≠ 0 ∧ te.wait = .none ∧ te.reply.isSome then shareEnd s x.1 te.fault else s
  | none => s

/-- The accesses of the tephra cores that some shares run on, which must complete at system scope before the shares' command does
(R368). -/
def shareFlights (s : State) (l : List (Nat × Share)) : List Nat :=
  (s.flights.filter (fun f => l.any (fun y => f.2.core = y.2.core && f.2.who = 8 + y.2.te))).map (fun f => f.1)

/-- The cause with which a share of a command of kind `kind` ended: UNKNOWN for one of a checkpoint that a group failed which died
meanwhile (R413). -/
def shareCause (kind : Nat) (x : Share) : Nat :=
  let c := x.ended.getD 0
  if kind = 5 ∧ x.died ∧ (c = 0xC0 ∨ c = 0xC1) then 0x63 else c

/-- The shares of a command or node that have all ended: it ends, with the first cause. -/
def endShares (s : State) (x : Nat × Share) : State :=
  let l := s.front.shares.filter (fun y => y.2.queue = x.2.queue && y.2.seq = x.2.seq && y.2.node = x.2.node)
  if l = [] ∨ l.any (fun y => y.2.ended.isNone) then s
  else
    let kind := match command s x.2.queue x.2.seq with | some k => k.kind | none => 0
    let c : Nat := ((l.map (fun y => shareCause kind y.2)).find? (fun n => n != 0)).getD 0
    let s1 := { s with front := { s.front with shares := s.front.shares.filter (fun y => !l.contains y) } }
    if c = 0 then finish s1 x.2.queue x.2.seq x.2.node 0 0 0 0 []
    else if c = endRange then finish s1 x.2.queue x.2.seq x.2.node stRange 0 0 0 (shareFlights s l)
    else finish s1 x.2.queue x.2.seq x.2.node stFault c 0 0 (shareFlights s l)

/-- The shares of a queue in a frame. -/
def stepShares (s : State) (q : Nat) : State :=
  let mine := fun (x : State) => x.front.shares.filter (fun y => y.2.queue = q)
  let s1 := (mine s).foldl sendShare s
  let s2 := (mine s1).foldl faultShare s1
  (mine s2).foldl endShares s2

/-! ## PREEMPT and RESUME -/

/-- The gang that command `seq` of a queue launched. -/
def gangOfSeq (s : State) (q seq : Nat) : Option (Nat × Gang) :=
  s.gangs.find? (fun g => g.2.queue = q && g.2.seq = seq && g.2.node = 0)

/-- PREEMPT [queue, SEQ]. -/
def execPreempt (s : State) : Out :=
  let q := arg s 0
  let seq := arg s 1
  .next (match argsOf s q seq 0 with
    | none => s
    | some a =>
      if 1 < a.getD 1 0 then retireCmd s q seq stField 0 0 0 []
      else
        match gangOfSeq s q (a.getD 0 0) with
        | none => retireCmd s q seq stRange 0 0 0 []
        | some g =>
          if g.2.pre && gangRuns s g then
            keep (beginGangSave (setCmdSt s q seq .waiting) g.1 (a.getD 1 0 = 1)) g.1 4
          else retireCmd s q seq stRange 0 0 0 [])

/-- RESUME [queue, SEQ]: the restore begins at once, or in the first frame that finds the gang's cores free. (Log 49: DEDUCED.) -/
def execResume (s : State) : Out :=
  let q := arg s 0
  let seq := arg s 1
  .next (match argsOf s q seq 0 with
    | none => s
    | some a =>
      match gangOfSeq s q (a.getD 0 0) with
      | none => retireCmd s q seq stRange 0 0 0 []
      | some g =>
        if !g.2.savedAll then retireCmd s q seq stRange 0 0 0 []
        else
          let s1 := setCmdSt s q seq .waiting
          if coresFree s1 g.1 g.2 then restoreNow s1 g.1 else s1)

/-- A PREEMPT or RESUME that waits, in a frame. (Log 49: DEDUCED.) -/
def stepContext (q : Nat) (s : State) (k : Command) : State :=
  match gangOfSeq s q (k.args.getD 0 0) with
  | none => retireCmd s q k.seq stRange 0 0 0 []
  | some g =>
    if k.kind = 6 then (if g.2.savedAll then retireCmd s q k.seq 0 0 0 0 [] else s)
    else if !g.2.savedAll then retireCmd s q k.seq 0 0 0 0 []
    else if coresFree s g.1 g.2 then restoreNow s g.1 else s

/-! ## Queue descriptors (R365, Table 17.3) -/

/-- A descriptor that breaks the table; `w` gives its words. -/
def descBad (w : Nat → Nat) : Bool :=
  bitsAt (w 0) 0 24 ≠ 0 || 10 < bitsAt (w 0) 56 4 || 10 < bitsAt (w 0) 52 4 || bitsAt (w 0) 32 8 = 0
    || 2 ^ 60 ≤ w 1 || w 1 % 4096 ≠ 0 || 2 ^ 60 ≤ w 2 || w 2 % 4096 ≠ 0 || 2 ^ 32 ≤ w 3 || 1 < w 4
    || w 5 ≠ 0 || w 6 ≠ 0 || w 7 ≠ 0

def descOf (w : Nat → Nat) : QueueDesc :=
  { en := bitsAt (w 0) 63 1 = 1, prio := bitsAt (w 0) 60 3, clog := bitsAt (w 0) 56 4, klog := bitsAt (w 0) 52 4
    vec := bitsAt (w 0) 40 12, ccnt := bitsAt (w 0) 32 8, ctim := bitsAt (w 0) 24 8, cring := w 1, kring := w 2, jbud := w 3 }

/-- Applies a descriptor: KEEP keeps the sequence numbers; a poisoned queue gets its ABORTED completions; an orphaned one has
the new state on its recovery. -/
def applyDesc (s : State) (q : Nat) (w : Nat → Nat) : State :=
  modQueue s q (fun x =>
    let y : Queue := if w 4 = 1 then x else { x with tail := 0, lacc := 0, lret := 0, cwr := 0, chead := 0, retired := [] }
    let st := if bitsAt (w 0) 63 1 = 1 then 1 else 0
    { y with desc := descOf w, epoch := y.epoch + 1, state := if x.state = 2 then 2 else st, was := st, terr := false
             due := y.due ++ y.aborted, aborted := [] })

/-- Whether `n` bytes of a ring of a queue lie where R365 has them: in host memory or in the DRAM of its partition. -/
def ringThere (s : State) (q a n : Nat) : Bool :=
  inHost s a n || (match partOf s q with | some (_, p) => inDram p a n | none => false)

/-- Whether a descriptor that enables its queue has both rings there. -/
def ringsThere (s : State) (q : Nat) (w : Nat → Nat) : Bool :=
  let d := descOf w
  !d.en || (ringThere s q d.cring (64 * 2 ^ (d.clog + 6)) && ringThere s q d.kring (32 * 2 ^ (d.klog + 6)))

/-- Whether a queue is POISONED, or was when it was orphaned. -/
def poisoned (x : Queue) : Bool := x.state = 3 || (x.state = 2 && x.was = 3)

/-- The status with which a descriptor is refused. (Log 49: DEDUCED.) -/
def descRefused (s : State) (q : Nat) (w : Nat → Nat) : Nat :=
  let x := queue s q
  if descBad w then stField
  else if !ringsThere s q w then stRange
  else if poisoned x then (if w 4 = 1 then 0 else stRange)
  else if x.cmds ≠ [] ∨ x.due ≠ [] then stRange else 0

/-- QCONF [0, SEQ]. (Log 49: DEDUCED.) -/
def execQconf (s : State) : Out :=
  let seq := arg s 1
  .next (match argsOf s 0 seq 0 with
    | none => s
    | some a =>
      let q := a.getD 0 0
      let w := fun i => wordAt s (a.getD 1 0 + 8 * i) 8
      let n := if 63 < q then stField else descRefused s q w
      if n ≠ 0 then retireCmd s 0 seq n 0 0 0 [] else retireCmd (applyDesc s q w) 0 seq 0 0 0 0 [])

/-- ADMINGO in a frame (R365). (Log 49: DEDUCED.) -/
def stepAdmin (s : State) : State :=
  if s.front.admingo ≠ 1 then s
  else
    let w := fun i => leNat ((s.front.adminq.drop (8 * i)).take 8)
    if descRefused s 0 w = 0 then { applyDesc s 0 w with front := { (applyDesc s 0 w).front with admingo := 0 } }
    else { s with front := { s.front with admingo := 2 } }

/-! ## Partitions (R363, R364) -/

/-- The record of PCONF, its words. -/
def partFrom (w : Nat → Nat) : Partition :=
  { rects := (List.range (bitsAt (w 0) 60 4)).map (fun i => bitsAt (w (1 + i / 2)) (32 * (i % 2)) 32)
    dbase := w 5, dsize := w 6, qmask := w 7, farea := w 8, rawp := w 9, copyep := w 10 }

def partBad (w : Nat → Nat) : Bool :=
  bitsAt (w 0) 3 57 ≠ 0 || 8 < bitsAt (w 0) 60 4
    || (partFrom w).rects.any (fun r => bitsAt r 18 14 ≠ 0 || bitsAt r 0 2 ≠ 0 || 15 < bitsAt r 12 4 + bitsAt r 5 4
        || 7 < bitsAt r 9 3 + bitsAt r 2 3)
    || [5, 6, 8].any (fun i => 2 ^ 60 ≤ w i || w i % 2 ^ 30 ≠ 0) || bitsAt (w 7) 0 1 = 1 || bitsAt (w 10) 22 41 ≠ 0
    || (List.range 5).any (fun i => w (11 + i) ≠ 0)
    || (bitsAt (w 0) 60 4 ≠ 0 && w 6 ≠ 0 && (w 8 < w 5 || w 5 + w 6 ≤ w 8))

/-- Whether two rectangles share a core. -/
def rectsMeet (a b : Nat) : Bool :=
  bitsAt a 16 2 = bitsAt b 16 2 && meets (bitsAt a 12 4) (bitsAt a 5 4 + 1) (bitsAt b 12 4) (bitsAt b 5 4 + 1)
    && meets (bitsAt a 9 3) (bitsAt a 2 3 + 1) (bitsAt b 9 3) (bitsAt b 2 3 + 1)

/-- Whether a record collides with another partition or a running gang. -/
def partRange (s : State) (n : Nat) (p : Partition) : Bool :=
  anyPair rectsMeet p.rects
    || s.front.parts.any (fun o => o.1 ≠ n
        && (p.rects.any (fun a => o.2.rects.any (rectsMeet a)) || p.qmask &&& o.2.qmask ≠ 0
          || meets p.dbase p.dsize o.2.dbase o.2.dsize))
    || (gangsIn s n).any (fun g => g.2.completed.isNone)

/-- PCONF [0, SEQ]; one of a partition in reset takes effect when the reset has completed. (Log 53: DEDUCED.) -/
def execPconf (s : State) : Out :=
  let seq := arg s 1
  .next (match argsOf s 0 seq 0 with
    | none => s
    | some a =>
      let w := fun i => wordAt s (a.getD 0 0 + 8 * i) 8
      let n := bitsAt (w 0) 0 3
      let p := partFrom w
      if partBad w then retireCmd s 0 seq stField 0 0 0 []
      else if partRange s n p then retireCmd s 0 seq stRange 0 0 0 []
      else if (match tfind s.front.parts n with | some x => x.resetting.isSome | none => false) then
        at' s (s.gcyc + 250 * s.board.clk) .pconf [0, seq, 0]
      else if p.rects = [] then
        retireCmd { s with front := { s.front with parts := tdel s.front.parts n } } 0 seq 0 0 0 0 []
      else
        let old := match tfind s.front.parts n with | some x => x.wins | none => []
        retireCmd (setPart s n { p with wins := old }) 0 seq 0 0 0 0 [])

/-- PWIN [0, SEQ]: the default window table. (Log 57: DEDUCED.) -/
def execPwin (s : State) : Out :=
  let seq := arg s 1
  .next (match argsOf s 0 seq 0 with
    | none => s
    | some a =>
      let es := (List.range (a.getD 2 0)).map (fun i => wordAt s (a.getD 1 0 + 16 * i) 16)
      match tfind s.front.parts (a.getD 0 0) with
      | none => retireCmd s 0 seq (if 7 < a.getD 0 0 then stField else stRange) 0 0 0 []
      | some p =>
        if 4096 < a.getD 2 0 then retireCmd s 0 seq stField 0 0 0 []
        else if es.any (fun e => installCause s [] e ≠ 0) ∨ anyPair slotTaken es then
          retireCmd s 0 seq stField 0 0 0 []
        else
          let p1 := { p with wins := es.foldl (fun t e => tput 0 t (entryPlace e) e) [] }
          let s1 := setPart s (a.getD 0 0) p1
          retireCmd ((s1.cores.filter (fun c => p1.has c.1 && c.2.gang.isNone)).foldl
            (fun x c => lendWindows x p1 c.1) s1) 0 seq 0 0 0 0 [])

/-- The accesses of command `seq` of a queue: those of the gangs that it launched, itself or by a graph, and of its copies (R368). -/
def writesOf (s : State) (q seq : Nat) : List Nat :=
  (s.gangs.filter (fun g => g.2.queue = q && g.2.seq = seq)).flatMap (fun g => (gangFlights s g.1).map (fun f => f.1))
    ++ shareFlights s (s.front.shares.filter (fun x => x.2.queue = q && x.2.seq = seq))

/-- A copy of the front end comes to nothing: it leaves its tephra core, which begins anew if it ran it (R364, R383).
(Log 53: DEDUCED.) -/
def dropShare (s : State) (x : Nat × Share) : State :=
  let c := x.2.core
  let k := x.2.te
  let te := tephra s c k
  let rest := te.queue.filter (fun q => q.token ≠ x.1)
  let s1 := if te.cur.any (fun q => q.token = x.1) then
      forsake (modTephra s c k (fun te => { freshTephra te k (coord s c) with saveWait := te.saveWait, queue := rest })) c
        (fun f => f.who = 8 + k)
    else modTephra s c k (fun te => { te with queue := rest })
  { s1 with front := { s1.front with shares := tdel s1.front.shares x.1 } }

/-- What belongs to some commands of a queue goes. -/
def dropCmds (s : State) (q : Nat) (hit : Nat → Bool) : State :=
  let s1 := (s.front.shares.filter (fun x => x.2.queue = q && hit x.2.seq)).foldl dropShare s
  let s2 := modQueue s1 q (fun x => { x with cmds := x.cmds.filter (fun k => !hit k.seq) })
  { s2 with front := { s2.front with
      graphs := s2.front.graphs.filter (fun g => g.2.queue ≠ q || g.2.closed || !hit g.2.seq)
      waits := s2.front.waits.filter (fun w => w.queue ≠ q || !hit w.seq) } }

/-- The ABORTED completions of the commands of a queue that `hit` names, in ascending SEQ. -/
def abortedOf (s : State) (q : Nat) (hit : Command → Bool) : List Completion :=
  ((queue s q).cmds.filter hit).map (fun k => completionOf s k stAborted 0 0 0 (writesOf s q k.seq))

/-- The commands of a queue that had been accepted when PRESET `seq` was end with ABORTED, and what belongs to them goes (R364). -/
def abortQueue (seq : Nat) (s : State) (q : Nat) : State :=
  let hit := fun (k : Command) => k.doomed.contains seq
  let dead := ((queue s q).cmds.filter hit).map (fun k => k.seq)
  let l := abortedOf s q hit
  modQueue (dropCmds s q dead.contains) q (fun x => { x with due := x.due ++ l })

/-- A thread ends as HALT.end ends it; of one that is saved the image is discarded, and a save that has begun comes to nothing
(R364, step 3). Its cancelled accesses perform no more. -/
def endSlot (s : State) (c t : Nat) : State :=
  let th := thread s c t
  if th.st = .vacant ∨ th.st = .done then s
  else
    let s1 := { s with flights := s.flights.filter (fun p => !(p.2.core = c && p.2.who = t && p.2.cancelled)) }
    if th.st = .saved then becomeDone (modThread (endThread s1 c t).1 c t (fun x => { x with saveReq := false, resend := [] })) c t
    else (endThread (modThread s1 c t (fun x => { x with saving := false, saveReq := false, resend := [] })) c t).1

/-- The threads of a core end, its engine and tephra cores are reset, and its accesses that wait are cancelled (R364, steps 3
to 5). (Log 53: DEDUCED.) -/
def endCore (s : State) (c : Nat) : State :=
  let s1 := (List.range 8).foldl (fun x t => endSlot x c t) s
  let s2 := resetEngine (modEngine s1 c (fun e => { e with frozen := false })) c
  let s3 := (core s2 c).tes.foldl (fun x p => resetTephra x c p.1) s2
  let s4 := modCore s3 c (fun k => { k with tes := k.tes.map (fun p => (p.1, { p.2 with saveWait := false })) })
  checkDone ((List.range 10).foldl (fun x w => cancelWaiting x c w) s4) c

/-- A gang that was placed and is not released ends without a turn: its threads are DONE, its tephra cores never begin. -/
def endUnreleased (s : State) (n : Nat) (g : Gang) : State :=
  let s1 := (coresOf g).foldl (fun x c => modCore x c (fun k =>
    { k with threads := k.threads.map (fun p => (p.1, { p.2 with st := .done })) })) s
  modGang s1 n (fun g => { g with released := true, ended := true, release := s.gcyc, completed := some s.gcyc })

/-- A gang is ended; one that was saved is discarded, and a save of one that has begun comes to nothing. (Log 53: DEDUCED.) -/
def endGang (s : State) (g : Nat × Gang) : State :=
  if g.2.savedAll then dropGang s g.1
  else if !g.2.released then endUnreleased s g.1 g.2
  else
    (coresOf g.2).foldl endCore
      { s with agenda := s.agenda.filter (fun e => !(e.instr = .contextSaveComplete && e.args = [0x100000 + g.1])) }

/-- PRESET [0, SEQ]: the first steps; the rest follows in the frames. -/
def execPreset (s : State) : Out :=
  let seq := arg s 1
  .next (match argsOf s 0 seq 0 with
    | none => s
    | some a =>
      let n := a.getD 0 0
      if 7 < n ∨ 1 < a.getD 1 0 then retireCmd s 0 seq stField 0 0 0 []
      else
        match tfind s.front.parts n with
        | none => retireCmd s 0 seq stRange 0 0 0 []
        | some p =>
          if p.resetting.isSome then retireCmd s 0 seq stRange 0 0 0 []
          else
            let s1 := ((List.range 64).filter (fun q => bitsAt p.qmask q 1 = 1)).foldl (abortQueue seq) s
            let s2 := setPart (setCmdSt s1 0 seq .waiting) n { p with resetting := some (seq, a.getD 1 0) }
            let s3 := (gangsIn s2 n).foldl endGang s2
            (s3.cores.filter (fun c => p.has c.1)).foldl (fun x c => endCore x c.1) s3)

/-- Whether nothing of a core is under way. -/
def coreAtRest (s : State) (c : Nat) : Bool :=
  (List.range 8).all (fun t => (thread s c t).st = .done || (thread s c t).st = .vacant || (thread s c t).st = .saved)
    && (List.range 10).all (fun w => (outstanding s c w).isEmpty) && (core s c).port = [] && (core s c).waits = []

/-- Step 6 for a core: its scratchpad is zero and full, its state as at release. (Log 53: DEDUCED.) -/
def clearCore (s : State) (c : Nat) : State :=
  setCore { s with
    mem := tclear s.mem (scratch c) 0x200000
    empty := tclear s.empty (scratch c / 4) 0x80000
    poison := tclear s.poison (scratch c) 0x200000
    flights := s.flights.filter (fun f => f.2.core ≠ c || f.2.group.isSome) } c { codeBad := (core s c).codeBad }

/-- Step 7: the DRAM range, side storage excepted, is zero, full and plain. (Log 53: DEDUCED.) -/
def clearRange (s : State) (p : Partition) : State :=
  let lo := p.dbase % 2 ^ 50
  let hit := fun (a n : Nat) => meets a n lo p.dsize && !meetsSide a n
  { s with
    mem := s.mem.filter (fun m => !hit m.1 1)
    empty := s.empty.filter (fun m => !hit (4 * m.1) 4)
    poison := s.poison.filter (fun m => !hit m.1 64)
    pages := s.pages.filter (fun m => !hit (4096 * m.1) 4096) }

/-- Every word that a reset has set full lets the accesses from outside that wait for it perform (R238). -/
def wakePart (s : State) (p : Partition) (clr : Bool) : State :=
  let s1 := p.cores.foldl wakeCore s
  if clr then [0, 1, 2, 3].foldl (fun x d => wakeHome x d [(p.dbase % 2 ^ 50, p.dsize)]) s1 else s1

/-- A partition in reset, in a frame: steps 5 to 7. (Log 53: DEDUCED.) -/
def stepPreset (s : State) (n : Nat) : State :=
  match tfind s.front.parts n with
  | none => s
  | some p =>
    match p.resetting with
    | none => s
    | some (seq, clr) =>
      let cs := (s.cores.map (fun c => c.1)).filter p.has
      if !cs.all (coreAtRest s) then s
      else
        let s1 := (gangsIn s n).foldl (fun x g => dropGang x g.1) s
        let s2 := p.cores.foldl clearCore s1
        let s3 := if clr = 1 then clearRange s2 p else s2
        retireCmd (wakePart (setPart s3 n { p with resetting := none }) p (clr = 1)) 0 seq 0 0 0 0 []

/-! ## Completions and interrupts (R368, R369, R380) -/

/-- The bytes of a completion record. -/
def recordBytes (cseq : Nat) (c : Completion) : List Nat :=
  leBytes 8 cseq ++ leBytes 8 c.cmdseq
    ++ leBytes 8 (c.kind * 2 ^ 24 + c.detail % 256 * 2 ^ 16 + c.cause * 2 ^ 8 + c.status) ++ leBytes 8 (c.value % 2 ^ 64)

/-- LRET rises over commands that have retired. -/
def raiseLret : Nat → Queue → Queue
  | 0, q => q
  | n + 1, q =>
    if q.retired.contains (q.lret + 1) then
      raiseLret n { q with lret := q.lret + 1, retired := q.retired.filter (fun x => x ≠ q.lret + 1) }
    else q

/-- A command's record has been written or dropped. -/
def noteRetired (c : Completion) (q : Queue) : Queue :=
  if c.host ∨ c.cmdseq = 0 then q else raiseLret (q.retired.length + 1) { q with retired := c.cmdseq :: q.retired }

/-- Whether the oldest completion of a queue, retired in frame `f`, is left for a later frame: it is written within two
frames (R378). (Log 95: DESIGN CHOICE.) -/
def deferred (s : State) (f : Nat) : Bool × State := if s.front.frames < f + 2 then drawChoice s else (false, s)

/-- Writes the completions of a queue that are due, in order. (Log 48: DEDUCED; log 61: DEDUCED.) -/
def flush : Nat → State → Nat → State
  | 0, s, _ => s
  | n + 1, s0, q =>
    let x := queue s0 q
    match x.due with
    | [] => s0
    | c :: r =>
      let d := deferred s0 c.frame
      let s := d.2
      if d.1 ∨ c.after.any (fun id => (flight s id).isSome) then s
      else if c.quiet then flush n (modQueue s q (fun y => noteRetired c { y with due := r })) q
      else
        let size := 2 ^ (x.desc.klog + 6)
        if size < x.cwr + 1 - x.chead then s
        else
          let s1 := frontWrite s (keyOf s (x.desc.kring + 32 * (x.cwr % size))) (recordBytes (x.cwr + 1) c)
          let s2 := modQueue s1 q (fun y =>
            noteRetired c { y with due := r, cwr := y.cwr + 1, unsig := y.unsig + 1, notify := y.notify || c.notify
                                   oldest := if y.unsig = 0 then some s.front.frames else y.oldest })
          flush n (if c.host then nodeDone s2 q c.cmdseq c.detail 0 0 else s2) q

/-- R380, at a frame boundary. (Log 61: DEDUCED.) -/
def interrupt (s : State) (q : Nat) : State :=
  let x := queue s q
  let aged : Bool := match x.oldest with | some f => x.desc.ctim ≠ 0 && x.desc.ctim ≤ s.front.frames - f | none => false
  if x.unsig ≠ 0 ∧ (x.desc.ccnt ≤ x.unsig ∨ aged ∨ x.notify) then
    let s1 := modQueue s q (fun y => { y with unsig := 0, oldest := none, notify := false })
    { s1 with front := { s1.front with msix := tput 0 s1.front.msix x.desc.vec (tget 0 s1.front.msix x.desc.vec + 1) } }
  else s

/-! ## Acceptance and start (R366 to R368) -/

/-- A PRESET of a partition is accepted: it will abort the commands of the partition's queues that stand accepted (R364). -/
def doom (s : State) (k : Command) : State :=
  if k.kind ≠ 0x82 then s
  else
    match tfind s.front.parts (k.args.getD 0 0) with
    | none => s
    | some p =>
      ((List.range 64).filter (fun q => bitsAt p.qmask q 1 = 1)).foldl (fun x q =>
        modQueue x q (fun y => { y with cmds := y.cmds.map (fun c => { c with doomed := k.seq :: c.doomed }) })) s

/-- Accepts record LACC + 1, if its SEQ has landed; the second component says whether one was accepted. -/
def acceptOne (s : State) (q : Nat) : State × Bool :=
  let x := queue s q
  let n := x.lacc + 1
  let a := x.desc.cring + 64 * ((n - 1) % 2 ^ (x.desc.clog + 6))
  if x.tail < n ∨ wordAt s a 8 ≠ n then (s, false)
  else
    let w := wordAt s (a + 8) 8
    let k : Command := { seq := n, kind := w % 256, flags := w / 256, st := .accepted, left := 0, status := 0, cause := 0
                         born := s.front.frames, args := (List.range 6).map (fun i => wordAt s (a + 16 + 8 * i) 8) }
    (modQueue (if q = 0 then doom s k else s) q (fun y => { y with lacc := n, cmds := y.cmds ++ [k] }), true)

/-- The poll of a queue: TAIL, then at most four records. -/
def poll (s : State) (q : Nat) : State :=
  let x := queue s q
  if x.tail < x.lacc ∨ x.lacc + 2 ^ (x.desc.clog + 6) < x.tail then modQueue s q (fun y => { y with terr := true })
  else
    ((List.range 4).foldl (fun (acc : State × Bool) _ => if acc.2 then acceptOne acc.1 q else acc)
      (modQueue s q (fun y => { y with terr := false }), true)).1

/-- The row of a command kind (Table 17.6). -/
def rowOfKind (n : Nat) : Option Instr :=
  match n with
  | 0x00 => some .nopCommand
  | 0x01 => some .launch
  | 0x02 => some .copy
  | 0x03 => some .graph
  | 0x04 => some .wait
  | 0x05 => some .ckpt
  | 0x06 => some .preempt
  | 0x07 => some .resume
  | 0x80 => some .pconf
  | 0x81 => some .qconf
  | 0x82 => some .preset
  | 0x83 => some .pwin
  | 0x84 => some .fwload
  | 0x85 => some .attest
  | 0x86 => some .switch
  | _ => none

/-- Whether a PRESET of a partition has been accepted and has not completed (R364, step 1). -/
def presetWaits (s : State) (n : Nat) : Bool := (queue s 0).cmds.any (fun k => k.kind = 0x82 && k.args.getD 0 0 = n)

/-- Whether a queue starts commands (R364, R368, R381). (Log 51: DEDUCED; log 54: DEDUCED.) -/
def mayStartCmd (s : State) (q : Nat) : Bool :=
  let x := queue s q
  x.state = 1 && x.due.length < 64 && !x.bexh
    && (match partOf s q with | some (n, p) => p.resetting.isNone && !presetWaits s n | none => true)

/-- Starts the commands of a queue in ascending SEQ; one that was accepted in this frame may be left for the next (R378).
(Log 54: DEDUCED; log 95: DESIGN CHOICE.) -/
def startCmds : Nat → State → Nat → State
  | 0, s, _ => s
  | n + 1, s0, q =>
    let x := queue s0 q
    match x.cmds.find? (fun k => k.st = .accepted) with
    | none => s0
    | some k =>
      let d := if k.born = s0.front.frames then drawChoice s0 else (false, s0)
      let s := d.2
      if d.1 || !mayStartCmd s q || (bitsAt k.flags 0 1 = 1 && x.cmds.any (fun y => y.seq < k.seq)) then s
      else
        let s1 := setCmdSt s q k.seq .running
        startCmds n (match rowOfKind k.kind with
          | none => retireCmd s1 q k.seq stField 0 0 0 []
          | some i =>
            if 8 ≤ k.flags ∨ (128 ≤ k.kind ∧ q ≠ 0) then retireCmd s1 q k.seq stField 0 0 0 []
            else at' s1 s1.gcyc i [q, k.seq, 0]) q

/-- NOP command [queue, SEQ]. -/
def execNopCommand (s : State) : Out := .next (retireCmd s (arg s 0) (arg s 1) 0 0 0 0 [])

/-- A waiting command of a queue, in a frame. -/
def stepCmd (q : Nat) (s : State) (k : Command) : State :=
  if k.st ≠ .waiting then s
  else
    match k.kind with
    | 4 => testWait s q k.seq 0
    | 6 => stepContext q s k
    | 7 => stepContext q s k
    | _ => s

/-- The work of a queue: its commands that wait, its copies, the commands that start, its graphs. -/
def queueWork (s2 : State) (q : Nat) : State :=
  let s3 := (queue s2 q).cmds.foldl (stepCmd q) s2
  let s4 := stepShares s3 q
  let s5 := startCmds ((queue s4 q).cmds.length) s4 q
  ((s5.front.graphs.filter (fun g => g.2.queue = q && !g.2.closed)).map (fun g => g.1)).foldl (walkGraph (mayStartCmd s5 q)) s5

/-- A queue in its owner's frame; one that KEEP restored as DISABLED writes its ABORTED completions too (R383). -/
def frameQueue (s : State) (q : Nat) : State :=
  let s0 := if q = 0 then stepAdmin s else s
  let moved := (queue s0 q).moved
  let s1 := if (queue s0 q).state ≤ 1 then flush ((queue s0 q).due.length) (interrupt s0 q) q else s0
  if (queue s1 q).state ≠ 1 then s1
  else queueWork (if moved then modQueue s1 q (fun x => { x with moved := false }) else poll s1 q) q

/-- A queue in a later slot of a frame: its completions and its work, with no poll and no interrupt. (Log 95: DESIGN CHOICE.) -/
def slotQueue (s : State) (q : Nat) : State :=
  if (queue s q).state = 1 then queueWork (flush ((queue s q).due.length) s q) q else s

/-! ## Energy (R381) -/

/-- Bills a gang's frame to its queue, and marks the queue's exhaustion. (Log 60: DEDUCED.) -/
def bill (s : State) (g : Nat × Gang) : State :=
  let c := ((coresOf g.2).map (fun c => if (core s c).gang = some g.1 then chargeOf (core s c) else 0)).sum
  modQueue s g.2.queue (fun q =>
    let t := q.charge + c
    { q with charge := t, jused := t / 1000000, bexh := q.bexh || (q.desc.jbud ≠ 0 && q.desc.jbud * 1000 ≤ t / 1000000) })

/-- The charges of a frame. (Log 60: DEDUCED.) -/
def chargeFrame (s : State) : State :=
  let s1 := s.gangs.foldl bill s
  { s1 with cores := s1.cores.map (fun p => (p.1, { p.2 with activity := [] })) }

/-- A gang whose queue had its budget exhausted before this frame keeps its cores while it is saved. -/
def budgetSave (old : State) (s : State) (g : Nat × Gang) : State :=
  if (queue old g.2.queue).bexh && g.2.pre && gangRuns s g then keep (beginGangSave s g.1 true) g.1 2 else s

/-- A gang that a budget saved resumes once its queue may start again. -/
def budgetResume (s : State) (g : Nat × Gang) : State :=
  if tfind s.front.kept g.1 = some 2 ∧ g.2.savedAll ∧ !(queue s g.2.queue).bexh ∧ s.front.clockDue.isNone then restoreNow s g.1
  else s

/-- BUDGET_PERIOD_BOUNDARY: JUSED returns to 0 and saved gangs resume. -/
def execBudgetPeriodBoundary (s : State) : Out :=
  let s1 := { s with front := { s.front with
    queues := s.front.queues.map (fun (p : Nat × Queue) => (p.1, { p.2 with charge := 0, jused := 0, bexh := false })) } }
  .next (s1.gangs.foldl budgetResume s1)

/-! ## The clock (R419) -/

/-- CLOCK_CHANGE [multiplier]: a change by one step becomes due; a lowering is due to the power limit, which STAT records also where
the clock is the lowest or a change is due already. In reset no Fumarole runs (R421). (Log 55: DESIGN CHOICE.) -/
def execClockChange (s : State) : Out :=
  let m := arg s 0
  let ok : Bool := (m = 10 || m = 12 || m = 14) && (m = s.board.clk + 2 || m + 2 = s.board.clk)
  let s1 := if m + 2 = s.board.clk then { s with board := { s.board with stat := s.board.stat ||| 2 } } else s
  .next (if !outOfReset s || s.board.step < 4 then s
    else if !ok || s.front.clockDue.isSome then s1
    else { s1 with front := { s1.front with clockDue := some m, heldLaunches := true } })

/-- Whether a thread of a compute core is resident (R175, Table 6.1). -/
def anyResident (s : State) : Bool :=
  s.cores.any (fun k => !isSvc k.1 && k.2.threads.any (fun t => t.2.st ≠ .vacant && t.2.st ≠ .done && t.2.st ≠ .saved))

/-- A change that is due, in a frame: running gangs are saved with their cores or complete, then, with no thread of any gang
resident, the clock changes and they are restored. (Log 55: DESIGN CHOICE.) -/
def stepClock (s : State) : State :=
  match s.front.clockDue with
  | none => s
  | some m =>
    let s1 := s.gangs.foldl (fun x g => if g.2.pre && gangRuns x g then keep (beginGangSave x g.1 true) g.1 3 else x) s
    if s1.gangs.all (fun g => g.2.savedAll) && !anyResident s1 then
      let s2 := { s1 with front := { s1.front with clockDue := none, heldLaunches := false }, board := { s1.board with clk := m } }
      (s2.gangs.filter (fun g => tfind s2.front.kept g.1 = some 3)).foldl (fun x g => restoreNow x g.1) s2
    else s1

/-! ## Completed gangs (R371, step 7) -/

/-- What a gang has spent since its cores' counters were last read is billed as it leaves them (R381). -/
def settleCharge (s : State) (g : Nat × Gang) : State :=
  let s1 := bill s g
  { s1 with cores := s1.cores.map (fun p => if p.2.gang = some g.1 then (p.1, { p.2 with activity := [] }) else p) }

/-- The completion of a gang, and its cores free. (Log 48: DEDUCED.) -/
def endCompleted (s : State) (g : Nat × Gang) : State :=
  match g.2.completed with
  | none => s
  | some t =>
    let ids := (gangFlights s g.1).map (fun f => f.1)
    let v := if g.2.raceMode = 0 then t else g.2.raceLog % 2 ^ 60
    finish (dropGang (settleCharge s g) g.1) g.2.queue g.2.seq g.2.node (if g.2.ended then stEnded else 0) (if g.2.ended then g.2.endCause else 0)
      0 v ids

/-! ## Vent cores (R378, R382, R384, R385) -/

def vent (s : State) (v : Nat) : Vent := tget {} s.front.vents v

def modVent (s : State) (v : Nat) (f : Vent → Vent) : State :=
  { s with front := { s.front with vents := tset s.front.vents v (f (vent s v)) } }

/-- The vent cores that run frames. -/
def liveVents (s : State) : List Nat := (List.range 4).filter (fun v => !(vent s v).failed && !(vent s v).reloading)

/-- The queues of a vent core. -/
def queuesOf (s : State) (v : Nat) : List Nat := (List.range 64).filter (fun q => (queue s q).owner = v)

/-- The image that is staged: offset and bytes. -/
def staged (s : State) (ofs n : Nat) : List Nat := getBytes s (0x3000200100000 + ofs) n

/-- The trailer of an image is its last 1,352 bytes: the version, the digest of everything before the digest, the signature
over the digest, padded to 1,280 bytes (R384). (Log 75: DESIGN CHOICE.) -/
def trailerAt (img : List Nat) : Nat := img.length - 1352

/-- The version that an image's trailer names. -/
def imageVersion (img : List Nat) : Nat := leNat ((img.drop (trailerAt img)).take 8)

/-- The digest that it holds. -/
def imageDigest (img : List Nat) : List Nat := (img.drop (trailerAt img + 8)).take 64

/-- R384: whether the Fumarole accepts an image. (Log 75: DESIGN CHOICE.) -/
def accepts (img : List Nat) : Bool :=
  1352 ≤ img.length && imageDigest img = shake256 (img.take (trailerAt img + 8))
    && Config.signatureOk (imageDigest img) (img.drop (trailerAt img + 72)) && Config.fusedMin ≤ imageVersion img

/-- A core that stopped: its queues are orphaned. (Log 59: DEDUCED.) -/
def orphan (s : State) (u : Nat) : State :=
  let s1 := ((queuesOf s u).filter (fun q => (queue s q).state ≠ 2)).foldl (fun x q =>
    modQueue x q (fun y => { y with state := 2, was := y.state, epoch := y.epoch + 1 })) s
  report0 (modVent s1 u (fun k => { k with orphaned := true })) 0xE1 u

/-- Vent core `v` looks at core `u`: one frame without an advance declares it failed, and the next frame acts. (Log 59: DEDUCED.) -/
def watch (v : Nat) (s : State) (u : Nat) : State :=
  let h := (vent s u).hbeat
  let n := if tfind (vent s v).seen u = some h then tget 0 (vent s v).stale u + 1 else 0
  let s1 := modVent s v (fun k => { k with seen := tset k.seen u h, stale := tput 0 k.stale u n })
  if (vent s u).reloading then modVent s1 v (fun k => { k with stale := tdel k.stale u })
  else if 2 ≤ n ∧ !(vent s u).orphaned then orphan s1 u else s1

/-- The heartbeat of a frame. (Log 59: DEDUCED.) -/
def heartbeat (s : State) (v : Nat) : State :=
  ((List.range 4).filter (fun u => u ≠ v)).foldl (watch v) (modVent s v (fun k => { k with hbeat := k.hbeat + 1 }))

/-- WRITE_RELOAD [value]: a halted core reloads from staging. (Log 59: DEDUCED.) -/
def execWriteReload (s : State) : Out :=
  let v := arg s 0 % 4
  .next (if !(vent s v).failed then s
    else
      later { modVent s v (fun k => { k with reloading := true }) with
        front := { (modVent s v (fun k => { k with reloading := true })).front with reload := arg s 0, rstat := 1 } }
        [] .ventReloadComplete [v, bitsAt (arg s 0) 12 20 * 4096, bitsAt (arg s 0) 32 20 * 4096])

/-- The end of a hand-over. -/
def endHandOver (s : State) (status rstat phase : Nat) : State :=
  match s.front.fwload with
  | none => s
  | some (seq, _, _) =>
    retireCmd { s with front := { s.front with fwload := none, rstat := rstat, hphase := phase } } 0 seq status 0 0 0 []

/-- A core runs an image. -/
def runImage (img : List Nat) (k : Vent) : Vent :=
  { k with image := img, iver := imageVersion img, reloading := false, failed := false, orphaned := false }

/-- VENT_RELOAD_COMPLETE [core, offset, bytes]: the image is checked; a core that takes it runs, with its queues, or goes
on with the hand-over. -/
def execVentReloadComplete (s : State) : Out :=
  let v := arg s 0
  let img := staged s (arg s 1) (arg s 2)
  let s1 := modVent s v (runImage img)
  .next (if !(vent s v).reloading then s
    else if (vent s v).failed then
      (if accepts img then
        (let s2 := ((queuesOf s1 v).filter (fun q => (queue s1 q).state = 2)).foldl (fun x q =>
          modQueue x q (fun y => { y with state := y.was, epoch := y.epoch + 1 })) s1
         { s2 with front := { s2.front with rstat := 3 } })
       else
        let s2 := modVent s v (fun k => { k with reloading := false })
        { s2 with front := { s2.front with rstat := 2 } })
    else if accepts img then
      let s2 := modVent s1 v (fun k => { k with fresh := true })
      { s2 with front := { s2.front with hphase := 3 } }
    else endHandOver (modVent s v (fun k => { k with reloading := false })) stRange 2 s.front.hphase)

/-- FWLOAD [0, SEQ]: a hand-over begins. -/
def execFwload (s : State) : Out :=
  let seq := arg s 1
  .next (match argsOf s 0 seq 0 with
    | none => s
    | some a =>
      if 0x100000 < a.getD 0 0 + a.getD 1 0 ∨ a.getD 1 0 = 0 then retireCmd s 0 seq stField 0 0 0 []
      else if s.front.fwload.isSome then retireCmd s 0 seq stRange 0 0 0 []
      else
        let s1 := { s with front := { s.front with
          fwload := some (seq, a.getD 0 0, a.getD 1 0), hphase := 1, rstat := 0
          vents := s.front.vents.map (fun p => (p.1, { p.2 with fresh := false })) } }
        setCmdSt s1 0 seq .waiting)

/-- The core of a list with the fewest queues, the lowest index among equals. (Log 59: DEDUCED.) -/
def fewest (s : State) : List Nat → Option Nat
  | [] => none
  | v :: r =>
    match fewest s r with
    | none => some v
    | some u => if (queuesOf s v).length ≤ (queuesOf s u).length then some v else some u

/-- A queue moves to another core at a frame boundary; it is not polled in this frame. (Log 59: DEDUCED.) -/
def moveQueue (s : State) (q v : Nat) : State := modQueue s q (fun x => { x with owner := v, epoch := x.epoch + 1, moved := true })

/-- A core begins to load the new image. -/
def beginReload (s : State) (v : Nat) : State :=
  match s.front.fwload with
  | none => s
  | some (_, o, n) =>
    let s1 := modVent s v (fun k => { k with reloading := true })
    later { s1 with front := { s1.front with hphase := 2, rstat := 1 } } [] .ventReloadComplete [v, o, n]

/-- A hand-over at a frame boundary (Table 17.14). -/
def stepHandOver (s : State) : State :=
  let live := (List.range 4).filter (fun v => !(vent s v).failed)
  let old := live.filter (fun v => !(vent s v).fresh)
  let new := live.filter (fun v => (vent s v).fresh)
  match s.front.fwload, s.front.hphase with
  | none, 4 => { s with front := { s.front with hphase := 0 } }
  | some _, 1 =>
    match fewest s live with
    | none => s
    | some v =>
      match queuesOf s v, fewest s (live.filter (fun u => u ≠ v)) with
      | q :: _, some u => moveQueue s q u
      | [], _ => beginReload s v
      | _ :: _, none => beginReload s v
  | some _, 3 =>
    match old.find? (fun v => queuesOf s v = []) with
    | some v => beginReload s v
    | none =>
      match (List.range 64).find? (fun q => old.contains (queue s q).owner), fewest s new with
      | some q, some u => moveQueue s q u
      | _, _ => endHandOver s 0 3 4
  | _, _ => s

/-- ATTEST [0, SEQ]: the report of one frame boundary. (Log 56: DESIGN CHOICE.) -/
def execAttest (s : State) : Out :=
  let seq := arg s 1
  .next (match argsOf s 0 seq 0 with
    | none => s
    | some a =>
      let vs := (List.range 4).map (vent s)
      let report :=
        (List.range 4).flatMap (fun i => leBytes 8 (a.getD (1 + i) 0)) ++ leBytes 8 Config.fusedMin
          ++ vs.flatMap (fun v => leBytes 8 v.iver ++ shake256 v.image)
          ++ (List.range 64).flatMap (fun q => [(queue s q).owner, (queue s q).state])
          ++ [s.front.hphase] ++ leBytes 8 (s.gcyc % 2 ^ 64)
      let all := report ++ (List.range 1280).map (fun i => (Config.attestBytes report).getD i 0 % 256)
      if vs.any (fun v => v.failed || v.reloading) then retireCmd s 0 seq stNoatt 0xE3 0 0 []
      else if !inHost s (a.getD 0 0) all.length then retireCmd s 0 seq stRange 0 0 0 []
      else retireCmd (frontWrite s (keyOf s (a.getD 0 0)) all) 0 seq 0 0 0 0 [])

/-- QUEUE_TABLE_ERROR [queue] (R383); in reset there is no table (R421). -/
def execQueueTableError (s : State) : Out :=
  let q := arg s 0
  .next (if (queue s q).state = 3 || !outOfReset s then s
    else
      let dead := abortedOf s q (fun _ => true)
      let s1 := modQueue (dropCmds s q (fun _ => true)) q (fun x => { x with state := 3, aborted := dead })
      report0 ((s1.gangs.filter (fun g => g.2.queue = q)).foldl endGang s1) 0xE0 q)

/-! ## The frame (R378) -/

/-- What the executive does once for a frame, before its queues. -/
def frameStart (s : State) : State :=
  let n := s.front.frames + 1
  let s1 := stepHandOver { s with front := { s.front with frames := n, started := s.gcyc + 1 } }
  if n % 500 = 0 then at' s1 s1.gcyc .budgetPeriodBoundary [] else s1

/-- And after them. -/
def frameEnd (old s : State) : State :=
  let s0 := chargeFrame s
  let s1 := s0.gangs.foldl endCompleted s0
  let s2 := s1.gangs.foldl (budgetSave old) s1
  let s3 := s2.gangs.foldl budgetResume s2
  let s4 := (List.range 8).foldl servePart s3
  (List.range 8).foldl stepPreset (stepClock s4)

/-- A frame may serve its graphs and launches in further slots (R378: when its slots come is fixed as the image is built):
the next one, before the frame ends at cycle `e`. (Log 95: DESIGN CHOICE.) -/
def nextSlot (s : State) (v e : Nat) : State :=
  let d := drawChoice s
  let l := drawLat d.2
  if d.1 ∧ s.gcyc + 1 < e then at' l.2 (s.gcyc + 1 + l.1 % (e - s.gcyc - 1)) .executiveFrame [v, e] else d.2

/-- A further slot of a frame. -/
def laterSlot (s : State) (v e : Nat) : State :=
  if !(liveVents s).contains v then s
  else nextSlot ((List.range 8).foldl servePart ((queuesOf s v).foldl slotQueue (s.gangs.foldl endCompleted s))) v e

/-- EXECUTIVE_FRAME [vent core]: a major frame of 2 µs; [vent core, end]: a further slot of the frame that ends then. -/
def execExecutiveFrame (s : State) : Out :=
  let v := arg s 0
  let e := s.gcyc + 250 * s.board.clk
  let s0 := at' s e .executiveFrame [v]
  .next (if arg s 1 ≠ 0 then laterSlot s v (arg s 1)
    else if !(liveVents s0).contains v then s0
    else
      let s1 := if s0.front.started = s.gcyc + 1 then s0 else frameStart s0
      let s2 := (queuesOf s1 v).foldl frameQueue (heartbeat s1 v)
      let s3 := if (liveVents s0).getLast? = some v then frameEnd s s2 else s2
      nextSlot s3 v e)

/-! ## The host (R362, R365, R366, R369, Tables 17.1, 17.4, 17.13) -/

/-- The host group is trained (R421, step 5). -/
def hostReaches (s : State) : Bool := 5 ≤ s.board.step && !s.board.rst && s.board.supply

def writeTail (s : State) (q v : Nat) : State := modQueue s q (fun x => { x with tail := v % 2 ^ 64 })

/-- A CHEAD that does not lie from the current CHEAD to CWR is not accepted. -/
def writeChead (s : State) (q v : Nat) : State :=
  let x := queue s q
  if x.chead ≤ v ∧ v ≤ x.cwr then modQueue s q (fun y => { y with chead := v }) else s

/-- WRITE_TAIL [queue, value]. -/
def execWriteTail (s : State) : Out :=
  .next (if hostReaches s ∧ arg s 0 < 64 then writeTail s (arg s 0) (arg s 1) else s)

/-- WRITE_CHEAD [queue, value]. -/
def execWriteChead (s : State) : Out :=
  .next (if hostReaches s ∧ arg s 0 < 64 then writeChead s (arg s 0) (arg s 1) else s)

/-- WRITE_ADMINGO [value]. -/
def execWriteAdmingo (s : State) : Out :=
  .next (if hostReaches s then { s with front := { s.front with admingo := arg s 0 % 256 } } else s)

/-- A 64-bit word of a status page. -/
def statusWordOf (x : Queue) (i : Nat) : Nat :=
  match i with
  | 0 => x.tail
  | 1 => x.lacc
  | 2 => x.lret
  | 3 => x.cwr
  | 4 => x.chead
  | 5 => x.epoch
  | 6 => x.state + (if x.terr then 256 else 0) + (if x.bexh then 512 else 0) + x.owner * 1024
  | 7 => x.jused
  | _ => 0

/-- A byte of the front-end page. (Log 5: DESIGN CHOICE.) -/
def frontByte (s : State) (o : Nat) : Nat :=
  let byte := fun (w : Nat) => w / 256 ^ (o % 8) % 256
  if o < 0x20 then byte (vent s (o / 8)).hbeat
  else if o < 0x40 then byte (vent s ((o - 0x20) / 8)).iver
  else if o = 0x48 then s.front.rstat
  else if o = 0x50 then s.front.hphase
  else if 0x80 ≤ o ∧ o < 0xC0 then s.front.adminq.getD (o - 0x80) 0
  else if o = 0xC0 then s.front.admingo
  else if 0x100 ≤ o ∧ o < 0x300 then (tget 0 s.front.idpub (o - 0x100)).toNat
  else 0

/-- The scratchpads and code stores of the aperture, and the staging area. -/
def apertureMemory (a : Nat) : Bool :=
  (0x3000000000000 ≤ a && a < 0x3000040800000) || (0x3000100000000 ≤ a && a < 0x3000108000000)
    || (0x3000200100000 ≤ a && a < 0x3000200200000)

/-- A byte of the aperture as the host reads it. -/
def apertureByte (s : State) (a : Nat) : Nat :=
  if apertureMemory a then visByte s a
  else if 0x3000200000000 ≤ a ∧ a < 0x3000200001000 then frontByte s (a - 0x3000200000000)
  else if 0x3000200010000 ≤ a ∧ a < 0x3000200050000 then
    let o := a - 0x3000200010000
    statusWordOf (queue s (o / 4096)) (o % 4096 / 8) / 256 ^ (o % 8) % 256
  else 0

/-- The compute core whose code store holds an address. -/
def codeCore (a : Nat) : Option Nat :=
  if 0x3000100000000 ≤ a ∧ a < 0x3000108000000 then
    some (128 * ((a - 0x3000100000000) / 0x2000000) + (a - 0x3000100000000) % 0x2000000 / 0x40000)
  else none

/-- A byte that the host writes to memory; one in the code store of a core that a gang holds is dropped. -/
def hostByte (s : State) (a b : Nat) : State :=
  match codeCore a with
  | some c =>
    if (core s c).gang.isSome then s
    else modCore (putByte s a (BitVec.ofNat 8 b)) c (fun k =>
      { k with codeBad := k.codeBad.filter (fun x => x ≠ a - codeStore c) })
  | none => if apertureMemory a then putByte s a (BitVec.ofNat 8 b) else s

/-- The bytes of a host write but those that a poisoned bank word refuses (R201). -/
def hostBytes (s : State) (a : Nat) (l : List Nat) : State :=
  ((List.range l.length).zip l).foldl (fun x p => if writeRefused s a l.length (a + p.1) then x else hostByte x (a + p.1) p.2) s

/-- The core whose scratchpad holds a byte of the aperture. -/
def scratchCore (a : Nat) : Option Nat :=
  if 0x3000000000000 ≤ a ∧ a < 0x3000040000000 then
    some ((a - 0x3000000000000) / 0x10000000 * 128 + (a - 0x3000000000000) % 0x10000000 / 0x200000)
  else if 0x3000040000000 ≤ a ∧ a < 0x3000040800000 then some (512 + (a - 0x3000040000000) / 0x80000)
  else none

/-- A write of bytes to the front-end page. -/
def writeFrontPage (s : State) (o : Nat) (l : List Nat) : State :=
  if 0x80 ≤ o ∧ o + l.length ≤ 0xC0 then
    { s with front := { s.front with
        adminq := (List.range 64).map (fun i => if o - 0x80 ≤ i ∧ i < o - 0x80 + l.length then l.getD (i + 0x80 - o) 0
          else s.front.adminq.getD i 0) } }
  else if o = 0xC0 ∧ l ≠ [] then { s with front := { s.front with admingo := l.getD 0 0 } }
  else if o = 0x40 ∧ l.length = 8 then at' s s.gcyc .writeReload [leNat l]
  else s

/-- A write of bytes to a status page: TAIL and CHEAD as one aligned word each. -/
def writeStatus (s : State) (q o : Nat) (l : List Nat) : State :=
  if l.length ≠ 8 then s
  else if o = 0 then writeTail s q (leNat l)
  else if o = 0x20 then writeChead s q (leNat l) else s

/-- The bank words that the engine port serves to the host, of a compute core. -/
def tickPage (s : State) (a n : Nat) : State :=
  match scratchCore a with
  | some c => if isSvc c ∨ n = 0 then s else tick s c 3 ((unitsOf a n).length)
  | none => s

/-- Whether an access of the aperture has to wait at the engine port of the scratchpad that it meets: a write for the bank words
that the thread port holds, each behind what waits there (R198, R201). -/
def apertureBarred (s : State) (write : Bool) (a n : Nat) : Option Nat :=
  (scratchCore a).bind (fun c => if (if write then portBars s c a n else !(core s c).waits.isEmpty) then some c else none)

/-- A write through the aperture. -/
def apertureWrite (s : State) (a : Nat) (l : List Nat) : State :=
  if 0x3000200000000 ≤ a ∧ a < 0x3000200001000 then writeFrontPage s (a - 0x3000200000000) l
  else if 0x3000200010000 ≤ a ∧ a < 0x3000200050000 then
    writeStatus s ((a - 0x3000200010000) / 4096) ((a - 0x3000200010000) % 4096) l
  else clearPoison (hostBytes (tickPage s a l.length) a l) a l.length

/-- HOST_APERTURE_ACCESS [0, address, bytes] reads, [1, address, bytes …] writes; [2, address, value] is the Fumarole's write of a
word of the state block that has waited at its engine port (R410). A scratchpad is served through its engine port, in the
order of arrival (R198), and its bank words are charged (R381). (Log 9: DESIGN CHOICE; log 58: DESIGN CHOICE.) -/
def execHostApertureAccess (s : State) : Out :=
  let a := arg s 1
  let l := s.cur.args.drop 2
  .next (if arg s 0 = 2 then takePub s ((scratchCore a).getD 0) a (arg s 2)
    else if !hostReaches s then s
    else
      match apertureBarred s (arg s 0 ≠ 0) a l.length with
      | some c => portWait s c .hostApertureAccess s.cur.args
      | none =>
        if arg s 0 = 0 then
          { tickPage s a (arg s 2) with
            front := { s.front with hostRead := (List.range (arg s 2)).map (fun i => apertureByte s (a + i)) } }
        else apertureWrite s a l)

end Sys2Proof.Machine
end

