-- ==== Sys2Proof/Machine/Physical.lean ====
section
/-! DEFINITION. Errors of the memories, stack temperatures, the main supply, reset and bring-up, and the management
interface (R201, R206, R382, R420 to R422). -/

namespace Sys2Proof.Machine

/-- UNCORRECTABLE_ERROR [0, address] in a bank word or a DRAM line, [1, core, offset] in a byte of a code store,
[2, vent core] in the instruction memory of a vent core, [3, core, tephra core] in that of a tephra core. In reset no memory
is read (R421). (Log 9: DESIGN CHOICE; log 73: DEDUCED.) -/
def execUncorrectableError (s : State) : Out :=
  .next (if !outOfReset s then s else match arg s 0 with
    | 0 => setPoison s (arg s 1) true
    | 1 => modCore s (arg s 1) (fun k =>
        { k with codeBad := if k.codeBad.contains (arg s 2) then k.codeBad else arg s 2 :: k.codeBad })
    | 2 => modVent s (arg s 1) (fun v => { v with failed := true })
    | _ => modCore s (arg s 1) (fun k =>
        { k with tes := tset k.tes (arg s 2) { tget {} k.tes (arg s 2) with imemBad := true } }))

/-- STACK_TEMPERATURE_READ [die]: the bands below 105 °C change latency alone, at 105 °C the board removes the supply
within 10 ms (Table 20.2). The temperatures and the power, at most 4.3 kW (Table 20.1), are measured. (Log 70: DESIGN CHOICE.) -/
def execStackTemperatureRead (s : State) : Out :=
  let t := drawLat s
  let l := drawLat t.2
  let p := drawLat l.2
  let temps := tset s.board.temps (arg s 0) (t.1 % 256)
  let s1 := { p.2 with board := { s.board with
    temps := temps, tdram := temps.foldl (fun m x => max m x.2) 0, tdie := l.1 % 256, pwr := p.1 % 4301 } }
  let s2 := at' s1 (s.gcyc + 2 ^ 16) .stackTemperatureRead [arg s 0]
  .next (if 105 ≤ t.1 % 256 ∧ !s.board.thermtrip then
      laterIn { s2 with board := { s2.board with thermtrip := true } } (1250000 * s.board.clk) .mainSupplyRemoval []
    else s2)

/-- What comes from outside the module. (Log 9: DESIGN CHOICE.) -/
def fromOutside (e : Event) : Bool :=
  match e.instr with
  | .hostApertureAccess => e.args.getD 0 0 ≠ 2
  | .writeTail | .writeChead | .writeAdmingo | .writeReload | .clockChange | .linkDeath
  | .conduitFailure | .inboundPeerRequest | .acknowledgementTimeout | .uncorrectableError | .resetAssert | .i3cStatWrite
  | .closePacket | .queueTableError => true
  | .resetDeassert => e.args = []
  | .mainSupplyRemoval => true
  | _ => false

/-- Every domain in reset. What lies outside the module stays: the memories of the host, of CXL devices and of other
nodes, the board's flash, the record of a thermal trip, and the acts that are to come. (Log 69: DEDUCED.) -/
def heldInReset (s : State) (supply : Bool) : State :=
  { State.reset with
    node := s.node
    mem := s.mem.filter (fun p => isBeyond p.1)
    board := { rst := true, supply := supply, thermtrip := s.board.thermtrip, record := s.board.record
               ventImage := s.board.ventImage, serviceImage := s.board.serviceImage }
    agenda := (s.agenda.filter fromOutside).map (fun e => { e with due := e.due - s.gcyc })
    nextId := s.nextId
    draw := s.draw }

/-- RESET_ASSERT. (Log 9: DESIGN CHOICE; log 69: DEDUCED.) -/
def execResetAssert (s : State) : Out := .next (heldInReset s s.board.supply)

/-- MAIN_SUPPLY_REMOVAL: all device state is lost; the board's supply controller keeps the record of a trip, whose signal the lost
module drives no more. (Log 69: DEDUCED; log 70: DESIGN CHOICE.) -/
def execMainSupplyRemoval (s : State) : Out :=
  let b := { s.board with record := s.board.record || s.board.thermtrip, thermtrip := false }
  .next (heldInReset { s with agenda := s.agenda.filter (fun e => e.instr ≠ .mainSupplyRemoval), board := b } false)

/-- Steps 1 to 5 take at most 2 s: the cycles that each of four waits may take. (Log 68: DESIGN CHOICE.) -/
abbrev stepBound : Nat := 800000000

/-- Step 1: the dies leave reset; GCYC is 0. The supply controller hands back the record of a trip (Table 20.4). -/
def bringUp1 (s : State) : State :=
  laterIn { s with
    gcyc := 0
    board := { s.board with rst := false, step := 1, stat := if s.board.record then 1 else 0, record := false } }
    stepBound .resetDeassert [2]

/-- Step 2: scratchpads and DRAM are written zero with every word full (R200), and the stacks' controllers run. -/
def bringUp2 (s : State) : State :=
  let s1 := { s with
    mem := s.mem.filter (fun p => !(isDram p.1 || (0x3000000000000 ≤ p.1 && p.1 < 0x3000040800000)))
    empty := [], poison := []
    board := { s.board with step := 2 } }
  let s2 := laterIn s1 stepBound .resetDeassert [3]
  [0, 1, 2, 3].foldl (fun x d => at' x (x.gcyc + 2 ^ 16) .stackTemperatureRead [d]) s2

/-- Step 3: the boot ROM checks the vent image; a refusal ends the bring-up with FWSTAT 2. The service image is written
into the service cores. (Log 71: DEDUCED.) -/
def bringUp3 (s : State) : State :=
  if accepts s.board.ventImage then
    let s1 := writeServices { s with board := { s.board with step := 3 } }
    let d := drawLat s1
    at' d.2 (nextRelease (s.gcyc + 1 + d.1 % stepBound)) .resetDeassert [4]
  else { s with board := { s.board with fwstat := 2 } }

/-- Step 4: the Fumarole's frames begin; the state block is written into the service cores, which are released.
(Log 72: DEDUCED.) -/
def bringUp4 (s : State) : State :=
  let s1 := releaseServices (publishAll { s with board := { s.board with step := 4, fwstat := 1 } })
  let s2 := [0, 1, 2, 3].foldl (fun x v => modVent x v (runImage s.board.ventImage)) s1
  let s3 := [0, 1, 2, 3].foldl (fun x v => at' x x.gcyc .executiveFrame [v]) s2
  laterIn (at' s3 (s.gcyc + 2 ^ 20) .timeSyncExchange []) stepBound .resetDeassert [5]

/-- Step 5: the host group is trained. (Log 72: DEDUCED.) -/
def bringUp5 (s : State) : State :=
  publish { (modEdge s 16 (fun e => { e with state := 0, pers := 4, lanes := 16, gen := e.gen + 1, peer := 2 })) with
    board := { s.board with step := 5 } } 16

/-- RESET_DEASSERT []: the reference edge E that samples it, where the supply has come back with RST_N asserted; GCYC
starts after edge E + 2^16. RESET_DEASSERT [n]: step n of the bring-up is done. (Log 68: DESIGN CHOICE; log 70: DESIGN CHOICE.) -/
def execResetDeassert (s : State) : Out :=
  .next (match s.cur.args with
    | [n] => if s.board.step + 1 ≠ n then s
      else
        match n with
        | 1 => bringUp1 s
        | 2 => bringUp2 s
        | 3 => bringUp3 s
        | 4 => bringUp4 s
        | _ => bringUp5 s
    | _ => if s.board.rst then
        at' { s with board := { s.board with supply := true } } (s.gcyc + 2 ^ 16 * 14) .resetDeassert [1]
      else s)

/-- Register `n` of the management interface as it is read (Table 20.4): a field that is not measured yet is 0. -/
def i3cRegister (s : State) (n : Nat) : Nat :=
  match n with
  | 0 => s.board.ident
  | 1 => s.board.fwstat
  | 2 => s.board.stat
  | 3 => s.board.tdie
  | 4 => s.board.tdram
  | 5 => s.board.pwr
  | 6 => s.board.clk
  | _ => 0

/-- A write to register `n`: STAT alone is written, each one clearing its bit; a write to a read-only register or to one that is
not listed is ignored (R422). -/
def i3cWrite (s : State) (n v : Nat) : State :=
  if n = 2 then { s with board := { s.board with stat := s.board.stat &&& (255 - v % 256) } } else s

/-- I3C_STAT_WRITE [value] writes STAT, [value, number] the register of that number; the target answers from step 1 of the
bring-up on (R422). -/
def execI3cStatWrite (s : State) : Out :=
  .next (if !outOfReset s then s else i3cWrite s (if s.cur.args.length = 2 then arg s 1 else 2) (arg s 0))

end Sys2Proof.Machine
end

