-- ==== Sys2Proof/Machine/Vector.lean ====
section
/-! DEFINITION. The V slot (R133 to R157). An instruction acts on the lanes that its cluster mask and its guard enable
(R134). -/

namespace Sys2Proof.Machine

/-! ## Lanes and operands -/

/-- The lanes on which the instruction acts. -/
def acting (s : State) (w : VWord) : List Nat :=
  (List.range (laneCount s)).filter (fun l => bitsAt w.cm (l / 16) 1 = 1 && guardBit (me s) s.cur.g l)

/-- The width of a type code's elements. -/
def tyWidth (ty : Nat) : Nat := 8 * szBytes ty

/-- Operand b of a lane: the register, or the constant (R136). -/
def laneB (s : State) (w : VWord) (l : Nat) : Lane :=
  match w.k with
  | none => vlane s w.b l
  | some n => { data := BitVec.ofNat 32 n, tail := 0 }

/-- A result computed lane by lane. -/
def perLane (s : State) (w : VWord) (lat : Nat) (f : Nat → Lane) : Out :=
  .next (landV s w.d lat ((acting s w).map (fun l => (l, f l))))

/-- A result whose elements carry flags. -/
def perLaneFl (s : State) (w : VWord) (lat wd : Nat) (f : Nat → Nat → Held × Nat) : Out :=
  let rs := (acting s w).map (fun l => (l, (elems wd).map (f l)))
  let fl := rs.foldl (fun a r => r.2.foldl (fun a e => flagOr a e.2) a) 0
  .next (landVFl s w.d lat (rs.map (fun r => (r.1, mkLane wd (r.2.map (fun e => e.1))))) fl)

/-! ## Integer and bitwise instructions (R140) -/

/-- An integer result of elements a and b, as integers by the type's signedness. -/
def intOp (s : State) (w : VWord) (f : Int → Int → Int) : Out :=
  let wd := tyWidth w.ty
  perLane s w 1 (fun l => mkLaneI wd ((elems wd).map (fun k =>
    wrapNat wd (f (elemInt w.ty wd k (vlane s w.a l)) (elemInt w.ty wd k (laneB s w l))))))

/-- A result on the bits of elements a and b. -/
def bitOp (s : State) (w : VWord) (f : Nat → Nat → Nat → Nat) : Out :=
  let wd := tyWidth w.ty
  perLane s w 1 (fun l => mkLaneI wd ((elems wd).map (fun k =>
    f wd (elemBits wd k (vlane s w.a l)) (elemBits wd k (laneB s w l)))))

/-- VADD and VSUB: wrapping, or the nearest value of the type's range. -/
def satOp (w : VWord) (x : Int) : Int :=
  match intOf w.ty with
  | some (n, sg) => if w.md = 1 then clampInt n sg x else x
  | none => x

def execVadd (w : VWord) (s : State) : Out := intOp s w (fun a b => satOp w (a + b))

def execVsub (w : VWord) (s : State) : Out := intOp s w (fun a b => satOp w (a - b))

def execVmul (w : VWord) (s : State) : Out := intOp s w (fun a b => a * b)

def execVmulh (w : VWord) (s : State) : Out := intOp s w (fun a b => a * b / (2 ^ tyWidth w.ty : Nat))

def execVmad (w : VWord) (s : State) : Out :=
  let wd := tyWidth w.ty
  perLane s w 1 (fun l => mkLaneI wd ((elems wd).map (fun k =>
    (elemBits wd k (vlane s w.a l) * elemBits wd k (laneB s w l) + elemBits wd k (vlane s w.c l)) % 2 ^ wd)))

def execVand (w : VWord) (s : State) : Out := bitOp s w (fun _ a b => a &&& b)

def execVor (w : VWord) (s : State) : Out := bitOp s w (fun _ a b => a ||| b)

def execVxor (w : VWord) (s : State) : Out := bitOp s w (fun _ a b => a ^^^ b)

def execVshl (w : VWord) (s : State) : Out := bitOp s w (fun n a b => a * 2 ^ (b % n) % 2 ^ n)

def execVshr (w : VWord) (s : State) : Out := bitOp s w (fun n a b => a / 2 ^ (b % n))

def execVsar (w : VWord) (s : State) : Out := bitOp s w (fun n a b => wrapNat n (sextNat n a / (2 ^ (b % n) : Nat)))

def execVmin (w : VWord) (s : State) : Out := intOp s w min

def execVmax (w : VWord) (s : State) : Out := intOp s w max

def execVabs (w : VWord) (s : State) : Out := intOp s w (fun a _ => a.natAbs)

def execVclz (w : VWord) (s : State) : Out := bitOp s w (fun n a _ => clzNat n a)

def execVpopc (w : VWord) (s : State) : Out := bitOp s w (fun n a _ => popNat n a)

def execVdot4 (w : VWord) (s : State) : Out :=
  perLane s w 1 (fun l =>
    let a := vlane s w.a l
    let b := laneB s w l
    let sum : Int := ((List.range 4).map (fun k => elemInt w.ty 8 k a * elemInt w.ty 8 k b)).sum
    { data := BitVec.ofInt 32 ((vlane s w.c l).data.toNat + sum), tail := 0 })

/-! ## Floating arithmetic (R137, R141) -/

/-- The format of the type field. -/
def vfmt (w : VWord) : Fmt := (fmtOf w.ty).getD .f32

/-- A floating result of exact operands, held or settled at write. -/
def fpOp (s : State) (w : VWord) (lat : Nat) (f : Val → Val → Val → Exact × Nat) : Out :=
  let fm := vfmt w
  perLaneFl s w lat fm.width (fun l k =>
    let r := f ((elemHeld fm k (vlane s w.a l)).val fm) ((elemHeld fm k (laneB s w l)).val fm)
      ((elemHeld fm k (vlane s w.c l)).val fm)
    let x := writeFp s.cur.cvp fm r.1
    (x.1, flagOr r.2 x.2))

/-- A chosen operand, or an operand with its sign changed. -/
def heldOp (s : State) (w : VWord) (f : Fmt → Held → Held → Held × Nat) : Out :=
  let fm := vfmt w
  perLaneFl s w 1 fm.width (fun l k => f fm (elemHeld fm k (vlane s w.a l)) (elemHeld fm k (laneB s w l)))

def execVfadd (w : VWord) (s : State) : Out := fpOp s w 1 (fun a b _ => fpAdd s.cur.cvp.mode a b)

def execVfsub (w : VWord) (s : State) : Out := fpOp s w 1 (fun a b _ => fpAdd s.cur.cvp.mode a b.neg)

def execVfmul (w : VWord) (s : State) : Out := fpOp s w 1 (fun a b _ => fpMul a b)

def execVfma (w : VWord) (s : State) : Out := fpOp s w 1 (fun a b c => fpFma s.cur.cvp.mode a b c)

/-- Min and max by R70, settled at write where the prefix says so. -/
def pickOp (s : State) (w : VWord) (isMax number : Bool) : Out :=
  heldOp s w (fun fm a b =>
    let r := fpMinMax fm isMax number a b
    let x := writeHeld s.cur.cvp fm r.1
    (x.1, flagOr r.2 x.2))

def execVfmin (w : VWord) (s : State) : Out := pickOp s w false false

def execVfmax (w : VWord) (s : State) : Out := pickOp s w true false

def execVfminn (w : VWord) (s : State) : Out := pickOp s w false true

def execVfmaxn (w : VWord) (s : State) : Out := pickOp s w true true

def execVfabs (w : VWord) (s : State) : Out := heldOp s w (fun fm a _ => (⟨fm.magOf a.body, a.tail⟩, 0))

def execVfneg (w : VWord) (s : State) : Out :=
  heldOp s w (fun fm a _ => (⟨fm.signed (!fm.signOf a.body) (fm.magOf a.body), a.tail⟩, 0))

/-! ## Compares (R142) -/

/-- A predicate result over the acting lanes. -/
def perBit (s : State) (w : VWord) (f : Nat → Bool × Nat) : Out :=
  let rs := (acting s w).map (fun l => (l, f l))
  let v := (rs.map (fun r => if r.2.1 then 2 ^ r.1 else 0)).sum
  let m := (rs.map (fun r => 2 ^ r.1)).sum
  let fl := rs.foldl (fun a r => flagOr a r.2.2) 0
  .next (landP (note s fl) w.d (BitVec.ofNat 128 v) (BitVec.ofNat 128 m) fl)

/-- Table 5.5 on integers. -/
def intCond (c : Nat) (a b : Int) : Bool :=
  match c with
  | 0 => a = b | 1 => a ≠ b | 2 => a < b | 3 => a ≤ b | 4 => b < a | _ => b ≤ a

/-- Table 5.5 on held values. -/
def fpCond (f : Fmt) (c : Nat) (a b : Held) : Bool × Nat :=
  match c with
  | 0 => fpCmp f .eq a b
  | 1 => fpCmp f .ne a b
  | 2 => fpCmp f .lt a b
  | 3 => fpCmp f .le a b
  | 4 => fpCmp f .lt b a
  | 5 => fpCmp f .le b a
  | _ => fpCmp f .un a b

def execVcmp (w : VWord) (s : State) : Out :=
  let wd := tyWidth w.ty
  let k := w.md / 8
  perBit s w (fun l => (intCond (w.md % 8) (elemInt w.ty wd k (vlane s w.a l)) (elemInt w.ty wd k (laneB s w l)), 0))

def execVfcmp (w : VWord) (s : State) : Out :=
  let fm := vfmt w
  let k := w.md / 8
  perBit s w (fun l => fpCond fm (w.md % 8) (elemHeld fm k (vlane s w.a l)) (elemHeld fm k (laneB s w l)))

def execVfcmps (w : VWord) (s : State) : Out :=
  let fm := vfmt w
  let k := w.md / 8
  let st := fun h : Held => (⟨(settle fm h fm s.cur.cvp.mode s.cur.cvp.sat).1, 0⟩ : Held)
  perBit s w (fun l => fpCond fm (w.md % 8) (st (elemHeld fm k (vlane s w.a l))) (st (elemHeld fm k (laneB s w l))))

/-! ## Conversion, settling and classification (R143 to R145) -/

/-- One element from the type of code `src` to the type of code `dst`. -/
def convElem (p : Cvp) (src dst : Nat) (h : Held) : Held × Nat :=
  match fmtOf src, fmtOf dst, intOf src, intOf dst with
  | some g, some f, _, _ =>
    let r := convExact g h
    let x := writeFp p f r.1
    (x.1, flagOr r.2 x.2)
  | some g, none, _, some (n, sg) =>
    let r := fpToInt p.mode (h.val g) n sg
    (⟨wrapNat n r.1, 0⟩, r.2)
  | none, some f, some (n, sg), _ => writeFp p f (intExact (if sg then sextNat n h.body else (h.body : Int)))
  | none, none, some (n, sg), some (m, tg) =>
    let x : Int := if sg then sextNat n h.body else (h.body : Int)
    (⟨wrapNat m (if p.sat && m ≤ n then clampInt m tg x else x), 0⟩, 0)
  | _, _, _, _ => (⟨0, 0⟩, 0)

def execVcvt (w : VWord) (s : State) : Out :=
  let src := w.md % 16
  let ws := tyWidth src
  let wd := tyWidth w.ty
  let n := 32 / ws
  perLaneFl s w 1 wd (fun l j =>
    let lane := if ws = 2 * wd ∧ n ≤ j then vlane s w.b l else vlane s w.a l
    let k := if ws = 2 * wd then j % n else if wd = 2 * ws then j + w.md / 16 * (32 / wd) else j
    convElem s.cur.cvp src w.ty ⟨elemBits ws k lane, bitsAt lane.tail.toNat (2 * k) 2⟩)

def execVsetl (w : VWord) (s : State) : Out :=
  heldOp s w (fun fm a _ =>
    let r := settle fm a fm s.cur.cvp.mode s.cur.cvp.sat
    (⟨r.1, 0⟩, r.2))

def execVfclass (w : VWord) (s : State) : Out := heldOp s w (fun fm a _ => (⟨fpClass fm a, 0⟩, 0))

/-! ## Special functions (R146) -/

def special (s : State) (w : VWord) (f : Val → Exact × Nat) : Out := fpOp s w 3 (fun a _ _ => f a)

def execVexp2 (w : VWord) (s : State) : Out := special s w fpExp2
def execVlog2 (w : VWord) (s : State) : Out := special s w fpLog2
def execVrcp (w : VWord) (s : State) : Out := special s w fpRcp
def execVrsq (w : VWord) (s : State) : Out := special s w fpRsq
def execVsqrt (w : VWord) (s : State) : Out := special s w fpSqrt
def execVsin (w : VWord) (s : State) : Out := special s w fpSin
def execVcos (w : VWord) (s : State) : Out := special s w fpCos

/-! ## Moving data within and between clusters (R147 to R149, R153) -/

def execVmov (w : VWord) (s : State) : Out := perLane s w 1 (fun l => vlane s w.a l)

def execVsel (w : VWord) (s : State) : Out :=
  perLane s w 1 (fun l => if (preg s w.c).getLsbD l then vlane s w.a l else laneB s w l)

def execVshuf (w : VWord) (s : State) : Out :=
  perLane s w 1 (fun l => vlane s w.a (l / 16 * 16 + (vlane s w.b l).data.toNat % 16))

def execVbcast (w : VWord) (s : State) : Out := perLane s w 1 (fun l => vlane s w.a (l / 16 * 16 + w.b))

def execVcmprs (w : VWord) (s : State) : Out :=
  perLane s w 1 (fun l =>
    let js := (List.range 16).filter (fun j => (preg s w.c).getLsbD (l / 16 * 16 + j))
    match js[l % 16]? with
    | none => laneZero
    | some j => vlane s w.a (l / 16 * 16 + j))

def execViota (w : VWord) (s : State) : Out :=
  perLane s w 1 (fun l =>
    { data := BitVec.ofNat 32 (nat s w.a % 2 ^ 32 + (if w.md % 2 = 1 then l % 16 else l)), tail := 0 })

def execVmovsToVector (w : VWord) (s : State) : Out :=
  perLane s w 1 (fun _ => { data := BitVec.ofNat 32 (nat s w.a), tail := BitVec.ofNat 8 (sreg s w.a).tail.toNat })

def execVmovsToScalar (w : VWord) (s : State) : Out :=
  let l := 16 * (w.c % 8) + w.b % 16
  let x := vlane s w.a l
  if (acting s w).contains l then
    .next (landS s w.d 1 { body := BitVec.ofNat 64 x.data.toNat, tail := BitVec.ofNat 2 x.tail.toNat })
  else .next s

def execVmovlToVector (w : VWord) (s : State) : Out :=
  perLane s w 1 (fun l => { data := if (preg s w.a).getLsbD l then 1 else 0, tail := 0 })

def execVmovlToPredicate (w : VWord) (s : State) : Out := perBit s w (fun l => ((vlane s w.a l).data ≠ 0, 0))

/-- The source cluster of XCL (Table 5.11). -/
def xclSource (md c : Nat) : Nat :=
  match md / 8 with
  | 0 => (c + 8 - md % 8) % 8
  | 1 => md % 8
  | _ => c ^^^ (md % 8)

def execXcl (w : VWord) (s : State) : Out := perLane s w 2 (fun l => vlane s w.a (16 * xclSource w.md (l / 16) + l % 16))

/-! ## Reductions and scans (R150 to R152) -/

/-- One step of an operator of Table 5.9 on elements. -/
def redStep (p : Cvp) (ty op wd : Nat) (a b : Held) : Held × Nat :=
  match fmtOf ty with
  | some f =>
    if op = 0 then
      let r := fpAdd p.mode (a.val f) (b.val f)
      let x := writeFp p f r.1
      (x.1, flagOr r.2 x.2)
    else fpMinMax f (op = 2 || op = 4) (op = 3 || op = 4) a b
  | none =>
    let sg : Bool := match intOf ty with | some (_, g) => g | none => false
    let v := fun h : Held => if sg then sextNat wd h.body else ((h.body : Nat) : Int)
    (⟨match op with
      | 0 => (a.body + b.body) % 2 ^ wd
      | 1 => if v a ≤ v b then a.body else b.body
      | 2 => if v a ≤ v b then b.body else a.body
      | 7 => a.body &&& b.body
      | 8 => a.body ||| b.body
      | _ => a.body ^^^ b.body, 0⟩, 0)

/-- A written result of a reduction or scan: settled under settle-on-write where it is floating. -/
def redWrite (p : Cvp) (ty : Nat) (h : Held) : Held × Nat :=
  match fmtOf ty with
  | some f => writeHeld p f h
  | none => (h, 0)

/-- One level of the tree: neighbours combine, an absent one passes its partner through. -/
def pairUp (st : Held → Held → Held × Nat) : List (Option Held) → List (Option Held) × Nat
  | a :: b :: r =>
    let q := pairUp st r
    match a, b with
    | some x, some y => let z := st x y; (some z.1 :: q.1, flagOr z.2 q.2)
    | some x, none => (some x :: q.1, q.2)
    | none, y => (y :: q.1, q.2)
  | l => (l, 0)

/-- The fixed pairwise tree over sixteen positions. A value that meets no other passes as it stands and raises no flag, a signalling
NaN too. (Log 17: DEDUCED.) -/
def redTree (st : Held → Held → Held × Nat) (l : List (Option Held)) : Option Held × Nat :=
  let a := pairUp st l
  let b := pairUp st a.1
  let c := pairUp st b.1
  let d := pairUp st c.1
  (d.1.getD 0 none, flagOr (flagOr a.2 b.2) (flagOr c.2 d.2))

/-- An element of a lane as a held value or as bits with a zero tail. -/
def elemOf (ty wd k : Nat) (l : Lane) : Held :=
  match fmtOf ty with
  | some _ => ⟨elemBits wd k l, bitsAt l.tail.toNat (2 * k) 2⟩
  | none => ⟨elemBits wd k l, 0⟩

/-- Whether element `a` is chosen before element `b` of a later index by R71. -/
def argBetter (ty wd : Nat) (isMax : Bool) (b a : Held) : Bool :=
  match fmtOf ty with
  | some f =>
    if f.isNan a.body then false
    else if f.isNan b.body then true
    else if isMax then a.key f < b.key f else b.key f < a.key f
  | none =>
    let sg : Bool := match intOf ty with | some (_, g) => g | none => false
    let v := fun h : Held => if sg then sextNat wd h.body else ((h.body : Nat) : Int)
    if isMax then v a < v b else v b < v a

/-- The logical index that an arg operator gives for the lanes of a cluster, and its flag. -/
def argChoice (s : State) (w : VWord) (wd : Nat) (ls : List Nat) : Nat × Nat :=
  let es := ls.flatMap (fun l => (elems wd).map (fun k => (l * (32 / wd) + k, elemOf w.ty wd k (vlane s w.a l))))
  let fl := match fmtOf w.ty with
    | some f => if es.any (fun e => f.isSnan e.2.body) then fNV else 0
    | none => 0
  match es with
  | [] => (0, 0)
  | e :: r => ((r.foldl (fun m x => if argBetter w.ty wd (w.md % 16 = 6) x.2 m.2 then x else m) e).1, fl)

/-- The elements of the result of a reduction over one cluster. The minimum or maximum of one input lane is that lane's
value as it stands, a NaN included, and raises no flag: R70 speaks of two operands. (Log 17: DEDUCED.) -/
def redCluster (s : State) (w : VWord) (wd : Nat) (ls : List Nat) (c : Nat) : List (Held × Nat) :=
  (elems wd).map (fun k =>
    let t := redTree (redStep s.cur.cvp w.ty (w.md % 16) wd) ((List.range 16).map (fun i =>
      if ls.contains (16 * c + i) then some (elemOf w.ty wd k (vlane s w.a (16 * c + i))) else none))
    let r := redWrite s.cur.cvp w.ty (t.1.getD ⟨0, 0⟩)
    (r.1, flagOr t.2 r.2))

def execVred (w : VWord) (s : State) : Out :=
  let wd := tyWidth w.ty
  let ls := acting s w
  let rs := (List.range 8).flatMap (fun c =>
    let lc := ls.filter (fun l => l / 16 = c)
    if lc.isEmpty then []
    else if w.md % 16 = 5 ∨ w.md % 16 = 6 then
      let r := argChoice s w wd lc
      lc.map (fun l => (l, ({ data := BitVec.ofNat 32 r.1, tail := 0 } : Lane), r.2))
    else
      let r := redCluster s w wd lc c
      let lane := mkLane wd (r.map (fun e => e.1))
      lc.map (fun l => (l, lane, r.foldl (fun a e => flagOr a e.2) 0)))
  .next (landVFl s w.d 2 (rs.map (fun r => (r.1, r.2.1))) (rs.foldl (fun a r => flagOr a r.2.2) 0))

/-- A running result over elements in ascending lanes; the first passes as it stands and raises no flag, a signalling NaN too.
(Log 17: DEDUCED.) -/
def scanRun (p : Cvp) (ty op wd : Nat) (excl : Bool) : Option Held → List Held → List (Held × Nat)
  | _, [] => []
  | run, x :: r =>
    let new := match run with
      | none => (x, 0)
      | some y => redStep p ty op wd y x
    let out := redWrite p ty (if excl then run.getD ⟨0, 0⟩ else new.1)
    (out.1, flagOr new.2 out.2) :: scanRun p ty op wd excl (some new.1) r

def execVscan (w : VWord) (s : State) : Out :=
  let wd := tyWidth w.ty
  let ls := acting s w
  let rs := (List.range 8).flatMap (fun c =>
    let lc := ls.filter (fun l => l / 16 = c)
    let cols := (elems wd).map (fun k =>
      scanRun s.cur.cvp w.ty (w.md % 16) wd (w.md / 16 = 1) none (lc.map (fun l => elemOf w.ty wd k (vlane s w.a l))))
    ((List.range lc.length).zip lc).map (fun p =>
      let es := cols.map (fun col => col.getD p.1 (⟨0, 0⟩, 0))
      (p.2, mkLane wd (es.map (fun e => e.1)), es.foldl (fun a e => flagOr a e.2) 0)))
  .next (landVFl s w.d 2 (rs.map (fun r => (r.1, r.2.1))) (rs.foldl (fun a r => flagOr a r.2.2) 0))

/-! ## Random numbers (R154) -/

/-- Philox-4×32-10: `n` rounds left. -/
def philox : Nat → Nat × Nat × Nat × Nat → Nat → Nat → Nat × Nat × Nat × Nat
  | 0, x, _, _ => x
  | n + 1, (x0, x1, x2, x3), k0, k1 =>
    let p := 0xD2511F53 * x0
    let q := 0xCD9E8D57 * x2
    philox n ((q / 2 ^ 32) ^^^ x1 ^^^ k0, q % 2 ^ 32, (p / 2 ^ 32) ^^^ x3 ^^^ k1, p % 2 ^ 32)
      ((k0 + 0x9E3779B9) % 2 ^ 32) ((k1 + 0xBB67AE85) % 2 ^ 32)

def execVrng (w : VWord) (s : State) : Out :=
  let key := nat s w.c
  perLane s w 1 (fun l =>
    let r := philox 10 ((vlane s w.a l).data.toNat, (vlane s w.b l).data.toNat, l, 0) (key % 2 ^ 32) (key / 2 ^ 32)
    let x := match w.md % 4 with | 0 => r.1 | 1 => r.2.1 | 2 => r.2.2.1 | _ => r.2.2.2
    { data := BitVec.ofNat 32 x, tail := 0 })

/-! ## Block packing (R155 to R157) -/

/-- The result of rnd(y × 2^k) for a value: the integer and whether it was inexact. -/
def rndScaled (mode : RMode) (v : Val) (k : Int) : Int × Bool :=
  match v with
  | .fin n m e => roundInt mode n m (e + k)
  | _ => (0, false)

/-- A packed block: its element codes, shared bytes and flags. -/
structure Packed where
  codes : List Nat
  e0 : Nat
  e1 : Nat
  flags : Nat
deriving DecidableEq, Repr

/-- The Microscaling formats: the scale and the element codes (0 mx8e4, 1 mx8e5, 2 mx4, 3 mxi8); UF is never raised. -/
def packMx (p : Cvp) (fmt : Nat) (amax : Nat × Int) (xs : List Held) : Packed :=
  let emax : Int := match fmt with | 0 => 8 | 1 => 15 | 2 => 2 | _ => 0
  let sc : Nat := if amax.1 = 0 then 0
    else (max 0 (min 254 ((Nat.log2 amax.1 : Int) + amax.2 - emax + 127))).toNat
  let rs := xs.map (fun x =>
    let y := (x.val .f32).scale (127 - (sc : Int))
    match fmt with
    | 2 => (0, 0)
    | 3 =>
      (match y with
        | .inf n => ((if n then 128 else 127), flagOr fOF fNX)
        | _ =>
          let r := rndScaled p.mode y 6
          let c := max (-128) (min 127 r.1)
          (wrapNat 8 c, flagOr (if r.2 then fNX else 0) (if c ≠ r.1 then flagOr fOF fNX else 0)))
    | _ =>
      let f := if fmt = 0 then Fmt.e4m3 else Fmt.e5m2
      let r := settle f (hold f y.exact) f p.mode p.sat
      (r.1, r.2 &&& (0x1F - fUF)))
  { codes := rs.map (fun r => r.1), e0 := sc, e1 := 0, flags := rs.foldl (fun a r => flagOr a r.2) 0 }

/-- The TX formats (4 tx8, 5 tx4) with exponent gap `g`. -/
def packTx (p : Cvp) (fmt g : Nat) (amax : Nat × Int) (xs : List Held) : Packed :=
  let mmax : Nat := if fmt = 4 then 63 else 3
  let kk : Int := if fmt = 4 then 132 else 128
  let e0 : Nat := if amax.1 = 0 then 0
    else ((List.range 255).find? (fun (e : Nat) =>
      (rndScaled p.mode (.fin false amax.1 amax.2) (kk - (e : Int))).1.natAbs ≤ mmax)).getD 254
  let e1 := e0 - g
  let rs := xs.map (fun x =>
    let v := x.val .f32
    let neg := Fmt.f32.signOf x.body
    let code := fun (sel m : Nat) => if fmt = 4 then sel * 128 + (if neg then 64 else 0) + m
      else sel * 8 + (if neg then 4 else 0) + m
    match v with
    | .fin _ _ _ =>
      let r1 := rndScaled p.mode v (kk - (e1 : Int))
      let r0 := rndScaled p.mode v (kk - (e0 : Int))
      if r1.1.natAbs ≤ mmax then (code 1 r1.1.natAbs, if r1.2 then fNX else 0)
      else (code 0 (min r0.1.natAbs mmax),
        flagOr (if r0.2 then fNX else 0) (if mmax < r0.1.natAbs then flagOr fOF fNX else 0))
    | _ => (code 0 mmax, flagOr fOF fNX))
  { codes := rs.map (fun r => r.1), e0 := e0, e1 := e1, flags := rs.foldl (fun a r => flagOr a r.2) 0 }

/-- One block of 32 held FP32 values. -/
def packBlock (p : Cvp) (fmt g : Nat) (xs : List Held) : Packed :=
  if xs.any (fun x => Fmt.f32.isNan x.body) then
    { codes := List.replicate 32 0, e0 := 0xFF, e1 := if fmt < 4 then 0 else 0xFF,
      flags := if xs.any (fun x => Fmt.f32.isSnan x.body) then fNV else 0 }
  else
    let top := xs.foldl (fun m x => if Fmt.f32.isInf x.body then m else max m (x.code .f32)) 0
    let amax : Nat × Int := match (Held.ofCode .f32 false top).val .f32 with
      | .fin _ m e => (m, e)
      | _ => (0, 0)
    if fmt < 4 then packMx p fmt amax xs else packTx p fmt (if g = 0 then (if fmt = 4 then 3 else 2) else g) amax xs

/-- The 64-byte cluster image (R156). -/
def packImage (fmt : Nat) (b : Packed) : List Nat :=
  let body := if fmt = 5 then
      (List.range 16).map (fun k => b.codes.getD (2 * k) 0 + 16 * b.codes.getD (2 * k + 1) 0) ++ List.replicate 16 0
    else b.codes
  body ++ [b.e0, b.e1] ++ List.replicate 30 0

def execVpack (w : VWord) (s : State) : Out :=
  let fmt := w.md % 8
  let cs := (clusterOn s w)
  let rs := cs.map (fun c =>
    let xs := (List.range 32).map (fun j =>
      elemHeld .f32 0 (vlane s (if j < 16 then w.a else w.b) (16 * c + j % 16)))
    (c, packBlock s.cur.cvp fmt w.c xs))
  let lanes := rs.flatMap (fun r =>
    let img := packImage fmt r.2
    (List.range 16).map (fun i =>
      (16 * r.1 + i, ({ data := BitVec.ofNat 32 (leNat ((img.drop (4 * i)).take 4)), tail := 0 } : Lane))))
  .next (landVFl s w.d 1 lanes (rs.foldl (fun a r => flagOr a r.2.flags) 0))
where
  /-- The clusters that VPACK writes whole. -/
  clusterOn (s : State) (w : VWord) : List Nat := (List.range 8).filter (fun c => (acting s w).contains (16 * c))

/-- Byte `k` of the cluster image held in cluster `c` of a register. -/
def imageByte (s : State) (n c k : Nat) : Nat := bitsAt (vlane s n (16 * c + k / 4)).data.toNat (8 * (k % 4)) 8

/-- VUNPK raises no flag (R157). -/
def execVunpk (w : VWord) (s : State) : Out :=
  let m := w.md % 8 + 5
  perLaneFl s w 1 32 (fun l _ =>
    let j := 16 * (w.md / 8 % 2) + l % 16
    let c := l / 16
    let code := if eltBits m = 4 then bitsAt (imageByte s w.a c (j / 2)) (4 * (j % 2)) 4 else imageByte s w.a c j
    ((writeFp s.cur.cvp .f32 (eltVal m code (imageByte s w.a c 32) (imageByte s w.a c 33)).exact).1, 0))

end Sys2Proof.Machine
end

