-- ==== Sys2Proof/Machine/Dispatch.lean ====
section
/-! DEFINITION. The one dispatch: every row of the opcode table and its meaning. -/

namespace Sys2Proof.Machine

/-- The meaning of an instruction. -/
def exec (i : Instr) (s : State) : Host.Outcome State Fault Refusal :=
  match i with
  | .turnStart => Sys2Proof.Machine.execTurnStart s
  | .landing => Sys2Proof.Machine.execLanding s
  | .segmentExpansionComplete => Sys2Proof.Machine.execSegmentExpansionComplete s
  | .gangRelease => Sys2Proof.Machine.execGangRelease s
  | .gangCompletion => Sys2Proof.Machine.execGangCompletion s
  | .channelWordArrival => Sys2Proof.Machine.execChannelWordArrival s
  | .barrierRelease => Sys2Proof.Machine.execBarrierRelease s
  | .windowInstallApply => Sys2Proof.Machine.execWindowInstallApply s
  | .windowInstallComplete => Sys2Proof.Machine.execWindowInstallComplete s
  | .windowKillInvalidate => Sys2Proof.Machine.execWindowKillInvalidate s
  | .killAcknowledge => Sys2Proof.Machine.execKillAcknowledge s
  | .windowKillComplete => Sys2Proof.Machine.execWindowKillComplete s
  | .inboundMessageWrite => Sys2Proof.Machine.execInboundMessageWrite s
  | .homeServeAccess => Sys2Proof.Machine.execHomeServeAccess s
  | .retryRefusalResend => Sys2Proof.Machine.execRetryRefusalResend s
  | .farReplyArrival => Sys2Proof.Machine.execFarReplyArrival s
  | .deliveryFault => Sys2Proof.Machine.execDeliveryFault s
  | .serviceReplyArrival => Sys2Proof.Machine.execServiceReplyArrival s
  | .endToEndAcknowledgement => Sys2Proof.Machine.execEndToEndAcknowledgement s
  | .engineCommandStart => Sys2Proof.Machine.execEngineCommandStart s
  | .engineCommandRetire => Sys2Proof.Machine.execEngineCommandRetire s
  | .engineHandoverEnd => Sys2Proof.Machine.execEngineHandoverEnd s
  | .mcmdRequestArrival => Sys2Proof.Machine.execMcmdRequestArrival s
  | .mcmdInboundAccept => Sys2Proof.Machine.execMcmdInboundAccept s
  | .mcmdReplyArrival => Sys2Proof.Machine.execMcmdReplyArrival s
  | .tephraBaseInstruction => Sys2Proof.Machine.execTephraBaseInstruction s
  | .contextSaveTurn => Sys2Proof.Machine.execContextSaveTurn s
  | .contextSaveComplete => Sys2Proof.Machine.execContextSaveComplete s
  | .contextRestoreComplete => Sys2Proof.Machine.execContextRestoreComplete s
  | .privilegedRequestArrival => Sys2Proof.Machine.execPrivilegedRequestArrival s
  | .privilegedAcknowledgement => Sys2Proof.Machine.execPrivilegedAcknowledgement s
  | .writeDbgsel => Sys2Proof.Machine.execWriteDbgsel s
  | .debugReadComplete => Sys2Proof.Machine.execDebugReadComplete s
  | .writeTrapc => Sys2Proof.Machine.execWriteTrapc s
  | .writeLsd => Sys2Proof.Machine.execWriteLsd s
  | .writeInqr => Sys2Proof.Machine.execWriteInqr s
  | .executiveFrame => Sys2Proof.Machine.execExecutiveFrame s
  | .budgetPeriodBoundary => Sys2Proof.Machine.execBudgetPeriodBoundary s
  | .nopCommand => Sys2Proof.Machine.execNopCommand s
  | .launch => Sys2Proof.Machine.execLaunch s
  | .copy => Sys2Proof.Machine.execCopy s
  | .graph => Sys2Proof.Machine.execGraph s
  | .wait => Sys2Proof.Machine.execWait s
  | .ckpt => Sys2Proof.Machine.execCkpt s
  | .preempt => Sys2Proof.Machine.execPreempt s
  | .resume => Sys2Proof.Machine.execResume s
  | .pconf => Sys2Proof.Machine.execPconf s
  | .qconf => Sys2Proof.Machine.execQconf s
  | .preset => Sys2Proof.Machine.execPreset s
  | .pwin => Sys2Proof.Machine.execPwin s
  | .fwload => Sys2Proof.Machine.execFwload s
  | .attest => Sys2Proof.Machine.execAttest s
  | .switch => Sys2Proof.Machine.execSwitch s
  | .writeTail => Sys2Proof.Machine.execWriteTail s
  | .writeChead => Sys2Proof.Machine.execWriteChead s
  | .writeAdmingo => Sys2Proof.Machine.execWriteAdmingo s
  | .writeReload => Sys2Proof.Machine.execWriteReload s
  | .ventReloadComplete => Sys2Proof.Machine.execVentReloadComplete s
  | .queueTableError => Sys2Proof.Machine.execQueueTableError s
  | .clockChange => Sys2Proof.Machine.execClockChange s
  | .hostApertureAccess => Sys2Proof.Machine.execHostApertureAccess s
  | .openPacket => Sys2Proof.Machine.execOpenPacket s
  | .contPacket => Sys2Proof.Machine.execContPacket s
  | .closePacket => Sys2Proof.Machine.execClosePacket s
  | .conduitFailure => Sys2Proof.Machine.execConduitFailure s
  | .timeSyncExchange => Sys2Proof.Machine.execTimeSyncExchange s
  | .streamResume => Sys2Proof.Machine.execStreamResume s
  | .quiesceAcknowledged => Sys2Proof.Machine.execQuiesceAcknowledged s
  | .drainComplete => Sys2Proof.Machine.execDrainComplete s
  | .drainTimeout => Sys2Proof.Machine.execDrainTimeout s
  | .lanesReconfigured => Sys2Proof.Machine.execLanesReconfigured s
  | .linkTrained => Sys2Proof.Machine.execLinkTrained s
  | .trainingFailed => Sys2Proof.Machine.execTrainingFailed s
  | .enumerationDone => Sys2Proof.Machine.execEnumerationDone s
  | .mapDone => Sys2Proof.Machine.execMapDone s
  | .linkDeath => Sys2Proof.Machine.execLinkDeath s
  | .acknowledgementTimeout => Sys2Proof.Machine.execAcknowledgementTimeout s
  | .inboundPeerRequest => Sys2Proof.Machine.execInboundPeerRequest s
  | .stackTemperatureRead => Sys2Proof.Machine.execStackTemperatureRead s
  | .resetAssert => Sys2Proof.Machine.execResetAssert s
  | .resetDeassert => Sys2Proof.Machine.execResetDeassert s
  | .i3cStatWrite => Sys2Proof.Machine.execI3cStatWrite s
  | .nop => Sys2Proof.Machine.execNop s
  | .add w => Sys2Proof.Machine.execAdd w s
  | .sub w => Sys2Proof.Machine.execSub w s
  | .addi w => Sys2Proof.Machine.execAddi w s
  | .mul w => Sys2Proof.Machine.execMul w s
  | .mulh w => Sys2Proof.Machine.execMulh w s
  | .mulhn w => Sys2Proof.Machine.execMulhn w s
  | .div w => Sys2Proof.Machine.execDiv w s
  | .divn w => Sys2Proof.Machine.execDivn w s
  | .rem w => Sys2Proof.Machine.execRem w s
  | .remn w => Sys2Proof.Machine.execRemn w s
  | .and w => Sys2Proof.Machine.execAnd w s
  | .or w => Sys2Proof.Machine.execOr w s
  | .xor w => Sys2Proof.Machine.execXor w s
  | .andn w => Sys2Proof.Machine.execAndn w s
  | .shl w => Sys2Proof.Machine.execShl w s
  | .shr w => Sys2Proof.Machine.execShr w s
  | .sar w => Sys2Proof.Machine.execSar w s
  | .rol w => Sys2Proof.Machine.execRol w s
  | .clz w => Sys2Proof.Machine.execClz w s
  | .popc w => Sys2Proof.Machine.execPopc w s
  | .min w => Sys2Proof.Machine.execMin w s
  | .max w => Sys2Proof.Machine.execMax w s
  | .minn w => Sys2Proof.Machine.execMinn w s
  | .maxn w => Sys2Proof.Machine.execMaxn w s
  | .sel w => Sys2Proof.Machine.execSel w s
  | .ext w => Sys2Proof.Machine.execExt w s
  | .ins w => Sys2Proof.Machine.execIns w s
  | .mov w => Sys2Proof.Machine.execMov w s
  | .moviShort w => Sys2Proof.Machine.execMoviShort w s
  | .moviImm32 w => Sys2Proof.Machine.execMoviImm32 w s
  | .moviLong w => Sys2Proof.Machine.execMoviLong w s
  | .cmpeq w => Sys2Proof.Machine.execCmpeq w s
  | .cmpne w => Sys2Proof.Machine.execCmpne w s
  | .cmplt w => Sys2Proof.Machine.execCmplt w s
  | .cmple w => Sys2Proof.Machine.execCmple w s
  | .cmpltn w => Sys2Proof.Machine.execCmpltn w s
  | .cmplen w => Sys2Proof.Machine.execCmplen w s
  | .lea w => Sys2Proof.Machine.execLea w s
  | .adda w => Sys2Proof.Machine.execAdda w s
  | .movaAS w => Sys2Proof.Machine.execMovaAS w s
  | .movaSA w => Sys2Proof.Machine.execMovaSA w s
  | .movaHiSA w => Sys2Proof.Machine.execMovaHiSA w s
  | .movaAA w => Sys2Proof.Machine.execMovaAA w s
  | .movaHiAS w => Sys2Proof.Machine.execMovaHiAS w s
  | .faddF64 w => Sys2Proof.Machine.execFaddF64 w s
  | .fsubF64 w => Sys2Proof.Machine.execFsubF64 w s
  | .fmulF64 w => Sys2Proof.Machine.execFmulF64 w s
  | .fmaF64 w => Sys2Proof.Machine.execFmaF64 w s
  | .fdivF64 w => Sys2Proof.Machine.execFdivF64 w s
  | .fsqrtF64 w => Sys2Proof.Machine.execFsqrtF64 w s
  | .fminF64 w => Sys2Proof.Machine.execFminF64 w s
  | .fmaxF64 w => Sys2Proof.Machine.execFmaxF64 w s
  | .fcmpeqF64 w => Sys2Proof.Machine.execFcmpeqF64 w s
  | .fcmpltF64 w => Sys2Proof.Machine.execFcmpltF64 w s
  | .fcmpleF64 w => Sys2Proof.Machine.execFcmpleF64 w s
  | .fcvtF64 w => Sys2Proof.Machine.execFcvtF64 w s
  | .setlF64 w => Sys2Proof.Machine.execSetlF64 w s
  | .fclassF64 w => Sys2Proof.Machine.execFclassF64 w s
  | .faddF32 w => Sys2Proof.Machine.execFaddF32 w s
  | .fsubF32 w => Sys2Proof.Machine.execFsubF32 w s
  | .fmulF32 w => Sys2Proof.Machine.execFmulF32 w s
  | .fmaF32 w => Sys2Proof.Machine.execFmaF32 w s
  | .fdivF32 w => Sys2Proof.Machine.execFdivF32 w s
  | .fsqrtF32 w => Sys2Proof.Machine.execFsqrtF32 w s
  | .fminF32 w => Sys2Proof.Machine.execFminF32 w s
  | .fmaxF32 w => Sys2Proof.Machine.execFmaxF32 w s
  | .fcmpeqF32 w => Sys2Proof.Machine.execFcmpeqF32 w s
  | .fcmpltF32 w => Sys2Proof.Machine.execFcmpltF32 w s
  | .fcmpleF32 w => Sys2Proof.Machine.execFcmpleF32 w s
  | .fcvtF32 w => Sys2Proof.Machine.execFcvtF32 w s
  | .setlF32 w => Sys2Proof.Machine.execSetlF32 w s
  | .fclassF32 w => Sys2Proof.Machine.execFclassF32 w s
  | .pand w => Sys2Proof.Machine.execPand w s
  | .por w => Sys2Proof.Machine.execPor w s
  | .pxor w => Sys2Proof.Machine.execPxor w s
  | .pnot w => Sys2Proof.Machine.execPnot w s
  | .pmov w => Sys2Proof.Machine.execPmov w s
  | .pall w => Sys2Proof.Machine.execPall w s
  | .pany w => Sys2Proof.Machine.execPany w s
  | .br w => Sys2Proof.Machine.execBr w s
  | .callLabel w => Sys2Proof.Machine.execCallLabel w s
  | .callRegister w => Sys2Proof.Machine.execCallRegister w s
  | .ret => Sys2Proof.Machine.execRet s
  | .loopRegister w => Sys2Proof.Machine.execLoopRegister w s
  | .loopImmediate w => Sys2Proof.Machine.execLoopImmediate w s
  | .lend => Sys2Proof.Machine.execLend s
  | .lpin w => Sys2Proof.Machine.execLpin w s
  | .endThread => Sys2Proof.Machine.execEndThread s
  | .trap w => Sys2Proof.Machine.execTrap w s
  | .rds w => Sys2Proof.Machine.execRds w s
  | .wrs w => Sys2Proof.Machine.execWrs w s
  | .rotset w => Sys2Proof.Machine.execRotset w s
  | .waitcRegister w => Sys2Proof.Machine.execWaitcRegister w s
  | .waitcImmediate w => Sys2Proof.Machine.execWaitcImmediate w s
  | .bri w => Sys2Proof.Machine.execBri w s
  | .tretRetry w => Sys2Proof.Machine.execTretRetry w s
  | .tretAt w => Sys2Proof.Machine.execTretAt w s
  | .tretNext w => Sys2Proof.Machine.execTretNext w s
  | .tretSkip w => Sys2Proof.Machine.execTretSkip w s
  | .winset w => Sys2Proof.Machine.execWinset w s
  | .winkill w => Sys2Proof.Machine.execWinkill w s
  | .grant w => Sys2Proof.Machine.execGrant w s
  | .mbreplyRetry w => Sys2Proof.Machine.execMbreplyRetry w s
  | .mbreplyResume w => Sys2Proof.Machine.execMbreplyResume w s
  | .mbreplyResumev w => Sys2Proof.Machine.execMbreplyResumev w s
  | .mbreplyError w => Sys2Proof.Machine.execMbreplyError w s
  | .mbreplyMbok w => Sys2Proof.Machine.execMbreplyMbok w s
  | .mbreplyMberr w => Sys2Proof.Machine.execMbreplyMberr w s
  | .ctxsvThr w => Sys2Proof.Machine.execCtxsvThr w s
  | .ctxsvGang w => Sys2Proof.Machine.execCtxsvGang w s
  | .ctxldThr w => Sys2Proof.Machine.execCtxldThr w s
  | .ctxldGang w => Sys2Proof.Machine.execCtxldGang w s
  | .haltStop w => Sys2Proof.Machine.execHaltStop w s
  | .haltEnd w => Sys2Proof.Machine.execHaltEnd w s
  | .haltReset w => Sys2Proof.Machine.execHaltReset w s
  | .vnop => Sys2Proof.Machine.execVnop s
  | .vadd w => Sys2Proof.Machine.execVadd w s
  | .vsub w => Sys2Proof.Machine.execVsub w s
  | .vmul w => Sys2Proof.Machine.execVmul w s
  | .vmulh w => Sys2Proof.Machine.execVmulh w s
  | .vmad w => Sys2Proof.Machine.execVmad w s
  | .vand w => Sys2Proof.Machine.execVand w s
  | .vor w => Sys2Proof.Machine.execVor w s
  | .vxor w => Sys2Proof.Machine.execVxor w s
  | .vshl w => Sys2Proof.Machine.execVshl w s
  | .vshr w => Sys2Proof.Machine.execVshr w s
  | .vsar w => Sys2Proof.Machine.execVsar w s
  | .vmin w => Sys2Proof.Machine.execVmin w s
  | .vmax w => Sys2Proof.Machine.execVmax w s
  | .vabs w => Sys2Proof.Machine.execVabs w s
  | .vclz w => Sys2Proof.Machine.execVclz w s
  | .vpopc w => Sys2Proof.Machine.execVpopc w s
  | .vdot4 w => Sys2Proof.Machine.execVdot4 w s
  | .vsel w => Sys2Proof.Machine.execVsel w s
  | .vcmp w => Sys2Proof.Machine.execVcmp w s
  | .vfadd w => Sys2Proof.Machine.execVfadd w s
  | .vfsub w => Sys2Proof.Machine.execVfsub w s
  | .vfmul w => Sys2Proof.Machine.execVfmul w s
  | .vfma w => Sys2Proof.Machine.execVfma w s
  | .vfmin w => Sys2Proof.Machine.execVfmin w s
  | .vfmax w => Sys2Proof.Machine.execVfmax w s
  | .vfminn w => Sys2Proof.Machine.execVfminn w s
  | .vfmaxn w => Sys2Proof.Machine.execVfmaxn w s
  | .vfabs w => Sys2Proof.Machine.execVfabs w s
  | .vfneg w => Sys2Proof.Machine.execVfneg w s
  | .vfcmp w => Sys2Proof.Machine.execVfcmp w s
  | .vfcmps w => Sys2Proof.Machine.execVfcmps w s
  | .vcvt w => Sys2Proof.Machine.execVcvt w s
  | .vsetl w => Sys2Proof.Machine.execVsetl w s
  | .vfclass w => Sys2Proof.Machine.execVfclass w s
  | .vexp2 w => Sys2Proof.Machine.execVexp2 w s
  | .vlog2 w => Sys2Proof.Machine.execVlog2 w s
  | .vrcp w => Sys2Proof.Machine.execVrcp w s
  | .vrsq w => Sys2Proof.Machine.execVrsq w s
  | .vsqrt w => Sys2Proof.Machine.execVsqrt w s
  | .vsin w => Sys2Proof.Machine.execVsin w s
  | .vcos w => Sys2Proof.Machine.execVcos w s
  | .vshuf w => Sys2Proof.Machine.execVshuf w s
  | .vbcast w => Sys2Proof.Machine.execVbcast w s
  | .vred w => Sys2Proof.Machine.execVred w s
  | .vscan w => Sys2Proof.Machine.execVscan w s
  | .vcmprs w => Sys2Proof.Machine.execVcmprs w s
  | .viota w => Sys2Proof.Machine.execViota w s
  | .vrng w => Sys2Proof.Machine.execVrng w s
  | .vmovsToVector w => Sys2Proof.Machine.execVmovsToVector w s
  | .vmovsToScalar w => Sys2Proof.Machine.execVmovsToScalar w s
  | .vmovlToVector w => Sys2Proof.Machine.execVmovlToVector w s
  | .vmovlToPredicate w => Sys2Proof.Machine.execVmovlToPredicate w s
  | .vmov w => Sys2Proof.Machine.execVmov w s
  | .xcl w => Sys2Proof.Machine.execXcl w s
  | .vpack w => Sys2Proof.Machine.execVpack w s
  | .vunpk w => Sys2Proof.Machine.execVunpk w s
  | .lnop => Sys2Proof.Machine.execLnop s
  | .ld w => Sys2Proof.Machine.execLd w s
  | .st w => Sys2Proof.Machine.execSt w s
  | .ldv w => Sys2Proof.Machine.execLdv w s
  | .stv w => Sys2Proof.Machine.execStv w s
  | .ldx w => Sys2Proof.Machine.execLdx w s
  | .stx w => Sys2Proof.Machine.execStx w s
  | .spill w => Sys2Proof.Machine.execSpill w s
  | .fill w => Sys2Proof.Machine.execFill w s
  | .atom w => Sys2Proof.Machine.execAtom w s
  | .ldf w => Sys2Proof.Machine.execLdf w s
  | .ldfTake w => Sys2Proof.Machine.execLdfTake w s
  | .ste w => Sys2Proof.Machine.execSte w s
  | .steFill w => Sys2Proof.Machine.execSteFill w s
  | .clrf w => Sys2Proof.Machine.execClrf w s
  | .clrfSet w => Sys2Proof.Machine.execClrfSet w s
  | .tagq w => Sys2Proof.Machine.execTagq w s
  | .tagqClaim w => Sys2Proof.Machine.execTagqClaim w s
  | .tagw w => Sys2Proof.Machine.execTagw w s
  | .tagx w => Sys2Proof.Machine.execTagx w s
  | .tagxRd w => Sys2Proof.Machine.execTagxRd w s
  | .mnop => Sys2Proof.Machine.execMnop s
  | .ringsetDef w => Sys2Proof.Machine.execRingsetDef w s
  | .ringsetTail w => Sys2Proof.Machine.execRingsetTail w s
  | .ringsetHead w => Sys2Proof.Machine.execRingsetHead w s
  | .mwld w => Sys2Proof.Machine.execMwld w s
  | .mwldv w => Sys2Proof.Machine.execMwldv w s
  | .mstrm w => Sys2Proof.Machine.execMstrm w s
  | .mrep w => Sys2Proof.Machine.execMrep w s
  | .mdrain w => Sys2Proof.Machine.execMdrain w s
  | .mdrainv w => Sys2Proof.Machine.execMdrainv w s
  | .mzero w => Sys2Proof.Machine.execMzero w s
  | .mcmd w => Sys2Proof.Machine.execMcmd w s
  | .mstat w => Sys2Proof.Machine.execMstat w s
  | .xnop => Sys2Proof.Machine.execXnop s
  | .fld w => Sys2Proof.Machine.execFld w s
  | .fst w => Sys2Proof.Machine.execFst w s
  | .fstp w => Sys2Proof.Machine.execFstp w s
  | .fatom w => Sys2Proof.Machine.execFatom w s
  | .fvatom w => Sys2Proof.Machine.execFvatom w s
  | .fence w => Sys2Proof.Machine.execFence w s
  | .chsend w => Sys2Proof.Machine.execChsend w s
  | .chrecv w => Sys2Proof.Machine.execChrecv w s
  | .chpeek w => Sys2Proof.Machine.execChpeek w s
  | .bar w => Sys2Proof.Machine.execBar w s
  | .bara w => Sys2Proof.Machine.execBara w s
  | .nxt w => Sys2Proof.Machine.execNxt w s
  | .semsigAdd w => Sys2Proof.Machine.execSemsigAdd w s
  | .semsigSub w => Sys2Proof.Machine.execSemsigSub w s
  | .semsigSet w => Sys2Proof.Machine.execSemsigSet w s
  | .semwait w => Sys2Proof.Machine.execSemwait w s
  | .semwaitDec w => Sys2Proof.Machine.execSemwaitDec w s
  | .semtry w => Sys2Proof.Machine.execSemtry w s
  | .semtryDec w => Sys2Proof.Machine.execSemtryDec w s
  | .mbox w => Sys2Proof.Machine.execMbox w s
  | .tcopy w => Sys2Proof.Machine.execTcopy w s
  | .tcoll w => Sys2Proof.Machine.execTcoll w s
  | .teRd w => Sys2Proof.Machine.execTeRd w s
  | .teWr w => Sys2Proof.Machine.execTeWr w s
  | .teRdw w => Sys2Proof.Machine.execTeRdw w s
  | .teWrw w => Sys2Proof.Machine.execTeWrw w s
  | .teAtom w => Sys2Proof.Machine.execTeAtom w s
  | .teVat w => Sys2Proof.Machine.execTeVat w s
  | .teFullWf w => Sys2Proof.Machine.execTeFullWf w s
  | .teFullWfe w => Sys2Proof.Machine.execTeFullWfe w s
  | .teEmpty w => Sys2Proof.Machine.execTeEmpty w s
  | .teSigAdd w => Sys2Proof.Machine.execTeSigAdd w s
  | .teSigSub w => Sys2Proof.Machine.execTeSigSub w s
  | .teSigSet w => Sys2Proof.Machine.execTeSigSet w s
  | .tePoll w => Sys2Proof.Machine.execTePoll w s
  | .teWinLo w => Sys2Proof.Machine.execTeWinLo w s
  | .teWinMid w => Sys2Proof.Machine.execTeWinMid w s
  | .teWinHi w => Sys2Proof.Machine.execTeWinHi w s
  | .teWinProbe w => Sys2Proof.Machine.execTeWinProbe w s
  | .teMbox w => Sys2Proof.Machine.execTeMbox w s
  | .teCmd w => Sys2Proof.Machine.execTeCmd w s
  | .teDone w => Sys2Proof.Machine.execTeDone w s
  | .teGcyc w => Sys2Proof.Machine.execTeGcyc w s
  | .teSave w => Sys2Proof.Machine.execTeSave w s
  | .enginePortAccess => Sys2Proof.Machine.execEnginePortAccess s
  | .uncorrectableError => Sys2Proof.Machine.execUncorrectableError s
  | .discardNoticeReturn => Sys2Proof.Machine.execDiscardNoticeReturn s
  | .mainSupplyRemoval => Sys2Proof.Machine.execMainSupplyRemoval s

end Sys2Proof.Machine
end

