-- ==== Sys2Proof/Machine/Issue.lean ====
section
/-! DEFINITION. How a step runs: the head of the agenda, or the turn of one party, or the next cycle. A turn issues one
bundle: the checks of R90, then each slot in order (R102), then the arithmetic enables (R325), the blocking conditions
(R161), and last the effect. The instructions' meanings are given by `ex`. -/

namespace Sys2Proof.Machine

/-! ## One bundle -/

/-- The slots of a bundle that hold an instruction: position, guard and instruction. -/
def slotsIn (sv : Bool) (b : Bundle) : List (Nat × Nat × Instr) :=
  (placed (b.slots sv)).map (fun p => (p.1, guardOf (b.words.getD p.1 0), p.2))

/-- The commands that MREP may repeat (R295). -/
def repeatable (i : Instr) : Bool :=
  match i with
  | .mwld _ => true
  | .mstrm _ => true
  | .mdrain _ => true
  | .mzero _ => true
  | .mcmd _ => true
  | _ => false

/-- Whether an instruction is an MREP or an END, which a repeat in progress excludes. -/
def endsRepeat (i : Instr) : Bool :=
  match i with
  | .mrep _ => true
  | .endThread => true
  | _ => false

/-- R295: whether a bundle breaks the rules of the repeat in progress. -/
def repeatBad (r : Option Repeat) (l : List (Nat × Nat × Instr)) : Bool :=
  match r with
  | none => false
  | some r =>
    l.any (fun p => endsRepeat p.2.2)
      || (match l.find? (fun p => p.1 = 5), r.cmd with
          | none, none => true
          | some p, none => !repeatable p.2.2
          | none, some _ => false
          | some p, some _ => !(shape p.2.2).nop)

/-- The instructions of a bundle with the command that a repeat puts in the M position. -/
def withRepeat (r : Option Repeat) (l : List (Nat × Nat × Instr)) : List (Nat × Nat × Instr) :=
  match r with
  | none => l
  | some r =>
    match r.cmd with
    | none => l
    | some c => l.filter (fun p => p.1 < 5) ++ [(5, c.2, c.1)] ++ l.filter (fun p => 5 < p.1)

/-- The encoding cause of a bundle (R90): the M position and the X slot beside a repeat (R295) are judged with template use,
in step 3, whatever the guards. (Log 14: DEDUCED; log 97: DEDUCED.) -/
def encodingCause (s : State) (b : Bundle) : Nat :=
  let th := me s
  let c := bundleCause (svc s) th.nv th.lsd b
  if repeatBad th.mrep (slotsIn (svc s) b) ∧ c ≠ 1 ∧ c ≠ 2 ∧ c ≠ 4 then 0x05 else c

/-- Instructions whose guard acts lane by lane, or that read it themselves (R16, R29, R81, R102). -/
def guardsItself (i : Instr) : Bool :=
  match i with
  | .sel _ => true
  | .ldv _ => true
  | .stv _ => true
  | .ldx _ => true
  | .stx _ => true
  | .ldf w => w.md1 = 1
  | .ldfTake w => w.md1 = 1
  | .ste w => w.md1 = 1
  | .steFill w => w.md1 = 1
  | _ => (shape i).kind = .v

/-- What an open packet excludes (R234): any other far access, FENCE, MBOX, END and every blocking instruction of Table 6.3. -/
def packetBars (i : Instr) : Bool :=
  match i with
  | .fld _ => true
  | .fst _ => true
  | .fatom _ => true
  | .fvatom _ => true
  | .fence _ => true
  | .mbox _ => true
  | .endThread => true
  | .chrecv _ => true
  | .chsend _ => true
  | .bar _ => true
  | .semwait _ => true
  | .semwaitDec _ => true
  | .waitcRegister _ => true
  | .waitcImmediate _ => true
  | .ldf _ => true
  | .ldfTake _ => true
  | .ste _ => true
  | .mwld _ => true
  | .mwldv _ => true
  | .mstrm _ => true
  | .mdrain _ => true
  | .mdrainv _ => true
  | .mzero _ => true
  | .mcmd _ => true
  | .tcopy _ => true
  | .tcoll _ => true
  | _ => false

/-- Whether a slot's instruction is executed: with bit 0 of its guard true (R16), or by itself. -/
def runs (s : State) (p : Nat × Nat × Instr) : Bool := guardsItself p.2.2 || guardBit (me s) p.2.1 0

/-- Whether the guard of a slot that runs is true somewhere: one that is false in every lane violates no packet (R234). -/
def guardTrue (s : State) (p : Nat × Nat × Instr) : Bool :=
  !guardsItself p.2.2 || (List.range (laneCount s)).any (guardBit (me s) p.2.1)

/-- The place of a slot in the order of landings: the word of a long immediate stands in that of S0 (R85). -/
def landingPos (p : Nat × Nat × Instr) : Nat := if (shape p.2.2).kind = .w then 0 else p.1

/-- The repeated command's operands for the M position of this bundle (R295). -/
def repOperands (th : Thread) : Option (Word × Nat) :=
  match th.mrep with
  | some r => if r.cmd.isSome then some (r.a + BitVec.ofNat 64 r.made * r.inc, r.b) else none
  | none => none

/-- Runs the slots in order; a trap ends the bundle (R102). -/
def runSlots (ex : Instr → State → Out) (open' : Bool) : List (Nat × Nat × Instr) → State → Out
  | [], s => .next s
  | p :: r, s =>
    if !runs s p then runSlots ex open' r s
    else
      let rep := if p.1 = 5 then repOperands (me s) else none
      match ex p.2.2 { s with cur := { s.cur with pos := landingPos p, g := p.2.1, rep := rep } } with
      | .next s1 =>
        if s1.cur.trap.isSome then .next s1
        else if open' ∧ packetBars p.2.2 ∧ guardTrue s p then .next { s1 with cur := { s1.cur with trap := some 0x0C } }
        else runSlots ex open' r s1
      | o => o

/-- The captured operands of the first command of a repeat (R295). -/
def capture (s : State) (i : Instr) : Word × Nat :=
  match i with
  | .mwld w => (body s w.a, nat s w.b)
  | .mstrm w => (body s w.a, nat s w.b)
  | .mdrain w => (body s w.a, nat s w.b)
  | .mzero w => (body s w.a, nat s w.b)
  | .mcmd w => (body s w.a, (areg s w.b).toNat)
  | _ => (0, 0)

/-- What the effect of a bundle leaves of the repeat that was in progress at its start. -/
def stepRepeat (s : State) (l : List (Nat × Nat × Instr)) (r : Repeat) : Option Repeat :=
  if r.left ≤ 1 then none
  else
    match r.cmd, l.find? (fun p => p.1 = 5) with
    | none, some p =>
      let c := capture s p.2.2
      some { r with left := r.left - 1, a := c.1, b := c.2, made := 1, cmd := some (p.2.2, p.2.1) }
    | _, _ => some { r with left := r.left - 1, made := r.made + 1 }

/-- The bundle takes effect: `s0` is the state at its start, `s` the state its slots left. -/
def commit (s0 s : State) (l : List (Nat × Nat × Instr)) : State :=
  let th0 := me s0
  let s1 := modMe s (fun th =>
    { th with
      next := s.cur.jump.getD (following th0 s0.cur.addr)
      packet := (if th0.packet.isSome then th.packet.map (fun p => { p with bundles := p.bundles + 1 }) else th.packet)
      mrep := (match th0.mrep with | some r => stepRepeat s0 l r | none => th.mrep) })
  endTurn s1 s0.cur.core s0.cur.slot

/-- The effects that a bundle has before its blocking conditions hold (R161), each made once. -/
def preEffect (s : State) (i : Instr) : State :=
  match i with
  | .bar w => preBar w s
  | .mbox w => preMbox w s
  | _ => prePriv i s

/-- The bundle blocks: nothing of it takes effect but its pre-effects; a translation that failed posts its message
(R224). -/
def blockBundle (s0 s : State) (l : List (Nat × Nat × Instr)) : State :=
  let s1 := (l.filter (runs s0)).foldl (fun x p => preEffect x p.2.2) s0
  let c := s0.cur.core
  let t := s0.cur.slot
  let s2 := modThread s1 c t (fun th => { th with st := .block })
  let s3 := match s.cur.miss with
    | none => s2
    | some m =>
      let x := postThread s2 c t m.1 0 0 [s0.cur.addr, m.2.1.toNat % 2 ^ 64, m.2.2.1, m.2.2.2 % 2 ^ 64, m.2.2.2 / 2 ^ 64]
      modThread x c t (fun th =>
        { th with wait := .translation, missed := (core s c).gang.map (fun n => (n, m.2.1.toNat)) })
  endTurn s3 c t

/-- An MBOX that was answered with an error is over (R245); any other trap leaves its request as it is. -/
def forgetMbox (s : State) (cause : Nat) : State :=
  if cause = 0xA3 then modMe s (fun th => { th with mboxReq := none, mboxReply := none }) else s

/-- The bundle traps: its other effects are discarded (R30, R324). -/
def trapBundle (s0 : State) (cause : Nat) : State :=
  endTurn (takeTrapAt (forgetMbox s0 cause) s0.cur.core s0.cur.slot cause s0.cur.addr) s0.cur.core s0.cur.slot

/-- R234: whether the open packet must close in the bundle that issues now, its sixteenth. (Log 22: DEDUCED.) -/
def lastBundle (p : Option Packet) : Bool :=
  match p with
  | none => false
  | some p => 15 ≤ p.bundles

/-- What becomes of a bundle whose slots have run. -/
def settleBundle (s0 s : State) (l : List (Nat × Nat × Instr)) : State :=
  let th0 := me s0
  match s.cur.trap with
  | some c => trapBundle s0 c
  | none =>
    if lastBundle th0.packet ∧ (me s).packet.isSome then
      trapBundle s0 0x0C
    else
      match enabledCause th0.ften s.cur.flags with
      | some c => trapBundle s0 c
      | none =>
        match s.cur.miss with
        | some m => if svc s0 then trapBundle s0 m.1 else blockBundle s0 s l
        | none => if s.cur.block then blockBundle s0 s l else commit s0 s l

/-- The clusters that the vector instructions of a bundle enable. -/
def clustersOf (l : List (Nat × Nat × Instr)) : Nat :=
  (l.map (fun p => match shape p.2.2 with
    | x => if x.kind = .v ∧ !x.nop then ((List.range 8).filter (fun k => bitsAt x.word (11 + k) 1 = 1)).length else 0)).sum

/-- Counts a bundle that issues (R381). -/
def tickBundle (s : State) (l : List (Nat × Nat × Instr)) : State :=
  tick (tick s s.cur.core 1 l.length) s.cur.core 2 (clustersOf l)

/-- The bundle of the thread at work issues (R21, R90, R324). (Log 15: DEDUCED.) -/
def issueBundle (ex : Instr → State → Out) (s : State) : Out :=
  let th := me s
  match halfOf th th.curHalf with
  | none => .next (trapBundle s 0x06)
  | some h =>
    match (h.bundles.getD [])[s.cur.addr % 32]? with
    | none => .next (trapBundle s 0x06)
    | some b =>
      let s0 := { s with cur := { s.cur with cvp := Cvp.of b.cvp } }
      let c := encodingCause s0 b
      if c ≠ 0 then .next (trapBundle s0 c)
      else
        let l := withRepeat th.mrep (slotsIn (svc s0) b)
        let s1 := tickBundle s0 l
        match runSlots ex th.packet.isSome l s1 with
        | .next s2 => .next (settleBundle s1 s2 l)
        | o => o

/-! ## One turn, one event, one cycle -/

/-- The latch is empty between steps. -/
def clearLatch (o : Out) : Out :=
  match o with
  | .next s => .next { s with cur := {} }
  | o => o

/-- R337: whether a requested save takes this turn. -/
def savesNow (th : Thread) : Bool :=
  th.saveReq && th.packet.isNone && !isOut th && !th.ending
    && (th.st = .run || th.st = .fetch || th.st = .block || th.st = .halt || th.st = .out)

/-- The turn of slot `t` of core `c`. (Log 6: DESIGN CHOICE.) -/
def threadTurn (ex : Instr → State → Out) (s : State) (c t : Nat) : Out :=
  let s0 := { resendAll s c t with cur := { core := c, slot := t, args := [c, t] } }
  if savesNow (thread s c t) then ex .contextSaveTurn s0
  else
    match ex .turnStart s0 with
    | .next s1 => if s1.cur.issue then issueBundle ex s1 else .next s1
    | o => o

/-- Whether a tephra core has anything to do in its cycle: a standard image that no command has reached only waits. -/
def teActs (te : Tephra) : Bool :=
  !te.std || te.imemBad || te.cur.isSome || te.queue ≠ [] || te.faults ≠ [] || te.reply.isSome

/-- The parties that act in cycle `g` (R158, R300): each core's thread of slot g mod 8, then at an even cycle the tephra
cores. (Log 6: DESIGN CHOICE.) -/
def turnsAt (s : State) (g : Nat) : List Agent :=
  s.cores.map (fun p => Agent.thread p.1 (g % 8))
  ++ (if g % 2 = 0 then s.cores.flatMap (fun p => (p.2.tes.filter (fun q => teActs q.2)).map (fun q => Agent.tephra p.1 q.1)) else [])

/-- The thread port of core `c` in the cycle that begins (R124, R198): the accesses that are due perform, in issue order; those
of the cycle before let go of their bank words; what waited at the engine port comes first in this cycle, messages
behind it. (Log 20: DEDUCED.) -/
def stepPort (s : State) (c : Nat) : State :=
  let k := core s c
  let s1 := setCore s c { k with port := k.port.filter (fun a => s.gcyc ≤ a.due), waits := [] }
  let s2 := (k.port.filter (fun a => a.due = s.gcyc)).foldl performPort s1
  let s3 := { s2 with agenda := k.waits.map (fun w => { due := s.gcyc, instr := w.1, args := w.2, chan := [] }) ++ s2.agenda }
  if isSvc c then (if k.waits = [] then drainInbox 1024 s3 c else s3) else wakeCore s3 c

/-- The thread ports of all cores in the cycle that begins. (Log 20: DEDUCED.) -/
def stepPorts (s : State) : State :=
  (s.cores.filter (fun p => p.2.port ≠ [] || p.2.waits ≠ [] || p.2.svc.inbox ≠ [])).foldl (fun x p => stepPort x p.1) s

/-- The next cycle begins. While the module is held in reset or without supply no clock counts, and only the outside
acts. (Log 6: DESIGN CHOICE; log 11: DESIGN CHOICE; log 12: DESIGN CHOICE.) -/
def nextCycle (s : State) : State :=
  if s.board.rst || !s.board.supply then
    { s with agenda := s.agenda.map (fun e => { e with due := e.due - 1 }), turns := [] }
  else stepPorts { s with gcyc := s.gcyc + 1, turns := turnsAt s (s.gcyc + 1) }

/-- The turn of the next party, or the next cycle. (Log 6: DESIGN CHOICE.) -/
def runTurn (ex : Instr → State → Out) (s : State) : Out :=
  match s.turns with
  | .thread c t :: q => clearLatch (threadTurn ex { s with turns := q } c t)
  | .tephra c k :: q => clearLatch (tephraTurn ex { s with turns := q } c k)
  | [] => .next (nextCycle s)

/-- Runs what comes next: the event that is due, a turn, or the next cycle. (Log 6: DESIGN CHOICE; log 7: DEDUCED; log 12: DESIGN CHOICE.) -/
def runNext (ex : Instr → State → Out) (s : State) : Out :=
  if !s.board.supply && s.agenda.isEmpty then .fault .poweredOff
  else
    match s.agenda with
    | e :: r =>
      if e.due ≤ s.gcyc then clearLatch (ex e.instr { s with agenda := r, cur := { args := e.args } }) else runTurn ex s
    | [] => runTurn ex s

end Sys2Proof.Machine
end

