-- ==== Sys2Proof/Machine/Place.lean ====
section
/-! DEFINITION. How one word of the opcode table is placed as the next instruction to run: a one-bundle segment in a
code store, its thread in RUN with the segment in its loop buffer, or a word in a tephra core's instruction memory. -/

namespace Sys2Proof.Machine

/-- The header and the bytes of a bundle that holds one word in the slot of its kind, with the ports that the slot can
have; a word that needs a surrendered immediate gets one of zero. (Log 10: DESIGN CHOICE.) -/
def oneBundle (k : Kind) (imm : Bool) (w : Nat) : List Nat :=
  let head := fun (form v sport : Nat) => leBytes 4 (form * 2 ^ 27 + (v + 8 * v + 64 * v + 512 * v + 4096 * v) * 64 + sport * 4)
  match k with
  | .v => head 10 1 8 ++ leBytes 4 0 ++ leBytes 7 w
  | .l => head 14 3 0 ++ leBytes 4 0 ++ leBytes 6 w
  | .m => head 20 5 3 ++ leBytes 6 0 ++ leBytes 4 w ++ leBytes 4 0
  | .x => head 21 4 2 ++ leBytes 4 w
  | _ => if imm then head 25 0 0 ++ leBytes 4 w ++ leBytes 4 0 else head 16 0 0 ++ leBytes 4 w

/-- Whether an instruction took a surrendered immediate. -/
def takesImm (i : Instr) : Bool := (shape i).imm.isSome

/-- A segment of one bundle at offset 0 of a core's code store, held by slot `t`. (Log 10: DESIGN CHOICE.) -/
def placeBundle (s : State) (c t : Nat) (bytes : List Nat) : State :=
  let h := 1 + 0xFFFFFF * 2 ^ 8 + bytes.length * 2 ^ 48
  let s1 := putBytes s (codeStore c) (leBytes 8 h ++ bytes)
  let s2 := modThread s1 c t (fun th =>
    { th with st := .run, next := 0, curHalf := 0, curSeg := some 0, half0 := some { expand s1 c 0 with left := 0 },
              half1 := none, prefetch := .idle })
  { s2 with agenda := [], turns := [.thread c t], cur := {} }

/-- A word in the instruction memory of tephra core 0 of core 0, at its pc. (Log 10: DESIGN CHOICE.) -/
def placeTephra (s : State) (w : Nat) : State :=
  let s1 := modCore s 0 (fun k =>
    let te := tget {} k.tes 0
    let m := (List.range 4).foldl (fun m i => tput 0 m (te.pc + i) (BitVec.ofNat 8 (w / 256 ^ i))) te.imem
    { k with tes := tset k.tes 0 { te with std := false, imem := m } })
  { s1 with agenda := [], turns := [.tephra 0 0], cur := {} }

/-- Places a word by the kind of the instruction that it holds; a privileged one on a service core. (Log 10: DESIGN CHOICE.) -/
def placeWord (s : State) (nbits w : Nat) : State :=
  match decodeTableWord nbits w with
  | some i =>
    match (shape i).kind with
    | .t => placeTephra s w
    | k => placeBundle s (if (shape i).priv then 512 else 0) (s.gcyc % 8) (oneBundle k (takesImm i) w)
  | none =>
    placeBundle s 0 (s.gcyc % 8) (oneBundle (if nbits = 48 then .l else if nbits = 56 then .v else .s) false w)

end Sys2Proof.Machine
end

