-- ==== Sys2Proof/Machine/Step.lean ====
section
/-! DEFINITION. One step of the module, and how a word of the opcode table is placed where the next step runs it. -/

namespace Sys2Proof.Machine

/-- One step: the event that is due, else the turn of the next party, else the next cycle. (Log 6: DESIGN CHOICE.) -/
def step (s : State) : Host.Outcome State Fault Refusal := runNext exec s

/-- The state whose next step fetches and runs the instruction of a word of the opcode table. (Log 10: DESIGN CHOICE.) -/
def State.withFetchWord (s : State) (nbits w : Nat) : State := placeWord s nbits w

end Sys2Proof.Machine
end

