-- ==== Sys2Proof/Safety.lean ====
section
/-! DEFINITION. What counts as a safe run: no step of it ends in a refusal, and a fault only where the supply is off. -/

namespace Sys2Proof

open Machine

/-- An outcome that goes on. -/
def goesOn (o : Host.Outcome State Fault Refusal) : Prop := ∃ s, o = .next s

/-- A run of `n` steps in which every step goes on. -/
def SafeFor : Nat → State → Prop
  | 0, _ => True
  | n + 1, s => ∃ t, step s = .next t ∧ SafeFor n t

/-- The memory of a state is in its canonical form (R3, R197, R251). -/
def MemoryCanonical (s : State) : Prop := Memory.wf s.mem

end Sys2Proof
end

