-- ==== Sys2Proof/Certificates/Slice0/Obligations.lean ====
section
/-! DEFINITION. The statements for the provers. First the notions that several of them use, then one definition for each
statement; a docstring names the rules of spec/ that it formalises and, where it rests on a choice of the model, the entry
of the assumption log. -/

open Sys2Proof Sys2Proof.Machine

namespace Sys2Proof.Claim

/-- The bits of a word from bit `p` on, `n` of them. -/
def field (x p n : Nat) : Nat := x / 2 ^ p % 2 ^ n

/-- The instruction answers a next state, in which a value of property `P` is on its way into scalar register `d`, with a
zero tail and without a flag, and nothing else is different. -/
def PutsS (i : Instr) (s : State) (d lat : Nat) (P : Word → Prop) : Prop :=
  ∃ v, P v ∧ exec i s = .next (landW s d lat v)

/-- The same for a predicate register: `b` on its way into all 128 bits (R16). -/
def PutsP (i : Instr) (s : State) (d : Nat) (P : Pred → Prop) : Prop :=
  ∃ v, P v ∧ exec i s = .next (landP s d v (BitVec.allOnes 128))

/-- The instruction answers the state in which its thread has trapped with a cause. -/
def Traps (i : Instr) (s : State) (cause : Nat) : Prop := exec i s = .next (trapNow s cause)

/-- Operand b of R98 and R99: the register, or the imm32 extended to 64 bits. -/
def opnd (s : State) (w : SWord) (signed : Bool) : Word :=
  match w.imm with
  | none => body s w.b
  | some n => if signed then (BitVec.ofNat 32 n).signExtend 64 else (BitVec.ofNat 32 n).zeroExtend 64

/-- The immediate of a word lies in its field (R83). -/
def immFits (w : SWord) : Prop := w.imm.getD 0 < 2 ^ 32

/-- A finite value and the number it is. -/
def Finite (v : Val) : Prop := ∃ n m e, v = .fin n m e

def ratOf : Val → ℚ
  | .fin n m e => (if n then -1 else 1) * m * (2 : ℚ) ^ e
  | _ => 0

def isNegative : Val → Bool
  | .fin n _ _ => n
  | .inf n => n
  | .nan _ => false

/-- An exact result that is the number `q`, with sign `zs` where it is zero. -/
def Exactly (x : Exact) (q : ℚ) (zs : Bool) : Prop :=
  ∃ n m e, x = .fin n m e false ∧ ratOf (.fin n m e) = q ∧ (q = 0 → n = zs)

/-- An inexact result to at least 64 bits: the number of positive magnitude `q` lies at it or, with the sticky mark, between
it and its neighbour; `le` compares with `q`. -/
def Sticky (x : Exact) (neg : Bool) (le lt : ℚ → Prop) : Prop :=
  ∃ m e st, x = .fin neg m e st ∧ 2 ^ 64 ≤ m
    ∧ (if st then lt ((m : ℚ) * (2 : ℚ) ^ e) else le ((m : ℚ) * (2 : ℚ) ^ e))
    ∧ (if st then ¬ le (((m : ℚ) + 1) * (2 : ℚ) ^ e) else ¬ lt ((m : ℚ) * (2 : ℚ) ^ e))

/-- The scalar instruction of a row pair in the FP64 or the FP32 row (R113). -/
def row (f : Fmt) (d s : SWord → Instr) (w : SWord) : Instr := if f = .f64 then d w else s w

/-- Operands a and b of a row as exact values; b may be the FP32 immediate (R99). -/
def valA (s : State) (f : Fmt) (w : SWord) : Val := (heldS s f w.a).val f
def valB (s : State) (f : Fmt) (w : SWord) : Val :=
  match w.imm with
  | none => (heldS s f w.b).val f
  | some n => (immHeld f n).val f

/-- The instruction answers a next state in which a floating result is written to `d` under the bundle's prefix. -/
def PutsF (i : Instr) (s : State) (d lat : Nat) (f : Fmt) (P : Exact × Nat → Prop) : Prop :=
  ∃ r, P r ∧ exec i s = .next (landFp s d lat f r)

/-- Whether one of two values is a NaN, or a signalling one. -/
def someNan (x y : Val) : Prop := (∃ b, x = .nan b) ∨ ∃ b, y = .nan b
def nanFlag (x y : Val) : Nat := if x = .nan true ∨ y = .nan true then fNV else 0

/-- The order of values that are no NaN, and their equality (R69). -/
def Below (x y : Val) : Prop :=
  (x = .inf true ∧ y ≠ .inf true) ∨ (y = .inf false ∧ x ≠ .inf false) ∨ (Finite x ∧ Finite y ∧ ratOf x < ratOf y)

def Same (x y : Val) : Prop := (∃ b, x = .inf b ∧ y = .inf b) ∨ (Finite x ∧ Finite y ∧ ratOf x = ratOf y)

/-- A held value as the device makes them: an infinity has tail 00 (R51). -/
def Made (f : Fmt) (h : Held) : Prop := f.isInf h.body = true → h.tail = 0

/-- The integer `r` is `q` rounded in a mode (R57, R61). -/
def Rounds (mode : RMode) (q : ℚ) (r : Int) : Prop :=
  match mode with
  | .rtz => |(r : ℚ)| ≤ |q| ∧ |q - r| < 1 ∧ 0 ≤ q * r
  | .rup => q ≤ r ∧ (r : ℚ) < q + 1
  | .rdn => (r : ℚ) ≤ q ∧ q - 1 < r
  | .rne => 2 * |q - r| ≤ 1 ∧ (2 * |q - r| = 1 → r % 2 = 0)
  | .rna => 2 * |q - r| ≤ 1 ∧ (2 * |q - r| = 1 → |q| < |(r : ℚ)|)

/-! What an exact operation answers: its exact result and its flags (R53, R54); `down` says that the mode is RDN. -/

def IsSum (down : Bool) (x y : Val) (r : Exact × Nat) : Prop :=
  (Finite x → Finite y → r.2 = 0 ∧ Exactly r.1 (ratOf x + ratOf y) (if isNegative x = isNegative y then isNegative x else down))
  ∧ (someNan x y → r = (.nan, nanFlag x y))
  ∧ (∀ a b, x = .inf a → y = .inf b → r = if a = b then (.inf a, 0) else (.nan, fNV))
  ∧ (∀ a, x = .inf a → Finite y → r = (.inf a, 0))
  ∧ (∀ b, Finite x → y = .inf b → r = (.inf b, 0))

def IsDifference (down : Bool) (x y : Val) (r : Exact × Nat) : Prop :=
  (Finite x → Finite y → r.2 = 0 ∧ Exactly r.1 (ratOf x - ratOf y) (if isNegative x = isNegative y then down else isNegative x))
  ∧ (someNan x y → r = (.nan, nanFlag x y))
  ∧ (∀ a b, x = .inf a → y = .inf b → r = if a = b then (.nan, fNV) else (.inf a, 0))
  ∧ (∀ a, x = .inf a → Finite y → r = (.inf a, 0))
  ∧ (∀ b, Finite x → y = .inf b → r = (.inf (!b), 0))

def IsProduct (x y : Val) (r : Exact × Nat) : Prop :=
  (Finite x → Finite y → r.2 = 0 ∧ Exactly r.1 (ratOf x * ratOf y) (isNegative x ^^ isNegative y))
  ∧ (someNan x y → r = (.nan, nanFlag x y))
  ∧ (∀ a b, x = .inf a → y = .inf b → r = (.inf (a ^^ b), 0))
  ∧ (∀ a, x = .inf a → Finite y → r = if ratOf y = 0 then (.nan, fNV) else (.inf (a ^^ isNegative y), 0))
  ∧ (∀ b, Finite x → y = .inf b → r = if ratOf x = 0 then (.nan, fNV) else (.inf (isNegative x ^^ b), 0))

def IsQuotient (x y : Val) (r : Exact × Nat) : Prop :=
  (Finite x → Finite y →
    if ratOf y = 0 then r = (if ratOf x = 0 then (.nan, fNV) else (.inf (isNegative x ^^ isNegative y), fDZ))
    else r.2 = 0 ∧ (if ratOf x = 0 then Exactly r.1 0 (isNegative x ^^ isNegative y)
      else Sticky r.1 (isNegative x ^^ isNegative y) (· ≤ |ratOf x / ratOf y|) (· < |ratOf x / ratOf y|)))
  ∧ (someNan x y → r = (.nan, nanFlag x y))
  ∧ (∀ a b, x = .inf a → y = .inf b → r = (.nan, fNV))
  ∧ (∀ a, x = .inf a → Finite y → r = (.inf (a ^^ isNegative y), 0))
  ∧ (∀ b, Finite x → y = .inf b → r.2 = 0 ∧ Exactly r.1 0 (isNegative x ^^ b))

def IsRoot (x : Val) (r : Exact × Nat) : Prop :=
  (Finite x →
    if ratOf x = 0 then r.2 = 0 ∧ Exactly r.1 0 (isNegative x)
    else if ratOf x < 0 then r = (.nan, fNV)
    else r.2 = 0 ∧ Sticky r.1 false (fun q => q ^ 2 ≤ ratOf x) (fun q => q ^ 2 < ratOf x))
  ∧ (∀ b, x = .nan b → r = (.nan, if b then fNV else 0))
  ∧ (x = .inf false → r = (.inf false, 0)) ∧ (x = .inf true → r = (.nan, fNV))

/-- The product of two values is an infinity of sign `n`: neither is a NaN, one is an infinity and the other is not zero. -/
def ProductIsInf (x y : Val) (n : Bool) : Prop :=
  (∃ a b, x = .inf a ∧ y = .inf b ∧ n = (a ^^ b))
  ∨ (∃ a, x = .inf a ∧ Finite y ∧ ratOf y ≠ 0 ∧ n = (a ^^ isNegative y))
  ∨ (∃ b, Finite x ∧ ratOf x ≠ 0 ∧ y = .inf b ∧ n = (isNegative x ^^ b))

/-- One rounding of x × y + z; an infinite product of zero, NaNs and infinities. -/
def IsFused (down : Bool) (x y z : Val) (r : Exact × Nat) : Prop :=
  let zeroTimes : Prop := (∃ b, x = .inf b) ∧ Finite y ∧ ratOf y = 0 ∨ Finite x ∧ ratOf x = 0 ∧ ∃ b, y = .inf b
  (Finite x → Finite y → Finite z → r.2 = 0 ∧ Exactly r.1 (ratOf x * ratOf y + ratOf z)
    (if isNegative z = (isNegative x ^^ isNegative y) then isNegative z else down))
  ∧ (zeroTimes → r = (.nan, fNV))
  ∧ (¬ zeroTimes → (∃ b, x = .nan b ∨ y = .nan b ∨ z = .nan b) →
      r = (.nan, if x = .nan true ∨ y = .nan true ∨ z = .nan true then fNV else 0))
  ∧ (Finite x → Finite y → ∀ b, z = .inf b → r = (.inf b, 0))
  ∧ (∀ n, ProductIsInf x y n → (Finite z → r = (.inf n, 0)) ∧ ∀ b, z = .inf b → r = if b = n then (.inf n, 0) else (.nan, fNV))

/-- Everything outside the cores and the latch is the same. -/
def SameOutside (s t : State) : Prop := { t with cores := s.cores, cur := s.cur } = s

/-- Nothing of any core or thread has changed but the pending landings of the thread at work, the accesses under way at its
core's thread port, and a count of activity. -/
def OnlyLandings (s t : State) : Prop :=
  SameOutside s t
  ∧ (∀ c, { Machine.core t c with
      threads := (Machine.core s c).threads, activity := (Machine.core s c).activity, port := (Machine.core s c).port } = Machine.core s c)
  ∧ (∀ c, c ≠ s.cur.core → (Machine.core t c).port = (Machine.core s c).port)
  ∧ (∃ l, (Machine.core t s.cur.core).port = (Machine.core s s.cur.core).port ++ l)
  ∧ (∀ c k, { thread t c k with lands := (thread s c k).lands } = thread s c k)
  ∧ (∀ c k, (c, k) ≠ (s.cur.core, s.cur.slot) → thread t c k = thread s c k)

/-- The instructions that write registers alone, and do so by landings: the computing and moving rows of the S slot, LOOP,
RDS, WRS and ROTSET, every row of the V slot, the plain loads of the L slot, and the no-operations. -/
def landsOnly (i : Instr) : Bool :=
  match i with
  | .nop => true | .vnop => true | .lnop => true | .mnop => true | .xnop => true
  | .loopRegister _ => true | .loopImmediate _ => true | .rds _ => true | .wrs _ => true | .rotset _ => true
  | .ld _ => true | .ldv _ => true | .ldx _ => true | .fill _ => true | .chpeek _ => true
  | .waitcRegister _ => true | .waitcImmediate _ => true | .mbox _ => false
  | i => ((shape i).kind = .s && 0x01000000 ≤ (shape i).word && (shape i).word < 0x60000000)
    || ((shape i).kind = .w) || ((shape i).kind = .v && !(shape i).nop)

/-- The pending landings of a thread are in the order of R27. -/
def InIssueOrder (l : List Landing) : Prop :=
  l.Pairwise (fun x y => x.issued < y.issued ∨ x.issued = y.issued ∧ x.pos ≤ y.pos)

/-- Whether a landing writes physical scalar register `n`. -/
def writesS (n : Nat) (l : Landing) : Bool :=
  match l.act with
  | .sreg m _ => m = n
  | .fma m _ _ _ _ => m = n
  | .ins m _ _ _ => m = n
  | _ => false

/-- Whether a landing writes address register `n`, bit `b` of predicate register `n`, or lane `i` of vector register `n`. -/
def writesA (n : Nat) (l : Landing) : Bool :=
  match l.act with
  | .areg m _ => m = n
  | .movaHi m _ => m = n
  | _ => false

def writesP (n b : Nat) (l : Landing) : Bool :=
  match l.act with
  | .preg m _ k => m = n && k.getLsbD b
  | _ => false

def writesV (n i : Nat) (l : Landing) : Bool :=
  match l.act with
  | .lanes m ls => ls.any (fun p => 128 * m + p.1 = 128 * n + i)
  | _ => false

/-- Whether a landing writes a system register. -/
def isSys (l : Landing) : Bool :=
  match l.act with
  | .sys _ _ => true
  | _ => false

/-- The system registers of Tables 1.2 and 14.3 but LCE0 to LCE5 and DBGVAL, by number, with their values for the thread at work; a
register of its gang reads zero where no gang holds the core (R193). -/
def sysValues (s : State) : List (Nat × Nat) :=
  let th := me s
  let v := (myCore s).svc
  let ofMine := fun (f : Gang → Nat) => match gangOf s s.cur.core with | some g => f g | none => 0
  [(0x000, s.cur.slot), (0x001, ofMine (fun g => rankIn g s.cur.core)), (0x002, ofMine (fun g => 8 * rankIn g s.cur.core + s.cur.slot)),
   (0x003, if isSvc s.cur.core then 2 ^ 64 - 1 else th.wid.toNat), (0x004, coord s s.cur.core),
   (0x005, ofMine (fun g => g.nbar * 2 ^ 24 + g.slotm * 2 ^ 16 + (g.dies.length - 1) * 2 ^ 8 + (g.cols - 1) * 2 ^ 4 + (g.rows - 1) * 2
      + (if g.dist then 1 else 0))),
   (0x006, ofMine (fun g => dieIndex g (dieOf s.cur.core) * 2 ^ 7 + (originOf g (dieOf s.cur.core)).1 * 2 ^ 3 + (originOf g (dieOf s.cur.core)).2)),
   (0x010, th.flags), (0x011, th.ften), (0x012, th.ttc), (0x013, s.gcyc), (0x014, th.trapc), (0x015, th.trapa), (0x016, th.srb),
   (0x017, th.vrb), (0x018, th.prb), (0x019, th.lsd), (0x01A, s.cur.addr), (0x01B, th.nv), (0x01C, 0x0111),
   (0x800, v.inqw), (0x801, v.inqr), (0x802, th.pstat), (0x803, v.scdrop), (0x804, v.gsel), (0x805, v.dbgsel.toNat), (0x807, v.dbgst)]

/-- The system registers that WRS writes, by number, with what a value `x` must be (R121, Tables 1.2 to 1.5 and 14.3). -/
def sysAccepts (s : State) (x : Nat) : List (Nat × Prop) :=
  let th := me s
  let v := (myCore s).svc
  [(0x010, x < 2 ^ 5), (0x011, x < 2 ^ 5), (0x014, x < 2 ^ 8), (0x015, x < 2 ^ 29), (0x016, x < 32),
   (0x017, x < 32 ∧ (x + 16 < th.nv ∨ x = 0 ∧ th.nv = 16)), (0x018, x < 16), (0x019, x ≤ th.lsd),
   (0x020, x < 2 ^ 62), (0x021, x < 2 ^ 62), (0x022, x < 2 ^ 62), (0x023, x < 2 ^ 62), (0x024, x < 2 ^ 62), (0x025, x < 2 ^ 62),
   (0x801, x < 2 ^ 16 ∧ (x + 2 ^ 16 - v.inqr) % 2 ^ 16 ≤ (v.inqw + 2 ^ 16 - v.inqr) % 2 ^ 16), (0x804, x < 2 ^ 22), (0x805, x < 2 ^ 53)]

/-- The lanes on which a V-slot instruction acts: their cluster's mask bit and their guard bit are 1 (R134). -/
def On (s : State) (w : VWord) (l : Nat) : Prop :=
  l < laneCount s ∧ w.cm / 2 ^ (l / 16) % 2 = 1 ∧ (guardPred (me s) s.cur.g).getLsbD l = true

/-- The lanes of `ls` are those on which the instruction acts, in ascending order, and each has property `P`. -/
def Fills (s : State) (w : VWord) (ls : List (Nat × Lane)) (P : Nat → Lane → Prop) : Prop :=
  (ls.map Prod.fst).Pairwise (· < ·) ∧ (∀ l, l ∈ ls.map Prod.fst ↔ On s w l) ∧ ∀ p ∈ ls, P p.1 p.2

/-- The instruction answers a next state in which lanes of property `P` are on their way into vector register `d`. -/
def PutsV (i : Instr) (s : State) (w : VWord) (lat : Nat) (P : Nat → Lane → Prop) : Prop :=
  ∃ ls, Fills s w ls P ∧ exec i s = .next (landV s w.d lat ls)

/-- Operand b of a lane: the register, or the constant in every element's place (R136). -/
def bLane (s : State) (w : VWord) (l : Nat) : Lane :=
  match w.k with
  | none => vlane s w.b l
  | some n => { data := BitVec.ofNat 32 n, tail := 0 }

/-- Element `k` of a lane: its bits, and its value by the signedness of the type (Table 3.8). -/
def eltBitsAt (ty k : Nat) (x : Lane) : Nat := x.data.toNat / 2 ^ (tyBits ty * k) % 2 ^ tyBits ty

def eltIntAt (ty k : Nat) (x : Lane) : Int :=
  if ty % 2 = 0 ∧ 2 ^ (tyBits ty - 1) ≤ eltBitsAt ty k x then (eltBitsAt ty k x : Int) - 2 ^ tyBits ty else eltBitsAt ty k x

/-- Every element of the lane `r` satisfies `P` of its place, and its tail is zero. -/
def EachElt (ty : Nat) (r : Lane) (P : Nat → Prop) : Prop := r.tail = 0 ∧ ∀ k < 32 / tyBits ty, P k

/-- The least and the greatest value of an integer type, and whether a number is the nearest in its range. -/
def lowest (ty : Nat) : Int := if ty % 2 = 0 then -(2 ^ (tyBits ty - 1) : Int) else 0
def highest (ty : Nat) : Int := if ty % 2 = 0 then (2 ^ (tyBits ty - 1) : Int) - 1 else 2 ^ tyBits ty - 1

/-- Element `k` of a lane as a held value. -/
def eltHeldAt (f : Fmt) (k : Nat) (x : Lane) : Held :=
  ⟨x.data.toNat / 2 ^ (f.width * k) % 2 ^ f.width, x.tail.toNat / 4 ^ k % 4⟩

/-- A floating instruction fills its lanes with the written forms of exact results, element by element, and raises their
flags and those of the writing (R137, R141). -/
def PutsVF (i : Instr) (s : State) (w : VWord) (lat : Nat) (f : Fmt) (R : Nat → Nat → Exact × Nat → Prop) : Prop :=
  ∃ (g : Nat → Nat → Exact × Nat) (ls : List (Nat × Lane)) (fl : Nat),
    (∀ l k, On s w l → k < 32 / f.width → R l k (g l k))
    ∧ Fills s w ls (fun l x => ∀ k < 32 / f.width, eltHeldAt f k x = (writeFp s.cur.cvp f (g l k).1).1)
    ∧ (∀ b, fl.testBit b = true ↔ ∃ l k, On s w l ∧ k < 32 / f.width
        ∧ (flagOr (g l k).2 (writeFp s.cur.cvp f (g l k).1).2).testBit b = true)
    ∧ exec i s = .next (landV (note s fl) w.d lat ls fl)

/-- The same for an instruction that raises no flag (R157). -/
def PutsVQuiet (i : Instr) (s : State) (w : VWord) (lat : Nat) (f : Fmt) (R : Nat → Exact → Prop) : Prop :=
  ∃ (g : Nat → Exact) (ls : List (Nat × Lane)),
    (∀ l, On s w l → R l (g l))
    ∧ Fills s w ls (fun l x => ∀ k < 32 / f.width, eltHeldAt f k x = (writeFp s.cur.cvp f (g l)).1)
    ∧ exec i s = .next (landV s w.d lat ls)

/-- The same for results that are held values already. -/
def PutsVH (i : Instr) (s : State) (w : VWord) (lat : Nat) (f : Fmt) (R : Nat → Nat → Held × Nat → Prop) : Prop :=
  ∃ (g : Nat → Nat → Held × Nat) (ls : List (Nat × Lane)) (fl : Nat),
    (∀ l k, On s w l → k < 32 / f.width → R l k (g l k))
    ∧ Fills s w ls (fun l x => ∀ k < 32 / f.width, eltHeldAt f k x = (g l k).1)
    ∧ (∀ b, fl.testBit b = true ↔ ∃ l k, On s w l ∧ k < 32 / f.width ∧ (g l k).2.testBit b = true)
    ∧ exec i s = .next (landV (note s fl) w.d lat ls fl)

/-- A predicate result of the acting lanes; the other bits stay (R142). -/
def PutsVP (i : Instr) (s : State) (w : VWord) (R : Nat → Bool × Nat → Prop) : Prop :=
  ∃ (g : Nat → Bool × Nat) (v m : Pred) (fl : Nat),
    (∀ l, On s w l → R l (g l))
    ∧ (∀ l < 128, (m.getLsbD l = true ↔ On s w l)) ∧ (∀ l < 128, On s w l → v.getLsbD l = (g l).1)
    ∧ (∀ b, fl.testBit b = true ↔ ∃ l, On s w l ∧ (g l).2.testBit b = true)
    ∧ exec i s = .next (landP (note s fl) w.d v m fl)

/-- The comparison that a condition code names (Table 5.5). -/
def condOf (c : Nat) (eq lt : Prop) : Prop :=
  match c with
  | 0 => eq | 1 => ¬ eq | 2 => lt | 3 => lt ∨ eq | 4 => ¬ (lt ∨ eq) | _ => ¬ lt

/-- One round of the generator of R154 on its four counter words under two key words. -/
def rngRound (x : Fin 4 → Nat) (k0 k1 : Nat) : Fin 4 → Nat
  | 0 => (0xCD9E8D57 * x 2 / 2 ^ 32) ^^^ x 1 ^^^ k0
  | 1 => 0xCD9E8D57 * x 2 % 2 ^ 32
  | 2 => (0xD2511F53 * x 0 / 2 ^ 32) ^^^ x 3 ^^^ k1
  | 3 => 0xD2511F53 * x 0 % 2 ^ 32

/-- The words after `n` rounds; round r uses the key words raised r times. -/
def rngAfter (x : Fin 4 → Nat) (k0 k1 : Nat) : Nat → Fin 4 → Nat
  | 0 => x
  | n + 1 => rngRound (rngAfter x k0 k1 n) ((k0 + n * 0x9E3779B9) % 2 ^ 32) ((k1 + n * 0xBB67AE85) % 2 ^ 32)

/-- The fixed tree of R151 over the 2^n places from `i` on: an absent element passes its partner through. -/
def sumTree (p : Cvp) (f : Fmt) (e : Nat → Option Held) : Nat → Nat → Option Held
  | 0, i => e i
  | n + 1, i =>
    match sumTree p f e n i, sumTree p f e n (i + 2 ^ n) with
    | some x, some y => some (writeFp p f (fpAdd p.mode (x.val f) (y.val f)).1).1
    | some x, none => some x
    | none, y => y

/-- The held value that the minimum or maximum of a list is (R70): of one value that value, else the canonical NaN where a NaN
decides, else the least or greatest of those that are no NaN, −0 below +0. -/
def ChosenOf (f : Fmt) (isMax number : Bool) (l : List Held) (c : Held) : Prop :=
  let num := fun h : Held => f.isNan h.body = false
  (l.length = 1 → c ∈ l)
  ∧ (1 < l.length → (if number then ∀ h ∈ l, ¬ num h else ∃ h ∈ l, ¬ num h) → c = ⟨f.canonNan, 0⟩)
  ∧ ((if number then ∃ h ∈ l, num h else ∀ h ∈ l, num h) → (∀ h ∈ l, Made f h) → c ∈ l ∧ num c ∧ ∀ h ∈ l, num h →
      let lo := if isMax then h.val f else c.val f
      let hi := if isMax then c.val f else h.val f
      ¬ Below hi lo ∧ (Same lo hi → isNegative hi = true → isNegative lo = true))

/-- The running held sum of a list, from its first value on; settled in every step under settle-on-write (R152). -/
def runSum (p : Cvp) (f : Fmt) : List Held → Option Held
  | [] => none
  | x :: r => some (r.foldl (fun y z => (writeFp p f (fpAdd p.mode (y.val f) (z.val f)).1).1) x)

/-- Byte `b` of the image of cluster `c` in a list of lanes (R156). -/
def clusterByte (ls : List (Nat × Lane)) (c b : Nat) : Nat :=
  match ls.find? (fun p => p.1 = 16 * c + b / 4) with
  | some p => p.2.data.toNat / 256 ^ (b % 4) % 256
  | none => 0

/-- An access of the core at work passes R123; no byte of it is poisoned (R201). -/
def Reachable (s : State) (ea : Int) (size align : Nat) : Prop :=
  0 ≤ ea ∧ ea + size ≤ scratchLimit s.cur.core ∧ ea % align = 0
  ∧ ((Machine.core s s.cur.core).pre = false ∨ isSvc s.cur.core = true ∨ ea + size ≤ 0x1C0000)

def Clean (s : State) (a n : Nat) : Prop := ∀ x, a ≤ x → x < a + n → isPoison s x = false

/-- The place in memory of a scratchpad offset of the core at work. -/
def at_ (s : State) (ea : Int) : Nat := scratch s.cur.core + ea.toNat

/-- The number that `n` bytes are, little-endian (R3). -/
def numberAt (s : State) (a n : Nat) : Nat := ((List.range n).map (fun k => (getByte s (a + k)).toNat * 256 ^ k)).sum

/-- What a load of a type code writes to a scalar register (Table 4.11). -/
def Extends (sz n x : Nat) (v : Word) : Prop :=
  if sz = 0 ∨ sz = 2 ∨ sz = 4 then v = (BitVec.ofNat (8 * n) x).signExtend 64 else v.toNat = x

/-- The bytes of `t` are those of `s` but for `l` at address `a`; what a state block holds that software stores to is not named
(R9, log 81). -/
def Stores (s t : State) (a : Nat) (l : List Nat) : Prop :=
  ∀ x, if a ≤ x ∧ x < a + l.length then (inBlock x = false → getByte t x = BitVec.ofNat 8 (l.getD (x - a) 0))
    else getByte t x = getByte s x

/-- No byte of a range lies in a state block. -/
def NoBlock (a n : Nat) : Prop := ∀ x, a ≤ x → x < a + n → inBlock x = false

/-- An access of the thread port is under way: it performs in the fourth cycle from now, nothing of memory has changed yet,
and beside that port only pending landings, the latch and counts of activity have (R124). -/
def Issues (s t : State) : Prop :=
  OnlyLandings s t
  ∧ ∃ a, (Machine.core t s.cur.core).port = (Machine.core s s.cur.core).port ++ [a] ∧ a.due = s.gcyc + 4

/-- Memory as the accesses that the bundle at work of `s` leaves under way in `t` make it. -/
def performed (s t : State) : State := settled t s.cur.core

/-- The access of `t` changes no poison and no full/empty bit, or no byte. -/
def SameBits (s t : State) : Prop := (performed s t).empty = (found s).empty ∧ (performed s t).poison = (found s).poison

def SameBytes (s t : State) : Prop := (performed s t).mem = (found s).mem ∧ (performed s t).poison = (found s).poison

/-- The active lanes: those whose guard bit is 1. -/
def Active (s : State) (l : Nat) : Prop := l < laneCount s ∧ (guardPred (me s) s.cur.g).getLsbD l = true

/-- The effective address of the L slot (R123). -/
def ea (s : State) (base ofs bits unit : Nat) : Int := (body s base).toNat + (BitVec.ofNat bits ofs).toInt * unit

/-- The state of a thread in which no landing is pending but the one that lanes are on their way. -/
def LaneListOf (s : State) (ls : List (Nat × Lane)) (P : Nat → Lane → Prop) : Prop :=
  (ls.map Prod.fst).Pairwise (· < ·) ∧ (∀ l, l ∈ ls.map Prod.fst ↔ Active s l) ∧ ∀ p ∈ ls, P p.1 p.2

/-- A far access of `n` bytes passes steps 1 to 3 of R221, its issue condition holds because the thread has no access
outstanding, and it is translated without a fault. -/
def FarGood (s : State) (a : Addr) (n : Nat) (need : Need) : Prop :=
  ¬ (isMesh a = true ∧ meshRsvd a ≠ 0) ∧ ¬ (isMesh a = true ∧ 0x200000 < meshOfs a + n) ∧ a.toNat % n = 0
  ∧ flightsOf s s.cur.core s.cur.slot = [] ∧ (translate s s.cur.core a need).cause = 0

/-- An access is on its way: it stands in the table of far accesses under a fresh identifier, and its arrival at its home
is due after this cycle. Nothing but what lies between the party and the home has changed. -/
def Leaves (s t : State) (P : Flight → Prop) : Prop :=
  ∃ f, P f ∧ tfind t.flights s.nextId = some f ∧ t.nextId = s.nextId + 1 ∧ f.st = .sent ∧ f.replied = false
    ∧ f.home = homeOf f.key
    ∧ (∀ id, id ≠ s.nextId → tfind t.flights id = tfind s.flights id)
    ∧ (∃ e ∈ t.agenda, e.instr = .homeServeAccess ∧ e.args = [s.nextId] ∧ s.gcyc < e.due)
    ∧ t.mem = s.mem ∧ t.empty = s.empty ∧ t.poison = s.poison ∧ t.gcyc = s.gcyc
    ∧ (∀ c k, (c, k) ≠ (s.cur.core, s.cur.slot) → thread t c k = thread s c k)

/-- What the flight of an access of the thread at work carries in any case. -/
def Mine (s : State) (op : FarOp) (a : Addr) (n mode : Nat) (need : Need) (rx ord : Bool) (f : Flight) : Prop :=
  f.core = s.cur.core ∧ f.who = s.cur.slot ∧ f.op = op ∧ f.addr = a ∧ f.size = n ∧ f.mode = mode ∧ f.rx = rx ∧ f.ord = ord
  ∧ f.key = (translate s s.cur.core a need).key

/-- The core next to core `c` in the direction of a channel (R171): north, east, south, west. -/
def beside (c ch : Nat) : Option Nat :=
  match ch with
  | 0 => if 0 < rowOf c then some (c - 16) else none
  | 1 => if colOf c < 15 then some (c + 1) else none
  | 2 => if rowOf c < 7 then some (c + 16) else none
  | _ => if 0 < colOf c then some (c - 1) else none

/-- Channel `ch` of the thread at work leads to core `n` of its own gang. -/
def Leads (s : State) (ch n : Nat) : Prop :=
  ∃ g, gangOf s s.cur.core = some g ∧ beside s.cur.core ch = some n ∧ inRect g (dieOf n) (colOf n) (rowOf n) = true
    ∧ g.slotm / 2 ^ s.cur.slot % 2 = 1

/-- Only the thread at work has changed, and in it only what `f` makes of it. -/
def OnlyMe (s t : State) (f : Thread → Thread) : Prop :=
  me t = f (me s) ∧ (∀ c k, (c, k) ≠ (s.cur.core, s.cur.slot) → thread t c k = thread s c k) ∧ t.mem = s.mem

/-- A sync word that R275 does not refuse. -/
def SyncOk (y : Nat) : Prop :=
  field y 13 11 = 0 ∧ field y 6 2 = 0 ∧ field y 1 3 ≤ 4 ∧ (field y 12 1 = 0 → field y 8 4 = 0)

/-- Tiles in a ring (R281). -/
def tilesIn (r : Ring) : Nat := (r.tail + 2 * r.nslot - r.head) % (2 * r.nslot)

/-- No command waits in the engine or in the queues of the tephra cores of core `c`. -/
def Idle (s : State) (c : Nat) : Prop :=
  (engine s c).queue = [] ∧ (engine s c).inbound = [] ∧ ∀ p ∈ (Machine.core s c).tes, p.2.queue = [] ∧ p.2.cur = none

/-- Only the engine of core `c` and the agenda with its draws have changed. -/
def OnlyEngine (s t : State) (c : Nat) (f : Engine → Engine) : Prop :=
  engine t c = f (engine s c) ∧ (∀ d k, thread t d k = thread s d k) ∧ t.mem = s.mem ∧ t.gcyc = s.gcyc
  ∧ (∀ d, d ≠ c → Machine.core t d = Machine.core s d)

/-- A command is accepted: it stands at the end of the queue of its core's engine and counts for its thread. -/
def Accepted (s t : State) (q : EngCmd) : Prop :=
  engine t s.cur.core = { engine s s.cur.core with queue := (engine s s.cur.core).queue ++ [q] }
  ∧ me t = { me s with busy := (me s).busy + 1 } ∧ t.mem = s.mem ∧ t.gcyc = s.gcyc
  ∧ (∀ c k, (c, k) ≠ (s.cur.core, s.cur.slot) → thread t c k = thread s c k)

/-- What an accepted command carries in any case. -/
def Carries (s : State) (w : MWord) (op a : Nat) (q : EngCmd) : Prop :=
  q.op = op ∧ q.aval = a ∧ q.sync = (body s w.b).toNat ∧ q.imm = w.imm ∧ q.core = s.cur.core ∧ q.slot = s.cur.slot ∧ q.notify = none

/-- The scratchpad offset of a span offset (R281). -/
def place (r : Ring) (o : Nat) : Nat := r.base + (r.head + o / r.slotb) % r.nslot * r.slotb + o % r.slotb

/-- The element of a number of bits at a span offset, with its half of the byte for four bits (Table 11.7). -/
def elementAt (s : State) (c : Nat) (r : Ring) (bits o half : Nat) : Nat :=
  let b := fun o => (getByte s (scratch c + place r o)).toNat
  if bits = 16 then b o + 256 * b (o + 1) else if bits = 8 then b o else b o / 16 ^ half % 16

/-- The value of a half-format group of exact products (R290): 48 bits below the largest, and a sticky bit. -/
def GroupSum (l : List ℚ) (x : ℚ) : Prop :=
  (∀ q ∈ l, q = 0) ∧ x = 0
  ∨ ∃ e : Int, (∃ q ∈ l, (2 : ℚ) ^ e ≤ |q|) ∧ (∀ q ∈ l, |q| < (2 : ℚ) ^ (e + 1))
    ∧ (let v := fun q : ℚ => ⌊|q| / (2 : ℚ) ^ (e - 48)⌋
      let t : Int := (l.map (fun q => if q < 0 then -v q else v q)).sum
      ∃ st : Int, (st = 1 ∧ (∃ q ∈ l, (v q : ℚ) * (2 : ℚ) ^ (e - 48) ≠ |q|) ∨ st = 0 ∧ ∀ q ∈ l, (v q : ℚ) * (2 : ℚ) ^ (e - 48) = |q|)
        ∧ x = ((4 * t + (if t < 0 then -1 else 1) * st : Int) : ℚ) * (2 : ℚ) ^ (e - 50))

/-- A product that is invalid: 0 × ∞. -/
def ZeroTimes (x y : Val) : Prop := (∃ b, x = .inf b) ∧ Finite y ∧ ratOf y = 0 ∨ Finite x ∧ ratOf x = 0 ∧ ∃ b, y = .inf b

/-- A pass, block or group of products is added to a held FP32 accumulator (R289 to R291): the specials, or one hold of the exact
sum; `half` says that the products make up a half-format group. -/
def Accumulates (half : Prop) (a a' : Held) (ps : List (Val × Val)) : Prop :=
  let acc := a.val .f32
  let infs := fun n => ∃ p ∈ ps, ProductIsInf p.1 p.2 n
  let nan := (∃ p ∈ ps, someNan p.1 p.2 ∨ ZeroTimes p.1 p.2) ∨ infs true ∧ infs false
  let products := ps.map (fun p => ratOf p.1 * ratOf p.2)
  (nan ∨ (∃ b, acc = .nan b) → a' = ⟨Fmt.f32.canonNan, 0⟩)
  ∧ (¬ nan → ∀ n, infs n → (Finite acc → a' = hold .f32 (.inf n))
      ∧ ∀ b, acc = .inf b → a' = if b = n then hold .f32 (.inf n) else ⟨Fmt.f32.canonNan, 0⟩)
  ∧ (¬ nan → (∀ n, ¬ infs n) → (∀ b, acc = .inf b → a' = hold .f32 (.inf b))
      ∧ (Finite acc → ∃ r q zs, (half → GroupSum products q) ∧ (¬ half → q = products.sum)
          ∧ Exactly r (ratOf acc + q) zs ∧ a' = hold .f32 r))

/-- The offset of enumeration `j` of a nest, dimension 0 fastest (R288). -/
def nestAt (bound : Nat → Nat) (stride : Nat → Int) (dims j : Nat) : Int :=
  ((List.range dims).map (fun i => (j / ((List.range i).map bound).prod % bound i : Nat) * stride i)).sum

/-- The instruction of the tephra core at work answers a next state in which a value of property `P` is in register `rd`
and the pc has passed the instruction's bytes, and nothing else is different. -/
def PutsX (i : Instr) (s : State) (rd len : Nat) (P : W32 → Prop) : Prop :=
  ∃ v, P v ∧ exec i s = .next (modTe s (fun te => stepPc (putX te rd v) len))

/-- The tephra core at work halts with a cause and a message of its fault is on its way to the service core of its
quadrant (R306). -/
def TeHalts (i : Instr) (s : State) (cause : Nat) : Prop :=
  ∃ t, exec i s = .next t ∧ (myTe t).fault = cause ∧ t.mem = s.mem ∧ (∀ c k, thread t c k = thread s c k)
    ∧ ∃ e ∈ t.agenda, e.instr = .inboundMessageWrite ∧ e.args.getD 0 0 = svcFor s.cur.core

/-- A far access of a tephra core is good: its sum is formed, a mesh address is in range, it is aligned and its translation
finds no fault. -/
def TeGood (s : State) (k rs1 n : Nat) (need : Need) (a : Addr) : Prop :=
  addAddr (tget 0 (myTe s).fa k) (getX (myTe s) rs1).toInt = (a, 0)
  ∧ ¬ (isMesh a = true ∧ meshRsvd a ≠ 0) ∧ ¬ (isMesh a = true ∧ 0x200000 < meshOfs a + n) ∧ a.toNat % n = 0
  ∧ (translate s s.cur.core a need).cause = 0

/-- No access of the tephra core at work is under way and no identifier is taken twice. -/
def TeQuiet (s : State) : Prop :=
  (∀ p ∈ s.flights, ¬ (p.2.core = s.cur.core ∧ p.2.who = s.cur.slot)) ∧ 8 ≤ s.cur.slot ∧ (myTe s).pending = none ∧ (myTe s).value = none
  ∧ tfind s.flights s.nextId = none

/-- What the flight of a tephra access carries in any case. -/
def TeMine (s : State) (op : FarOp) (a : Addr) (n : Nat) (need : Need) (f : Flight) : Prop :=
  f.core = s.cur.core ∧ f.who = s.cur.slot ∧ f.op = op ∧ f.addr = a ∧ f.size = n ∧ f.rx = true
  ∧ f.key = (translate s s.cur.core a need).key ∧ f.cvp.mode = rmodeOf (myTe s).rm ∧ f.cvp.sat = (myTe s).satf

/-- A blocking access: it leaves, and the core stands at the instruction until the value comes (R305). -/
def TeBlocks (i : Instr) (s : State) (P : Flight → Prop) : Prop :=
  ∃ t, exec i s = .next t ∧ myTe t = { myTe s with pending := some s.nextId } ∧ Leaves s t P

/-- A posted access: it leaves, and the core goes on. -/
def TePosts (i : Instr) (s : State) (P : Flight → Prop) : Prop :=
  ∃ t, exec i s = .next t ∧ myTe t = { myTe s with pc := ((myTe s).pc + 4) % 2 ^ 32 } ∧ Leaves s t P

/-- The 64 bytes of data memory at `d`. -/
def dataBytes (s : State) (d : Nat) : List Nat := (List.range 64).map (fun i => (tget (0 : Byte) (myTe s).dmem (d + i)).toNat)

/-- The number that `n` bytes of a list from byte `o` on are, little-endian. -/
def numberOf (l : List Nat) (o n : Nat) : Nat := ((List.range n).map (fun k => l.getD (o + k) 0 * 256 ^ k)).sum

/-- Register `n` of the tephra core at work as a number. -/
def xr (s : State) (n : Nat) : Nat := (getX (myTe s) n).toNat

/-- Bits `p` to `p + n − 1` of word `i` of a list. -/
def wordField (d : List Nat) (i p n : Nat) : Nat := field (d.getD i 0) p n

/-- Dimension `i` of a TCOPY descriptor: 96 bits from word 4 on (Table 12.4). -/
def copyDim (d : List Nat) (i : Nat) : Nat :=
  ((List.range 12).map (fun j => d.getD (4 + j) 0 * 2 ^ (64 * j))).sum / 2 ^ (96 * i) % 2 ^ 96

def signed (n x : Nat) : Int := (BitVec.ofNat n x).toInt

/-- Whether every element of a nest begins at or after 0 and ends at or before a limit. -/
def NestIn (base size dims : Nat) (bound : Nat → Nat) (stride : Nat → Int) (limit : Nat) : Prop :=
  ∀ ix : Nat → Nat, (∀ i < dims, ix i < bound i) →
    let o := (base : Int) + ((List.range dims).map (fun i => (ix i : Int) * stride i)).sum
    0 ≤ o ∧ o + size ≤ limit

/-- The fields of a TCOPY descriptor that a thread may give (R311, R312, R314). -/
def CopyGood (d : List Nat) : Prop :=
  let sk := wordField d 2 46 2
  let dk := wordField d 2 44 2
  let sf := wordField d 2 36 4
  let df := wordField d 2 32 4
  let pack := wordField d 2 41 1
  let dims := wordField d 2 29 3 + 1
  let src := d.getD 0 0 + wordField d 2 56 8 * 2 ^ 64
  let dst := d.getD 1 0 + wordField d 2 48 8 * 2 ^ 64
  let su := if pack = 1 then 4096 else szBytes sf
  let du := if pack = 1 then 4096 else szBytes df
  sk ≤ 1 ∧ dk ≤ 1 ∧ wordField d 2 42 2 ≠ 3 ∧ sf ≤ 13 ∧ df ≤ 13 ∧ wordField d 2 21 8 = 0 ∧ d.getD 3 0 = 0
  ∧ (∀ i < 8, dims ≤ i → copyDim d i = 0)
  ∧ (sk = 0 → src < 0x200000) ∧ (dk = 0 → dst < 0x200000)
  ∧ (sf = df ∨ ((fmtOf sf).isSome ↔ (fmtOf df).isSome))
  ∧ src % su = 0 ∧ dst % du = 0
  ∧ (∀ i < dims, signed 36 (field (copyDim d i) 24 36) % su = 0 ∧ signed 36 (field (copyDim d i) 60 36) % du = 0)
  ∧ (pack = 1 → sf = 0 ∧ df = 0 ∧ sk = 1 ∧ dk = 1)

/-- Its local sides and its status word end at or before a limit. -/
def CopyIn (d : List Nat) (limit : Nat) : Prop :=
  let dims := wordField d 2 29 3 + 1
  let bound := fun i => field (copyDim d i) 0 24 + 1
  (wordField d 2 46 2 = 0 → NestIn (d.getD 0 0 + wordField d 2 56 8 * 2 ^ 64) (szBytes (wordField d 2 36 4)) dims bound
    (fun i => signed 36 (field (copyDim d i) 24 36)) limit)
  ∧ (wordField d 2 44 2 = 0 → NestIn (d.getD 1 0 + wordField d 2 48 8 * 2 ^ 64) (szBytes (wordField d 2 32 4)) dims bound
    (fun i => signed 36 (field (copyDim d i) 60 36)) limit)
  ∧ (wordField d 2 40 1 = 1 → wordField d 2 0 21 + 4 ≤ limit)

def CopyAligned (d : List Nat) : Prop := wordField d 2 40 1 = 1 → wordField d 2 0 21 % 4 = 0

/-- The fields of a TCOLL descriptor (Table 12.6). -/
def CollFields (d : List Nat) : Prop :=
  let kind := wordField d 0 61 3
  let ty := wordField d 0 57 4
  let n := wordField d 0 42 12 + 1
  kind ≤ 4 ∧ (if kind = 0 ∨ kind = 1 ∨ kind = 4 then 4 ≤ ty ∧ ty ≤ 8 else ty ≤ 13) ∧ wordField d 0 55 2 ≠ 3
  ∧ 2 ≤ n ∧ wordField d 0 30 12 < n ∧ wordField d 1 52 12 < n ∧ wordField d 0 21 9 = 0 ∧ wordField d 1 24 28 = 0 ∧ wordField d 1 0 24 ≠ 0
  ∧ wordField d 2 53 11 = 0 ∧ wordField d 2 21 11 = 0 ∧ wordField d 3 53 11 = 0 ∧ wordField d 3 21 11 = 0
  ∧ ∀ i, 5 ≤ i → i < 16 → d.getD i 0 = 0

/-- The ranges that it names, each with its size and its alignment. -/
def collPlaces (d : List Nat) : List (Nat × Nat × Nat) :=
  let kind := wordField d 0 61 3
  let n := wordField d 0 42 12 + 1
  let cnt := wordField d 1 0 24
  let size := szBytes (wordField d 0 57 4)
  [(wordField d 0 0 21, 4 * n, 4), (wordField d 2 0 21, size * (if kind = 4 then n * cnt else cnt), size), (wordField d 3 0 21, 8192, 64)]
  ++ (if kind ≠ 1 ∨ wordField d 0 30 12 = wordField d 1 52 12 then [(wordField d 2 32 21, size * (if kind = 3 then n * cnt else cnt), size)] else [])
  ++ (if wordField d 0 54 1 = 1 then [(wordField d 3 32 21, 4, 4)] else [])

def CollIn (d : List Nat) (limit : Nat) : Prop := ∀ p ∈ collPlaces d, p.1 + p.2.1 ≤ limit

def CollAligned (d : List Nat) : Prop := ∀ p ∈ collPlaces d, p.1 % p.2.2 = 0

/-- The local ranges of a descriptor fit core `c` (R308 step 4): they lie in its scratchpad, aligned, and outside the context region
where that is closed. -/
def RangesFit (s : State) (c : Nat) (inside : Nat → Prop) (aligned : Prop) : Prop :=
  inside 0x200000 ∧ aligned ∧ ((Machine.core s c).pre = true → isSvc c = false → inside 0x1C0000)

/-- The causes that Table 14.2 lists and that reach a thread (R327). -/
def ReachesThread (c : Nat) : Prop :=
  (1 ≤ c ∧ c ≤ 0x0D ∧ c ≠ 0x07) ∨ (0x10 ≤ c ∧ c ≤ 0x24) ∨ c = 0x28 ∨ c = 0x29 ∨ (0x40 ≤ c ∧ c ≤ 0x44) ∨ (0x60 ≤ c ∧ c ≤ 0x67)
  ∨ (0x80 ≤ c ∧ c ≤ 0x86) ∨ (0xA0 ≤ c ∧ c ≤ 0xA3) ∨ (0xC0 ≤ c ∧ c ≤ 0xC2)

/-- A PSTAT is on its way into the register (Table 14.7), and no other thread and no byte of memory has changed. -/
def PutsPstat (i : Instr) (s : State) (st : Nat) (P : State → Prop) : Prop :=
  ∃ t, exec i s = .next t ∧ (me t).lands = (me (landSys s 0x802 (BitVec.ofNat 64 st))).lands ∧ t.mem = s.mem
    ∧ (∀ c k, (c, k) ≠ (s.cur.core, s.cur.slot) → thread t c k = thread s c k) ∧ P t

/-- A route word names thread or engine of core `c` (Tables 14.6, 18.2). -/
def Routes (s : State) (a c : Nat) : Prop :=
  field a 12 10 = s.node ∧ coreAt (field a 0 22) = some c ∧ isSvc c = false

/-- An acknowledgement of request `id` is on its way. -/
def Acknowledges (s t : State) (id st : Nat) : Prop :=
  ∃ e ∈ t.agenda, e.instr = .privilegedAcknowledgement ∧ e.args = [id, st] ∧ s.gcyc < e.due

/-- The receive queues of the threads of gang `n` are empty, and nothing else of a core or thread has changed (R184). -/
def QueuesEmptied (s t : State) (n : Nat) : Prop :=
  (∀ c k, { thread t c k with queues := (thread s c k).queues } = thread s c k
    ∧ (thread t c k).queues = if (Machine.core s c).gang = some n then [] else (thread s c k).queues)
  ∧ ∀ c, { Machine.core t c with threads := (Machine.core s c).threads } = Machine.core s c

/-- The turn of a thread ends without an issue: its expansions advance and TTC counts (R5, R34). -/
def turnPast (th : Thread) : Thread :=
  { th with
    half0 := th.half0.map (fun h => { h with left := h.left - 1 }), half1 := th.half1.map (fun h => { h with left := h.left - 1 })
    ttc := (th.ttc + 1) % 2 ^ 64 }

/-- Nothing is due in the thread's turn but its bundle. -/
def Calm (th : Thread) : Prop :=
  th.lands = [] ∧ th.faults = [] ∧ th.wait = .none ∧ th.serving = none ∧ th.ending = false ∧ th.endReq = false ∧ th.stopReq = false
  ∧ th.saving = false ∧ th.pin = none ∧ th.prefetch = .idle

/-- The turn of thread (c, k) of the arguments makes `y` of it; its count and its next bundle at the start of the turn are kept
for a debug read (R336). -/
def TurnOf (s t : State) (c k : Nat) (issue : Bool) (y : Thread) : Prop :=
  exec .turnStart s = .next t ∧ thread t c k = { y with turnTtc := (thread s c k).ttc, turnBa := (thread s c k).next } ∧ t.cur.issue = issue ∧ t.mem = s.mem ∧ t.agenda = s.agenda
  ∧ ∀ d j, (d, j) ≠ (c, k) → thread t d j = thread s d j

/-- A thread's far access on its way to a plain page of DRAM of this device: no conduit has failed, no earlier access of its
thread to that home was refused (R239), and its gang does not detect races. -/
def Arrives (s : State) (id : Nat) (f : Flight) : Prop :=
  s.cur.args = [id] ∧ tfind s.flights id = some f ∧ heldBack s id f = false
  ∧ (∀ x, f.key ≤ x → x < f.key + f.size → tget plainPage s.pages (x / 4096) = plainPage ∧ ∀ p ∈ s.gangs, raceByte s x p.2 = none)
  ∧ s.links.failed = [] ∧ f.home < 4 ∧ f.key < 2 ^ 48 ∧ (∀ g, gangOf s f.core = some g → g.raceMode = 0)
  ∧ f.core < 528 ∧ f.who < 8 ∧ f.raw = false ∧ f.group = none ∧ f.early = false
  -- it is whole, and has not been here before
  ∧ f.arrived = false ∧ f.parted = false ∧ f.gone = false ∧ f.cause = 0 ∧ f.oflags = 0

/-- Its outcome goes back to its core. -/
def Answers (t : State) (id : Nat) (f : Flight) (value : Nat) : Prop :=
  tfind t.flights id = some { f with st := .served, cause := 0, value := value, oflags := 0 }
  ∧ ∃ e ∈ t.agenda, e.instr = .farReplyArrival ∧ e.args = [id]

/-- The command at work: command `seq` of queue `q`, with its arguments. -/
def AtWork (s : State) (q seq : Nat) (k : Command) : Prop :=
  s.cur.args = [q, seq, 0] ∧ command s q seq = some k ∧ k.seq = seq

/-- The command retires with a status, cause and value: its completion is due (R368, Table 17.8), and what `f` makes of the
rest of the state has changed. -/
def Retires (s t : State) (q : Nat) (k : Command) (status cause value : Nat) : Prop :=
  (queue t q).cmds = (queue s q).cmds.filter (fun x => x.seq ≠ k.seq)
  ∧ ∃ c, (queue t q).due = (queue s q).due ++ [c] ∧ c.cmdseq = k.seq ∧ c.kind = k.kind ∧ c.status = status ∧ c.cause = cause
    ∧ c.value = value ∧ c.quiet = (decide (field k.flags 2 1 = 1) && decide (status = 0)) ∧ c.notify = decide (field k.flags 1 1 = 1)

/-- It ends at once, and nothing but its queue has changed. -/
def EndsAt (i : Instr) (s : State) (q : Nat) (k : Command) (status cause value : Nat) : Prop :=
  ∃ t, exec i s = .next t ∧ Retires s t q k status cause value ∧ { t with front := { t.front with queues := s.front.queues } } = s

/-- It waits: its queue shows it so, and nothing of the queue is due. -/
def Waits (s t : State) (q : Nat) (k : Command) : Prop :=
  queue t q = { queue s q with cmds := (queue s q).cmds.map (fun x => if x.seq = k.seq then { x with st := .waiting } else x) }

/-- `n` bytes at `a` lie in a partition's DRAM range and meet no side storage (R363). -/
def InRange (p : Partition) (a n : Nat) : Prop :=
  p.dbase ≤ a ∧ a + n ≤ p.dbase + p.dsize
  ∧ ∀ d < 4, ¬ (a % 2 ^ 50 < (d + 1) * 0x1800000000 ∧ d * 0x1800000000 + 0x17E0000000 < a % 2 ^ 50 + n)

/-- The front end and the host see `n` bytes from a key on as memory holds them: no page of them is compressed, no line is
poisoned, and none is a record of a race detector's areas (R206, R218, R268). -/
def SeenAt (s : State) (k n : Nat) : Prop :=
  ∀ x, k ≤ x → x < k + n → visByte s x = (getByte s x).toNat ∧ recForm (pageRec s x) = 0

/-- The same of the bytes at a device physical address, none of which lies in the next device's range. -/
def Seen (s : State) (a n : Nat) : Prop := a % 2 ^ 50 + n ≤ 2 ^ 50 ∧ SeenAt s (keyOf s a) n

/-- A rectangle of a partition and another have a core in common. -/
def ShareCore (a b : Nat) : Prop := ∃ d x y, rectHas a d x y = true ∧ rectHas b d x y = true

/-- Word `i` of an object of plain memory. -/
def objWord (s : State) (a i : Nat) : Nat := numberAt s (keyOf s a + 8 * i) 8

/-- The state word of an edge group (Table 18.8). -/
def linkWord (e : EdgeGroup) : Nat :=
  e.gen * 2 ^ 48 + e.peer * 2 ^ 40 + e.pers * 2 ^ 36 + e.tries * 2 ^ 30 + e.lanes * 2 ^ 16 + e.state * 2 ^ 8

/-- A word of the state block has gone to the engine port of every service core: it stands there, or waits behind what the port waits
for (R198, R410); no other byte has changed. -/
def ShowsWord (s t : State) (ofs v : Nat) : Prop :=
  let k := fun (c : Nat) => scratch c + 0x6FF00 + ofs
  (∀ c, 512 ≤ c → c < 528 →
    (portBars s c (k c) 8 = false → getNat t (k c) 8 = v % 2 ^ 64)
    ∧ (portBars s c (k c) 8 = true → (Instr.hostApertureAccess, [2, k c, v]) ∈ (Machine.core t c).waits))
  ∧ ∀ a, (∀ c, 512 ≤ c → c < 528 → portBars s c (k c) 8 = false → ¬ (k c ≤ a ∧ a < k c + 8)) → getByte t a = getByte s a

/-- Group `g` has become `e`, no other group has changed, and every service core's block is given the new state word. -/
def Publishes (s t : State) (g : Nat) (e : EdgeGroup) : Prop :=
  edge t g = e ∧ (∀ h, h ≠ g → edge t h = edge s h) ∧ ShowsWord s t (8 * g) (linkWord e)

/-- An event stands in the agenda after this cycle. -/
def Coming (s t : State) (i : Instr) (l : List Nat) : Prop := ∃ e ∈ t.agenda, e.instr = i ∧ e.args = l ∧ s.gcyc < e.due

/-- The group at work goes DOWN: no lane is up, and the reconfiguration of its lanes is awaited. -/
def GoesDown (s t : State) (g : Nat) (e : EdgeGroup) : Prop :=
  Publishes s t g { e with state := 3, lanes := 0 } ∧ Coming s t .lanesReconfigured [g]

/-- An outcome with the latch emptied, as a step leaves it. -/
def leaves (o : Host.Outcome State Fault Refusal) : Host.Outcome State Fault Refusal :=
  match o with
  | .next t => .next { t with cur := {} }
  | o => o

/-- The module has power and no event is due: a party's turn comes, or the next cycle. -/
def NothingDue (s : State) : Prop := s.board.supply = true ∧ ∀ e r, s.agenda = e :: r → s.gcyc < e.due

end Sys2Proof.Claim

open Sys2Proof.Claim

/-- The integer instructions of Table 4.1. R104 with the immediate form of R99 (Table 4.1): results of ADD to POPC as
numbers; nothing else changes. -/
def Obligations.IntegerArithmeticAndBits : Prop :=
  (
  ∀ (s : State) (w : SWord), immFits w → w.b < 64 →
    PutsS (.add w) s w.d 1 (fun v => v.toNat = ((body s w.a).toNat + (body s w.b).toNat) % 2 ^ 64)
    ∧ PutsS (.sub w) s w.d 1 (fun v => (v.toNat + (body s w.b).toNat) % 2 ^ 64 = (body s w.a).toNat)
    ∧ (w.imm = none → PutsS (.addi w) s w.d 1 (fun v =>
        v = body s w.a + (BitVec.ofNat 6 w.b).signExtend 64))
    ∧ (w.imm.isSome → PutsS (.addi w) s w.d 1 (fun v => v = body s w.a + opnd s w true))
    ∧ PutsS (.mul w) s w.d 1 (fun v => (v.toNat : Int) = (body s w.a).toInt * (opnd s w true).toInt % 2 ^ 64)
    ∧ PutsS (.mulh w) s w.d 1 (fun v => v.toInt = (body s w.a).toInt * (opnd s w true).toInt / 2 ^ 64)
    ∧ PutsS (.mulhn w) s w.d 1 (fun v => v.toNat = (body s w.a).toNat * (opnd s w false).toNat / 2 ^ 64)
    ∧ PutsS (.min w) s w.d 1 (fun v => v.toInt = min (body s w.a).toInt (opnd s w true).toInt)
    ∧ PutsS (.max w) s w.d 1 (fun v => v.toInt = max (body s w.a).toInt (opnd s w true).toInt)
    ∧ PutsS (.minn w) s w.d 1 (fun v => v.toNat = min (body s w.a).toNat (opnd s w false).toNat)
    ∧ PutsS (.maxn w) s w.d 1 (fun v => v.toNat = max (body s w.a).toNat (opnd s w false).toNat)
  )
  ∧ (
  ∀ (s : State) (w : SWord), immFits w →
    (∀ k < 64, PutsS (.and w) s w.d 1 (fun v => v.getLsbD k = ((body s w.a).getLsbD k && (opnd s w true).getLsbD k)))
    ∧ (∀ k < 64, PutsS (.or w) s w.d 1 (fun v => v.getLsbD k = ((body s w.a).getLsbD k || (opnd s w true).getLsbD k)))
    ∧ (∀ k < 64, PutsS (.xor w) s w.d 1 (fun v => v.getLsbD k = ((body s w.a).getLsbD k ^^ (opnd s w true).getLsbD k)))
    ∧ (∀ k < 64, PutsS (.andn w) s w.d 1 (fun v => v.getLsbD k = ((body s w.a).getLsbD k && !(opnd s w true).getLsbD k)))
    ∧ PutsS (.shl w) s w.d 1 (fun v => v.toNat = (body s w.a).toNat * 2 ^ ((opnd s w true).toNat % 64) % 2 ^ 64)
    ∧ PutsS (.shr w) s w.d 1 (fun v => v.toNat = (body s w.a).toNat / 2 ^ ((opnd s w true).toNat % 64))
    ∧ PutsS (.sar w) s w.d 1 (fun v => v.toInt = (body s w.a).toInt / 2 ^ ((opnd s w true).toNat % 64))
    ∧ (∀ k < 64, PutsS (.rol w) s w.d 1 (fun v =>
        v.getLsbD ((k + (opnd s w true).toNat % 64) % 64) = (body s w.a).getLsbD k))
    ∧ PutsS (.clz w) s w.d 1 (fun v => if body s w.a = 0 then v = 64 else v.toNat < 64
        ∧ 2 ^ (63 - v.toNat) ≤ (body s w.a).toNat ∧ (body s w.a).toNat < 2 ^ (64 - v.toNat))
    ∧ PutsS (.popc w) s w.d 1 (fun v => v.toNat = ((List.range 64).filter (body s w.a).getLsbD).length)
  )

/-- DIV, REM, DIVN and REMN. R105: quotient and remainder, the corner -2^63 by -1, the trap 0x28, the immediate forms,
the latency and the opcodes. -/
def Obligations.Divisions : Prop :=
  ∀ (s : State) (w : SWord), immFits w →
    let a := body s w.a
    let b := opnd s w true
    let u := opnd s w false
    (b ≠ 0 → ∃ q r, exec (.div w) s = .next (landW s w.d 4 q) ∧ exec (.rem w) s = .next (landW s w.d 4 r)
      ∧ (if a.toInt = -2 ^ 63 ∧ b.toInt = -1 then q.toInt = -2 ^ 63 ∧ r = 0
        else q.toInt * b.toInt + r.toInt = a.toInt ∧ r.toInt.natAbs < b.toInt.natAbs
          ∧ (r ≠ 0 → (r.toInt < 0 ↔ a.toInt < 0))))
    ∧ (u ≠ 0 → ∃ q r, exec (.divn w) s = .next (landW s w.d 4 q) ∧ exec (.remn w) s = .next (landW s w.d 4 r)
      ∧ q.toNat * u.toNat + r.toNat = a.toNat ∧ r.toNat < u.toNat)
    ∧ (b = 0 → Traps (.div w) s 0x28 ∧ Traps (.rem w) s 0x28)
    ∧ (u = 0 → Traps (.divn w) s 0x28 ∧ Traps (.remn w) s 0x28)
    -- their opcodes, with the register form and the imm32 form
    ∧ (∀ (sv : Bool) (g : Nat), g < 64 → w.d < 64 → w.a < 64 → w.b < 64 → w.imm = none ∨ w.b = 0 →
        let x := 2 ^ 18 * w.d + 2 ^ 12 * w.a + 2 ^ 6 * w.b + g
        decodeS sv w.imm (0x07 * 2 ^ 24 + x) = .ok (.div w) ∧ decodeS sv w.imm (0x08 * 2 ^ 24 + x) = .ok (.divn w)
        ∧ decodeS sv w.imm (0x09 * 2 ^ 24 + x) = .ok (.rem w) ∧ decodeS sv w.imm (0x0A * 2 ^ 24 + x) = .ok (.remn w))

/-- Moves, selects, bit fields and addresses. R106, R107 and R110 to R112: the moves and selects with their tails, the field
extract and insert, and the address arithmetic of Table 4.3. That ADDA reads the offset as signed is the model's reading
(log 83). -/
def Obligations.MovesFieldsAndAddresses : Prop :=
  (
  ∀ (s : State) (w : SWord), immFits w → w.a < 64 → w.b < 64 →
    let c := (opnd s w true).toNat
    let pos := c % 64
    let n := c / 256 % 64 + 1
    exec (.mov w) s = .next (landS s w.d 1 (sreg s w.a))
    ∧ exec (.sel w) s = .next (landS s w.d 1 (if (guardPred (me s) s.cur.g).getLsbD 0 then sreg s w.a else sreg s w.b))
    ∧ PutsS (.moviShort w) s w.d 1 (fun v => v = (BitVec.ofNat 12 (64 * w.a + w.b)).signExtend 64)
    ∧ (∀ n, w.imm = some n → PutsS (.moviImm32 w) s w.d 1 (fun v => v = (BitVec.ofNat 32 n).signExtend 64))
    ∧ (∀ n < 2 ^ 64, PutsS (.moviLong { w with imm := some n }) s w.d 1 (fun v => v.toNat = n))
    ∧ PutsS (.ext w) s w.d 1 (fun v =>
        (∀ k < 64, v.getLsbD k = if k < n then (body s w.a).getLsbD (pos + k)
          else (c / 65536 % 2 = 1 ∧ (body s w.a).getLsbD (pos + n - 1))))
    ∧ exec (.ins w) s = .next (land s 1 (.ins (physS (me s) w.d) (body s w.a) pos n) 0)
    ∧ (∀ (th : Thread) (l : Landing) (d : Nat), l.act = .ins d (body s w.a) pos n → d ≠ 0 →
        (tget sZero (applyAct th l).sregs d).tail = 0
        ∧ ∀ k < 64, (tget sZero (applyAct th l).sregs d).body.getLsbD k =
            if pos ≤ k ∧ k < pos + n then (body s w.a).getLsbD (k - pos) else (tget sZero th.sregs d).body.getLsbD k)
    -- the opcodes of EXT and INS, with the register form and the imm32 form
    ∧ (∀ (sv : Bool) (g : Nat), g < 64 → w.d < 64 → w.imm = none ∨ w.b = 0 →
        let x := 2 ^ 18 * w.d + 2 ^ 12 * w.a + 2 ^ 6 * w.b + g
        decodeS sv w.imm (0x1A * 2 ^ 24 + x) = .ok (.ext w) ∧ decodeS sv w.imm (0x1B * 2 ^ 24 + x) = .ok (.ins w))
  )
  ∧ (
  ∀ (s : State) (w : SWord), immFits w →
    let b := opnd s w true
    let col : Int := colOf s.cur.core + ((BitVec.ofNat 5 b.toNat).toInt)
    let row : Int := rowOf s.cur.core + ((BitVec.ofNat 4 (b.toNat / 32)).toInt)
    let ofs := (body s w.a).toNat
    let inside : Prop := 0 ≤ col ∧ col ≤ 15 ∧ 0 ≤ row ∧ row ≤ 7
    (0x1FFFFF < ofs → Traps (.lea w) s 0x40)
    ∧ (ofs ≤ 0x1FFFFF → ¬ inside → Traps (.lea w) s 0x42)
    ∧ (s.node < 1024 → s.cur.core < 528 → ofs ≤ 0x1FFFFF → inside → ∃ x : Addr, exec (.lea w) s = .next (landA s w.d x)
        ∧ isMesh x = true ∧ meshNode x = s.node ∧ meshCore x = coreNo (dieOf s.cur.core) col.toNat row.toNat
        ∧ meshOfs x = ofs ∧ meshRsvd x = 0)
    ∧ (∀ x : Addr, areg s w.a = x →
        (isMesh x = false → isMesh (x + b.signExtend 72) = false → exec (.adda w) s = .next (landA s w.d (x + b.signExtend 72)))
        ∧ (isMesh x = false → isMesh (x + b.signExtend 72) = true → Traps (.adda w) s 0x42)
        ∧ (isMesh x = true → (0 ≤ (meshOfs x : Int) + b.toInt ∧ (meshOfs x : Int) + b.toInt ≤ 0x1FFFFF) →
            ∃ y : Addr, exec (.adda w) s = .next (landA s w.d y) ∧ y.toNat / 2 ^ 21 = x.toNat / 2 ^ 21
              ∧ (meshOfs y : Int) = meshOfs x + b.toInt)
        ∧ (isMesh x = true → ¬ (0 ≤ (meshOfs x : Int) + b.toInt ∧ (meshOfs x : Int) + b.toInt ≤ 0x1FFFFF) →
            Traps (.adda w) s 0x40))
    ∧ (∃ y : Addr, exec (.movaAS w) s = .next (landA s w.d y) ∧ y.toNat = (body s w.a).toNat)
    ∧ PutsS (.movaSA w) s w.d 1 (fun v => v.toNat = (areg s w.a).toNat % 2 ^ 64)
    ∧ PutsS (.movaHiSA w) s w.d 1 (fun v => v.toNat = (areg s w.a).toNat / 2 ^ 64)
    ∧ exec (.movaAA w) s = .next (landA s w.d (areg s w.a))
    ∧ exec (.movaHiAS w) s = .next (land s 1 (.movaHi w.d (BitVec.ofNat 8 (body s w.a).toNat)) 0)
    ∧ (∀ (th : Thread) (l : Landing) (v : Byte), l.act = .movaHi w.d v →
        (getA (applyAct th l) w.d).toNat = v.toNat * 2 ^ 64 + (getA th w.d).toNat % 2 ^ 64)
  )

/-- Integer compares and predicate operations. R108, R115 and R16: signed and unsigned compares, and the logic of
predicates. -/
def Obligations.ComparesAndPredicates : Prop :=
  (
  ∀ (s : State) (w : SWord), immFits w →
    let a := body s w.a
    let b := opnd s w true
    let u := opnd s w false
    let all : Prop → Pred → Prop := fun p v => ∀ k < 128, (v.getLsbD k = true ↔ p)
    PutsP (.cmpeq w) s w.d (all (a = b)) ∧ PutsP (.cmpne w) s w.d (all (a ≠ b))
    ∧ PutsP (.cmplt w) s w.d (all (a.toInt < b.toInt)) ∧ PutsP (.cmple w) s w.d (all (a.toInt ≤ b.toInt))
    ∧ PutsP (.cmpltn w) s w.d (all (a.toNat < u.toNat)) ∧ PutsP (.cmplen w) s w.d (all (a.toNat ≤ u.toNat))
  )
  ∧ (
  ∀ (s : State) (w : SWord), ∀ k < 128,
    PutsP (.pand w) s w.d (fun v => v.getLsbD k = ((preg s w.a).getLsbD k && (preg s w.b).getLsbD k))
    ∧ PutsP (.por w) s w.d (fun v => v.getLsbD k = ((preg s w.a).getLsbD k || (preg s w.b).getLsbD k))
    ∧ PutsP (.pxor w) s w.d (fun v => v.getLsbD k = ((preg s w.a).getLsbD k ^^ (preg s w.b).getLsbD k))
    ∧ PutsP (.pnot w) s w.d (fun v => v.getLsbD k = !(preg s w.a).getLsbD k)
    ∧ PutsP (.pmov w) s w.d (fun v => v.getLsbD k = (preg s w.a).getLsbD k)
    ∧ PutsP (.pall w) s w.d (fun v => v.getLsbD k = true ↔ ∀ j < 128, (preg s w.a).getLsbD j = true)
    ∧ PutsP (.pany w) s w.d (fun v => v.getLsbD k = true ↔ ∃ j < 128, (preg s w.a).getLsbD j = true)
  )

/-- Scalar floating arithmetic, choices and compares. R53, R54, R69, R70, R113: exact results of the held operands,
their NaN, infinity and zero cases, and their flags. -/
def Obligations.ScalarFloatingArithmetic : Prop :=
  (
  ∀ (s : State) (w : SWord) (f : Fmt), f = .f64 ∨ f = .f32 →
    let x := valA s f w
    let y := valB s f w
    let down : Bool := s.cur.cvp.mode = .rdn
    PutsF (row f .faddF64 .faddF32 w) s w.d 1 f (IsSum down x y)
    ∧ PutsF (row f .fsubF64 .fsubF32 w) s w.d 1 f (IsDifference down x y)
    ∧ PutsF (row f .fmulF64 .fmulF32 w) s w.d 1 f (IsProduct x y)
    ∧ PutsF (row f .fdivF64 .fdivF32 w) s w.d 4 f (IsQuotient x y)
    ∧ PutsF (row f .fsqrtF64 .fsqrtF32 w) s w.d 4 f (IsRoot x)
  )
  ∧ (
  ∀ (s : State) (w : SWord) (f : Fmt), f = .f64 ∨ f = .f32 → immFits w →
    ∃ a b : Held, a.val f = valA s f w ∧ b.val f = valB s f w ∧ a = heldS s f w.a ∧ (w.imm = none → b = heldS s f w.b)
      ∧ (someNan (a.val f) (b.val f) →
          (∀ i ∈ [row f .fminF64 .fminF32 w, row f .fmaxF64 .fmaxF32 w],
            exec i s = .next (landChosen s w.d f (⟨f.canonNan, 0⟩, nanFlag (a.val f) (b.val f))))
          ∧ exec (row f .fcmpeqF64 .fcmpeqF32 w) s = .next (landBFl s w.d false (nanFlag (a.val f) (b.val f)))
          ∧ exec (row f .fcmpltF64 .fcmpltF32 w) s = .next (landBFl s w.d false fNV)
          ∧ exec (row f .fcmpleF64 .fcmpleF32 w) s = .next (landBFl s w.d false fNV))
      ∧ (¬ someNan (a.val f) (b.val f) → Made f a → Made f b →
          (∃ lo hi : Held, (lo = a ∧ hi = b ∨ lo = b ∧ hi = a) ∧ ¬ Below (hi.val f) (lo.val f)
            ∧ (Same (lo.val f) (hi.val f) → isNegative (hi.val f) = true → isNegative (lo.val f) = true)
            ∧ exec (row f .fminF64 .fminF32 w) s = .next (landChosen s w.d f (lo, 0))
            ∧ exec (row f .fmaxF64 .fmaxF32 w) s = .next (landChosen s w.d f (hi, 0)))
          ∧ (∃ eq lt le : Bool, (eq = true ↔ Same (a.val f) (b.val f)) ∧ (lt = true ↔ Below (a.val f) (b.val f))
            ∧ le = (lt || eq)
            ∧ exec (row f .fcmpeqF64 .fcmpeqF32 w) s = .next (landBFl s w.d eq 0)
            ∧ exec (row f .fcmpltF64 .fcmpltF32 w) s = .next (landBFl s w.d lt 0)
            ∧ exec (row f .fcmpleF64 .fcmpleF32 w) s = .next (landBFl s w.d le 0)))
  )

/-- FMA reads its addend when it lands. R101 and R113: the addend is the merge value, the destination as it stands at
the landing. -/
def Obligations.FusedMultiplyAddMergesAtItsLanding : Prop :=
  ∀ (s : State) (w : SWord) (f : Fmt), f = .f64 ∨ f = .f32 →
    let x := valA s f w
    let y := valB s f w
    let d := physS (me s) w.d
    let zeroTimes : Prop := (∃ b, x = .inf b) ∧ Finite y ∧ ratOf y = 0 ∨ Finite x ∧ ratOf x = 0 ∧ ∃ b, y = .inf b
    ∃ a b : Held, ∃ fl, a.val f = x ∧ b.val f = y
      ∧ (zeroTimes ∨ x = .nan true ∨ y = .nan true → fl = fNV)
      ∧ (¬ (zeroTimes ∨ x = .nan true ∨ y = .nan true) → fl = 0)
      ∧ exec (row f .fmaF64 .fmaF32 w) s = .next (land (note s fl) 1 (.fma d f a b s.cur.cvp) fl)
      ∧ (∀ (th : Thread) (l : Landing), l.act = .fma d f a b s.cur.cvp → d ≠ 0 →
          ∃ r, IsFused (s.cur.cvp.mode = .rdn) x y (((tget sZero th.sregs d).held f).val f) r
            ∧ tget sZero (applyAct th l).sregs d =
                { body := BitVec.ofNat 64 (writeFp s.cur.cvp f r.1).1.body
                  tail := BitVec.ofNat 2 (writeFp s.cur.cvp f r.1).1.tail }
            ∧ (applyAct th l).flags =
                flagOr (flagOr th.flags l.flags) (flagOr r.2 (writeFp s.cur.cvp f r.1).2))

/-- Scalar conversions, settling and classification. R57, R61, R67, R72, R114: the rows of FCVT, SETL and FCLASS. -/
def Obligations.ScalarConversionsAndSettling : Prop :=
  (
  ∀ (s : State) (w : SWord) (f : Fmt) (t : Nat), f = .f64 ∨ f = .f32 →
    let i := row f .fcvtF64 .fcvtF32 w
    let x := valA s f w
    (∀ g, fmtOf t = some g → w.b = t →
      PutsF i s w.d 1 g (fun r => r = (x.exact, if x = .nan true then fNV else 0)))
    ∧ (∀ g, fmtOf t = some g → w.b = 16 + t →
      PutsF i s w.d 1 f (fun r => r = (((heldS s g w.a).val g).exact,
        if (heldS s g w.a).val g = .nan true then fNV else 0)))
    ∧ (∀ n sg, intOf t = some (n, sg) → w.b = t →
      (∀ b, x = .nan b → exec i s = .next (landFl s w.d 1 0 fNV))
      ∧ (∀ b, x = .inf b → exec i s = .next (landFl s w.d 1 (BitVec.ofInt 64 (if b then intMin n sg else intMax n sg)) fNV))
      ∧ (Finite x → ∃ r : Int, Rounds s.cur.cvp.mode (ratOf x) r
          ∧ exec i s = .next (if r < intMin n sg then landFl s w.d 1 (BitVec.ofInt 64 (intMin n sg)) fNV
              else if intMax n sg < r then landFl s w.d 1 (BitVec.ofInt 64 (intMax n sg)) fNV
              else landFl s w.d 1 (BitVec.ofInt 64 r) (if (r : ℚ) = ratOf x then 0 else fNX))))
    ∧ (∀ n sg, intOf t = some (n, sg) → w.b = 16 + t →
      PutsF i s w.d 1 f (fun r => r.2 = 0 ∧ Exactly r.1
        (if sg then (((body s w.a).truncate n).toInt : ℚ) else (((body s w.a).toNat % 2 ^ n : Nat) : ℚ)) false))
  )
  ∧ (
  ∀ (s : State) (w : SWord) (f : Fmt), f = .f64 ∨ f = .f32 →
    let h := heldS s f w.a
    let neg : Bool := h.body / 2 ^ (f.width - 1) % 2 = 1
    let sgn : ℚ := if neg then -1 else 1
    let sat := s.cur.cvp.sat
    let setl := row f .setlF64 .setlF32 w
    (f.isNan h.body = true → exec setl s = .next (landFl s w.d 1 (BitVec.ofNat 64 h.body) 0))
    ∧ (f.isInf h.body = true → exec setl s = .next (landFl s w.d 1
        (BitVec.ofNat 64 (f.signed neg (if sat then f.maxBody else f.infBody))) 0))
    ∧ (f.isNan h.body = false → f.isInf h.body = false → h.code f < f.ovfCode →
        ∃ r : Int, Rounds s.cur.cvp.mode (sgn * (h.code f : ℚ) / 4) r
          ∧ (r.natAbs ≤ f.maxBody → exec setl s = .next (landFl s w.d 1 (BitVec.ofNat 64 (f.signed neg r.natAbs))
              ((if h.tail % 4 = 0 then 0 else fNX) + (if h.tail % 4 ≠ 0 ∧ h.code f < 4 * 2 ^ f.fb then fUF else 0))))
          ∧ (f.maxBody < r.natAbs → exec setl s = .next (landFl s w.d 1
              (BitVec.ofNat 64 (f.signed neg (if sat then f.maxBody else f.infBody))) (fOF + fNX))))
    ∧ (h.code f = f.ovfCode → exec setl s = .next (landFl s w.d 1 (BitVec.ofNat 64 (f.signed neg
        (if sat ∨ s.cur.cvp.mode = .rtz ∨ s.cur.cvp.mode = (if neg then .rup else .rdn) then f.maxBody else f.infBody)))
        (fOF + fNX)))
    ∧ PutsS (row f .fclassF64 .fclassF32 w) s w.d 1 (fun v =>
        v.toNat < 2 ^ 12
        ∧ (v.getLsbD 0 = true ↔ valA s f w = .inf true) ∧ (v.getLsbD 7 = true ↔ valA s f w = .inf false)
        ∧ (v.getLsbD 3 = true ↔ Finite (valA s f w) ∧ f.magOf h.body = 0 ∧ neg)
        ∧ (v.getLsbD 4 = true ↔ Finite (valA s f w) ∧ f.magOf h.body = 0 ∧ !neg)
        ∧ (v.getLsbD 2 = true ↔ 0 < f.magOf h.body ∧ f.magOf h.body < 2 ^ f.fb ∧ neg)
        ∧ (v.getLsbD 5 = true ↔ 0 < f.magOf h.body ∧ f.magOf h.body < 2 ^ f.fb ∧ !neg)
        ∧ (v.getLsbD 1 = true ↔ 2 ^ f.fb ≤ f.magOf h.body ∧ f.magOf h.body ≤ f.maxBody ∧ neg)
        ∧ (v.getLsbD 6 = true ↔ 2 ^ f.fb ≤ f.magOf h.body ∧ f.magOf h.body ≤ f.maxBody ∧ !neg)
        ∧ (v.getLsbD 8 = true ↔ valA s f w = .nan true) ∧ (v.getLsbD 9 = true ↔ valA s f w = .nan false)
        ∧ (v.getLsbD 10 = true ↔ f.magOf h.body = f.maxBody ∧ h.tail % 4 = 3) ∧ (v.getLsbD 11 = true ↔ h.tail % 4 ≠ 0))
  )

/-- Holding keeps held values and rounds others to odd. R50 to R53: the held form is exact where it can be and
otherwise keeps, by its odd last bit, on which side the number lies. -/
def Obligations.HeldValuesRoundToOdd : Prop :=
  (
  ∀ (f : Fmt) (h : Held), h.body < 2 ^ f.width → h.tail < 4 →
    (f.isNan h.body = false → f.isInf h.body = false → h.code f ≤ f.ovfCode → hold f (h.val f).exact = h)
    ∧ (f.isInf h.body = true → h.tail = 0 → hold f (h.val f).exact = h)
    ∧ (f.isNan h.body = true → hold f (h.val f).exact = ⟨f.canonNan, 0⟩)
    ∧ (∀ n < 2 ^ 32, Finite (Held.val .f32 ⟨n, 0⟩) →
        ratOf ((immHeld .f64 n).val .f64) = ratOf (Held.val .f32 ⟨n, 0⟩))
  )
  ∧ (
  ∀ (f : Fmt) (neg : Bool) (m : Nat) (e : Int), 0 < m → roCode f m e false ≤ f.ovfCode →
    let h := hold f (.fin neg m e false)
    f.isNan h.body = false ∧ f.isInf h.body = false ∧ isNegative (h.val f) = neg
    ∧ (ratOf (h.val f) = ratOf (.fin neg m e)
        ∨ (h.tail % 2 = 1
          ∧ ratOf (Held.val f (Held.ofCode f false (h.code f - 1))) < ratOf (.fin false m e)
          ∧ (h.code f + 1 ≤ f.ovfCode →
              ratOf (.fin false m e) < ratOf (Held.val f (Held.ofCode f false (h.code f + 1))))))
  )

/-- s0 and p0. R12 whole. -/
def Obligations.ZeroRegistersReadConstantAndDiscardWrites : Prop :=
  (∀ th : Thread, getS th 0 = { body := 0, tail := 0 })
  ∧ (∀ th : Thread, ∀ k < 128, (getP th 0).getLsbD k = true)
  ∧ (∀ (th : Thread) (n : Nat), n < 64 → (physS th n = 0 ↔ n = 0))
  ∧ (∀ (th : Thread) (n : Nat), n < 48 → (physP th n = 0 ↔ n = 0))
  ∧ (∀ (th : Thread) (l : Landing), writesS 0 l = true → (applyAct th l).sregs = th.sregs)
  ∧ (∀ (th : Thread) (l : Landing) (v m : Pred), l.act = .preg 0 v m → (applyAct th l).pregs = th.pregs)
  ∧ (∀ (lsd nv : Nat) (i : Instr), ∀ w ∈ writesOf lsd nv i, w.target ≠ .s 0 ∧ w.target ≠ .p 0)

/-- The frame of the instructions that write registers. The frame of the register-writing rows: everything outside the
pending landings (and a count of activity) is as before. -/
def Obligations.RegisterInstructionsOnlyAddLandings : Prop :=
  ∀ (i : Instr) (s t : State), landsOnly i = true → exec i s = .next t → t.cur.trap = none →
    OnlyLandings s t
    ∧ (∀ l ∈ (me s).lands, l ∈ (me t).lands)
    ∧ (∀ l ∈ (me t).lands, l ∈ (me s).lands ∨
        l.issued = (me s).ttc ∧ l.pos = s.cur.pos ∧ ∃ lat ∈ [1, 2, 3, 4], l.due = (me s).ttc + lat)
    ∧ (InIssueOrder (me s).lands → InIssueOrder (me t).lands)

/-- Pending results land in their turn and in issue order. R22, R25 to R27: no interlock, landings in issue order then
slot order, on the scalar, address, predicate and vector registers of compute and service cores. -/
def Obligations.LandingsArriveInOrderAfterTheirLatency : Prop :=
  (
  ∀ (s : State) (c t ttc : Nat),
    let due := (thread s c t).lands.filter (fun l => l.due ≤ ttc)
    let th := thread (applyLandings s c t ttc) c t
    th.lands = (thread s c t).lands.filter (fun l => ttc < l.due)
    ∧ (∀ k, (c, t) ≠ (c, k) → thread (applyLandings s c t ttc) c k = thread s c k)
    ∧ (isSvc c = false ∨ due.all (fun l => !isSys l) = true → (applyLandings s c t ttc).mem = s.mem)
    ∧ (∀ (n : Nat) (v : SReg) (early late : List Landing) (l : Landing), n ≠ 0 → due = early ++ l :: late →
        l.act = .sreg n v → late.all (fun x => !writesS n x) = true → tget sZero th.sregs n = v)
    ∧ (∀ n, due.all (fun x => !writesS n x) = true → tget sZero th.sregs n = tget sZero (thread s c t).sregs n)
    -- address registers
    ∧ (∀ (n : Nat) (v : Addr) (early late : List Landing) (l : Landing), due = early ++ l :: late →
        l.act = .areg n v → late.all (fun x => !writesA n x) = true → tget 0 th.aregs n = v)
    ∧ (∀ n, due.all (fun x => !writesA n x) = true → tget 0 th.aregs n = tget 0 (thread s c t).aregs n)
    -- predicate registers: the bits under the landing's mask
    ∧ (∀ (n b : Nat) (v m : Pred) (early late : List Landing) (l : Landing), n ≠ 0 → due = early ++ l :: late →
        l.act = .preg n v m → m.getLsbD b = true → late.all (fun x => !writesP n b x) = true → (tget 0 th.pregs n).getLsbD b = v.getLsbD b)
    ∧ (∀ n b, due.all (fun x => !writesP n b x) = true → (tget 0 th.pregs n).getLsbD b = (tget 0 (thread s c t).pregs n).getLsbD b)
    -- vector registers: the lanes of the landing
    ∧ (∀ (n i : Nat) (x : Lane) (early late : List Landing) (l : Landing) (ls : List (Nat × Lane)), i < 128 → due = early ++ l :: late →
        l.act = .lanes n ls → (ls.map Prod.fst).Nodup → (i, x) ∈ ls → late.all (fun y => !writesV n i y) = true →
        tget laneZero th.vregs (128 * n + i) = x)
    ∧ (∀ n i, i < 128 → due.all (fun y => !writesV n i y) = true →
        tget laneZero th.vregs (128 * n + i) = tget laneZero (thread s c t).vregs (128 * n + i))
  )
  ∧ (
  ∀ (s : State) (d lat : Nat) (v : Word), 0 < d → d < 64 → 0 < lat → (me s).lands = [] →
    let t := landW s d lat v
    let c := s.cur.core
    let k := s.cur.slot
    (∀ j < lat, getS (thread (applyLandings t c k ((me s).ttc + j)) c k) d = getS (me s) d)
    ∧ getS (thread (applyLandings t c k ((me s).ttc + lat)) c k) d = { body := v, tail := 0 }
  )

/-- Taking a trap. R324, R326 to R328: the one entry that every cause takes. That TRAPC and TRAPA land a turn later
after all slots, that a thread which halts keeps its MREP count, and that an abandoned privileged request leaves with the
trap are the model's readings (log 16, 88, 89). -/
def Obligations.TrapsEnterTheHandlerOrHalt : Prop :=
  ∀ (s : State) (c k cause addr : Nat), cause < 256 → s.node < 1024 → c < 528 → k < 8 →
    let th := thread s c k
    let th1 := { th with packet := none, priv := none, privDone := none }
    let t := takeTrapAt s c k cause addr
    let landed := fun (code : Nat) => insLanding
      { due := th.ttc + 1, issued := th.ttc, pos := 9, act := .trap code addr, flags := 0 } th.lands
    let posts := fun (code acause : Nat) => t.mem = s.mem ∧ ∃ e ∈ t.agenda, e.instr = .inboundMessageWrite ∧ e.args.getD 0 0 = svcFor c
      ∧ bitsAt (e.args.getD 1 0) 56 8 = code ∧ bitsAt (e.args.getD 1 0) 52 4 = 2 ∧ bitsAt (e.args.getD 1 0) 16 8 = acause
      ∧ e.args.getD 2 0 = addr
    (∀ seg, th.hact = false → cause ≠ 0x0D → tfind (Machine.core s c).trapv (causeClass cause) = some seg →
        thread t c k = { th1 with mrep := none, lands := landed cause, hact := true, st := .run, next := 32 * seg }
        ∧ t.agenda = s.agenda ∧ t.mem = s.mem ∧ t.front = s.front)
    ∧ (th.hact = false → cause = 0x0D ∨ tfind (Machine.core s c).trapv (causeClass cause) = none → isSvc c = false →
        thread t c k = { th1 with lands := landed cause, st := .halt } ∧ posts cause 0)
    ∧ (th.hact = true → isSvc c = false → thread t c k = { th1 with lands := landed 0x0D, st := .halt } ∧ posts 0x0D cause)
    ∧ (isSvc c = true → th.hact = true ∨ cause = 0x0D ∨ tfind (Machine.core s c).trapv (causeClass cause) = none →
        let code := if th.hact then 0x0D else cause
        thread t c k = { th1 with lands := landed code, st := .halt }
        ∧ t.mem = s.mem ∧ t.agenda = s.agenda ∧ ∃ r, (queue t 0).due = (queue s 0).due ++ [r] ∧ r.cmdseq = 0
          ∧ r.cause = code ∧ r.detail = 0x40 + (c - 512))
    ∧ (∀ j d, (j, d) ≠ (c, k) → thread t j d = thread s j d)
    ∧ (∀ (x : Thread) (l : Landing), l.act = .trap cause addr →
        (applyAct x l).trapc = cause ∧ (applyAct x l).trapa = addr)

/-- Branches, calls, RET, END and TRAP. R13, R116 to R119. -/
def Obligations.ControlTransfersChooseTheNextBundle : Prop :=
  ∀ (s : State) (w : SWord) (n : Nat),
    let ret : Addr := BitVec.ofNat 72 (following (me s) s.cur.addr)
    (w.imm = some n → n < 2 ^ 29 → exec (.br w) s = .next (jumpTo s n)
      ∧ exec (.callLabel w) s = .next (jumpTo (landA s 15 ret) n))
    ∧ exec (.bri w) s = .next (jumpTo s ((body s w.a).toNat % 2 ^ 29))
    ∧ exec (.callRegister w) s = .next (jumpTo (landA s 15 ret) ((body s w.a).toNat % 2 ^ 29))
    ∧ exec .ret s = .next (jumpTo s ((getA (me s) 15).toNat % 2 ^ 29))
    ∧ (∀ h, halfOf (me s) (me s).curHalf = some h →
        (s.cur.addr % 32 + 1 < h.len → following (me s) s.cur.addr = s.cur.addr + 1)
        ∧ (h.len ≤ s.cur.addr % 32 + 1 → following (me s) s.cur.addr = 32 * h.next))
    ∧ (∃ t, exec .endThread s = .next t ∧ me t = { me s with ending := true, endAddr := s.cur.addr }
        ∧ SameOutside s t ∧ ∀ c k, (c, k) ≠ (s.cur.core, s.cur.slot) → thread t c k = thread s c k)
    ∧ (w.b < 16 → Traps (.trap w) s (0x10 + w.b))
    ∧ (∀ (s1 : State) (l : List (Nat × Nat × Instr)), s1.cur.core = s.cur.core → s1.cur.slot = s.cur.slot →
        (me (commit s s1 l)).next = s1.cur.jump.getD (following (me s) s.cur.addr))

/-- LOOP and LEND. R31 to R33 and R120. -/
def Obligations.LoopsPushAndPopTheLoopStack : Prop :=
  ∀ (s : State) (w : SWord), isSvc s.cur.core = false → (me s).lands = [] → (me s).lsd ≤ 6 → (me s).nv ≤ 48 →
    let th := me s
    let c := s.cur.core
    let k := s.cur.slot
    -- the thread at its next turn
    let after := fun (t : State) => thread (applyLandings t c k (th.ttc + 1)) c k
    -- LOOP
    (∀ i n, (i = .loopRegister w ∧ n = (body s w.a).toNat) ∨ (i = .loopImmediate w ∧ w.imm = some n) →
      (w.d = 0 ∨ 16 < w.d → Traps i s 0x02)
      ∧ (0 < w.d → w.d ≤ 16 → th.lsd = 6 → Traps i s 0x09)
      ∧ (0 < w.d → w.d ≤ 16 → th.lsd < 6 → 2 ^ 29 < n → Traps i s 0x02)
      ∧ (0 < w.d → w.d ≤ 16 → th.lsd < 6 → n ≤ 2 ^ 29 → ∃ t, exec i s = .next t ∧ t.cur = s.cur
          ∧ (after t).lsd = th.lsd + 1
          ∧ tget lceZero (after t).lces th.lsd =
              { lstart := BitVec.ofNat 29 (following th s.cur.addr)
                lepi := if n = 0 then 0 else BitVec.ofNat 4 (w.d - 1), lcnt := BitVec.ofNat 29 (n - 1) }
          ∧ (∀ j < 16, ∀ b < 128, (tget 0 (after t).pregs (32 + j)).getLsbD b =
              if j < w.d then decide (j = 0 ∧ n ≠ 0) else (tget 0 th.pregs (32 + j)).getLsbD b)))
    -- LEND
    ∧ (th.lsd = 0 → Traps .lend s 0x0A)
    ∧ (0 < th.lsd → ∃ t, exec .lend s = .next t
        ∧ (after t).srb = (th.srb + 1) % 32 ∧ (after t).prb = (th.prb + 1) % 16
        ∧ (after t).vrb = (if 16 < th.nv then (th.vrb + 1) % (th.nv - 16) else th.vrb)
        ∧ (let e := tget lceZero th.lces (th.lsd - 1)
          (if e.lcnt = 0 ∧ e.lepi = 0 then t.cur.jump = s.cur.jump ∧ (after t).lsd = th.lsd - 1
            else t.cur.jump = some e.lstart.toNat ∧ (after t).lsd = th.lsd
              ∧ tget lceZero (after t).lces (th.lsd - 1) =
                  (if e.lcnt ≠ 0 then { e with lcnt := e.lcnt - 1 } else { e with lepi := e.lepi - 1 }))
          ∧ (∀ b < 128, (tget 0 (after t).pregs 32).getLsbD b = decide (e.lcnt ≠ 0))
          ∧ (∀ j < 15, tget 0 (after t).pregs (33 + j) = tget 0 th.pregs (32 + j))))

/-- LPIN, RDS, WRS, ROTSET, WAITC and the no-operations. R18, R38, R88, R121, R122, R187, R330: LPIN of one and of two segments,
every register of Tables 1.2 and 14.3 as RDS reads it, what WRS accepts and what its landing leaves. That RANK to GORIG read
zero outside a gang and WID all ones on a service core is the model's reading (log 19), as is WAITC past 2^64 (log 98). -/
def Obligations.PinsSystemRegistersAndGates : Prop :=
  ∀ (s : State) (w : SWord),
    -- LPIN within the segment
    (∀ h, halfOf (me s) (me s).curHalf = some h → s.cur.addr % 32 + 2 + w.b ≤ h.len → ∃ t, exec (.lpin w) s = .next t
        ∧ (me t).pin = some { seg := h.seg, idx := s.cur.addr % 32 + 1, len := h.len, n := w.b + 1, succ := h.next }
        ∧ { me t with pin := (me s).pin } = me s ∧ SameOutside s t)
    ∧ (∀ h, halfOf (me s) (me s).curHalf = some h → h.len < s.cur.addr % 32 + 2 + w.b → 0x40000 ≤ h.next →
        Traps (.lpin w) s 0x0B)
    -- LPIN of two segments
    ∧ (∀ h, halfOf (me s) (me s).curHalf = some h → s.cur.addr % 32 < h.len → h.len < s.cur.addr % 32 + 2 + w.b → h.next < 0x40000 →
        let rest := s.cur.addr % 32 + 2 + w.b - h.len
        let there := min ((getByte s (codeStore s.cur.core + h.next)).toNat % 64) 32
        (there < rest → Traps (.lpin w) s 0x0B)
        ∧ (rest ≤ there → ∃ t, exec (.lpin w) s = .next t
            ∧ (me t).pin = some { seg := h.seg, idx := s.cur.addr % 32 + 1, len := h.len, n := w.b + 1, succ := h.next }
            ∧ { me t with pin := (me s).pin } = me s ∧ SameOutside s t))
    -- RDS
    ∧ (64 * w.a + w.b ≠ 0x806 → PutsS (.rds w) s w.d 1 (fun v =>
        ∀ x, (64 * w.a + w.b, x) ∈ sysValues s → v.toNat = x % 2 ^ 64))
    ∧ (∀ i < 6, 64 * w.a + w.b = 0x020 + i → PutsS (.rds w) s w.d 1 (fun v =>
        field v.toNat 33 29 = (tget lceZero (me s).lces i).lstart.toNat ∧ field v.toNat 29 4 = (tget lceZero (me s).lces i).lepi.toNat
        ∧ field v.toNat 0 29 = (tget lceZero (me s).lces i).lcnt.toNat ∧ field v.toNat 62 2 = 0))
    ∧ (64 * w.a + w.b = 0x806 → (myCore s).svc.dbgBusy = true → exec (.rds w) s = .next (blockNow s))
    ∧ (64 * w.a + w.b = 0x806 → (myCore s).svc.dbgBusy = false → PutsS (.rds w) s w.d 1 (fun v => v = (myCore s).svc.dbgval))
    -- WRS: what it accepts; what it accepts is on its way and lands in the next turn
    ∧ (let n := 64 * w.d + w.b
      let x := (body s w.a).toNat
      (∀ p, (n, p) ∈ sysAccepts s x →
        (p → exec (.wrs w) s = .next (landSys s n (body s w.a))) ∧ (¬ p → Traps (.wrs w) s 0x02))
      ∧ ((me s).lands = [] →
        let t := applyLandings (landSys s n (body s w.a)) s.cur.core s.cur.slot ((me s).ttc + 1)
        let th := thread t s.cur.core s.cur.slot
        (n = 0x010 → th.flags = x) ∧ (n = 0x011 → th.ften = x) ∧ (n = 0x014 → th.trapc = x ∧ th.hact = false) ∧ (n = 0x015 → th.trapa = x)
        ∧ (n = 0x016 → th.srb = x) ∧ (n = 0x017 → th.vrb = x) ∧ (n = 0x018 → th.prb = x) ∧ (n = 0x019 → th.lsd = x)
        ∧ (∀ i < 6, n = 0x020 + i → tget lceZero th.lces i =
            { lstart := BitVec.ofNat 29 (field x 33 29), lepi := BitVec.ofNat 4 (field x 29 4), lcnt := BitVec.ofNat 29 (field x 0 29) })
        ∧ (isSvc s.cur.core = true → n = 0x801 → (myCore s).svc.inbox = [] → (Machine.core t s.cur.core).svc.inqr = x)
        ∧ (isSvc s.cur.core = true → n = 0x804 → (Machine.core t s.cur.core).svc.gsel = x)
        ∧ (isSvc s.cur.core = true → n = 0x805 → (Machine.core t s.cur.core).svc.dbgsel = body s w.a
            ∧ (Machine.core t s.cur.core).svc.dbgBusy = true
            ∧ ∃ e ∈ t.agenda, e.instr = .debugReadComplete ∧ e.args = [s.cur.core, s.cur.slot, x] ∧ s.gcyc < e.due)))
    -- ROTSET of all three bases
    ∧ (w.b = 7 → 16 < (me s).nv → (body s w.a).toNat / 256 % 32 < (me s).nv - 16 → isSvc s.cur.core = false →
        (me s).lands = [] → ∃ t, exec (.rotset w) s = .next t
          ∧ (let th := thread (applyLandings t s.cur.core s.cur.slot ((me s).ttc + 1)) s.cur.core s.cur.slot
            th.srb = (body s w.a).toNat % 32 ∧ th.vrb = (body s w.a).toNat / 256 % 32
            ∧ th.prb = (body s w.a).toNat / 65536 % 16))
    -- WAITC
    ∧ (∀ i n, (i = .waitcRegister w ∧ n = (body s w.a).toNat) ∨ (i = .waitcImmediate w ∧ w.imm = some n) →
        (n ≤ s.gcyc → exec i s = .next s) ∧ (s.gcyc < n → exec i s = .next (blockNow s)))
    -- the no-operations
    ∧ exec .nop s = .next s ∧ exec .vnop s = .next s ∧ exec .lnop s = .next s ∧ exec .mnop s = .next s
    ∧ exec .xnop s = .next s

/-- Vector integer arithmetic, bits and shifts. R133, R134, R136, R140: element by element, in the lanes whose mask
and guard bits are 1. -/
def Obligations.VectorIntegersAndBits : Prop :=
  (
  ∀ (s : State) (w : VWord), w.ty ≤ 5 →
    let n := tyBits w.ty
    let A := fun l k => eltIntAt w.ty k (vlane s w.a l)
    let B := fun l k => eltIntAt w.ty k (bLane s w l)
    (w.md = 0 →
      PutsV (.vadd w) s w 1 (fun l r => EachElt w.ty r (fun k => (eltBitsAt w.ty k r : Int) = (A l k + B l k) % 2 ^ n))
      ∧ PutsV (.vsub w) s w 1 (fun l r => EachElt w.ty r (fun k => (eltBitsAt w.ty k r : Int) = (A l k - B l k) % 2 ^ n)))
    ∧ (w.md = 1 →
      PutsV (.vadd w) s w 1 (fun l r => EachElt w.ty r (fun k =>
        eltIntAt w.ty k r = max (lowest w.ty) (min (highest w.ty) (A l k + B l k))))
      ∧ PutsV (.vsub w) s w 1 (fun l r => EachElt w.ty r (fun k =>
        eltIntAt w.ty k r = max (lowest w.ty) (min (highest w.ty) (A l k - B l k)))))
    ∧ PutsV (.vmul w) s w 1 (fun l r => EachElt w.ty r (fun k => (eltBitsAt w.ty k r : Int) = A l k * B l k % 2 ^ n))
    ∧ PutsV (.vmulh w) s w 1 (fun l r => EachElt w.ty r (fun k => (eltBitsAt w.ty k r : Int) = A l k * B l k / 2 ^ n % 2 ^ n))
    ∧ PutsV (.vmad w) s w 1 (fun l r => EachElt w.ty r (fun k =>
        (eltBitsAt w.ty k r : Int) = (A l k * B l k + eltIntAt w.ty k (vlane s w.c l)) % 2 ^ n))
    ∧ PutsV (.vmin w) s w 1 (fun l r => EachElt w.ty r (fun k => eltIntAt w.ty k r = min (A l k) (B l k)))
    ∧ PutsV (.vmax w) s w 1 (fun l r => EachElt w.ty r (fun k => eltIntAt w.ty k r = max (A l k) (B l k)))
    ∧ PutsV (.vabs w) s w 1 (fun l r => EachElt w.ty r (fun k => eltBitsAt w.ty k r = (A l k).natAbs))
    ∧ (w.ty ≤ 1 → PutsV (.vdot4 w) s w 1 (fun l r => r.tail = 0 ∧ (r.data.toNat : Int) =
        ((vlane s w.c l).data.toNat + A l 0 * B l 0 + A l 1 * B l 1 + A l 2 * B l 2 + A l 3 * B l 3) % 2 ^ 32))
  )
  ∧ (
  ∀ (s : State) (w : VWord), w.ty ≤ 5 →
    let n := tyBits w.ty
    let A := fun l k => eltBitsAt w.ty k (vlane s w.a l)
    let B := fun l k => eltBitsAt w.ty k (bLane s w l)
    PutsV (.vand w) s w 1 (fun l r => r.tail = 0 ∧ r.data = (vlane s w.a l).data &&& (bLane s w l).data)
    ∧ PutsV (.vor w) s w 1 (fun l r => r.tail = 0 ∧ r.data = (vlane s w.a l).data ||| (bLane s w l).data)
    ∧ PutsV (.vxor w) s w 1 (fun l r => r.tail = 0 ∧ r.data = (vlane s w.a l).data ^^^ (bLane s w l).data)
    ∧ PutsV (.vshl w) s w 1 (fun l r => EachElt w.ty r (fun k => eltBitsAt w.ty k r = A l k * 2 ^ (B l k % n) % 2 ^ n))
    ∧ PutsV (.vshr w) s w 1 (fun l r => EachElt w.ty r (fun k => eltBitsAt w.ty k r = A l k / 2 ^ (B l k % n)))
    ∧ PutsV (.vsar w) s w 1 (fun l r => EachElt w.ty r (fun k =>
        eltIntAt (w.ty / 2 * 2) k r = eltIntAt (w.ty / 2 * 2) k (vlane s w.a l) / 2 ^ (B l k % n)))
    ∧ PutsV (.vclz w) s w 1 (fun l r => EachElt w.ty r (fun k =>
        if A l k = 0 then eltBitsAt w.ty k r = n else 2 ^ (n - 1) ≤ A l k * 2 ^ eltBitsAt w.ty k r
          ∧ A l k * 2 ^ eltBitsAt w.ty k r < 2 ^ n))
    ∧ PutsV (.vpopc w) s w 1 (fun l r => EachElt w.ty r (fun k =>
        eltBitsAt w.ty k r = ((List.range n).filter (A l k).testBit).length))
  )

/-- Vector floating arithmetic and special functions. R137, R141, R146. Other operands of the transcendental rows are
not named here (log 18). -/
def Obligations.VectorFloatingArithmetic : Prop :=
  ∀ (s : State) (w : VWord) (f : Fmt), fmtOf w.ty = some f → w.ty ≤ 10 →
    let A := fun l k => (eltHeldAt f k (vlane s w.a l)).val f
    let B := fun l k => (eltHeldAt f k (bLane s w l)).val f
    let C := fun l k => (eltHeldAt f k (vlane s w.c l)).val f
    let down : Bool := s.cur.cvp.mode = .rdn
    PutsVF (.vfadd w) s w 1 f (fun l k r => IsSum down (A l k) (B l k) r)
    ∧ PutsVF (.vfsub w) s w 1 f (fun l k r => IsDifference down (A l k) (B l k) r)
    ∧ PutsVF (.vfmul w) s w 1 f (fun l k r => IsProduct (A l k) (B l k) r)
    ∧ PutsVF (.vfma w) s w 1 f (fun l k r => IsFused down (A l k) (B l k) (C l k) r)
    ∧ PutsVF (.vsqrt w) s w 3 f (fun l k r => IsRoot (A l k) r)
    ∧ PutsVF (.vrcp w) s w 3 f (fun l k r => IsQuotient (.fin false 1 0) (A l k) r)
    ∧ PutsVF (.vrsq w) s w 3 f (fun l k r =>
        (∀ b, A l k = .nan b → r = (.nan, if b then fNV else 0))
        ∧ (A l k = .inf false → r.2 = 0 ∧ Exactly r.1 0 false) ∧ (A l k = .inf true → r = (.nan, fNV))
        ∧ (Finite (A l k) → ratOf (A l k) = 0 → r = (.inf (isNegative (A l k)), fDZ))
        ∧ (Finite (A l k) → ratOf (A l k) < 0 → r = (.nan, fNV))
        ∧ (Finite (A l k) → 0 < ratOf (A l k) → r.2 = 0
            ∧ Sticky r.1 false (fun q => q ^ 2 * ratOf (A l k) ≤ 1) (fun q => q ^ 2 * ratOf (A l k) < 1)))
    ∧ PutsVF (.vexp2 w) s w 3 f (fun l k r =>
        (∀ b, A l k = .nan b → r = (.nan, if b then fNV else 0))
        ∧ (A l k = .inf false → r = (.inf false, 0)) ∧ (A l k = .inf true → r.2 = 0 ∧ Exactly r.1 0 false)
        ∧ (∀ n : Int, -512 < n → n < 512 → Finite (A l k) → ratOf (A l k) = n → r.2 = 0 ∧ Exactly r.1 ((2 : ℚ) ^ n) false))
    ∧ PutsVF (.vlog2 w) s w 3 f (fun l k r =>
        (∀ b, A l k = .nan b → r = (.nan, if b then fNV else 0))
        ∧ (A l k = .inf false → r = (.inf false, 0)) ∧ (A l k = .inf true → r = (.nan, fNV))
        ∧ (Finite (A l k) → ratOf (A l k) = 0 → r = (.inf true, fDZ))
        ∧ (Finite (A l k) → ratOf (A l k) < 0 → r = (.nan, fNV))
        ∧ (∀ n : Int, Finite (A l k) → ratOf (A l k) = (2 : ℚ) ^ n → r.2 = 0 ∧ Exactly r.1 n false))
    ∧ PutsVF (.vsin w) s w 3 f (fun l k r =>
        (∀ b, A l k = .nan b → r = (.nan, if b then fNV else 0)) ∧ (∀ b, A l k = .inf b → r = (.nan, fNV))
        ∧ (∀ n : Int, Finite (A l k) → ratOf (A l k) = n → r.2 = 0 ∧ Exactly r.1 0 (isNegative (A l k)))
        ∧ (∀ n : Int, Finite (A l k) → ratOf (A l k) = n + 1 / 4 → r.2 = 0 ∧ Exactly r.1 1 false)
        ∧ (∀ n : Int, Finite (A l k) → ratOf (A l k) = n + 3 / 4 → r.2 = 0 ∧ Exactly r.1 (-1) false))
    ∧ PutsVF (.vcos w) s w 3 f (fun l k r =>
        (∀ b, A l k = .nan b → r = (.nan, if b then fNV else 0)) ∧ (∀ b, A l k = .inf b → r = (.nan, fNV))
        ∧ (∀ n : Int, Finite (A l k) → ratOf (A l k) = n → r.2 = 0 ∧ Exactly r.1 1 false)
        ∧ (∀ n : Int, Finite (A l k) → ratOf (A l k) = n + 1 / 2 → r.2 = 0 ∧ Exactly r.1 (-1) false)
        ∧ (∀ n : Int, Finite (A l k) → ratOf (A l k) = n + 1 / 4 ∨ ratOf (A l k) = n + 3 / 4 → r.2 = 0 ∧ Exactly r.1 0 false))

/-- Vector minima, maxima, signs, settling, compares and classes. R69, R70, R141, R142, R144, R145 and the predicate
form of VMOVL (R149). -/
def Obligations.VectorChoicesComparesAndClasses : Prop :=
  (
  ∀ (s : State) (w : VWord) (f : Fmt), fmtOf w.ty = some f → w.ty ≤ 10 →
    let A := fun l k => eltHeldAt f k (vlane s w.a l)
    let B := fun l k => eltHeldAt f k (bLane s w l)
    let nanOf := fun l k => someNan ((A l k).val f) ((B l k).val f)
    let fl := fun l k => nanFlag ((A l k).val f) ((B l k).val f)
    -- a chosen operand as it is written under the prefix
    let written := fun c : Held × Nat => ((writeHeld s.cur.cvp f c.1).1, flagOr c.2 (writeHeld s.cur.cvp f c.1).2)
    -- the chosen operand, of two that are no NaN
    let least := fun (l k : Nat) (h : Held) => (h = A l k ∨ h = B l k) ∧ (Made f (A l k) → Made f (B l k) →
      ¬ Below ((A l k).val f) (h.val f) ∧ ¬ Below ((B l k).val f) (h.val f))
    let greatest := fun (l k : Nat) (h : Held) => (h = A l k ∨ h = B l k) ∧ (Made f (A l k) → Made f (B l k) →
      ¬ Below (h.val f) ((A l k).val f) ∧ ¬ Below (h.val f) ((B l k).val f))
    let other := fun (l k : Nat) (h : Held) =>
      (f.isNan (A l k).body = true → f.isNan (B l k).body = false → h = B l k)
      ∧ (f.isNan (A l k).body = false → f.isNan (B l k).body = true → h = A l k)
      ∧ (f.isNan (A l k).body = true → f.isNan (B l k).body = true → h = ⟨f.canonNan, 0⟩)
    PutsVH (.vfmin w) s w 1 f (fun l k r => ∃ c, r = written c ∧ (nanOf l k → c = (⟨f.canonNan, 0⟩, fl l k))
      ∧ (¬ nanOf l k → c.2 = 0 ∧ least l k c.1))
    ∧ PutsVH (.vfmax w) s w 1 f (fun l k r => ∃ c, r = written c ∧ (nanOf l k → c = (⟨f.canonNan, 0⟩, fl l k))
      ∧ (¬ nanOf l k → c.2 = 0 ∧ greatest l k c.1))
    ∧ PutsVH (.vfminn w) s w 1 f (fun l k r => ∃ c, r = written c ∧ (nanOf l k → other l k c.1 ∧ c.2 = fl l k)
      ∧ (¬ nanOf l k → c.2 = 0 ∧ least l k c.1))
    ∧ PutsVH (.vfmaxn w) s w 1 f (fun l k r => ∃ c, r = written c ∧ (nanOf l k → other l k c.1 ∧ c.2 = fl l k)
      ∧ (¬ nanOf l k → c.2 = 0 ∧ greatest l k c.1))
    ∧ PutsVH (.vfabs w) s w 1 f (fun l k r => r.2 = 0 ∧ r.1.tail = (A l k).tail
      ∧ r.1.body = (A l k).body % 2 ^ (f.width - 1))
    ∧ PutsVH (.vfneg w) s w 1 f (fun l k r => r.2 = 0 ∧ r.1.tail = (A l k).tail
      ∧ r.1.body = ((A l k).body + 2 ^ (f.width - 1)) % 2 ^ f.width)
    ∧ PutsVH (.vsetl w) s w 1 f (fun l k r => r.1.tail = 0
      ∧ (f.isNan (A l k).body = true → r = (⟨(A l k).body, 0⟩, 0))
      ∧ ((A l k).tail = 0 → f.isNan (A l k).body = false → (s.cur.cvp.sat = false ∨ f.isInf (A l k).body = false) →
          r = (⟨(A l k).body, 0⟩, 0))
      ∧ (f.isNan (A l k).body = false → f.isInf (A l k).body = false → (A l k).code f < f.ovfCode → r.2 &&& fOF = 0 →
          ∃ n : Int, Rounds s.cur.cvp.mode ((if f.signOf (A l k).body then -1 else 1) * ((A l k).code f : ℚ) / 4) n
            ∧ r.1.body = f.signed (f.signOf (A l k).body) n.natAbs))
  )
  ∧ (
  ∀ (s : State) (w : VWord),
    (w.ty ≤ 5 → w.md % 8 ≤ 5 → w.md / 8 < 32 / tyBits w.ty →
      PutsVP (.vcmp w) s w (fun l r => r.2 = 0 ∧ (r.1 = true ↔
        condOf (w.md % 8) (eltIntAt w.ty (w.md / 8) (vlane s w.a l) = eltIntAt w.ty (w.md / 8) (bLane s w l))
          (eltIntAt w.ty (w.md / 8) (vlane s w.a l) < eltIntAt w.ty (w.md / 8) (bLane s w l)))))
    ∧ (∀ f, fmtOf w.ty = some f → w.ty ≤ 10 → w.md % 8 ≤ 6 → w.md / 8 < 32 / f.width →
      let A := fun l => eltHeldAt f (w.md / 8) (vlane s w.a l)
      let B := fun l => eltHeldAt f (w.md / 8) (bLane s w l)
      let settled := fun h : Held => (⟨(settle f h f s.cur.cvp.mode s.cur.cvp.sat).1, 0⟩ : Held)
      let answers := fun (a b : Held) (r : Bool × Nat) =>
        (someNan (a.val f) (b.val f) → (r.1 = true ↔ w.md % 8 = 1 ∨ w.md % 8 = 6)
          ∧ r.2 = if w.md % 8 ∈ [2, 3, 4, 5] then fNV else nanFlag (a.val f) (b.val f))
        ∧ (¬ someNan (a.val f) (b.val f) → Made f a → Made f b → r.2 = 0 ∧ (w.md % 8 = 6 → r.1 = false)
          ∧ (w.md % 8 ≤ 5 → (r.1 = true ↔ condOf (w.md % 8) (Same (a.val f) (b.val f)) (Below (a.val f) (b.val f)))))
      PutsVP (.vfcmp w) s w (fun l r => answers (A l) (B l) r)
      ∧ PutsVP (.vfcmps w) s w (fun l r => answers (settled (A l)) (settled (B l)) r))
    ∧ (∀ f, fmtOf w.ty = some f → w.ty ≤ 10 → 2 ≤ f.width / 8 →
      PutsVH (.vfclass w) s w 1 f (fun l k r => r.2 = 0 ∧ r.1.tail = 0 ∧
        let h := eltHeldAt f k (vlane s w.a l)
        (r.1.body.testBit 0 = true ↔ h.val f = .inf true) ∧ (r.1.body.testBit 7 = true ↔ h.val f = .inf false)
        ∧ (r.1.body.testBit 8 = true ↔ h.val f = .nan true) ∧ (r.1.body.testBit 9 = true ↔ h.val f = .nan false)
        ∧ (r.1.body.testBit 3 = true ↔ f.magOf h.body = 0 ∧ f.signOf h.body = true)
        ∧ (r.1.body.testBit 4 = true ↔ f.magOf h.body = 0 ∧ f.signOf h.body = false)
        ∧ (r.1.body.testBit 11 = true ↔ h.tail ≠ 0)))
    ∧ PutsVP (.vmovlToPredicate w) s w (fun l r => r.2 = 0 ∧ (r.1 = true ↔ (vlane s w.a l).data ≠ 0))
  )

/-- Vector moves, shuffles and cluster crossings. R147 to R149, R153. -/
def Obligations.VectorMovesAndShuffles : Prop :=
  ∀ (s : State) (w : VWord),
    let A := vlane s w.a
    PutsV (.vmov w) s w 1 (fun l r => r = A l)
    ∧ PutsV (.vsel w) s w 1 (fun l r => r = if (getP (me s) w.c).getLsbD l then A l else bLane s w l)
    ∧ PutsV (.vshuf w) s w 1 (fun l r => r = A (16 * (l / 16) + (vlane s w.b l).data.toNat % 16))
    ∧ PutsV (.vbcast w) s w 1 (fun l r => r = A (16 * (l / 16) + w.b))
    ∧ PutsV (.vcmprs w) s w 1 (fun l r =>
        (∀ j < 16, (getP (me s) w.c).getLsbD (16 * (l / 16) + j) = true →
          ((List.range j).filter (fun i => (getP (me s) w.c).getLsbD (16 * (l / 16) + i))).length = l % 16 →
          r = A (16 * (l / 16) + j))
        ∧ (((List.range 16).filter (fun i => (getP (me s) w.c).getLsbD (16 * (l / 16) + i))).length ≤ l % 16 →
          r = { data := 0, tail := 0 }))
    ∧ PutsV (.viota w) s w 1 (fun l r => r.tail = 0 ∧ r.data.toNat =
        ((body s w.a).toNat + if w.md % 2 = 1 then l % 16 else l) % 2 ^ 32)
    ∧ PutsV (.vmovsToVector w) s w 1 (fun l r => r.data.toNat = (body s w.a).toNat % 2 ^ 32
        ∧ r.tail.toNat = (sreg s w.a).tail.toNat)
    ∧ PutsV (.vmovlToVector w) s w 1 (fun l r => r.tail = 0 ∧ r.data = if (getP (me s) w.a).getLsbD l then 1 else 0)
    ∧ (let x := 16 * (w.c % 8) + w.b % 16
      (On s w x → exec (.vmovsToScalar w) s = .next (landS s w.d 1
        { body := (A x).data.zeroExtend 64, tail := (A x).tail.truncate 2 }))
      ∧ (¬ On s w x → exec (.vmovsToScalar w) s = .next s))
    ∧ PutsV (.xcl w) s w 2 (fun l r =>
        (w.md / 8 = 0 → r = A (16 * ((l / 16 + 8 - w.md % 8) % 8) + l % 16))
        ∧ (w.md / 8 = 1 → r = A (16 * (w.md % 8) + l % 16))
        ∧ (w.md / 8 = 2 → r = A (16 * (l / 16 ^^^ w.md % 8) + l % 16)))

/-- VCVT between all types. R61, R67, R143. -/
def Obligations.VectorConversions : Prop :=
  ∀ (s : State) (w : VWord),
    let src := w.md % 16
    let ws := tyBits src
    let wd := tyBits w.ty
    -- the source element of result element j
    let E := fun l j => if ws = 2 * wd ∧ 32 / ws ≤ j then (vlane s w.b l, j - 32 / ws)
      else (vlane s w.a l, if wd = 2 * ws then j + w.md / 16 * (32 / wd) else j)
    w.ty ≤ 10 → src ≤ 10 → ws = wd ∨ ws = 2 * wd ∨ wd = 2 * ws → w.md / 16 ≤ 1 →
    (∀ g f, fmtOf src = some g → fmtOf w.ty = some f →
      PutsVF (.vcvt w) s w 1 f (fun l j r => r =
        ((((eltHeldAt g (E l j).2 (E l j).1).val g).exact,
          if (eltHeldAt g (E l j).2 (E l j).1).val g = .nan true then fNV else 0))))
    ∧ (∀ f, src ≤ 5 → fmtOf w.ty = some f →
      PutsVF (.vcvt w) s w 1 f (fun l j r => r.2 = 0 ∧ Exactly r.1 (eltIntAt src (E l j).2 (E l j).1) false))
    ∧ (src ≤ 5 → w.ty ≤ 5 →
      PutsV (.vcvt w) s w 1 (fun l x => EachElt w.ty x (fun j =>
        let n := eltIntAt src (E l j).2 (E l j).1
        (s.cur.cvp.sat = false ∨ ws < wd → (eltBitsAt w.ty j x : Int) = n % 2 ^ wd)
        ∧ (s.cur.cvp.sat = true → wd ≤ ws → eltIntAt w.ty j x = max (lowest w.ty) (min (highest w.ty) n)))))
    ∧ (∀ g, fmtOf src = some g → w.ty ≤ 5 → ∃ (h : Nat → Nat → Int × Nat) (ls : List (Nat × Lane)) (fl : Nat),
      (∀ l j, On s w l → j < 32 / wd →
        let v := (eltHeldAt g (E l j).2 (E l j).1).val g
        (∀ b, v = .nan b → h l j = (0, fNV))
        ∧ (∀ b, v = .inf b → h l j = (if b then lowest w.ty else highest w.ty, fNV))
        ∧ (Finite v → ∃ r : Int, Rounds s.cur.cvp.mode (ratOf v) r
            ∧ h l j = if r < lowest w.ty then (lowest w.ty, fNV) else if highest w.ty < r then (highest w.ty, fNV)
              else (r, if (r : ℚ) = ratOf v then 0 else fNX)))
      ∧ Fills s w ls (fun l x => EachElt w.ty x (fun j => eltIntAt w.ty j x = (h l j).1))
      ∧ (∀ b, fl.testBit b = true ↔ ∃ l j, On s w l ∧ j < 32 / wd ∧ (h l j).2.testBit b = true)
      ∧ exec (.vcvt w) s = .next (landV (note s fl) w.d 1 ls fl))

/-- Reductions and scans. R150 to R152, with R70 and R71: every operator of Table 5.9 on integers and on floating values. That a
value which meets no other passes as it stands and raises no flag, a signalling NaN too, is the model's reading (log 17). -/
def Obligations.VectorReductionsAndScans : Prop :=
  (
  ∀ (s : State) (w : VWord), w.ty ≤ 5 →
    let n := tyBits w.ty
    let A := fun l k => eltIntAt w.ty k (vlane s w.a l)
    -- the acting lanes of a lane's cluster, in ascending order
    let peers := fun l => ((List.range 16).map (16 * (l / 16) + ·)).filter (fun j =>
      decide (j < laneCount s) && decide (w.cm / 2 ^ (j / 16) % 2 = 1) && (guardPred (me s) s.cur.g).getLsbD j)
    let upTo := fun l => (peers l).filter (· ≤ l)
    let bits := fun l k => eltBitsAt w.ty k (vlane s w.a l)
    (w.md % 16 = 0 → PutsV (.vred w) s w 2 (fun l r => EachElt w.ty r (fun k =>
        (eltBitsAt w.ty k r : Int) = ((peers l).map (A · k)).sum % 2 ^ n)))
    ∧ (w.md % 16 = 1 → PutsV (.vred w) s w 2 (fun l r => EachElt w.ty r (fun k =>
        (∃ j ∈ peers l, eltIntAt w.ty k r = A j k) ∧ ∀ j ∈ peers l, eltIntAt w.ty k r ≤ A j k)))
    ∧ (w.md % 16 = 2 → PutsV (.vred w) s w 2 (fun l r => EachElt w.ty r (fun k =>
        (∃ j ∈ peers l, eltIntAt w.ty k r = A j k) ∧ ∀ j ∈ peers l, A j k ≤ eltIntAt w.ty k r)))
    ∧ (w.md % 16 = 5 → PutsV (.vred w) s w 2 (fun l r => r.tail = 0 ∧
        ∃ j ∈ peers l, ∃ k < 32 / n, r.data.toNat = j * (32 / n) + k
          ∧ ∀ j' ∈ peers l, ∀ k' < 32 / n, A j k ≤ A j' k' ∧ (A j' k' = A j k → j * (32 / n) + k ≤ j' * (32 / n) + k')))
    ∧ (w.md % 16 = 6 → PutsV (.vred w) s w 2 (fun l r => r.tail = 0 ∧
        ∃ j ∈ peers l, ∃ k < 32 / n, r.data.toNat = j * (32 / n) + k
          ∧ ∀ j' ∈ peers l, ∀ k' < 32 / n, A j' k' ≤ A j k ∧ (A j' k' = A j k → j * (32 / n) + k ≤ j' * (32 / n) + k')))
    ∧ (∀ op ∈ [(7, (· &&& · : Nat → Nat → Nat), 2 ^ n - 1), (8, (· ||| ·), 0), (9, (· ^^^ ·), 0)], w.md % 16 = op.1 →
        PutsV (.vred w) s w 2 (fun l r => EachElt w.ty r (fun k =>
          eltBitsAt w.ty k r = (peers l).foldl (fun x j => op.2.1 x (bits j k)) op.2.2)))
    ∧ (w.md = 0 → PutsV (.vscan w) s w 2 (fun l r => EachElt w.ty r (fun k =>
        (eltBitsAt w.ty k r : Int) = ((upTo l).map (A · k)).sum % 2 ^ n)))
    ∧ (w.md = 16 → PutsV (.vscan w) s w 2 (fun l r => EachElt w.ty r (fun k =>
        (eltBitsAt w.ty k r : Int) = (((upTo l).filter (· ≠ l)).map (A · k)).sum % 2 ^ n)))
    ∧ (w.md = 2 → PutsV (.vscan w) s w 2 (fun l r => EachElt w.ty r (fun k =>
        (∃ j ∈ upTo l, eltIntAt w.ty k r = A j k) ∧ ∀ j ∈ upTo l, A j k ≤ eltIntAt w.ty k r)))
    ∧ (w.md = 1 → PutsV (.vscan w) s w 2 (fun l r => EachElt w.ty r (fun k =>
        (∃ j ∈ upTo l, eltIntAt w.ty k r = A j k) ∧ ∀ j ∈ upTo l, eltIntAt w.ty k r ≤ A j k)))
    ∧ (∀ op ∈ [(7, (· &&& · : Nat → Nat → Nat), 2 ^ n - 1), (8, (· ||| ·), 0), (9, (· ^^^ ·), 0)],
        (w.md = op.1 → PutsV (.vscan w) s w 2 (fun l r => EachElt w.ty r (fun k =>
          eltBitsAt w.ty k r = (upTo l).foldl (fun x j => op.2.1 x (bits j k)) op.2.2)))
        ∧ (w.md = 16 + op.1 → PutsV (.vscan w) s w 2 (fun l r => EachElt w.ty r (fun k =>
          let before := (upTo l).filter (· ≠ l)
          eltBitsAt w.ty k r = if before = [] then 0 else before.foldl (fun x j => op.2.1 x (bits j k)) op.2.2))))
  )
  ∧ (
  ∀ (s : State) (w : VWord) (f : Fmt), fmtOf w.ty = some f → w.ty ≤ 10 → w.md = 0 →
    let elt := fun (l k i : Nat) => if 16 * (l / 16) + i < laneCount s ∧ w.cm / 2 ^ (l / 16) % 2 = 1
        ∧ (guardPred (me s) s.cur.g).getLsbD (16 * (l / 16) + i) = true
      then some (eltHeldAt f k (vlane s w.a (16 * (l / 16) + i))) else none
    ∃ ls fl, exec (.vred w) s = .next (landV (note s fl) w.d 2 ls fl)
      ∧ Fills s w ls (fun l x => ∀ k < 32 / f.width,
          ∀ h, sumTree s.cur.cvp f (elt l k) 4 0 = some h → eltHeldAt f k x = (writeHeld s.cur.cvp f h).1)
  )
  ∧ (
  ∀ (s : State) (w : VWord) (f : Fmt), fmtOf w.ty = some f → w.ty ≤ 10 →
    let p := s.cur.cvp
    let A := fun l k => eltHeldAt f k (vlane s w.a l)
    let peers := fun l => ((List.range 16).map (16 * (l / 16) + ·)).filter (fun j =>
      decide (j < laneCount s) && decide (w.cm / 2 ^ (j / 16) % 2 = 1) && (guardPred (me s) s.cur.g).getLsbD j)
    let index := fun j k => j * (32 / f.width) + k
    -- extremes
    (∀ op, 1 ≤ op → op ≤ 4 → w.md = op →
      PutsVH (.vred w) s w 2 f (fun l k r => let l := (peers l).map (A · k)
        ∃ c, ChosenOf f (op % 2 = 0) (3 ≤ op) l c ∧ r = ((writeHeld p f c).1,
          flagOr (if 1 < l.length ∧ (l.any (fun h => f.isSnan h.body)) = true then fNV else 0) (writeHeld p f c).2))
      ∧ PutsVH (.vscan w) s w 2 f (fun l k r =>
        ∃ c, ChosenOf f (op % 2 = 0) (3 ≤ op) (((peers l).filter (· ≤ l)).map (A · k)) c ∧ r.1 = (writeHeld p f c).1))
    -- indexes: the first NaN, or else the first extreme
    ∧ (w.md = 5 ∨ w.md = 6 → ∃ ls fl, exec (.vred w) s = .next (landV (note s fl) w.d 2 ls fl)
      ∧ (fl = fNV ∨ fl = 0) ∧ (fl = fNV ↔ ∃ l k, On s w l ∧ k < 32 / f.width ∧ f.isSnan (A l k).body = true)
      ∧ Fills s w ls (fun l r => r.tail = 0 ∧ ∃ j ∈ peers l, ∃ k < 32 / f.width, r.data.toNat = index j k
        ∧ ∀ j' ∈ peers l, ∀ k' < 32 / f.width,
          (f.isNan (A j' k').body = true → f.isNan (A j k).body = true ∧ index j k ≤ index j' k')
          ∧ ((∀ i ∈ peers l, ∀ m < 32 / f.width, f.isNan (A i m).body = false ∧ Made f (A i m)) →
              let lo := ((if w.md = 5 then A j k else A j' k').val f)
              let hi := ((if w.md = 5 then A j' k' else A j k).val f)
              ¬ Below hi lo ∧ (Same lo hi → isNegative hi = true → isNegative lo = true)
              ∧ (Same lo hi → isNegative hi = isNegative lo → index j k ≤ index j' k'))))
    -- sums
    ∧ (w.md = 0 → PutsVH (.vscan w) s w 2 f (fun l k r =>
        match runSum p f (((peers l).filter (· < l)).map (A · k)) with
        | none => r = writeHeld p f (A l k)
        | some y =>
          let a := fpAdd p.mode (y.val f) ((A l k).val f)
          let b := writeFp p f a.1
          r = ((writeHeld p f b.1).1, flagOr (flagOr a.2 b.2) (writeHeld p f b.1).2)))
    ∧ (w.md = 16 → PutsVH (.vscan w) s w 2 f (fun l k r =>
        r.1 = (writeHeld p f ((runSum p f (((peers l).filter (· < l)).map (A · k))).getD ⟨0, 0⟩)).1))
  )

/-- VRNG, VPACK and VUNPK. R154 to R157. -/
def Obligations.RandomWordsAndBlockImages : Prop :=
  ∀ (s : State) (w : VWord),
    PutsV (.vrng w) s w 1 (fun l r => r.tail = 0 ∧ r.data.toNat =
      rngAfter (fun i => if i = 0 then (vlane s w.a l).data.toNat else if i = 1 then (vlane s w.b l).data.toNat
        else if i = 2 then l else 0) ((body s w.c).toNat % 2 ^ 32) ((body s w.c).toNat / 2 ^ 32) 10
        (if w.md % 4 = 0 then 0 else if w.md % 4 = 1 then 1 else if w.md % 4 = 2 then 2 else 3))
    -- VPACK: where it writes, and the image of a block of each format
    ∧ (w.md < 6 → ∃ ls fl, exec (.vpack w) s = .next (landV (note s fl) w.d 1 ls fl)
      ∧ (∀ l, l ∈ ls.map Prod.fst ↔ On s w (16 * (l / 16)))
      ∧ (∀ p ∈ ls, p.2.tail = 0)
      ∧ (∀ c, On s w (16 * c) →
        let x := fun j => eltHeldAt .f32 0 (vlane s (if j < 16 then w.a else w.b) (16 * c + j % 16))
        ((∃ j < 32, Fmt.f32.isNan (x j).body = true) →
          clusterByte ls c 32 = 0xFF ∧ clusterByte ls c 33 = (if w.md < 4 then 0 else 0xFF)
          ∧ ∀ b < 32, clusterByte ls c b = 0)
        -- the Microscaling formats: the scale, and the elements
        ∧ ((∀ j < 32, Fmt.f32.isNan (x j).body = false) → w.md < 4 →
          let sc := clusterByte ls c 32
          let emax : Int := if w.md = 0 then 8 else if w.md = 1 then 15 else if w.md = 2 then 2 else 0
          sc ≤ 254 ∧ clusterByte ls c 33 = 0
          ∧ (w.md = 0 ∨ w.md = 1 → ∀ j < 32, let f := if w.md = 0 then Fmt.e4m3 else Fmt.e5m2
              clusterByte ls c j =
                (settle f (hold f (((x j).val .f32).scale (127 - (sc : Int))).exact) f s.cur.cvp.mode s.cur.cvp.sat).1)
          ∧ (w.md = 2 → ∀ j < 32, clusterByte ls c j = 0)
          ∧ (w.md = 3 → ∀ j < 32,
              (∀ n, (x j).val .f32 = .inf n → clusterByte ls c j = if n then 128 else 127)
              ∧ (Finite ((x j).val .f32) → ∃ r : Int, Rounds s.cur.cvp.mode (64 * (ratOf ((x j).val .f32) * (2 : ℚ) ^ (127 - (sc : Int)))) r
                  ∧ (clusterByte ls c j : Int) = max (-128) (min 127 r) % 256))
          ∧ (∀ j < 32, Finite ((x j).val .f32) → (sc < 254 →
              |ratOf ((x j).val .f32)| < (2 : ℚ) ^ ((sc : Int) - 127 + emax + 1)))
          ∧ (0 < sc → ∃ j < 32, Finite ((x j).val .f32) ∧ (2 : ℚ) ^ ((sc : Int) - 127 + emax) ≤ |ratOf ((x j).val .f32)|))
        -- the TX formats: the two exponents, and the elements
        ∧ ((∀ j < 32, Fmt.f32.isNan (x j).body = false) → w.md = 4 ∨ w.md = 5 →
          let v := fun j => (x j).val .f32
          let e0 := clusterByte ls c 32
          let e1 := clusterByte ls c 33
          let mmax : Nat := if w.md = 4 then 63 else 3
          let kk : Int := if w.md = 4 then 132 else 128
          let rounds := fun (q : ℚ) (e : Nat) (r : Int) => Rounds s.cur.cvp.mode (q * (2 : ℚ) ^ (kk - (e : Int))) r
          let code := fun j => if w.md = 4 then clusterByte ls c j else clusterByte ls c (j / 2) / 16 ^ (j % 2) % 16
          let sel := if w.md = 4 then 128 else 8
          let sign := fun j => if Fmt.f32.signOf (x j).body then (if w.md = 4 then 64 else 4) else 0
          e0 ≤ 254 ∧ e1 = e0 - (if w.c = 0 then (if w.md = 4 then 3 else 2) else w.c)
          ∧ (∃ amax : ℚ, (∀ j < 32, Finite (v j) → |ratOf (v j)| ≤ amax) ∧ (amax = 0 ∨ ∃ j < 32, Finite (v j) ∧ |ratOf (v j)| = amax)
              ∧ (amax = 0 → e0 = 0)
              ∧ (amax ≠ 0 → (e0 < 254 → ∃ r, rounds amax e0 r ∧ r ≤ mmax) ∧ ∀ e < e0, ∃ r, rounds amax e r ∧ mmax < r))
          ∧ (∀ j < 32, Finite (v j) → ∃ r0 r1 : Int, rounds (ratOf (v j)) e0 r0 ∧ rounds (ratOf (v j)) e1 r1
              ∧ code j = if r1.natAbs ≤ mmax then sel + sign j + r1.natAbs else sign j + min r0.natAbs mmax)
          ∧ (∀ j < 32, ∀ n, v j = .inf n → code j = sign j + mmax)))
      ∧ ((∀ c j, On s w (16 * c) → j < 32 →
            let v := (eltHeldAt .f32 0 (vlane s (if j < 16 then w.a else w.b) (16 * c + j % 16))).val .f32
            Finite v ∧ ratOf v = 0) → fl = 0))
    -- VUNPK: the decoded elements of an image with finite scales
    ∧ (w.md < 16 →
      let byte := fun l b => (vlane s w.a (16 * (l / 16) + b / 4)).data.toNat / 256 ^ (b % 4) % 256
      let j := fun l => 16 * (w.md / 8) + l % 16
      let scale := fun l => (byte l 32 : Int)
      let signed := fun x : Nat => if x < 128 then (x : ℚ) else (x : ℚ) - 256
      (w.md % 8 = 0 ∨ w.md % 8 = 1 → PutsVQuiet (.vunpk w) s w 1 .f32 (fun l r =>
        let f := if w.md % 8 = 0 then Fmt.e4m3 else Fmt.e5m2
        let v := Held.val f ⟨byte l (j l), 0⟩
        (byte l 32 = 255 ∨ (∃ b, v = .nan b) → r = .nan)
        ∧ (byte l 32 ≠ 255 → ∀ b, v = .inf b → r = .inf b)
        ∧ (byte l 32 ≠ 255 → Finite v → Exactly r (ratOf v * (2 : ℚ) ^ (scale l - 127)) (isNegative v))))
      ∧ (w.md % 8 = 3 → PutsVQuiet (.vunpk w) s w 1 .f32 (fun l r => (byte l 32 = 255 → r = .nan)
        ∧ (byte l 32 ≠ 255 → Exactly r (signed (byte l (j l)) * (2 : ℚ) ^ (scale l - 133)) false)))
      ∧ (w.md % 8 = 4 → PutsVQuiet (.vunpk w) s w 1 .f32 (fun l r =>
        let e := if byte l (j l) < 128 then byte l 32 else byte l 33
        let neg : Bool := byte l (j l) / 64 % 2 = 1
        (e = 255 → r = .nan)
        ∧ (e ≠ 255 → Exactly r ((if neg then -1 else 1) * ((byte l (j l) % 64 : Nat) : ℚ) * (2 : ℚ) ^ ((e : Int) - 132)) neg)))
      ∧ (w.md % 8 = 2 ∨ w.md % 8 = 6 → PutsVQuiet (.vunpk w) s w 1 .f32 (fun l r =>
        let code := byte l (j l / 2) / 16 ^ (j l % 2) % 16
        let v := Held.val .e2m1 ⟨code, 0⟩
        let k : Int := if w.md % 8 = 2 then scale l - 127 else 0
        (w.md % 8 = 2 → byte l 32 = 255 → r = .nan)
        ∧ (w.md % 8 = 6 ∨ byte l 32 ≠ 255 → Exactly r (ratOf v * (2 : ℚ) ^ k) (isNegative v))))
      ∧ (w.md % 8 = 5 → PutsVQuiet (.vunpk w) s w 1 .f32 (fun l r =>
        let code := byte l (j l / 2) / 16 ^ (j l % 2) % 16
        let e := if code < 8 then byte l 32 else byte l 33
        let neg : Bool := code / 4 % 2 = 1
        (e = 255 → r = .nan)
        ∧ (e ≠ 255 → Exactly r ((if neg then -1 else 1) * ((code % 4 : Nat) : ℚ) * (2 : ℚ) ^ ((e : Int) - 128)) neg))))

/-- Loads and stores of the scratchpad. R123 to R126, R201; a state block that software stores to is log 81. A thread-port access is checked at issue, finds what the port's
accesses before it leave, and performs in the fourth cycle after. -/
def Obligations.LocalAccesses : Prop :=
  (
  ∀ (s : State) (w : LWord) (i : Instr), i = .ld w ∨ i = .st w → w.sz ≤ 13 → w.ofs < 2 ^ 16 →
    let n := szBytes w.sz
    let a := ea s w.base w.ofs 16 n
    let good : Prop := 0 ≤ a ∧ a + n ≤ scratchLimit s.cur.core
    (¬ good → Traps i s 0x40)
    ∧ (good → a % n ≠ 0 → Traps i s 0x41)
    ∧ (good → a % n = 0 → (Machine.core s s.cur.core).pre = true → isSvc s.cur.core = false → 0x1C0000 < a + n → Traps i s 0x44)
    ∧ (i = .ld w → Reachable s a n n → ¬ Clean (found s) (at_ s a) n → Traps i s 0x65)
  )
  ∧ (
  ∀ (s : State) (w : LWord), w.sz ≤ 13 → w.ofs < 2 ^ 16 →
    let n := szBytes w.sz
    let a := at_ s (ea s w.base w.ofs 16 n)
    Reachable s (ea s w.base w.ofs 16 n) n n → Clean (found s) a n →
    (∃ v t, Extends w.sz n (numberAt (found s) a n) v ∧ exec (.ld w) s = .next t ∧ Issues s t ∧ SameBits s t ∧ SameBytes s t
        ∧ t.cur = s.cur ∧ (me t).lands = (me (landW s w.data 2 v)).lands)
    ∧ (fmtOf w.sz = none → ∃ t, exec (.st w) s = .next t ∧ Issues s t ∧ SameBits s t
        ∧ Stores (found s) (performed s t) a (leBytes n (body s w.data).toNat) ∧ t.cur = s.cur ∧ (me t).lands = (me s).lands)
    ∧ (∀ f, fmtOf w.sz = some f → ∃ t, exec (.st w) s = .next t ∧ Issues s t ∧ SameBits s t
        ∧ (let g := if w.md2 = 1 then Fmt.f32 else f
          let r := settle g ⟨(body s w.data).toNat % 2 ^ g.width, (sreg s w.data).tail.toNat⟩ f s.cur.cvp.mode s.cur.cvp.sat
          Stores (found s) (performed s t) a (leBytes n r.1)
          ∧ (r.2 = 0 → (me t).lands = (me s).lands)
          ∧ (r.2 ≠ 0 → t.cur.flags = flagOr s.cur.flags r.2 ∧ (me t).lands = insLanding { due := (me s).ttc + 1, issued := (me s).ttc, pos := s.cur.pos, act := .nothing, flags := r.2 } (me s).lands)))
  )
  -- what is under way performs in its cycle, and holds its bank words until that cycle is over (R124, R201)
  ∧ (
  ∀ (s : State) (c : Nat), isSvc c = false → (Machine.core s c).waits = [] → retryOf s (16 + c) = [] →
    let p := (Machine.core s c).port
    let t := stepPort s c
    ((∀ a ∈ p, s.gcyc < a.due) → t.mem = s.mem ∧ t.empty = s.empty ∧ t.poison = s.poison ∧ (Machine.core t c).port = p)
    ∧ ((∀ a ∈ p, a.due = s.gcyc) → t.mem = (settled s c).mem ∧ t.empty = (settled s c).empty ∧ t.poison = (settled s c).poison
        ∧ (Machine.core t c).port = p)
    ∧ ((∀ a ∈ p, a.due < s.gcyc) → t.mem = s.mem ∧ (Machine.core t c).port = [])
  )

/-- LDV and STV. R57, R102, R127, R128. That an access with no active lane does nothing and makes no check is the model's
reading (log 20); a state block that software stores to is log 81. -/
def Obligations.VectorLoadsAndStores : Prop :=
  (
  ∀ (s : State) (w : LWord), w.sz ≤ 10 → w.ofs < 2 ^ 16 →
    let e := ea s w.base w.ofs 16 64
    let a := at_ s e
    let size := if w.md2 = 1 then 64 else 4 * laneCount s
    ((∀ l, ¬ Active s l) → exec (.ldv w) s = .next s ∧ exec (.stv w) s = .next s)
    ∧ ((∃ l, Active s l) → Reachable s e size 64 → Clean (found s) a size →
      (∃ ls t, LaneListOf s ls (fun l x => x.tail = 0
          ∧ x.data.toNat = numberAt (found s) (if w.md2 = 1 then a + 4 * (l % 16) else a + 4 * l) 4)
        ∧ exec (.ldv w) s = .next t ∧ Issues s t ∧ SameBits s t ∧ SameBytes s t ∧ t.cur = s.cur
        ∧ (me t).lands = (me (landV s w.data 2 ls)).lands)
      ∧ (w.md2 = 0 → ∃ t, exec (.stv w) s = .next t ∧ Issues s t ∧ SameBits s t
        ∧ (∀ l, Active s l → NoBlock (a + 4 * l) 4 →
            numberAt (performed s t) (a + 4 * l) 4 = (storeLane s.cur.cvp w.sz (vlane s w.data l)).1 % 2 ^ 32)
        ∧ (w.sz ≤ 5 → ∀ l, Active s l → NoBlock (a + 4 * l) 4 → numberAt (performed s t) (a + 4 * l) 4 = (vlane s w.data l).data.toNat)
        ∧ (∀ x, (∀ l, Active s l → ¬ (a + 4 * l ≤ x ∧ x < a + 4 * l + 4)) → getByte (performed s t) x = getByte (found s) x)))
  )
  ∧ (
  ∀ (s : State) (w : LWord) (f : Fmt), fmtOf w.sz = some f → w.sz ≠ 13 → w.ofs < 2 ^ 16 → w.md2 = 1 →
    -- a lane of held FP32, settled once into the memory type
    let v := fun l => (settle .f32 (eltHeldAt .f32 0 (vlane s w.data l)) f s.cur.cvp.mode s.cur.cvp.sat).1
    (∃ l, Active s l) →
    (w.sz ≠ 14 →
      let n := szBytes w.sz
      let e := ea s w.base w.ofs 16 (16 * n)
      let a := at_ s e
      Reachable s e (n * laneCount s) (16 * n) → Clean (found s) a (n * laneCount s) →
      ∃ t, exec (.stv w) s = .next t ∧ Issues s t ∧ SameBits s t
        ∧ (∀ l, Active s l → NoBlock (a + n * l) n → numberAt (performed s t) (a + n * l) n = v l)
        ∧ (∀ x, (∀ l, Active s l → ¬ (a + n * l ≤ x ∧ x < a + n * l + n)) → getByte (performed s t) x = getByte (found s) x))
    ∧ (w.sz = 14 →
      let e := ea s w.base w.ofs 16 8
      let a := at_ s e
      Reachable s e (laneCount s / 2) 8 → Clean (found s) a (laneCount s / 2) →
      ∃ t, exec (.stv w) s = .next t ∧ Issues s t ∧ SameBits s t
        ∧ (∀ l < laneCount s, NoBlock (a + l / 2) 1 → (getByte (performed s t) (a + l / 2)).toNat / 16 ^ (l % 2) % 16 =
            if (guardPred (me s) s.cur.g).getLsbD l then v l else (getByte (found s) (a + l / 2)).toNat / 16 ^ (l % 2) % 16)
        ∧ (∀ x, ¬ (a ≤ x ∧ x < a + laneCount s / 2) → getByte (performed s t) x = getByte (found s) x))
  )

/-- LDX and STX. R129. Lanes that overlap are taken in the model's order (log 21), which no clause names. That an access with no
active lane makes no check is log 20; a state block that software stores to is log 81. -/
def Obligations.IndexedLoadsAndStores : Prop :=
  ∀ (s : State) (w : LWord), w.sz ≤ 10 →
    let n := szBytes w.sz
    let cl := w.ofs / 128 % 8
    let place := fun l => (body s w.base).toNat + (vlane s (w.ofs / 1024 % 64) l).data.toNat
    let on := fun l => 16 * cl ≤ l ∧ l < 16 * cl + 16 ∧ (guardPred (me s) s.cur.g).getLsbD l = true
    ((∀ l, ¬ on l) → exec (.ldx w) s = .next s ∧ exec (.stx w) s = .next s)
    ∧ ((∃ l, on l) → (∀ l, on l → Reachable s (place l) n n ∧ Clean (found s) (at_ s (place l)) n) →
      (∃ ls t, (ls.map Prod.fst).Pairwise (· < ·) ∧ (∀ l, l ∈ ls.map Prod.fst ↔ on l)
        ∧ (∀ p ∈ ls, p.2.tail = 0 ∧ ∃ v, Extends w.sz n (numberAt (found s) (at_ s (place p.1)) n) v ∧ p.2.data = v.truncate 32)
        ∧ exec (.ldx w) s = .next t ∧ Issues s t ∧ SameBits s t ∧ SameBytes s t ∧ t.cur = s.cur
        ∧ (me t).lands = (me (landV s w.data 2 ls)).lands)
      ∧ (∃ t, exec (.stx w) s = .next t ∧ Issues s t ∧ SameBits s t
        ∧ (∀ l, on l → NoBlock (at_ s (place l)) n → (∀ k, on k → l < k → place k + n ≤ place l ∨ place l + n ≤ place k) →
            (fmtOf w.sz = none → numberAt (performed s t) (at_ s (place l)) n = (vlane s w.data l).data.toNat % 256 ^ n)
            ∧ ∀ f, fmtOf w.sz = some f → numberAt (performed s t) (at_ s (place l)) n =
                (if w.md2 = 1 then settle .f32 (eltHeldAt .f32 0 (vlane s w.data l)) f s.cur.cvp.mode s.cur.cvp.sat
                  else settle f (eltHeldAt f 0 (vlane s w.data l)) f s.cur.cvp.mode s.cur.cvp.sat).1)
        ∧ (∀ x, (∀ l, on l → ¬ (at_ s (place l) ≤ x ∧ x < at_ s (place l) + n)) →
            getByte (performed s t) x = getByte (found s) x)))

/-- SPILL and FILL keep bodies, data and tails. R17, R130; a state block that software stores to is log 81. -/
def Obligations.SpillsAndFills : Prop :=
  ∀ (s : State) (w : LWord), w.ofs < 2 ^ 16 →
    let e := ea s w.base w.ofs 16 16
    let a := at_ s e
    let size := if w.md2 = 1 then 16 else 5 * laneCount s
    Reachable s e size 16 → Clean (found s) a size →
    (∃ t, exec (.spill w) s = .next t ∧ Issues s t ∧ SameBits s t ∧ (me t).lands = (me s).lands ∧ t.cur = s.cur
        ∧ (w.md2 = 1 → Stores (found s) (performed s t) a
            (leBytes 8 (body s w.data).toNat ++ [(sreg s w.data).tail.toNat] ++ List.replicate 7 0))
        ∧ (w.md2 = 0 → (∀ l < laneCount s, NoBlock a size →
              numberAt (performed s t) (a + 80 * (l / 16) + 4 * (l % 16)) 4 = (vlane s w.data l).data.toNat
              ∧ getByte (performed s t) (a + 80 * (l / 16) + 64 + l % 16) = (vlane s w.data l).tail)
            ∧ ∀ x, ¬ (a ≤ x ∧ x < a + size) → getByte (performed s t) x = getByte (found s) x))
    ∧ (∃ t, exec (.fill w) s = .next t ∧ Issues s t ∧ SameBits s t ∧ SameBytes s t ∧ t.cur = s.cur
        ∧ (w.md2 = 1 → (me t).lands = (me (landS s w.data 2
          { body := BitVec.ofNat 64 (numberAt (found s) a 8), tail := BitVec.ofNat 2 (getByte (found s) (a + 8)).toNat })).lands)
        ∧ (w.md2 = 0 → ∃ ls, (me t).lands = (me (landV s w.data 2 ls)).lands
          ∧ (∀ l, l ∈ ls.map Prod.fst ↔ l < laneCount s)
          ∧ ∀ p ∈ ls, p.2.data.toNat = numberAt (found s) (a + 80 * (p.1 / 16) + 4 * (p.1 % 16)) 4
            ∧ p.2.tail = getByte (found s) (a + 80 * (p.1 / 16) + 64 + p.1 % 16)))

/-- ATOM on the scratchpad. R131. -/
def Obligations.LocalAtomics : Prop :=
  ∀ (s : State) (w : LWord), w.sz = 4 ∨ w.sz = 5 ∨ w.sz = 6 ∨ w.sz = 11 ∨ w.sz = 12 ∨ w.sz = 13 → w.ofs < 2 ^ 16 →
    let n := szBytes w.sz
    let e := ea s w.base (w.ofs % 4096) 12 n
    let a := at_ s e
    let op := w.ofs / 4096
    let old := numberAt (found s) a n
    let x := (body s w.data).toNat % 256 ^ n
    let sg := fun y : Nat => if 2 * y < 256 ^ n then (y : Int) else (y : Int) - 256 ^ n
    Reachable s e n n → Clean (found s) a n →
    ∃ t v new fl, Extends w.sz n old v ∧ exec (.atom w) s = .next t ∧ Issues s t ∧ SameBits s t
      ∧ Stores (found s) (performed s t) a (leBytes n new)
      ∧ (me t).lands = (me (landW s w.data 2 v fl)).lands
      ∧ (fmtOf w.sz = none → fl = 0
          ∧ (op = 0 → new = (old + x) % 256 ^ n) ∧ (op = 1 → new = old &&& x) ∧ (op = 2 → new = old ||| x)
          ∧ (op = 3 → new = old ^^^ x) ∧ (op = 4 → sg new = min (sg old) (sg x)) ∧ (op = 5 → sg new = max (sg old) (sg x))
          ∧ (op = 6 → new = min old x) ∧ (op = 7 → new = max old x) ∧ (op = 8 → new = x))
      ∧ (∀ f, fmtOf w.sz = some f → ∃ r, IsSum (s.cur.cvp.mode = .rdn) (Held.val f ⟨old, 0⟩) ((heldS s f w.data).val f) r
          ∧ new = (settle f (hold f r.1) f s.cur.cvp.mode s.cur.cvp.sat).1
          ∧ fl = flagOr r.2 (settle f (hold f r.1) f s.cur.cvp.mode s.cur.cvp.sat).2)

/-- LDF, LDF.take, STE and STE.fill. R200, R246, R247; logs 20 and 81 as for the plain accesses. -/
def Obligations.SynchronisingAccesses : Prop :=
  (
  ∀ (s : State) (w : LWord), w.sz ≤ 13 → w.ofs < 2 ^ 16 → w.md1 = 0 →
    (∀ m, (Machine.core s s.cur.core).gang = some m → (gang s m).raceMode = 0) →
    let n := szBytes w.sz
    let a := at_ s (ea s w.base w.ofs 16 n)
    -- every 32-bit word that the access touches
    let all := fun (b : Bool) => ∀ x, a ≤ x → x < a + n → isFull (found s) x = b
    let sets := fun (t : State) (b : Bool) => ∀ x, isFull (performed s t) x =
      if a / 4 ≤ x / 4 ∧ x / 4 ≤ (a + n - 1) / 4 then b else isFull (found s) x
    Reachable s (ea s w.base w.ofs 16 n) n n → Clean (found s) a n →
    (∀ v, Extends w.sz n (numberAt (found s) a n) v →
      (all true →
        (∃ t, exec (.ldf w) s = .next t ∧ Issues s t ∧ SameBits s t ∧ SameBytes s t ∧ t.cur = s.cur
          ∧ (me t).lands = (me (landW s w.data 2 v)).lands)
        ∧ ∃ t, exec (.ldfTake w) s = .next t ∧ Issues s t ∧ sets t false ∧ SameBytes s t ∧ t.cur = s.cur
          ∧ (me t).lands = (me (landW s w.data 2 v)).lands)
      ∧ (¬ all true → ∀ i ∈ [Instr.ldf w, .ldfTake w], ∃ t, exec i s = .next t ∧ t.cur.block = true ∧ t.mem = s.mem
          ∧ t.empty = s.empty ∧ (me t).lands = (me s).lands))
    ∧ (fmtOf w.sz = none →
      (∀ i ∈ [Instr.ste w, .steFill w], all false ∨ i = .steFill w → ∃ t, exec i s = .next t ∧ Issues s t ∧ sets t true
          ∧ (performed s t).poison = (found s).poison ∧ t.cur = s.cur
          ∧ Stores (found s) (performed s t) a (leBytes n (body s w.data).toNat) ∧ (me t).lands = (me s).lands)
      ∧ (¬ all false → ∃ t, exec (.ste w) s = .next t ∧ t.cur.block = true ∧ t.mem = s.mem ∧ t.empty = s.empty
          ∧ (me t).lands = (me s).lands))
    -- a floating store settles first; the flags of its settle stand although it waits (R325)
    ∧ (∀ f, fmtOf w.sz = some f →
      let r := settle f (heldS s f w.data) f s.cur.cvp.mode s.cur.cvp.sat
      (∀ i ∈ [Instr.ste w, .steFill w], all false ∨ i = .steFill w → ∃ t, exec i s = .next t ∧ Issues s t ∧ sets t true
          ∧ (performed s t).poison = (found s).poison ∧ t.cur.flags = flagOr s.cur.flags r.2
          ∧ Stores (found s) (performed s t) a (leBytes n r.1))
      ∧ (¬ all false → ∃ t, exec (.ste w) s = .next t ∧ t.cur.block = true ∧ t.cur.flags = flagOr s.cur.flags r.2
          ∧ t.mem = s.mem ∧ t.empty = s.empty ∧ (me t).lands = (me s).lands))
  )
  ∧ (
  ∀ (s : State) (w : LWord), w.sz ≤ 10 → w.ofs < 2 ^ 16 → w.md1 = 1 →
    (∀ m, (Machine.core s s.cur.core).gang = some m → (gang s m).raceMode = 0) →
    let e := ea s w.base w.ofs 16 64
    let a := at_ s e
    let all := fun (b : Bool) => ∀ l, Active s l → isFull (found s) (a + 4 * l) = b
    let sets := fun (t : State) (b : Bool) => ∀ x, ((∃ l, Active s l ∧ x / 4 = a / 4 + l) → isFull (performed s t) x = b)
      ∧ ((¬ ∃ l, Active s l ∧ x / 4 = a / 4 + l) → isFull (performed s t) x = isFull (found s) x)
    ((∀ l, ¬ Active s l) → ∀ i ∈ [Instr.ldf w, .ldfTake w, .ste w, .steFill w], exec i s = .next s)
    ∧ ((∃ l, Active s l) → Reachable s e (4 * laneCount s) 64 → Clean (found s) a (4 * laneCount s) →
      (all true → ∃ ls, LaneListOf s ls (fun l x => x.tail = 0 ∧ x.data.toNat = numberAt (found s) (a + 4 * l) 4)
        ∧ (∃ t, exec (.ldf w) s = .next t ∧ Issues s t ∧ SameBits s t ∧ SameBytes s t ∧ t.cur = s.cur
          ∧ (me t).lands = (me (landV s w.data 2 ls)).lands)
        ∧ ∃ t, exec (.ldfTake w) s = .next t ∧ Issues s t ∧ sets t false ∧ SameBytes s t ∧ t.cur = s.cur
          ∧ (me t).lands = (me (landV s w.data 2 ls)).lands)
      ∧ (∀ i ∈ [Instr.ste w, .steFill w], all false ∨ i = .steFill w → ∃ t, exec i s = .next t ∧ Issues s t ∧ sets t true
        ∧ (∀ l, Active s l → NoBlock (a + 4 * l) 4 → numberAt (performed s t) (a + 4 * l) 4 = (storeLane s.cur.cvp w.sz (vlane s w.data l)).1 % 2 ^ 32)
        ∧ (∀ x, (∀ l, Active s l → ¬ (a + 4 * l ≤ x ∧ x < a + 4 * l + 4)) → getByte (performed s t) x = getByte (found s) x))
      ∧ (∀ i, (i = .ldf w ∨ i = .ldfTake w) ∧ ¬ all true ∨ i = .ste w ∧ ¬ all false → ∃ t, exec i s = .next t ∧ t.cur.block = true
        ∧ t.mem = s.mem ∧ t.empty = s.empty ∧ (me t).lands = (me s).lands))
  )

/-- CLRF and the tag table. R203, R204, R248, R249. The order of CLRF's checks is the model's reading (log 20). -/
def Obligations.ClearingFullBitsAndTags : Prop :=
  ∀ (s : State) (w : LWord), w.ofs < 2 ^ 16 →
    let n := (body s w.data).toNat
    let e := ea s w.base w.ofs 16 4
    let a := at_ s e
    (n % 4 ≠ 0 → Traps (.clrf w) s 0x41 ∧ Traps (.clrfSet w) s 0x41)
    ∧ (n % 4 = 0 → n = 0 ∨ 512 < n → Traps (.clrf w) s 0x40 ∧ Traps (.clrfSet w) s 0x40)
    ∧ (n % 4 = 0 → 0 < n → n ≤ 512 → Reachable s e n 4 → ∀ i b, (i = .clrf w ∧ b = false) ∨ (i = .clrfSet w ∧ b = true) →
        ∃ t, exec i s = .next t ∧ Issues s t ∧ SameBytes s t ∧ t.cur = s.cur ∧ (me t).lands = (me s).lands
          ∧ ∀ x, isFull (performed s t) x = if a ≤ x ∧ x < a + n then b else isFull (found s) x)
    -- the tag table: an entry written at an index, read back, and a live one looked up
    ∧ (1023 < (body s w.base).toNat → Traps (.tagw w) s 0x43 ∧ Traps (.tagx w) s 0x43 ∧ Traps (.tagxRd w) s 0x43)
    ∧ ((body s w.base).toNat ≤ 1023 → w.ofs < 4 →
        let new : TagEntry := { v := w.ofs / 2 = 1, f := w.ofs % 2 = 1, key := body s w.data }
        let key := (tagAt s (body s w.base).toNat).key
        (∃ t, exec (.tagw w) s = .next t ∧ (∀ n, tagAt t n = if n = (body s w.base).toNat then new else tagAt s n)
          ∧ t.mem = s.mem ∧ me t = me s)
        ∧ (∃ t, exec (.tagx w) s = .next t ∧ (∀ n, tagAt t n = if n = (body s w.base).toNat then new else tagAt s n)
          ∧ (me t).lands = (me (landW s w.data 2 key)).lands)
        ∧ PutsS (.tagxRd w) s w.data 2 (fun v => v = key))
    ∧ (∀ n, tagFind s (body s w.base) = some n → ∀ i ∈ [Instr.tagq w, .tagqClaim w],
        PutsS i s w.data 2 (fun v => v.toNat = (if (tagAt s n).f then 2 ^ 62 else 0) + n)
        ∧ (tagAt s n).v = true ∧ (tagAt s n).key = body s w.base)
    ∧ (tagFind s (body s w.base) = none →
        let set := tagSet (body s w.base).toNat
        let p := tget 0 (myCore s).tagPtr set
        let n := set * 8 + p
        ∀ i ∈ [Instr.tagq w, .tagqClaim w], p < 8 → ∃ t, exec i s = .next t
          ∧ tget 0 (myCore t).tagPtr set = (p + 1) % 8
          ∧ (∀ m, tagAt t m = if m = n ∧ i = .tagqClaim w then { v := true, f := true, key := body s w.base } else tagAt s m)
          ∧ (me t).lands = (me (landW s w.data 2 (BitVec.ofNat 64 ((if (tagAt s n).v then 3 else 2) * 2 ^ 62 + n)))).lands)

/-- The checks of a far access. R161, R221, R224: the settle of a store first notes its flags, then steps 1 to 4 follow. -/
def Obligations.FarAccessesAreChecked : Prop :=
  ∀ (s : State) (w : XWord) (i : Instr) (a : Addr) (n : Nat) (need : Need),
    let z := w.ci % 16
    let v := storeVal s.cur.cvp z false (sreg s w.da)
    -- the state after the settle of a store
    let s1 := if i = .fst w ∨ i = .fstp w then note s v.2 else s
    (a = getA (me s) (w.b % 16) ∧ (me s).packet = none ∧
      (i = .fld w ∧ n = szBytes z ∧ need = .read ∨ i = .fst w ∧ n = szBytes z ∧ need = .write
      ∨ i = .fstp w ∧ n = szBytes z ∧ need = .write
      ∨ i = .fatom w ∧ n = (if w.ci % 2 = 0 then 4 else 8) ∧ need = .atomic ∨ i = .fvatom w ∧ n = 128 ∧ need = .atomic)) →
    let t := translate s s.cur.core a need
    let c0 : Prop := isMesh a = true ∧ meshRsvd a ≠ 0
    let c1 : Prop := isMesh a = true ∧ 0x200000 < meshOfs a + n
    (c0 → exec i s = .next (trapNow s1 0x42)) ∧ (¬ c0 → c1 → exec i s = .next (trapNow s1 0x40))
    ∧ (¬ c0 → ¬ c1 → a.toNat % n ≠ 0 → exec i s = .next (trapNow s1 0x41))
    ∧ (¬ c0 → ¬ c1 → a.toNat % n = 0 → (∃ p ∈ flightsOf s s.cur.core s.cur.slot, p.2.replied = false ∧ p.2.rx = false) →
        exec i s = .next (blockNow s1))
    ∧ (¬ c0 → ¬ c1 → a.toNat % n = 0 → flightsOf s s.cur.core s.cur.slot = [] → t.cause ≠ 0 →
        ∃ u, exec i s = .next u ∧ (∃ x, u.cur.miss = some (t.cause, a, x, t.entry)) ∧ u.cur.flags = s1.cur.flags
          ∧ { u with cur := s.cur } = s)

/-- Translation by windows. R210 to R212. -/
def Obligations.WindowsTranslateFarAddresses : Prop :=
  ∀ (s : State) (c : Nat) (a : Addr) (need : Need),
    let k := fun (n : Nat) => [12, 16, 21, 24, 27, 30, 33, 36].getD n 36
    let slot := fun (n : Nat) => tget 0 (Machine.core s c).windows (512 * n + vpnHash (a.toNat / 2 ^ k n))
    let hits := fun (n : Nat) => slot n / 2 ^ 127 % 2 = 1 ∧ slot n / 2 ^ 64 % 2 ^ 60 * 2 ^ 12 / 2 ^ k n = a.toNat / 2 ^ k n
    isMesh a = false →
    ((∀ n < 8, ¬ hits n) → (translate s c a need).cause = 0x60)
    ∧ (∀ n < 8, hits n → (∀ m < n, ¬ hits m) →
        let e := slot n
        let t := translate s c a need
        t.entry = e
        ∧ (e / 2 ^ 58 % 4 = 1 → t.cause = 0x60)
        ∧ (e / 2 ^ 58 % 4 ≠ 1 → e / 2 ^ (match need with | .read => 60 | .write => 61 | .atomic => 62) % 2 = 0 → t.cause = 0x61)
        ∧ t.key = keyOf s (e % 2 ^ 48 * 2 ^ 12 + a.toNat % 2 ^ k n)
        ∧ (e / 2 ^ 58 % 4 ≠ 1 → e / 2 ^ (match need with | .read => 60 | .write => 61 | .atomic => 62) % 2 = 1 →
            t.key < 2 ^ 48 → t.cause = 0))

/-- Far accesses leave their thread. R223, R229 to R231, R235, R236. -/
def Obligations.FarAccessesLeaveTheirThread : Prop :=
  ∀ (s : State) (w : XWord), tfind s.flights s.nextId = none → (me s).packet = none →
    let a := getA (me s) (w.b % 16)
    let n := szBytes (w.ci % 16)
    let rx : Bool := w.ci / 32 % 2 = 1
    let ord : Bool := w.ci / 16 % 2 = 1
    let rxb : Bool := w.b / 32 % 2 = 1
    let ordb : Bool := w.b / 16 % 2 = 1
    (w.ci % 16 ≤ 13 → FarGood s a n .read → ∃ t, exec (.fld w) s = .next t ∧ (me t).lands = (me s).lands
      ∧ Leaves s t (fun f => Mine s .ld a n (w.b / 16) .read rx ord f ∧ f.code = w.ci % 16
          ∧ f.dest = some (physS (me s) w.da)))
    ∧ (w.ci % 16 ≤ 13 → FarGood s a n .write → ∃ t, exec (.fst w) s = .next t
      ∧ Leaves s t (fun f => Mine s .st a n (w.b / 16) .write rx ord f
          ∧ f.data = leBytes n (storeVal s.cur.cvp (w.ci % 16) false (sreg s w.da)).1))
    ∧ (FarGood s a (if w.ci % 2 = 0 then 4 else 8) .atomic → w.ci % 4 ≤ 1 → ∃ t, exec (.fatom w) s = .next t
      ∧ (me t).lands = (me s).lands
      ∧ Leaves s t (fun f => Mine s .atom a (if w.ci % 2 = 0 then 4 else 8) 0 .atomic rxb ordb f ∧ f.aop = w.ci / 4
          ∧ f.operand = ⟨(body s w.da).toNat, 0⟩ ∧ f.dest = some (physS (me s) w.da)))
    ∧ (FarGood s a (if w.ci % 2 = 0 then 4 else 8) .atomic → 2 ≤ w.ci % 4 → ∃ t, exec (.fatom w) s = .next t
      ∧ Leaves s t (fun f => Mine s .atom a (if w.ci % 2 = 0 then 4 else 8) 0 .atomic rxb ordb f ∧ f.aop = w.ci / 4
          ∧ f.operand = heldS s (if w.ci % 4 = 2 then .f32 else .f64) w.da ∧ f.dest = some (physS (me s) w.da)))
    ∧ (FarGood s a 128 .atomic → ∃ t, exec (.fvatom w) s = .next t
      ∧ Leaves s t (fun f => Mine s .vat a 128 0 .atomic rxb ordb f
          ∧ ∀ e, e ∈ f.elems ↔ ∃ x < 32, (guardPred (me s) s.cur.g).getLsbD (32 * (w.ci / 4 % 4) + x) = true ∧
              let lane := vlane s w.da (32 * (w.ci / 4 % 4) + x)
              if w.ci / 2 % 2 = 0 then e = (4 * x, eltHeldAt .f32 0 lane)
              else e = (4 * x, eltHeldAt .bf16 0 lane) ∨ e = (4 * x + 2, eltHeldAt .bf16 1 lane)))

/-- FSTP, FENCE and MBOX. R221, R232, R234, R243, R245. That an element that does not continue the packet traps with 0x0C
is the model's reading (log 22). -/
def Obligations.PacketsFencesAndMailboxes : Prop :=
  (
  ∀ (s : State) (w : XWord), tfind s.flights s.nextId = none → w.ci % 16 ≤ 13 →
    let z := w.ci % 16
    let a := getA (me s) (w.b % 16)
    let n := szBytes z
    let v := storeVal s.cur.cvp z false (sreg s w.da)
    let bytes := leBytes n v.1
    -- the settle notes its flags first; an integer is stored as it is
    let s1 := note s v.2
    (fmtOf z = none → bytes = leBytes n (body s w.da).toNat ∧ v.2 = 0)
    -- FSTP opens a packet
    ∧ ((me s).packet = none → FarGood s a n .write → w.e = 0 → ∃ t p, exec (.fstp w) s = .next t ∧ (me t).packet = some p
        ∧ p.addr = a ∧ p.data = bytes ∧ p.bundles = 1 ∧ t.flights = s.flights ∧ t.mem = s.mem)
    -- an element and its end in one bundle leave at once
    ∧ ((me s).packet = none → FarGood s a n .write → w.e = 1 → ∃ t, exec (.fstp w) s = .next t ∧ (me t).packet = none
        ∧ Leaves s t (fun f => f.op = .pk ∧ f.addr = a ∧ f.data = bytes ∧ f.core = s.cur.core ∧ f.who = s.cur.slot))
    -- FSTP goes on with the open packet
    ∧ (∀ p, (me s).packet = some p → w.b = 0 → w.ci / 16 % 2 = 0 → p.addr.toNat % n = 0 → p.data.length % n = 0 →
        p.addr.toNat % 128 + p.data.length + n ≤ 128 →
        (w.e = 0 → ∃ t, exec (.fstp w) s = .next t ∧ (me t).packet = some { p with data := p.data ++ bytes }
          ∧ t.flights = s.flights ∧ t.mem = s.mem)
        ∧ (w.e = 1 → ∃ t, exec (.fstp w) s = .next t ∧ (me t).packet = none
          ∧ Leaves s t (fun f => f.op = .pk ∧ f.addr = p.addr ∧ f.data = p.data ++ bytes)))
    ∧ (∀ p, (me s).packet = some p →
        (w.b ≠ 0 ∨ w.ci / 16 % 2 = 1 → exec (.fstp w) s = .next (trapNow s1 0x02))
        ∧ (w.b = 0 → w.ci / 16 % 2 = 0 → p.addr.toNat % n ≠ 0 → exec (.fstp w) s = .next (trapNow s1 0x41))
        ∧ (w.b = 0 → w.ci / 16 % 2 = 0 → p.addr.toNat % n = 0 →
            p.data.length % n ≠ 0 ∨ 128 < p.addr.toNat % 128 + p.data.length + n → exec (.fstp w) s = .next (trapNow s1 0x0C)))
  )
  ∧ (
  ∀ (s : State) (w : XWord), (∀ m, (Machine.core s s.cur.core).gang = some m → (gang s m).raceMode = 0) →
    let l := flightsOf s s.cur.core s.cur.slot
    -- the flags of an FVATOM that its link answered before it performed come with its acknowledgement (R405)
    let late := fun f : Flight => f.op = .vat ∧ f.early = true ∧ f.acked = false
    (w.ci ≠ 4 → (∀ p ∈ l, p.2.replied = true ∧ ¬ late p.2) → (me s).faults = [] → exec (.fence w) s = .next s)
    ∧ (w.ci = 4 → l = [] → (me s).faults = [] → exec (.fence w) s = .next s)
    ∧ ((∃ p ∈ l, p.2.replied = false ∨ late p.2) ∨ (me s).faults ≠ [] → exec (.fence w) s = .next (blockNow s))
    ∧ (w.ci = 4 → (∃ p ∈ l, 2 ^ 60 ≤ p.2.key ∧ p.2.key < 2 ^ 62 ∧ p.2.op = .st ∧ p.2.acked = false ∧ p.2.cancelled = false) →
        exec (.fence w) s = .next (blockNow s))
    ∧ (isSvc s.cur.core = true → Traps (.mbox w) s 0xA3)
    ∧ (isSvc s.cur.core = false → (me s).mboxReply = none → exec (.mbox w) s = .next (blockNow s))
    ∧ (isSvc s.cur.core = false → ∀ q r, (me s).mboxReq = some q → (me s).mboxReply = some r →
        (r.kind = 5 → Traps (.mbox w) s 0xA3)
        ∧ (r.kind ≠ 5 → ∃ t, exec (.mbox w) s = .next t ∧ (me t).mboxReq = none ∧ (me t).mboxReply = none
            ∧ (me t).lands = (me (landW s w.da 1 r.value)).lands ∧ t.mem = s.mem))
    -- the request leaves once, with the two operands and the address of the bundle
    ∧ (isSvc s.cur.core = false → (me s).mboxReq = none → s.cur.core < 512 → s.cur.slot < 8 → s.node < 1024 →
        let t := preMbox w s
        (me t).mboxReq = some (body s w.b, body s w.ci)
        ∧ ∃ e ∈ t.agenda, e.instr = .inboundMessageWrite ∧ e.args.getD 0 0 = svcFor s.cur.core
          ∧ bitsAt (e.args.getD 1 0) 52 4 = 3 ∧ e.args.getD 2 0 = s.cur.addr
          ∧ e.args.getD 5 0 = (body s w.b).toNat ∧ e.args.getD 6 0 = (body s w.ci).toNat)
  )

/-- CHSEND, CHRECV and CHPEEK. R170, R171, R180 to R183. -/
def Obligations.ChannelsCarryWords : Prop :=
  ∀ (s : State) (w : XWord), s.cur.core < 512 → s.cur.slot < 8 →
    let t := s.cur.slot
    -- a channel that leads to no thread of the gang
    (w.da < 4 → (¬ ∃ n, Leads s w.da n) → Traps (.chsend w) s 0xA1)
    ∧ (w.b < 4 → (¬ ∃ n, Leads s w.b n) → Traps (.chrecv w) s 0xA1 ∧ Traps (.chpeek w) s 0xA1)
    -- CHSEND
    ∧ (∀ n, w.da < 4 → Leads s w.da n →
        let q := recvQ (thread s n t) ((w.da + 2) % 4)
        let room := q.words.length + q.coming + (if q.taken = some s.gcyc then 1 else 0) < 4
        (¬ room → exec (.chsend w) s = .next (blockNow s))
        ∧ (room → ∃ u, exec (.chsend w) s = .next u ∧ u.mem = s.mem
            ∧ recvQ (thread u n t) ((w.da + 2) % 4) = { q with coming := q.coming + 1 }
            ∧ ∃ e ∈ u.agenda, e.instr = .channelWordArrival ∧ e.due = s.gcyc + 8 ∧ e.args.take 3 = [n, t, (w.da + 2) % 4]
              ∧ (w.ci / 8 % 2 = 1 → (e.args.drop 3).map argLane = (List.range 16).map (fun i => vlane s w.b (16 * (w.ci % 8) + i)))
              ∧ (w.ci / 8 % 2 = 0 → wordScalar ((e.args.drop 3).map argLane) = sreg s w.b)))
    -- the word comes
    ∧ (∀ (x : State) (c k ch : Nat) (ls : List Nat), x.cur.args = [c, k, ch] ++ ls → 0 < (recvQ (thread x c k) ch).coming →
        ∃ u, exec .channelWordArrival x = .next u ∧ (recvQ (thread u c k) ch).coming + 1 = (recvQ (thread x c k) ch).coming
          ∧ (recvQ (thread u c k) ch).words = (recvQ (thread x c k) ch).words ++ [{ lanes := ls.map argLane }])
    -- CHRECV and CHPEEK
    ∧ (∀ n, w.b < 4 → Leads s w.b n →
        let q := recvQ (me s) w.b
        (q.words = [] → exec (.chrecv w) s = .next (blockNow s))
        ∧ (∀ x r, q.words = x :: r → ∃ u, exec (.chrecv w) s = .next u ∧ recvQ (me u) w.b = { q with words := r, taken := some s.gcyc }
            ∧ (w.ci / 8 % 2 = 0 → (me u).lands = (me (landS s w.da 1 (wordScalar x.lanes))).lands)
            ∧ (w.ci / 8 % 2 = 1 → (me u).lands =
                (me (landV s w.da 1 ((List.range 16).map (fun i => (16 * (w.ci % 8) + i, x.lanes.getD i laneZero))))).lands))
        ∧ PutsS (.chpeek w) s w.da 1 (fun v => v.toNat = q.words.length % 2 ^ 64))

/-- BAR and BARA. R173, R174, R185. -/
def Obligations.BarriersReleaseWhenAllHaveArrived : Prop :=
  ∀ (s : State) (w : XWord) (n : Nat) (g : Gang), (Machine.core s s.cur.core).gang = some n → tfind s.gangs n = some g → g.raceMode = 0 →
    let b := w.ci
    let member : Prop := b < g.nbar ∧ g.bslots.getD b 0 / 2 ^ s.cur.slot % 2 = 1
    let gen := tget 0 g.gens b
    let mine := tget 0 (me s).arrivals b
    let members := (slotsOf (g.bslots.getD b 0)).length * (g.cols * g.rows * g.dies.length)
    (¬ member → Traps (.bar w) s 0xA0 ∧ Traps (.bara w) s 0xA0)
    -- BARA arrives and names the generation
    ∧ (member → mine ≠ gen + 1 → ∃ t, exec (.bara w) s = .next t
        ∧ (me t).lands = (me (landW s w.da 1 (BitVec.ofNat 64 gen))).lands ∧ tget 0 (me t).arrivals b = gen + 1
        ∧ (∃ h, tfind t.gangs n = some h ∧ tget 0 h.arrived b = tget 0 g.arrived b + 1)
        ∧ (tget 0 g.arrived b + 1 = members → s.links.failed = [] →
            ∃ e ∈ t.agenda, e.instr = .barrierRelease ∧ e.args = [n, b] ∧ e.due = s.gcyc + (if g.dies.length = 1 then 16 else 64)))
    ∧ (member → mine = gen + 1 → Traps (.bara w) s 0xA0)
    -- BAR waits for the generation of its arrival, and then forgets it
    ∧ (member → mine = 0 ∨ mine = gen + 1 → exec (.bar w) s = .next (blockNow s))
    ∧ (member → mine ≠ 0 → mine ≠ gen + 1 → ∃ t, exec (.bar w) s = .next t ∧ OnlyMe s t (fun th => { th with arrivals := tdel th.arrivals b }))
    ∧ (member → mine = 0 → tget 0 (me (preBar w s)).arrivals b = gen + 1)
    -- the release begins the next generation
    ∧ (∀ x : State, x.gangs = s.gangs → x.cur.args = [n, b] → tget 0 g.arrived b ≠ 0 → ∃ t h, exec .barrierRelease x = .next t
        ∧ tfind t.gangs n = some h ∧ tget 0 h.gens b = (gen + 1) % 2 ^ 32 ∧ tget 0 h.arrived b = 0
        ∧ (∀ m, m ≠ b → tget 0 h.gens m = tget 0 g.gens m))

/-- NXT and the semaphores. R165, R168, R188 to R191. -/
def Obligations.WorkItemsAndSemaphores : Prop :=
  (
  ∀ (s : State) (w : XWord),
    ((Machine.core s s.cur.core).gang = none → PutsS (.nxt w) s w.da 6 (fun v => v = noItem))
    ∧ (∀ n g, (Machine.core s s.cur.core).gang = some n → tfind s.gangs n = some g → isSvc s.cur.core = false →
        let j := dieIndex g (dieOf s.cur.core)
        let items := g.counts.foldl (· * ·) 1
        (g.dist = false → PutsS (.nxt w) s w.da 6 (fun v => v = noItem))
        -- a single die deals items in ascending order
        ∧ (g.dist = true → g.dies.length = 1 → j = 0 → tget 0 g.counters 0 < items → ∃ t v, exec (.nxt w) s = .next t
            ∧ (me t).lands = (me (landW s w.da 6 (BitVec.ofNat 64 v))).lands ∧ v = widOf g (tget 0 g.counters 0)
            ∧ ∃ h, tfind t.gangs n = some h ∧ tget 0 h.counters 0 = tget 0 g.counters 0 + 1)
        ∧ (g.dist = true → g.dies.length = 1 → j = 0 → items ≤ tget 0 g.counters 0 → 0 < items →
            PutsS (.nxt w) s w.da 6 (fun v => v = noItem)))
    -- the fields of a work identifier are the digits of the item in mixed radix, the last field fastest (R165)
    ∧ (∀ (g : Gang) (w1 w2 n1 n2 q : Nat), g.widths = [w1, w2] → g.counts = [n1, n2] → 0 < n1 → 0 < n2 → q < n1 * n2 →
        widOf g q = q % n2 + q / n2 * 2 ^ w2)
  )
  ∧ (
  ∀ (s : State) (w : XWord),
    let n := (body s w.b).toNat % 256
    let v := (body s w.b).toNat / 65536 % 65536
    let x := sem s s.cur.core n
    let becomes := fun (i : Instr) (y : Nat) => ∃ t, exec i s = .next t ∧ (∀ m, sem t s.cur.core m = if m = n then y else sem s s.cur.core m)
      ∧ (me t) = (me s) ∧ t.mem = s.mem
    (x + v ≤ 0xFFFF → becomes (.semsigAdd w) (x + v)) ∧ (0xFFFF < x + v → Traps (.semsigAdd w) s 0xA2)
    ∧ (v ≤ x → becomes (.semsigSub w) (x - v)) ∧ (x < v → Traps (.semsigSub w) s 0xA2)
    ∧ becomes (.semsigSet w) v
    ∧ (v ≤ x → becomes (.semwait w) x ∧ becomes (.semwaitDec w) (x - v))
    ∧ (x < v → exec (.semwait w) s = .next (blockNow s) ∧ exec (.semwaitDec w) s = .next (blockNow s))
    ∧ (∀ i y, (i = .semtry w ∧ y = x) ∨ (i = .semtryDec w ∧ y = x - v) →
        (v ≤ x → ∃ t, exec i s = .next t ∧ (∀ m, sem t s.cur.core m = if m = n then y else sem s s.cur.core m)
          ∧ (me t).lands = (me (landB s w.da true)).lands)
        ∧ (x < v → exec i s = .next (landB s w.da false)))
  )

/-- RINGSET. R281, R282. -/
def Obligations.RingsAreDefinedPushedAndPopped : Prop :=
  ∀ (s : State) (w : MWord),
    let c := s.cur.core
    let x := (body s w.a).toNat
    let n := field x 40 8 + 1
    let b := 64 * field x 24 16
    let base := field x 0 21
    let r := ring (engine s c) (w.imm % 16)
    let k := x % 2 ^ 16
    let rsvd : Prop := field x 48 16 ≠ 0 ∨ b = 0 ∨ 2 ^ 21 < b ∨ field x 21 3 ≠ 0
    (rsvd → Traps (.ringsetDef w) s 0x86)
    ∧ (¬ rsvd → 0x200000 < base + n * b → Traps (.ringsetDef w) s 0x40)
    ∧ (¬ rsvd → base + n * b ≤ 0x200000 → base % 64 ≠ 0 → Traps (.ringsetDef w) s 0x41)
    ∧ (¬ rsvd → base + n * b ≤ 0x200000 → base % 64 = 0 → Idle s c →
        (Machine.core s c).pre = false ∨ isSvc c = true ∨ base + n * b ≤ 0x1C0000 →
        ∃ t, exec (.ringsetDef w) s = .next t ∧ OnlyEngine s t c (fun e =>
          { e with rings := tset e.rings (w.imm % 16) { base := base, nslot := n, slotb := b, head := 0, tail := 0 } }))
    ∧ (r.nslot = 0 → Traps (.ringsetTail w) s 0x86 ∧ Traps (.ringsetHead w) s 0x86)
    ∧ (r.nslot ≠ 0 → tilesIn r + k ≤ r.nslot → ∃ t, exec (.ringsetTail w) s = .next t ∧ OnlyEngine s t c (fun e =>
        { e with rings := tset e.rings (w.imm % 16) { r with tail := (r.tail + k) % (2 * r.nslot) } }))
    ∧ (r.nslot ≠ 0 → r.nslot < tilesIn r + k → Traps (.ringsetTail w) s 0x86)
    ∧ (r.nslot ≠ 0 → k ≤ tilesIn r → ∃ t, exec (.ringsetHead w) s = .next t ∧ OnlyEngine s t c (fun e =>
        { e with rings := tset e.rings (w.imm % 16) { r with head := (r.head + k) % (2 * r.nslot) } }))
    ∧ (r.nslot ≠ 0 → tilesIn r < k → Traps (.ringsetHead w) s 0x82)

/-- MWLD, MSTRM, MDRAIN, MZERO, MREP and MSTAT at issue. R275 to R277, R284, R287, R288, R292, R294, R295, R297. -/
def Obligations.EngineCommandsAreAccepted : Prop :=
  ∀ (s : State) (w : MWord), s.cur.rep = none →
    let c := s.cur.core
    let e := engine s c
    let a := (body s w.a).toNat
    let y := (body s w.b).toNat
    let accepts := fun (i : Instr) (P : EngCmd → Prop) => ∃ t q, exec i s = .next t ∧ Accepted s t q ∧ P q
    -- a sync word that R275 refuses, and a full queue
    (¬ SyncOk y → Traps (.mwld w) s 0x86 ∧ Traps (.mdrain w) s 0x86 ∧ Traps (.mzero w) s 0x86)
    ∧ (SyncOk y → 8 ≤ e.queue.length → exec (.mzero w) s = .next (blockNow s))
    -- MZERO
    ∧ (SyncOk y → e.queue.length < 8 → accepts (.mzero w) (Carries s w 8 0))
    -- MWLD (R284)
    ∧ (SyncOk y → Idle s c →
        let m := field a 4 4
        let r := ring e (a % 16)
        let kk := field a 17 7 + 1
        let nn := field a 10 7 + 1
        let sofs := field a 48 16
        let shared := sharedBytes m
        let rowEnd := (kk - 1) * field a 32 16 + (if eltBits m = 16 then 2 * nn else if eltBits m = 4 then (nn + 1) / 2 else nn)
        let good : Prop := field a 24 8 = 0 ∧ field a 8 2 = 0 ∧ m ≤ 10 ∧ r.nslot ≠ 0 ∧ rowEnd ≤ r.slotb
          ∧ (if shared = 0 then sofs = 0 else kk % 32 = 0 ∧ sofs + shared * (128 * ((kk - 1) / 32) + nn) ≤ r.slotb)
        (good → accepts (.mwld w) (Carries s w 2 a)) ∧ (¬ good → Traps (.mwld w) s 0x86))
    -- MDRAIN (R292)
    ∧ (SyncOk y → Idle s c →
        let f := field a 30 4
        let rows := field a 41 7 + 1
        let cols := field a 34 7 + 1
        let drs := field a 48 16
        let ofs := field a 0 21
        let bytes := [4, 2, 2, 1, 1, 4].getD f 4
        let last := ofs + (rows - 1) * drs + cols * bytes
        let good : Prop := f ≤ 5 ∧ field a 21 9 = 0 ∧ cols * bytes ≤ drs ∧ drs % bytes = 0
        (¬ good → Traps (.mdrain w) s 0x86)
        ∧ (good → 0x200000 < last → Traps (.mdrain w) s 0x40)
        ∧ (good → last ≤ 0x200000 → ofs % bytes ≠ 0 → Traps (.mdrain w) s 0x41)
        ∧ (good → last ≤ 0x200000 → ofs % bytes = 0 →
            (Machine.core s c).pre = false ∨ isSvc c = true ∨ last ≤ 0x1C0000 →
            if (field e.tint (w.imm % 4) 1 = 1 ↔ f = 5) then accepts (.mdrain w) (Carries s w 6 a) else Traps (.mdrain w) s 0x83))
    -- MSTRM reads its descriptor first (R287, R288)
    ∧ (¬ (a + 64 ≤ scratchLimit c) → Traps (.mstrm w) s 0x40)
    ∧ (Reachable s a 64 64 → ¬ Clean (found s) (at_ s a) 64 → Traps (.mstrm w) s 0x65)
    ∧ (Reachable s a 64 64 → Clean (found s) (at_ s a) 64 → SyncOk y → Idle s c → e.wfmt ≤ 10 →
        let d := fun i => numberAt (found s) (at_ s a + 8 * i) 8
        let m := field (d 0) 60 4
        let r := ring e (field (d 0) 56 4)
        let tiles := field (d 0) 48 8
        let rows := field (d 0) 33 7 + 1
        let dims := field (d 0) 19 3 + 1
        let bound := fun i => field (d (2 + i)) 0 16 + 1
        let stride := fun i => (BitVec.ofNat 32 (field (d (2 + i)) 32 32)).toInt
        let size : Int := if eltBits m = 16 then 2 else 1
        let span : Int := tiles * r.slotb
        let start := fun (row : Nat) => (field (d 1) 32 32 : Int) + row * (BitVec.ofNat 32 (field (d 1) 0 32)).toInt
        let inSpan : Prop := ∀ ix : Nat → Nat, (∀ i < dims, ix i < bound i) →
          let o := ((List.range dims).map (fun i => (ix i : Int) * stride i)).sum
          0 ≤ o ∧ o + size ≤ span
        let good : Prop := m ≤ 10 ∧ field (d 0) 0 19 = 0 ∧ field (d 0) 40 8 ≤ tiles ∧ tiles ≠ 0 ∧ tiles ≤ r.nslot
          ∧ field (d 0) 26 7 + rows ≤ 128 ∧ field (d 0) 22 2 ≤ 1 ∧ dims ≤ 6
          ∧ (∀ i < 6, if i < dims then field (d (2 + i)) 16 16 = 0 else d (2 + i) = 0)
          ∧ (if eltBits m = 4 then 2 else 1) * ((List.range dims).map bound).prod = rows * (e.wk + 1)
          ∧ inSpan
          ∧ (if sharedBytes m = 0 then d 1 = 0
              else ∀ row < rows, 0 ≤ start row ∧ start row + ((e.wk + 32) / 32 * sharedBytes m : Nat) ≤ span)
        let cls := fun (f : Nat) => (eltBits f, decide (sharedBytes f = 0), decide (f = 0))
        let meets : Prop := cls m = cls e.wfmt ∧ (field e.tint (field (d 0) 24 2) 1 = 1 → m = 0)
        (¬ good → Traps (.mstrm w) s 0x86)
        ∧ (good → ¬ meets → Traps (.mstrm w) s 0x83)
        ∧ (good → meets → accepts (.mstrm w) (fun q => Carries s w 4 a q ∧ q.desc = (List.range 8).map d)))
    -- MREP and MSTAT
    ∧ (∃ t, exec (.mrep w) s = .next t ∧ OnlyMe s t (fun th =>
        { th with mrep := some { left := w.imm + 1, a := 0, b := 0, inc := body s w.a, made := 0, cmd := none } }))
    ∧ (let sh : EngShown := match e.shown with
        | none => { wfmt := e.wfmt, wk := e.wk, wn := e.wn, tint := e.tint, nansc := e.nansc, flags := e.flags }
        | some x => x
      w.imm < 256 → e.queue.length ≤ 8 → e.fault < 256 → sh.wfmt < 16 → sh.wk < 128 → sh.wn < 128 → sh.tint < 16 → sh.flags < 32 →
        ∃ v t, exec (.mstat w) s = .next t ∧ (me t).lands = (me (landW s w.a 1 v)).lands ∧ t.mem = s.mem
          ∧ field v.toNat 60 4 = e.queue.length ∧ field v.toNat 48 8 = e.fault ∧ field v.toNat 44 4 = sh.wfmt
          ∧ field v.toNat 37 7 = sh.wk ∧ field v.toNat 30 7 = sh.wn ∧ field v.toNat 16 4 = sh.tint
          ∧ field v.toNat 8 1 = (if e.fault = 0 then 0 else 1) ∧ field v.toNat 7 1 = (if sh.nansc then 1 else 0)
          ∧ field v.toNat 0 5 = sh.flags
          ∧ (match e.shown with
            | none => { engine t c with nansc := e.nansc, flags := e.flags } = e
            | some x => ∃ y, { engine t c with shown := some x } = e ∧ (engine t c).shown = some y
                ∧ { y with nansc := x.nansc, flags := x.flags } = x)
          ∧ (shownOf (engine t c)).nansc = (sh.nansc && decide (field w.imm 7 1 = 0))
          ∧ ∀ k < 5, field (shownOf (engine t c)).flags k 1 = if field w.imm k 1 = 1 then 0 else field sh.flags k 1)

/-- Engine commands start, perform and retire. R278 to R281, R284, R288 to R292, R294, on a core whose gang detects no races. That a
row performs in one cycle, and in which order the rows come, is the model's reading of R279 (log 86: any order), as are the span
offsets of the bytes of an element (log 45). -/
def Obligations.EngineCommandsPerform : Prop :=
  ∀ (s : State) (c : Nat) (q : EngCmd) (rest : List EngCmd), s.cur.args = [c] → c < 512 →
    (engine s c).queue = q :: rest → (engine s c).hand = false →
    (∀ m, (Machine.core s c).gang = some m → (gang s m).raceMode = 0) →
    let e := engine s c
    let y := q.sync
    let wsem := sem s c (field y 56 8)
    let src := ring e (if q.op = 2 then q.aval % 16 else field (q.desc.getD 0 0) 56 4)
    let goesOn := fun (t : State) (i : Instr) => ∃ v ∈ t.agenda, v.instr = i ∧ v.args = [c] ∧ s.gcyc < v.due
    let faults := fun (i : Instr) (cause : Nat) => ∃ t, exec i s = .next t ∧ (engine t c).fault = cause
      ∧ (engine t c).queue = e.queue ∧ (engine t c).running = false ∧ t.mem = s.mem
      ∧ ∃ v ∈ t.agenda, v.instr = .inboundMessageWrite ∧ v.args.getD 0 0 = svcFor c
    -- a part performs: the command goes on with one of the parts that are left, or retires
    let within := fun (l : List (Nat × Nat)) (n : Nat) => ∃ r ∈ l, r.1 ≤ n ∧ n < r.1 + r.2
    let performs := fun (P : State → Prop) => ∃ t, exec .enginePortAccess s = .next t ∧ (engine t c).queue = e.queue
      ∧ (engine t c).done = e.done + 1 ∧ (engine t c).shown = e.shown ∧ P t
      ∧ (e.left = [] → goesOn t .engineCommandRetire)
      ∧ (e.left ≠ [] → goesOn t .enginePortAccess
          ∧ ((∀ r ∈ e.left, 0 < r.2) → within e.left (engine t c).row ∧ ∀ n, within (engine t c).left n → within e.left n))
    -- the start (R278, R280)
    (e.running = false → e.frozen = false → e.fault = 0 → field y 40 16 ≤ wsem →
      (q.op = 6 ∨ q.op = 8 ∨ (q.op = 2 ∧ src.nslot ≠ 0 ∧ 1 ≤ tilesIn src)
          ∨ (q.op = 4 ∧ src.nslot ≠ 0 ∧ field (q.desc.getD 0 0) 48 8 ≤ tilesIn src) →
        let parts := if q.op = 2 then field q.aval 17 7 + 1 else if q.op = 4 then field (q.desc.getD 0 0) 33 7 + 1
          else if q.op = 6 then field q.aval 41 7 + 1 else 1
        ∃ t row left, exec .engineCommandStart s = .next t ∧ OnlyEngine s t c (fun e =>
            { e with running := true, done := 0, nansc := false, flags := 0, row := row, left := left
                     shown := some { wfmt := e.wfmt, wk := e.wk, wn := e.wn, tint := e.tint, nansc := e.nansc, flags := e.flags } })
          ∧ (∀ n, n < parts ↔ n = row ∨ within left n) ∧ ¬ within left row
          ∧ goesOn t .enginePortAccess)
      ∧ (q.op = 2 ∧ src.nslot ≠ 0 ∧ tilesIn src = 0 → faults .engineCommandStart 0x82)
      ∧ (q.op = 4 ∧ src.nslot ≠ 0 ∧ tilesIn src < field (q.desc.getD 0 0) 48 8 → faults .engineCommandStart 0x82))
    ∧ (e.running = false → wsem < field y 40 16 → exec .engineCommandStart s = .next s)
    -- the parts of a command
    ∧ (e.running = true → retryOf s (16 + c) = [] →
      -- MZERO
      (q.op = 8 → performs (fun t => t.mem = s.mem
        ∧ (∀ k, tget {} (engine t c).tiles k = if field q.imm (k / 16384) 1 = 1 then {} else tget {} e.tiles k)
        ∧ ∀ k < 4, field (engine t c).tint k 1 = if field q.imm k 1 = 1 then field q.imm 4 1 else field e.tint k 1))
      -- a row that is read waits behind what waits at the engine port (R198)
      ∧ (q.op = 2 ∨ q.op = 4 → (Machine.core s c).waits ≠ [] → exec .enginePortAccess s = .next (portWait s c .enginePortAccess [c]))
      -- MWLD: row `row` of the weights
      ∧ (q.op = 2 → field q.aval 4 4 ≤ 10 → Clean s (scratch c + src.base) (src.nslot * src.slotb) → (Machine.core s c).waits = [] →
          src.nslot ≠ 0 → src.slotb ≠ 0 → e.row ≤ field q.aval 17 7 →
          let m := field q.aval 4 4
          let cols := field q.aval 10 7 + 1
          let off := fun (n : Nat) => e.row * field q.aval 32 16 + (if eltBits m = 16 then 2 * n else if eltBits m = 4 then n / 2 else n)
          let sofs := field q.aval 48 16
          -- the shared bytes that the first row of a block latches
          let shared := fun (n : Nat) => match sharedBytes m with
            | 1 => elementAt s c src 8 (sofs + 128 * (e.row / 32) + n) 0
            | 2 => elementAt s c src 16 (sofs + 2 * (128 * (e.row / 32) + n)) 0
            | _ => 0
          let nan : Prop := e.row % 32 = 0 ∧ sharedBytes m ≠ 0
            ∧ ∃ n < cols, shared n % 256 = 255 ∨ sharedBytes m = 2 ∧ shared n / 256 = 255
          (nan → field y 5 1 = 1 → faults .enginePortAccess 0x29)
          ∧ (¬ nan ∨ field y 5 1 = 0 → performs (fun t => t.mem = s.mem
            ∧ (∀ n < cols, tget 0 (engine t c).weights (128 * e.row + n) = elementAt s c src (eltBits m) (off n) (n % 2))
            ∧ (∀ k, (∀ n < cols, k ≠ 128 * e.row + n) → tget 0 (engine t c).weights k = if e.done = 0 then 0 else tget 0 e.weights k)
            ∧ (e.done = 0 → (engine t c).wfmt = m ∧ (engine t c).wk = field q.aval 17 7 ∧ (engine t c).wn = field q.aval 10 7)
            ∧ ((engine t c).nansc = true ↔ e.nansc = true ∨ nan)
            ∧ (e.row % 32 = 0 → e.done = 0 ∨ sharedBytes m ≠ 0 → ∀ n < cols,
                tget 0 (engine t c).wshared (128 * (e.row / 32) + n) = shared n))))
      -- MDRAIN: row `row` of the tile
      ∧ (q.op = 6 → field q.aval 30 4 ≤ 5 → e.row ≤ field q.aval 41 7 →
          let cols := field q.aval 34 7 + 1
          let f := field q.aval 30 4
          let bytes := [4, 2, 2, 1, 1, 4].getD f 4
          let a := scratch c + field q.aval 0 21 + e.row * field q.aval 48 16
          let elt := fun (n : Nat) => tget ({} : TileElt) e.tiles (16384 * (q.imm % 4) + 128 * e.row + n)
          let value := fun (n : Nat) =>
            match [some Fmt.f32, some .bf16, some .f16, some .e4m3, some .e5m2, none].getD f none with
            | some g => (settle .f32 ⟨(elt n).data.toNat, (elt n).tail.toNat⟩ g (rmodeOf (field y 1 3)) (field y 4 1 = 1)).1
            | none => (elt n).data.toNat
          let core := Machine.core s c
          -- a row waits for the bank words that the thread port holds, and behind what waits there (R198)
          (core.waits ≠ [] ∨ portHolds s c a (cols * bytes) = true →
            exec .enginePortAccess s = .next (portWait s c .enginePortAccess [c]))
          ∧ (core.waits = [] → portHolds s c a (cols * bytes) = false → Clean s a (cols * bytes) →
          performs (fun t =>
            (∀ n < cols, numberAt t (a + n * bytes) bytes = value n)
            ∧ (∀ x, ¬ (a ≤ x ∧ x < a + cols * bytes) → getByte t x = getByte s x)
            ∧ (∀ x, a ≤ x → x < a + cols * bytes → isFull t x = true)
            ∧ (∀ k, tget {} (engine t c).tiles k =
                if field q.imm 2 1 = 1 ∧ ∃ n < cols, k = 16384 * (q.imm % 4) + 128 * e.row + n then {} else tget {} e.tiles k))))
      -- MSTRM: row `row` of the activations meets the weights
      ∧ (q.op = 4 → e.wfmt ≤ 10 → e.wk < 128 → e.wn < 128 → Clean s (scratch c + src.base) (src.nslot * src.slotb) →
          (Machine.core s c).waits = [] → src.nslot ≠ 0 → src.slotb ≠ 0 → e.row ≤ field (q.desc.getD 0 0) 33 7 →
          field (q.desc.getD 0 0) 60 4 ≤ 10 →
          let d := fun i => q.desc.getD i 0
          let m := field (d 0) 60 4
          let bound := fun i => field (d (2 + i)) 0 16 + 1
          let stride := fun i => (BitVec.ofNat 32 (field (d (2 + i)) 32 32)).toInt
          let kk := e.wk + 1
          let code := fun k =>
            let j := if eltBits m = 4 then e.row * (kk / 2) + k / 2 else e.row * kk + k
            elementAt s c src (eltBits m) (nestAt bound stride (field (d 0) 19 3 + 1) j).toNat (k % 2)
          -- the shared bytes of a block of the row, and of the weights
          let shared := fun b =>
            let o := ((field (d 1) 32 32 : Int) + e.row * (BitVec.ofNat 32 (field (d 1) 0 32)).toInt + sharedBytes m * b).toNat
            if sharedBytes m = 0 then 0 else elementAt s c src (8 * sharedBytes m) o 0
          let nan : Prop := sharedBytes m ≠ 0 ∧ ∃ b < kk / 32, shared b % 256 = 255 ∨ sharedBytes m = 2 ∧ shared b / 256 = 255
          let act := fun k => eltVal m (code k) ((if k / 32 < kk / 32 then shared (k / 32) else 0) % 256)
            ((if k / 32 < kk / 32 then shared (k / 32) else 0) / 256)
          let wt := fun k n => eltVal e.wfmt (tget 0 e.weights (128 * k + n)) (tget 0 e.wshared (128 * (k / 32) + n) % 256)
            (tget 0 e.wshared (128 * (k / 32) + n) / 256)
          let tile := field (d 0) 24 2
          let at0 := fun n => 16384 * tile + 128 * (field (d 0) 26 7 + e.row) + n
          let old := fun n => if field (d 0) 22 2 = 1 then ({} : TileElt) else tget {} e.tiles (at0 n)
          (nan → field y 5 1 = 1 → faults .enginePortAccess 0x29)
          ∧ (¬ nan ∨ field y 5 1 = 0 → performs (fun t => t.mem = s.mem
            ∧ ((engine t c).nansc = true ↔ e.nansc = true ∨ nan)
            ∧ (∀ k, (∀ n ≤ e.wn, k ≠ at0 n) → tget {} (engine t c).tiles k = tget {} e.tiles k)
            -- an integer tile
            ∧ (field e.tint tile 1 = 1 → m = 0 → e.wfmt = 0 → ∀ n ≤ e.wn,
                (tget ({} : TileElt) (engine t c).tiles (at0 n)).data = BitVec.ofInt 32 ((old n).data.toInt
                  + ((List.range kk).map (fun k => (BitVec.ofNat 8 (code k)).toInt * (BitVec.ofNat 8 (tget 0 e.weights (128 * k + n))).toInt)).sum)
                ∧ (tget ({} : TileElt) (engine t c).tiles (at0 n)).tail = 0)
            -- a floating tile: one pass of a plain 8-bit format, or groups or blocks of 32 in ascending order
            ∧ (field e.tint tile 1 = 0 → ∀ n ≤ e.wn,
                let one : Prop := eltBits e.wfmt = 8 ∧ sharedBytes e.wfmt = 0
                let new := tget ({} : TileElt) (engine t c).tiles (at0 n)
                let pairs := fun (lo m : Nat) => (List.range m).map (fun i => (act (lo + i), wt (lo + i) n))
                ∃ acc : Nat → Held, acc 0 = ⟨(old n).data.toNat, (old n).tail.toNat⟩
                  ∧ (one → Accumulates False (acc 0) (acc 1) (pairs 0 kk) ∧ (acc 1).body = new.data.toNat ∧ (acc 1).tail = new.tail.toNat)
                  ∧ (¬ one → (∀ b < (kk + 31) / 32, Accumulates (eltBits e.wfmt = 16) (acc b) (acc (b + 1)) (pairs (32 * b) (min 32 (kk - 32 * b))))
                      ∧ (acc ((kk + 31) / 32)).body = new.data.toNat ∧ (acc ((kk + 31) / 32)).tail = new.tail.toNat))
            -- 0 × ∞ sets NV
            ∧ (field e.tint tile 1 = 0 → (∃ n ≤ e.wn, ∃ k < kk, ZeroTimes (act k) (wt k n)) → field (engine t c).flags 0 1 = 1)))))
    -- the retirement (R278)
    ∧ (e.running = true → q.notify = none →
      let ssem := sem s c (field y 32 8)
      let adv : Prop := field y 12 1 = 1
      let tr := ring e (field y 8 4)
      (q.op = 6 ∨ q.op = 8 → (adv → tr.nslot ≠ 0 ∧ tilesIn tr < tr.nslot) → ssem + field y 24 8 ≤ 0xFFFF →
        ∃ t, exec .engineCommandRetire s = .next t ∧ (engine t c).queue = rest ∧ (engine t c).running = false
          ∧ (engine t c).shown = none ∧ (engine t c).wfmt = e.wfmt ∧ (engine t c).tint = e.tint
          ∧ (∀ x, e.shown = some x → (engine t c).nansc = (e.nansc || x.nansc) ∧ ∀ k, field (engine t c).flags k 1 = max (field e.flags k 1) (field x.flags k 1))
          ∧ (thread t q.core q.slot).busy = (thread s q.core q.slot).busy - 1
          ∧ (∀ n, sem t c n = if n = field y 32 8 then ssem + field y 24 8 else sem s c n)
          ∧ (∀ n, ring (engine t c) n = if adv ∧ n = field y 8 4 then { tr with tail := (tr.tail + 1) % (2 * tr.nslot) } else ring e n)
          ∧ (engine t c).tiles = e.tiles ∧ t.mem = s.mem)
      -- a command pops its ring before TADV advances one
      ∧ (q.op = 2 ∨ q.op = 4 → ssem + field y 24 8 ≤ 0xFFFF →
        let n0 := if q.op = 2 then q.aval % 16 else field (q.desc.getD 0 0) 56 4
        let pop := if q.op = 2 then q.imm % 2 else field (q.desc.getD 0 0) 40 8
        let popped := fun (n : Nat) => if n = n0 then { src with head := (src.head + pop) % (2 * src.nslot) } else ring e n
        (adv → tr.nslot ≠ 0 ∧ tilesIn tr - (if n0 = field y 8 4 then pop else 0) < tr.nslot) →
        ∃ t, exec .engineCommandRetire s = .next t ∧ (engine t c).queue = rest
          ∧ (∀ n, sem t c n = if n = field y 32 8 then ssem + field y 24 8 else sem s c n)
          ∧ (∀ n, ring (engine t c) n = if adv ∧ n = field y 8 4
              then { popped n with tail := ((popped n).tail + 1) % (2 * (popped n).nslot) } else popped n))
      ∧ (q.op = 6 ∨ q.op = 8 → adv → tr.nslot ≠ 0 → tilesIn tr = tr.nslot → faults .engineCommandRetire 0x82)
      ∧ (¬ adv → 0xFFFF < ssem + field y 24 8 → faults .engineCommandRetire 0xA2))

/-- MWLDV and MDRAINV. R285, R286, R293. -/
def Obligations.HandOversPassTheVectorRegisters : Prop :=
  (∀ (s : State) (w : MWord), s.cur.rep = none →
    let c := s.cur.core
    let e := engine s c
    let y := (body s w.b).toNat
    let regs := (List.range 32).map (fun i => physV (me s) (w.a + i))
    let idle : Prop := e.queue = [] ∧ e.running = false ∧ e.fault = 0 ∧ e.frozen = false
    let hands := fun (op : Nat) (t : State) => ∃ q, (engine t c).queue = [q] ∧ q.op = op ∧ q.regs = regs ∧ q.imm = w.imm ∧ q.sync = y
      ∧ q.core = c ∧ q.slot = s.cur.slot ∧ (engine t c).running = true ∧ (engine t c).hand = true
      ∧ (me t).st = (me s).st ∧ (me t).outUntil = (me s).ttc + 5 ∧ (me t).busy = (me s).busy + 1 ∧ t.mem = s.mem
      ∧ ∃ v ∈ t.agenda, v.instr = .engineHandoverEnd ∧ v.args = [c] ∧ v.due = s.gcyc + 40
    ((me s).nv ≤ w.a + 31 → Traps (.mwldv w) s 0x04 ∧ Traps (.mdrainv w) s 0x04)
    ∧ (w.a + 31 < (me s).nv → ¬ SyncOk y ∨ field y 40 16 ≠ 0 → Traps (.mwldv w) s 0x86 ∧ Traps (.mdrainv w) s 0x86)
    ∧ (w.a + 31 < (me s).nv → SyncOk y → field y 40 16 = 0 →
        (e.queue = [] → field w.imm 4 1 = 1 → e.wfmt ≠ w.imm % 16 → Traps (.mwldv w) s 0x83)
        ∧ (¬ idle → exec (.mdrainv w) s = .next (blockNow s) ∧ (field w.imm 4 1 = 0 → exec (.mwldv w) s = .next (blockNow s)))
        ∧ (idle → field w.imm 4 1 = 0 ∨ e.wfmt = w.imm % 16 →
            ∃ t, exec (.mwldv w) s = .next t ∧ hands 3 t ∧ (me t).lands = (me s).lands)
        ∧ (idle → ∃ t, exec (.mdrainv w) s = .next t ∧ hands 7 t
            ∧ (∀ i < 32, ∃ l ∈ (me t).lands, l.due = (me s).ttc + 5 ∧ l.issued = (me s).ttc ∧ l.pos = s.cur.pos ∧ l.flags = 0
                ∧ ∃ ls, l.act = .lanes (physV (me s) (w.a + i)) ls ∧ ls.map Prod.fst = List.range 128
                  ∧ ∀ p ∈ ls, ∃ el : TileElt, el = tget {} e.tiles (16384 * (w.imm % 4) + 128 * (32 * field w.imm 2 2 + i) + p.1)
                    ∧ p.2.data = el.data ∧ p.2.tail.toNat = el.tail.toNat)
            ∧ (∀ k, tget {} (engine t c).tiles k =
                if field w.imm 4 1 = 1 ∧ k / 16384 = w.imm % 4 ∧ k % 16384 / 4096 = field w.imm 2 2 then {} else tget {} e.tiles k))))
  -- the end of a hand-over: the registers as they stand, and the retirement
  ∧ (∀ (s : State) (c : Nat) (q : EngCmd) (rest : List EngCmd), s.cur.args = [c] → (engine s c).queue = q :: rest → (engine s c).hand = true →
    q.notify = none → field q.sync 12 1 = 0 → sem s c (field q.sync 32 8) + field q.sync 24 8 ≤ 0xFFFF →
    (∀ m, (Machine.core s c).gang = some m → (gang s m).raceMode = 0) → q.regs.length = 32 →
    (q.op = 3 ∧ q.imm % 16 < 5) ∨ q.op = 7 →
    ∃ t, exec .engineHandoverEnd s = .next t ∧ (engine t c).queue = rest ∧ (engine t c).hand = false ∧ (engine t c).running = false
      ∧ (thread t q.core q.slot).st = (if (thread s q.core q.slot).st = .out then .run else (thread s q.core q.slot).st)
      ∧ (thread t q.core q.slot).busy = (thread s q.core q.slot).busy - 1 ∧ t.mem = s.mem
      ∧ (∀ n, sem t c n = if n = field q.sync 32 8 then sem s c n + field q.sync 24 8 else sem s c n)
      ∧ (q.op = 7 → (engine t c).weights = (engine s c).weights)
      ∧ (q.op = 3 → (engine t c).wfmt = q.imm % 16 ∧ (engine t c).wk = 127 ∧ (engine t c).wn = 127
          ∧ let f := q.imm % 16
            let wide : Prop := eltBits f = 16
            let lane := fun i l => tget laneZero (thread s q.core q.slot).vregs (128 * q.regs.getD i 0 + l)
            ∀ i < 32, ∀ l < 128, (wide → ∀ j < 2, tget 0 (engine t c).weights (128 * (2 * i + j + 64 * field q.imm 4 1) + l) =
                (settle (if f = 3 then .bf16 else .f16) (elemHeld (if f = 3 then .bf16 else .f16) j (lane i l))
                  (if f = 3 then .bf16 else .f16) (rmodeOf (field q.sync 1 3)) (field q.sync 4 1 = 1)).1)
              ∧ (f = 0 → ∀ j < 4, tget 0 (engine t c).weights (128 * (4 * i + j) + l) = field (lane i l).data.toNat (8 * j) 8)
              ∧ (f = 1 ∨ f = 2 → ∀ j < 4, tget 0 (engine t c).weights (128 * (4 * i + j) + l) =
                (settle (if f = 1 then .e4m3 else .e5m2) (elemHeld (if f = 1 then .e4m3 else .e5m2) j (lane i l))
                  (if f = 1 then .e4m3 else .e5m2) (rmodeOf (field q.sync 1 3)) (field q.sync 4 1 = 1)).1)))

/-- MCMD and its reply. R296. That a record is aligned to 64 bytes is the model's reading (log 43). -/
def Obligations.RemoteCommandsCrossTheMesh : Prop :=
  -- the issuing core
  (∀ (s : State) (w : MWord), s.cur.rep = none →
    let c := s.cur.core
    let a := getA (me s) w.b
    let r := (body s w.a).toNat
    let d := fun i => numberAt (found s) (at_ s r + 8 * i) 8
    let mesh : Prop := isMesh a = true ∧ a.toNat % 2 ^ 49 = 0
    let op := field (d 1) 0 6
    let imm := field (d 1) 6 8
    let good : Prop := field (d 1) 14 50 = 0 ∧ SyncOk (d 3) ∧ field (d 4) 40 23 = 0 ∧ d 4 % 4 = 0 ∧ field (d 5) 32 32 = 0
      ∧ d 6 = 0 ∧ d 7 = 0 ∧ (op = 2 ∧ imm ≤ 1 ∨ op = 4 ∧ imm = 0 ∨ op = 6 ∧ imm ≤ 7 ∨ op = 8 ∧ imm ≤ 31)
      -- what the parameter word alone decides of MWLD and MDRAIN
      ∧ (op = 2 → field (d 2) 24 8 = 0 ∧ field (d 2) 8 2 = 0 ∧ field (d 2) 4 4 ≤ 10
          ∧ (if sharedBytes (field (d 2) 4 4) = 0 then field (d 2) 48 16 = 0 else (field (d 2) 17 7 + 1) % 32 = 0))
      ∧ (op = 6 →
          let bytes := [4, 2, 2, 1, 1, 4].getD (field (d 2) 30 4) 4
          field (d 2) 30 4 ≤ 5 ∧ field (d 2) 21 9 = 0 ∧ (field (d 2) 34 7 + 1) * bytes ≤ field (d 2) 48 16 ∧ field (d 2) 48 16 % bytes = 0)
    (¬ mesh → Traps (.mcmd w) s 0x86)
    ∧ (mesh → Reachable s r 64 64 → Clean (found s) (at_ s r) 64 →
        (¬ good → Traps (.mcmd w) s 0x86)
        ∧ (good → 4 ≤ (engine s c).port → exec (.mcmd w) s = .next (blockNow s))
        ∧ (good → (engine s c).port < 4 → ∃ t, exec (.mcmd w) s = .next t
            ∧ engine t c = { engine s c with port := (engine s c).port + 1 } ∧ me t = { me s with busy := (me s).busy + 1 } ∧ t.mem = s.mem
            ∧ ∃ v ∈ t.agenda, v.instr = .mcmdRequestArrival ∧ s.gcyc < v.due
              ∧ v.args = [a.toNat, c, s.cur.slot, (me s).ttc, s.cur.pos] ++ (List.range 8).map d)))
  -- the request reaches its target, which takes it up once its queue has room
  ∧ (∀ (s : State) (a c slot turn pos : Nat) (rec : List Nat), s.cur.args = [a, c, slot, turn, pos] ++ rec → rec.length = 8 →
      meshNode (BitVec.ofNat 72 a) = s.node → s.links.failed = [] →
      let to_ := meshCore (BitVec.ofNat 72 a)
      ((engine s to_).inbound.length < 8 → c < 2 ^ 32 → (∀ g, gangOf s to_ = some g → g.savedAll = false) →
        ∃ t q, exec .mcmdRequestArrival s = .next t
          ∧ (engine t to_).inbound = (engine s to_).inbound ++ [(s.nextId, q, rec.getD 0 0)] ∧ (engine t to_).queue = (engine s to_).queue
          ∧ q.op = rec.getD 1 0 % 64 ∧ q.imm = field (rec.getD 1 0) 6 8 ∧ q.aval = rec.getD 2 0 ∧ q.sync = rec.getD 3 0
          ∧ q.core = c ∧ q.slot = slot ∧ t.mem = s.mem))
  ∧ (∀ (s : State) (c id cap : Nat) (q : EngCmd) (rest : List (Nat × EngCmd × Nat)), s.cur.args = [c] →
      (engine s c).inbound = (id, q, cap) :: rest → (engine s c).queue.length < 8 →
      (∀ g, gangOf s c = some g → g.savedAll = false) → q.op = 8 → SyncOk q.sync →
      let l := tget [] s.retry (2 ^ 20 + id)
      let replies := fun (t : State) (cause : Nat) => ∃ v ∈ t.agenda, v.instr = .mcmdReplyArrival
        ∧ v.args = [l.getD 1 0, l.getD 2 0, cause, l.getD 0 0, l.getD 3 0, l.getD 4 0] ∧ s.gcyc < v.due
      ∃ t, exec .mcmdInboundAccept s = .next t ∧ (engine t c).inbound = rest ∧ t.mem = s.mem
        ∧ ((engine s c).mcap ≠ 0 → cap = (engine s c).mcap → (engine t c).queue = (engine s c).queue ++ [{ q with desc := [] }] ∧ replies t 0)
        ∧ ((engine s c).mcap = 0 ∨ cap ≠ (engine s c).mcap → (engine t c).queue = (engine s c).queue ∧ replies t 0x81))
  -- the reply
  ∧ (∀ (s : State) (c k cause a turn pos : Nat), s.cur.args = [c, k, cause, a, turn, pos] →
      ∃ t, exec .mcmdReplyArrival s = .next t ∧ (engine t c).port = (engine s c).port - 1 ∧ t.mem = s.mem
        ∧ (cause = 0 → thread t c k = thread s c k)
        ∧ (cause ≠ 0 → (thread t c k).busy = (thread s c k).busy - 1
            ∧ ∃ f, (thread t c k).faults = (thread s c k).faults ++ [f] ∧ f.cause = cause ∧ f.issued = turn ∧ f.pos = pos
              ∧ f.addr = BitVec.ofNat 72 a))

/-- The base instructions of the tephra cores. R300. The results of the base instructions are those of the public
RISC-V manual that the spec names (log 34). -/
def Obligations.TephraBaseInstructions : Prop :=
  (∀ (te : Tephra) (rd n : Nat) (v : W32), getX te 0 = 0 ∧ getX (putX te rd v) n = (if n = rd ∧ rd ≠ 0 then v else getX te n)
    ∧ { stepPc te n with pc := te.pc } = te ∧ (stepPc te n).pc = (te.pc + n) % 2 ^ 32)
  ∧ ∀ s : State,
    let i := Instr.tephraBaseInstruction
    let te := myTe s
    let len := s.cur.rvLen
    let x := getX te
    let jumps := fun (t : Tephra → Tephra) (pc : Nat) => exec i s = .next (modTe s (fun te => { t te with pc := pc }))
    let op := fun (o : RvOp) (P : W32 → W32 → W32 → Prop) =>
      (∀ rd rs1 rs2, s.cur.rv = .op o rd rs1 rs2 → PutsX i s rd len (P (x rs1) (x rs2)))
      ∧ ∀ rd rs1 imm, s.cur.rv = .opImm o rd rs1 imm → PutsX i s rd len (P (x rs1) (BitVec.ofNat 32 imm))
    (∀ rd imm, s.cur.rv = .lui rd imm → imm < 2 ^ 32 → PutsX i s rd len (fun v => v.toNat = imm))
    ∧ (∀ rd imm, s.cur.rv = .auipc rd imm → PutsX i s rd len (fun v => v.toNat = (te.pc + imm) % 2 ^ 32))
    ∧ (∀ rd off, s.cur.rv = .jal rd off → jumps (fun te => putX te rd (BitVec.ofNat 32 (te.pc + len))) ((te.pc + off) % 2 ^ 32))
    ∧ (∀ rd rs1 off, s.cur.rv = .jalr rd rs1 off → jumps (fun te => putX te rd (BitVec.ofNat 32 (te.pc + len)))
        (((x rs1).toNat + off) % 2 ^ 32 / 2 * 2))
    ∧ (∀ c rs1 rs2 off, s.cur.rv = .branch c rs1 rs2 off →
        let a := x rs1
        let b := x rs2
        let taken : Prop := match c with
          | .eq => a = b | .ne => a ≠ b | .lt => a.toInt < b.toInt | .ge => b.toInt ≤ a.toInt
          | .ltu => a.toNat < b.toNat | .geu => b.toNat ≤ a.toNat
        (taken → jumps id ((te.pc + off) % 2 ^ 32)) ∧ (¬ taken → jumps id ((te.pc + len) % 2 ^ 32)))
    ∧ (∀ z rd rs1 off, s.cur.rv = .load z rd rs1 off →
        let a := ((x rs1).toNat + off) % 2 ^ 32
        let n := match z with | .b | .bu => 1 | .h | .hu => 2 | .w => 4
        let v := ((List.range n).map (fun k => (tget (0 : Byte) te.dmem (a + k)).toNat * 256 ^ k)).sum
        (a % n ≠ 0 ∨ a < 0x10000 ∨ 0x18000 < a + n → TeHalts i s 0x85)
        ∧ (a % n = 0 → 0x10000 ≤ a → a + n ≤ 0x18000 → awaitsRead s a n = false → PutsX i s rd len (fun r =>
            if z = .b then r = (BitVec.ofNat 8 v).signExtend 32 else if z = .h then r = (BitVec.ofNat 16 v).signExtend 32
            else r.toNat = v)))
    ∧ (∀ z rs1 rs2 off, s.cur.rv = .store z rs1 rs2 off →
        let a := ((x rs1).toNat + off) % 2 ^ 32
        let n := match z with | .b | .bu => 1 | .h | .hu => 2 | .w => 4
        (a % n ≠ 0 ∨ a < 0x10000 ∨ 0x18000 < a + n → TeHalts i s 0x85)
        ∧ (a % n = 0 → 0x10000 ≤ a → a + n ≤ 0x18000 → awaitsRead s a n = false → ∃ t, exec i s = .next t ∧ t.mem = s.mem
            ∧ { myTe t with dmem := te.dmem } = stepPc te len
            ∧ ∀ k, (tget (0 : Byte) (myTe t).dmem k).toNat =
                if a ≤ k ∧ k < a + n then (x rs2).toNat / 256 ^ (k - a) % 256 else (tget (0 : Byte) te.dmem k).toNat))
    ∧ op .add (fun a b v => v.toNat = (a.toNat + b.toNat) % 2 ^ 32)
    ∧ op .sub (fun a b v => (v.toNat + b.toNat) % 2 ^ 32 = a.toNat)
    ∧ op .sll (fun a b v => v.toNat = a.toNat * 2 ^ (b.toNat % 32) % 2 ^ 32)
    ∧ op .srl (fun a b v => v.toNat = a.toNat / 2 ^ (b.toNat % 32))
    ∧ op .sra (fun a b v => v.toInt = a.toInt / 2 ^ (b.toNat % 32))
    ∧ op .slt (fun a b v => v.toNat = if a.toInt < b.toInt then 1 else 0)
    ∧ op .sltu (fun a b v => v.toNat = if a.toNat < b.toNat then 1 else 0)
    ∧ (∀ k < 32, op .xor (fun a b v => v.getLsbD k = (a.getLsbD k ^^ b.getLsbD k)) ∧ op .or (fun a b v => v.getLsbD k = (a.getLsbD k || b.getLsbD k))
        ∧ op .and (fun a b v => v.getLsbD k = (a.getLsbD k && b.getLsbD k)))
    ∧ op .mul (fun a b v => v.toNat = a.toNat * b.toNat % 2 ^ 32)
    ∧ op .mulh (fun a b v => v.toInt = a.toInt * b.toInt / 2 ^ 32)
    ∧ op .mulhsu (fun a b v => v.toInt = a.toInt * b.toNat / 2 ^ 32)
    ∧ op .mulhu (fun a b v => v.toNat = a.toNat * b.toNat / 2 ^ 32)
    ∧ op .div (fun a b v => (b = 0 → v.toInt = -1) ∧ (b ≠ 0 → ¬ (a.toInt = -2 ^ 31 ∧ b.toInt = -1) → v.toInt = a.toInt.tdiv b.toInt)
        ∧ (a.toInt = -2 ^ 31 → b.toInt = -1 → v = a))
    ∧ op .rem (fun a b v => (b = 0 → v = a) ∧ (b ≠ 0 → v.toInt = a.toInt.tmod b.toInt))
    ∧ op .divu (fun a b v => (b = 0 → v.toNat = 2 ^ 32 - 1) ∧ (b ≠ 0 → v.toNat = a.toNat / b.toNat))
    ∧ op .remu (fun a b v => (b = 0 → v = a) ∧ (b ≠ 0 → v.toNat = a.toNat % b.toNat))
    ∧ (s.cur.rv = .fence → jumps id ((te.pc + len) % 2 ^ 32))
    ∧ (s.cur.rv = .illegal → TeHalts i s 0x85)

/-- Far accesses of the tephra cores. R304 to R306, R318. That te.rdw's block is checked ahead of its address is the model's
reading (log 104). -/
def Obligations.TephraAccessesLeaveTheirCore : Prop :=
  ∀ (s : State) (w : TWord) (a : Addr), TeQuiet s →
    let k := w.f7 % 8
    let d := xr s w.rs2
    -- a block of data memory; te.rdw alone asks that it is aligned
    let inside : Prop := 0x10000 ≤ d ∧ d + 64 ≤ 0x18000
    let block : Prop := d % 64 = 0 ∧ inside
    (TeGood s k w.rs1 4 .read a → TeBlocks (.teRd w) s (fun f => TeMine s .ld a 4 .read f ∧ f.mode = 0)
      ∧ TeBlocks (.teFullWf w) s (fun f => TeMine s .ld a 4 .read f ∧ f.mode = 1)
      ∧ TeBlocks (.teFullWfe w) s (fun f => TeMine s .ld a 4 .read f ∧ f.mode = 2))
    ∧ (TeGood s k w.rs1 4 .write a → TePosts (.teWr w) s (fun f => TeMine s .st a 4 .write f ∧ f.mode = 0 ∧ f.data = leBytes 4 d)
      ∧ TeBlocks (.teEmpty w) s (fun f => TeMine s .st a 4 .write f ∧ f.mode = 3 ∧ f.data = leBytes 4 d))
    ∧ (TeGood s k w.rs1 4 .atomic a → TeBlocks (.teAtom w) s (fun f => TeMine s .atom a 4 .atomic f ∧ f.aop = w.f7 / 8
        ∧ f.operand = ⟨d, 0⟩ ∧ f.code = if w.f7 / 8 = 9 then 2 else 0))
    ∧ (¬ block → TeHalts (.teRdw w) s 0x85)
    ∧ (¬ inside → TeHalts (.teWrw w) s 0x85 ∧ TeHalts (.teVat w) s 0x85)
    ∧ (block → TeGood s k w.rs1 64 .read a → TePosts (.teRdw w) s (fun f => TeMine s .rdw a 64 .read f ∧ f.sink = d))
    ∧ (inside → TeGood s k w.rs1 64 .write a → TePosts (.teWrw w) s (fun f => TeMine s .wrw a 64 .write f ∧ f.data = dataBytes s d))
    ∧ (inside → TeGood s k w.rs1 64 .atomic a → TePosts (.teVat w) s (fun f => TeMine s .vat a 64 .atomic f ∧ f.code = w.f7 / 8
        ∧ (w.f7 / 8 = 0 → f.elems = (List.range 16).map (fun i => (4 * i, ⟨numberOf (dataBytes s d) (4 * i) 4, 0⟩)))
        ∧ (w.f7 / 8 = 1 → f.elems = (List.range 32).map (fun i => (2 * i, ⟨numberOf (dataBytes s d) (2 * i) 2, 0⟩)))))
    -- te.save copies a page
    ∧ (∀ b : Addr, TeGood s k w.rs1 4096 .read a → TeGood s (w.f7 / 8) w.rs2 4096 .write b → isMesh a = false → isMesh b = false →
        TePosts (.teSave w) s (fun f => TeMine s .save a 4096 .read f ∧ f.data.getD 0 0 = (translate s s.cur.core b .write).key))
    -- the checks
    ∧ (∀ n need i, (i = .teRd w ∧ n = 4 ∧ need = .read ∨ i = .teFullWf w ∧ n = 4 ∧ need = .read ∨ i = .teFullWfe w ∧ n = 4 ∧ need = .read
          ∨ i = .teWr w ∧ n = 4 ∧ need = .write ∨ i = .teEmpty w ∧ n = 4 ∧ need = .write ∨ i = .teAtom w ∧ n = 4 ∧ need = .atomic
          ∨ block ∧ i = .teRdw w ∧ n = 64 ∧ need = .read ∨ inside ∧ (i = .teWrw w ∧ n = 64 ∧ need = .write ∨ i = .teVat w ∧ n = 64 ∧ need = .atomic)) →
        let sum := addAddr (tget 0 (myTe s).fa k) (getX (myTe s) w.rs1).toInt
        (sum.2 ≠ 0 → TeHalts i s sum.2)
        ∧ (sum = (a, 0) → ¬ (isMesh a = true) → a.toNat % n ≠ 0 → TeHalts i s 0x41)
        ∧ (sum = (a, 0) → ¬ (isMesh a = true) → a.toNat % n = 0 → (translate s s.cur.core a need).cause ≠ 0 →
            ∃ t, exec i s = .next t ∧ (myTe t).wait = .translation ∧ (myTe t).pc = (myTe s).pc ∧ t.flights = s.flights))
    -- the value of a blocking access, once it has come
    ∧ (∀ (x : State) (v : Nat), (myTe x).value = some v →
        let lands := fun (i : Instr) => ∃ t, exec i x = .next t ∧ t.mem = x.mem
          ∧ myTe t = { stepPc (putX (myTe x) w.rd (BitVec.ofNat 32 v)) 4 with value := none }
        lands (.teRd w) ∧ lands (.teFullWf w) ∧ lands (.teFullWfe w) ∧ lands (.teAtom w)
        ∧ ∃ t, exec (.teEmpty w) x = .next t ∧ t.mem = x.mem ∧ myTe t = { stepPc (myTe x) 4 with value := none })

/-- TCOPY and TCOLL. R307, R308, R311, R312, R314, R315: the five acceptance checks in their order, and the acceptance. -/
def Obligations.TensorCommandsAreAccepted : Prop :=
  ∀ (s : State) (w : XWord) (i : Instr) (coll : Bool), i = .tcopy w ∧ coll = false ∨ i = .tcoll w ∧ coll = true →
    let c := s.cur.core
    let k := w.ci % 2
    let a := (body s w.da).toNat
    let y := (body s w.b).toNat
    let d := (List.range 16).map (fun i => numberAt (found s) (at_ s a + 8 * i) 8)
    let q := (tephra s c k).queue
    (¬ SyncOk y → Traps i s 0x86)
    ∧ (SyncOk y → ¬ (a + 128 ≤ scratchLimit c) → Traps i s 0x40)
    ∧ (SyncOk y → a + 128 ≤ scratchLimit c → a % 64 ≠ 0 → Traps i s 0x41)
    ∧ (SyncOk y → Reachable s a 128 64 → ¬ Clean (found s) (at_ s a) 128 → Traps i s 0x65)
    ∧ (SyncOk y → Reachable s a 128 64 → Clean (found s) (at_ s a) 128 →
        let good : Prop := (coll = false → CopyGood d) ∧ (coll = true → CollFields d)
        let inside := fun n => (coll = false → CopyIn d n) ∧ (coll = true → CollIn d n)
        let aligned : Prop := (coll = false → CopyAligned d) ∧ (coll = true → CollAligned d)
        let ring0 : Prop := field y 12 1 = 1 ∧ (ring (engine s c) (field y 8 4)).nslot = 0
        (¬ good → Traps i s 0x84)
        ∧ (good → ¬ inside 0x200000 → Traps i s 0x40)
        ∧ (good → inside 0x200000 → ¬ aligned → Traps i s 0x41)
        ∧ (good → inside 0x200000 → aligned → (Machine.core s c).pre = true → isSvc c = false → ¬ inside 0x1C0000 → Traps i s 0x44)
        ∧ (good → RangesFit s c inside aligned → ring0 → Traps i s 0x86)
        ∧ (good → RangesFit s c inside aligned → ¬ ring0 →
            (8 ≤ q.length → exec i s = .next (blockNow s))
            ∧ (q.length < 8 → ∃ t x, exec i s = .next t ∧ tephra t c k = { tephra s c k with queue := q ++ [x] }
                ∧ x.coll = coll ∧ x.desc = d ∧ x.sync = y ∧ x.core = c ∧ x.slot = s.cur.slot ∧ x.token = 0
                ∧ me t = { me s with busy := (me s).busy + 1 } ∧ t.mem = s.mem ∧ t.agenda = s.agenda)))

/-- The other Xtephra instructions. R304, R305, R309, R310. -/
def Obligations.TephraCommandsAndSignals : Prop :=
  ∀ (s : State) (w : TWord), TeQuiet s →
    let c := s.cur.core
    let te := myTe s
    let goes := fun (i : Instr) (f : Tephra → Tephra) => exec i s = .next (modTe s (fun te => stepPc (f te) 4))
    -- te.win and te.gcyc
    (∀ (i : Instr) (lo n : Nat), (i = .teWinLo w ∧ lo = 0 ∧ n = 32 ∨ i = .teWinMid w ∧ lo = 32 ∧ n = 32 ∨ i = .teWinHi w ∧ lo = 64 ∧ n = 8) →
        ∃ t, exec i s = .next t ∧ t.mem = s.mem ∧ { myTe t with fa := te.fa } = stepPc te 4
          ∧ (∀ m, m ≠ w.f7 % 8 → tget 0 (myTe t).fa m = tget 0 te.fa m)
          ∧ ∀ b < 72, (tget 0 (myTe t).fa (w.f7 % 8)).getLsbD b =
              if lo ≤ b ∧ b < lo + n then (getX te w.rs1).getLsbD (b - lo) else (tget 0 te.fa (w.f7 % 8)).getLsbD b)
    ∧ (∀ a, addAddr (tget 0 te.fa (w.f7 % 8)) (getX te w.rs1).toInt = (a, 0) →
        let sh := fun (n : Nat) => [12, 16, 21, 24, 27, 30, 33, 36].getD n 36
        let slot := fun (n : Nat) => tget 0 (Machine.core s c).windows (512 * n + vpnHash (a.toNat / 2 ^ sh n))
        let hits := fun (n : Nat) => slot n / 2 ^ 127 % 2 = 1 ∧ slot n / 2 ^ 64 % 2 ^ 60 * 2 ^ 12 / 2 ^ sh n = a.toNat / 2 ^ sh n
        PutsX (.teWinProbe w) s w.rd 4 (fun v =>
          (isMesh a = true → v.toNat = 0x80000001)
          ∧ (isMesh a = false → (∀ n < 8, ¬ hits n) → v = 0)
          ∧ (isMesh a = false → ∀ n < 8, hits n → (∀ m < n, ¬ hits m) → field v.toNat 31 1 = 1 ∧ field v.toNat 28 3 = n
              ∧ field v.toNat 27 1 = field (slot n) 63 1 ∧ field v.toNat 26 1 = field (slot n) 62 1
              ∧ field v.toNat 25 1 = field (slot n) 61 1 ∧ field v.toNat 24 1 = field (slot n) 60 1
              ∧ field v.toNat 22 2 = field (slot n) 58 2 ∧ v.toNat % 2 ^ 22 = 0)))
    ∧ (w.f7 % 2 = 0 → goes (.teGcyc w) (fun te => { putX te w.rd (BitVec.ofNat 32 (s.gcyc % 2 ^ 32)) with gcycHi := s.gcyc / 2 ^ 32 % 2 ^ 32 }))
    ∧ (w.f7 % 2 = 1 → goes (.teGcyc w) (fun te => putX te w.rd (BitVec.ofNat 32 te.gcycHi)))
    -- te.poll with nothing outstanding
    ∧ PutsX (.tePoll w) s w.rd 4 (fun v => v = 0)
    -- te.sig with nothing outstanding
    ∧ (let n := xr s w.rs1 % 256
        let v := xr s w.rs2 % 65536
        let becomes := fun (i : Instr) (y : Nat) => ∃ t, exec i s = .next t ∧ (∀ m, sem t c m = if m = n then y else sem s c m)
          ∧ myTe t = stepPc te 4 ∧ t.mem = s.mem
        (sem s c n + v ≤ 0xFFFF → becomes (.teSigAdd w) (sem s c n + v)) ∧ (0xFFFF < sem s c n + v → TeHalts (.teSigAdd w) s 0xA2)
        ∧ (v ≤ sem s c n → becomes (.teSigSub w) (sem s c n - v)) ∧ (sem s c n < v → TeHalts (.teSigSub w) s 0xA2)
        ∧ becomes (.teSigSet w) v)
    -- te.mbox: the request, the wait and the reply
    ∧ (te.wait = .none → ∃ t, exec (.teMbox w) s = .next t ∧ (myTe t).wait = .mbox ∧ (myTe t).reply = none ∧ (myTe t).pc = te.pc
        ∧ ∃ e ∈ t.agenda, e.instr = .inboundMessageWrite ∧ e.args.getD 0 0 = svcFor c
          ∧ e.args.getD 5 0 = xr s w.rs1 ∧ e.args.getD 6 0 = xr s w.rs2)
    ∧ (te.wait = .mbox → te.reply = none → exec (.teMbox w) s = .next s)
    ∧ (te.wait = .mbox → ∀ r, te.reply = some r → (r.kind = 5 → TeHalts (.teMbox w) s 0xA3)
        ∧ (r.kind ≠ 5 → goes (.teMbox w) (fun te => putX { te with wait := .none, reply := none } w.rd (BitVec.ofNat 32 r.value.toNat))))
    -- te.cmd takes the head command up
    ∧ (let d := xr s w.rs1
      let bad : Prop := te.cur.isSome ∨ d % 8 ≠ 0 ∨ d < 0x10000 ∨ 0x18000 < d + 136
      (bad → TeHalts (.teCmd w) s 0x85)
      ∧ (¬ bad → te.queue = [] → exec (.teCmd w) s = .next s)
      ∧ (¬ bad → ∀ q r, te.queue = q :: r → sem s c (field q.sync 56 8) < field q.sync 40 16 → exec (.teCmd w) s = .next s)
      ∧ (¬ bad → ∀ q r, te.queue = q :: r → field q.sync 40 16 ≤ sem s c (field q.sync 56 8) → q.desc.length = 16 → q.token = 0 → q.slot < 8 →
          ∃ t, exec (.teCmd w) s = .next t ∧ (myTe t).queue = r ∧ (myTe t).cur = some q ∧ (myTe t).pc = (te.pc + 4) % 2 ^ 32
            ∧ (myTe t).rm = field q.sync 1 3 ∧ (myTe t).satf = decide (field q.sync 4 1 = 1)
            ∧ (w.rd ≠ 0 → (getX (myTe t) w.rd).toNat = (if q.coll then 2 else 1) + 4 * q.slot)
            ∧ (∀ i < 16, numberOf ((List.range 8).map (fun b => (tget (0 : Byte) (myTe t).dmem (d + 8 * i + b)).toNat)) 0 8 = q.desc.getD i 0 % 2 ^ 64)
            ∧ (numberOf ((List.range 8).map (fun b => (tget (0 : Byte) (myTe t).dmem (d + 128 + b)).toNat)) 0 8 = q.sync % 2 ^ 64)
            ∧ t.mem = s.mem))
    -- te.done
    ∧ (te.cur = none → TeHalts (.teDone w) s 0x85)
    ∧ (∀ q, te.cur = some q → xr s w.rs1 % 256 ≠ 0 → TeHalts (.teDone w) s (if xr s w.rs1 % 256 = 0x84 then 0x84 else 0x85))
    ∧ (∀ q, te.cur = some q → xr s w.rs1 % 256 = 0 → q.token = 0 → q.slot < 8 →
        let tr := ring (engine s c) (field q.sync 8 4)
        let n := sem s c (field q.sync 32 8) + field q.sync 24 8
        (field q.sync 12 1 = 1 → tr.nslot ≠ 0 ∧ tilesIn tr < tr.nslot) → n ≤ 0xFFFF →
        ∃ t, exec (.teDone w) s = .next t ∧ (myTe t).cur = none ∧ (myTe t).pc = (te.pc + 4) % 2 ^ 32 ∧ (myTe t).fault = te.fault
          ∧ (thread t c q.slot).busy = (thread s c q.slot).busy - 1
          ∧ (∀ m, sem t c m = if m = field q.sync 32 8 then n else sem s c m)
          ∧ (∀ m, ring (engine t c) m = if field q.sync 12 1 = 1 ∧ m = field q.sync 8 4
              then { tr with tail := (tr.tail + 1) % (2 * tr.nslot) } else ring (engine s c) m)
          ∧ t.mem = s.mem)

/-- Privileged instructions. R332 to R335 and, for what WINSET, WINKILL and GRANT ask, R213, R214, R216. The order of
the checks behind PSTAT, that a cause which reaches no thread is refused, and that an acknowledgement of a bundle which has
trapped meanwhile is dropped are the model's readings (log 37, 38, 89, 90). -/
def Obligations.PrivilegedInstructionsAwaitTheirAcknowledgement : Prop :=
  (∀ (s : State) (w : SWord),
    let a := (body s w.a).toNat
    let b := (body s w.b).toNat
    let clear := fun (x : Nat) => field x 50 14 = 0
    -- an instruction whose route word is good waits, and ends with the PSTAT of its acknowledgement
    let ends := fun (i : Instr) => ((me s).privDone = none → exec i s = .next (blockNow s))
      ∧ ∀ st, (me s).privDone = some st → PutsPstat i s st (fun t => (me t).priv = none ∧ (me t).privDone = none)
    let trets := [Instr.tretRetry w, .tretAt w, .tretNext w, .tretSkip w]
    let others := [Instr.ctxsvThr w, .ctxldThr w, .ctxldGang w, .haltStop w, .haltEnd w, .haltReset w]
    (∀ i ∈ trets, (clear a ∧ field a 49 1 = 0 → ends i) ∧ (¬ (clear a ∧ field a 49 1 = 0) → Traps i s 0x02))
    ∧ (∀ i ∈ others, (clear a ∧ field a 48 2 = 0 → ends i) ∧ (¬ (clear a ∧ field a 48 2 = 0) → Traps i s 0x02))
    ∧ ((clear a ∧ field a 48 1 = 0 → ends (.ctxsvGang w)) ∧ (¬ (clear a ∧ field a 48 1 = 0) → Traps (.ctxsvGang w) s 0x02))
    ∧ ((clear b ∧ field b 48 2 = 0 → ends (.grant w)) ∧ (¬ (clear b ∧ field b 48 2 = 0) → Traps (.grant w) s 0x02))
    ∧ ends (.winset w) ∧ ends (.winkill w)
    -- the request leaves once, with both operands
    ∧ (∀ i op k, (i, op, k) ∈ [(Instr.tretRetry w, 0, 0), (.tretAt w, 0, 1), (.tretNext w, 0, 2), (.tretSkip w, 0, 3), (.winset w, 1, 0),
          (.winkill w, 2, 0), (.grant w, 3, 0), (.ctxsvThr w, 5, 0), (.ctxsvGang w, 5, 1), (.ctxldThr w, 6, 0), (.ctxldGang w, 6, 1),
          (.haltStop w, 7, 0), (.haltEnd w, 7, 1), (.haltReset w, 7, 2)] →
        (∀ n, (me s).priv = some n → prePriv i s = s)
        ∧ ((me s).priv = none → let t := prePriv i s
            (me t).priv = some s.nextId ∧ t.nextId = s.nextId + 1
            ∧ tfind t.privs s.nextId = some { core := s.cur.core, slot := s.cur.slot, op := op, k := k, a := body s w.a, b := body s w.b, left := 0,
                                               gsel := (Machine.core s s.cur.core).svc.gsel }
            ∧ ∃ e ∈ t.agenda, e.instr = .privilegedRequestArrival ∧ e.args = [s.nextId] ∧ s.gcyc < e.due))
    -- MBREPLY takes effect at issue
    ∧ (∀ i k, (i, k) ∈ [(Instr.mbreplyRetry w, 0), (.mbreplyResume w, 1), (.mbreplyResumev w, 2), (.mbreplyError w, 3), (.mbreplyMbok w, 4), (.mbreplyMberr w, 5)] →
        let good : Prop := clear a ∧ field a 48 2 = 0 ∧ (k = 3 → ReachesThread (b % 256))
        (¬ good → Traps i s 0x02)
        ∧ (good → field a 12 10 ≠ s.node → PutsPstat i s 8 (fun t => t.agenda = s.agenda))
        ∧ (good → field a 12 10 = s.node → PutsPstat i s 0 (fun t =>
            ∃ e ∈ t.agenda, e.instr = .serviceReplyArrival ∧ e.args = [s.cur.core, a, k, b] ∧ s.gcyc < e.due))))
  -- the request takes effect at its target
  ∧ (∀ (s : State) (n0 : Nat) (r : PrivReq) (c : Nat), s.cur.args = [n0] → tfind s.privs n0 = some r → r.left = 0 →
    let a := r.a.toNat
    let b := r.b.toNat
    let k := field a 22 3
    let th := thread s c k
    let acts := fun (st : Nat) (f : Thread → Thread) => ∃ t, exec .privilegedRequestArrival s = .next t ∧ Acknowledges s t n0 st
      ∧ thread t c k = f th ∧ (∀ d j, (d, j) ≠ (c, k) → thread t d j = thread s d j) ∧ t.mem = s.mem
    let here : Prop := Routes s a c ∧ a % 8 = 0 ∧ field a 25 1 = 0 ∧ (Machine.core s c).gang.isSome
    (r.op ≠ 1 → r.op ≠ 2 → r.op ≠ 3 → field a 12 10 ≠ s.node → acts 8 id)
    ∧ (here → r.op = 0 → r.k = 0 → th.lands = [] →
        (th.st = .halt → acts 0 (fun x => { x with resume := some x.trapa, hact := x.hact && decide (field a 48 1 = 0) }))
        ∧ (th.st ≠ .halt → th.st ≠ .saved → acts 1 id))
    ∧ (here → r.op = 0 → r.k = 1 →
        (th.st = .halt → acts 0 (fun x => { x with resume := some (b % 2 ^ 29), hact := x.hact && decide (field a 48 1 = 0) }))
        ∧ (th.st ≠ .halt → th.st ≠ .saved → acts 1 id))
    ∧ (here → r.op = 7 → r.k = 0 →
        let resident : Prop := th.saving = false ∧ (th.st = .run ∨ th.st = .fetch ∨ th.st = .block ∨ th.st = .out)
        (resident → acts 0 (fun x => { x with stopReq := true })) ∧ (¬ resident → acts 1 id))
    ∧ (here → r.op = 7 → r.k = 1 →
        (th.st ≠ .vacant → th.st ≠ .done → th.st ≠ .saved → acts 0 (fun x => { x with endReq := true, endAddr := x.next }))
        ∧ (th.st = .vacant ∨ th.st = .done → acts 1 id))
    ∧ (r.op = 3 → Routes s b c → (Machine.core s c).gang.isSome →
        let bad : Prop := field a 44 1 = 1 ∧ 0x7FFF < field a 15 15 + field a 0 15
        (bad → acts 3 id)
        ∧ (¬ bad → acts 0 id ∧ ∃ t, exec .privilegedRequestArrival s = .next t ∧ ∀ n,
            tget 0 (Machine.core t c).grants n = if n = field b 26 6 then a else tget 0 (Machine.core s c).grants n)))
  -- the acknowledgement
  ∧ (∀ (s : State) (id st : Nat) (r : PrivReq), s.cur.args = [id, st] → tfind s.privs id = some r →
    ∃ t, exec .privilegedAcknowledgement s = .next t
      ∧ thread t r.core r.slot = (if (thread s r.core r.slot).priv = some id then { thread s r.core r.slot with privDone := some st }
          else thread s r.core r.slot)
      ∧ (∀ c k, (c, k) ≠ (r.core, r.slot) → thread t c k = thread s c k) ∧ t.mem = s.mem ∧ t.agenda = s.agenda)

/-- Messages, replies, debug reads, installs and kills. R213, R214, R326, R329 to R331, R334, R336. -/
def Obligations.ServiceMessagesRepliesAndWindows : Prop :=
  -- a message is written at INQW while fewer than 1,024 are unread (R329)
  (∀ (s : State) (c : Nat) (m : List Nat), s.cur.args = c :: m → 512 ≤ c → c < 528 → m.length = 8 →
    let v := (Machine.core s c).svc
    let a := scratch c + 0x70000 + 64 * (v.inqw % 1024)
    v.inbox = [] → portHolds s c a 64 = false → (Machine.core s c).waits = [] →
    ∃ t, exec .inboundMessageWrite s = .next t ∧ (∀ d k, thread t d k = thread s d k)
      ∧ ((v.inqw + 65536 - v.inqr) % 65536 < 1024 → (Machine.core t c).svc = { v with inqw := (v.inqw + 1) % 65536 }
          ∧ (∀ k < 8, numberAt t (a + 8 * k) 8 = m.getD k 0 % 2 ^ 64) ∧ (∀ x, a ≤ x → x < a + 64 → isFull t x = true)
          ∧ ∀ x, ¬ (a ≤ x ∧ x < a + 64) → getByte t x = getByte s x)
      ∧ (1024 ≤ (v.inqw + 65536 - v.inqr) % 65536 → (Machine.core t c).svc = { v with inbox := [m] } ∧ t.mem = s.mem))
  -- and not while the thread port holds a bank word of its slot, or before what waits there (R198)
  ∧ (∀ (s : State) (c : Nat) (m : List Nat), s.cur.args = c :: m → (Machine.core s c).svc.inbox = [] →
    portHolds s c (scratch c + 0x70000 + 64 * ((Machine.core s c).svc.inqw % 1024)) 64 = true ∨ (Machine.core s c).waits ≠ [] →
    ∃ t, exec .inboundMessageWrite s = .next t ∧ t.mem = s.mem ∧ (Machine.core t c).svc = { (Machine.core s c).svc with inbox := [m] })
  -- a reply reaches the thread or tephra core that awaits it, or is discarded (R334)
  ∧ (∀ (s : State) (o a k x c : Nat), s.cur.args = [o, a, k, x] → coreAt (field a 0 22) = some c → a % 8 = 0 → (Machine.core s c).gang.isSome →
    let n := field a 22 3
    let th := thread s c n
    let r : Reply := { kind := k, value := BitVec.ofNat 64 x }
    let fault : Prop := th.wait ≠ .none ∧ th.reply = none ∧ th.ticket = field a 32 16
    let mbox : Prop := th.mboxReq.isSome ∧ th.mboxReply = none ∧ th.mboxTicket = field a 32 16
    let becomes := fun (y : Thread) => ∃ t, exec .serviceReplyArrival s = .next t ∧ thread t c n = y ∧ t.mem = s.mem ∧ t.agenda = s.agenda
    -- the answer to a fault that an install under way covers waits for that install (R213)
    (covered s (faultAt s c a) = true → ∃ t, exec .serviceReplyArrival s = .next t ∧ t.cores = s.cores ∧ t.mem = s.mem
      ∧ ∃ e ∈ t.agenda, e.instr = .serviceReplyArrival ∧ e.args = [o, a, k, x] ∧ e.due = s.gcyc + 1)
    ∧ (covered s (faultAt s c a) = false → th.st ≠ .saved →
    (k < 4 → fault → th.st ≠ .done → becomes { th with reply := some r })
    -- a finished thread is answered in this cycle (R118, R169)
    ∧ (k < 4 → fault → th.st = .done → th.wait = .delivery → ∀ f, th.serving = some f → ∃ t, exec .serviceReplyArrival s = .next t
        ∧ t.mem = s.mem ∧ (thread t c n).wait = .none ∧ (thread t c n).reply = none ∧ (thread t c n).serving = none
        ∧ (thread t c n).st = .done ∧ (thread t c n).faults = th.faults ∧ (k = 3 → (thread t c n).trapc = x % 256)
        ∧ (k < 2 → (thread t c n).lands = th.lands))
    ∧ (4 ≤ k → mbox → becomes { th with mboxReply := some r })
    ∧ ((k < 4 → ¬ fault) → (4 ≤ k → ¬ mbox) → ∃ t, exec .serviceReplyArrival s = .next t ∧ (∀ d j, thread t d j = thread s d j) ∧ t.mem = s.mem
        ∧ ∃ e ∈ t.agenda, e.instr = .discardNoticeReturn ∧ e.args = [o] ∧ s.gcyc < e.due)))
  ∧ (∀ (s : State) (c : Nat), s.cur.args = [c] → ∃ t, exec .discardNoticeReturn s = .next t ∧ t.mem = s.mem
      ∧ (Machine.core t c).svc = { (Machine.core s c).svc with scdrop := ((Machine.core s c).svc.scdrop + 1) % 2 ^ 32 })
  -- writes of the registers of a thread and of its service core
  ∧ (∀ (s : State) (c k v : Nat), s.cur.args = [c, k, v] → v < 2 ^ 64 →
    let th := thread s c k
    (∃ t, exec .writeTrapc s = .next t ∧ thread t c k = { th with trapc := v, hact := false } ∧ t.mem = s.mem)
    ∧ (∃ t, exec .writeLsd s = .next t ∧ thread t c k = { th with lsd := v } ∧ t.mem = s.mem)
    ∧ (512 ≤ c → c < 528 → (Machine.core s c).svc.inbox = [] → ∃ t, exec .writeInqr s = .next t
        ∧ (Machine.core t c).svc = { (Machine.core s c).svc with inqr := v } ∧ t.mem = s.mem)
    ∧ (512 ≤ c → c < 528 → ∃ t, exec .writeDbgsel s = .next t ∧ t.mem = s.mem
        ∧ (Machine.core t c).svc = { (Machine.core s c).svc with dbgsel := BitVec.ofNat 64 v, dbgBusy := true }
        ∧ ∃ e ∈ t.agenda, e.instr = .debugReadComplete ∧ e.args = [c, k, v] ∧ s.gcyc < e.due))
  -- the debug read of a compute core's thread, as its turn found it (R336)
  ∧ (∀ (s : State) (c k sel d : Nat), s.cur.args = [c, k, sel] → coreAt (field sel 0 22) = some d → field sel 12 10 = s.node → sel % 8 = 0 →
    (Machine.core s d).gang.isSome → (Machine.core s c).svc.dbgsel.toNat = sel →
    let th := thread s d (field sel 22 3)
    let n := field sel 28 6
    let reads := fun (value tail status : Nat) => ∃ t, exec .debugReadComplete s = .next t ∧ t.mem = s.mem
      ∧ ∃ v, (Machine.core t c).svc = { (Machine.core s c).svc with dbgval := v, dbgst := tail + 256 * status, dbgBusy := false } ∧ v.toNat = value
    (s.gcyc % 8 = field sel 22 3 → ∀ l ∈ th.lands, th.ttc < l.due) →
    (th.st = .vacant → reads 0 0 2)
    ∧ (th.st ≠ .vacant → field sel 25 3 = 0 → reads (getS th n).body.toNat (getS th n).tail.toNat 0)
    ∧ (th.st ≠ .vacant → field sel 25 3 = 1 → n < 16 → reads ((getA th n).toNat % 2 ^ 64) 0 0)
    ∧ (th.st ≠ .vacant → field sel 25 3 = 2 → n < 48 → n < th.nv →
        let x := getV th n (16 * field sel 34 3 + field sel 37 4)
        reads x.data.toNat x.tail.toNat 0)
    ∧ (th.st ≠ .vacant → field sel 25 3 = 2 → n < 48 → th.nv ≤ n → reads 0 0 1)
    ∧ (th.st ≠ .vacant → th.st ≠ .saved → th.saving = false → field sel 25 3 = 4 → field sel 41 12 = 0x012 →
        reads (if s.gcyc % 8 = field sel 22 3 then th.ttc else th.turnTtc) 0 0))
  -- installs and kills of windows (R213, R214)
  ∧ (∀ (s : State) (id c : Nat) (w : WinOp), s.cur.args = [id, c] → tfind s.winops id = some w →
    (∃ t, exec .windowInstallApply s = .next t ∧ t.mem = s.mem
      ∧ (∀ n, tget 0 (Machine.core t c).windows n = if n = w.index then w.entry else tget 0 (Machine.core s c).windows n)
      ∧ (∀ d, d ≠ c → (Machine.core t d).windows = (Machine.core s d).windows)
      ∧ tfind t.winops id = some { w with left := w.left.filter (fun d => d ≠ c) }
      ∧ (w.left = [c] → ∃ e ∈ t.agenda, e.instr = .windowInstallComplete ∧ e.args = [id] ∧ s.gcyc < e.due))
    ∧ (∃ t, exec .windowKillInvalidate s = .next t ∧ t.mem = s.mem
      ∧ (∀ n, tget 0 (Machine.core t c).windows n = if n = w.index then 0 else tget 0 (Machine.core s c).windows n)
      -- the core acknowledges once nothing that it translated through the entry is outstanding, an open packet included (R223)
      ∧ (w.kill = true → c ∈ w.left → packetThrough s c w.index = false →
          (∀ p ∈ s.flights, p.2.core = c → p.2.replied = false →
            p.2.win ≠ w.index + 1 ∧ ¬ (p.2.op = .save ∧ p.2.leg2 = false ∧ p.2.data.getD 2 0 = w.index + 1)) →
          ∃ e ∈ t.agenda, e.instr = .killAcknowledge ∧ e.args = [id, c])
      ∧ (packetThrough s c w.index = true → ∃ e ∈ t.agenda, e.instr = .windowKillInvalidate ∧ e.args = [id, c] ∧ e.due = s.gcyc + 8))
    ∧ (∃ t, exec .killAcknowledge s = .next t ∧ t.mem = s.mem ∧ tfind t.winops id = some { w with left := w.left.filter (fun d => d ≠ c) }
      ∧ (w.left = [c] → ∃ e ∈ t.agenda, e.instr = .windowKillComplete ∧ e.args = [id] ∧ s.gcyc < e.due)))
  ∧ (∀ (s : State) (id : Nat) (w : WinOp), s.cur.args = [id] → tfind s.winops id = some w →
    ∀ i, i = .windowInstallComplete ∨ i = .windowKillComplete →
      ∃ t, exec i s = .next t ∧ tfind t.winops id = none ∧ Acknowledges s t w.req 0 ∧ t.mem = s.mem)

/-- Saving, restoring, releasing and completing. R40, R164, R169, R184, R337, R338, R342, R343. The eight-cycle test of a save, what
an image that is not intact leaves, and that an end or resume request which comes while the image is being written acts on the
image are the model's (log 39, 91, 41). -/
def Obligations.ContextsAreSavedAndGangsReleased : Prop :=
  (∀ (s : State) (c k : Nat), s.cur.args = [c, k] → c < 512 → k < 8 → (∀ p ∈ s.flights, ¬ (p.2.core = c ∧ p.2.who = k)) → (thread s c k).faults = [] →
    let th := thread s c k
    -- the save turn; a thread whose next bundle is not expanded yet is in FETCH (R358)
    (th.saveReq = false → exec .contextSaveTurn s = .next s)
    ∧ (th.saveReq = true → ∃ t, exec .contextSaveTurn s = .next t ∧ t.mem = s.mem
        ∧ thread t c k = { th with saveReq := false, saving := true, st := (thread t c k).st }
        ∧ (th.st ≠ .run → th.st ≠ .fetch → th.st ≠ .out → (thread t c k).st = th.st)
        ∧ (∀ h, th.st = .run ∨ th.st = .fetch ∨ th.st = .out → th.curHalf ≤ 1 → halfOf th th.curHalf = some h → h.seg = th.next / 32 →
            (thread t c k).st = if h.left = 0 then .run else .fetch)
        ∧ ∃ e ∈ t.agenda, e.instr = .contextSaveComplete ∧ e.args = [c, k])
    -- the image is complete: the thread is SAVED, and only its places in the context region and the save area have changed
    ∧ (th.saving = false → exec .contextSaveComplete s = .next s)
    ∧ (th.saving = true → th.nv ≤ 48 → th.lands.length ≤ 9 → ∀ g, gangOf s c = some g → g.savedAll = false → ∃ t, exec .contextSaveComplete s = .next t
        ∧ (th.endReq = false → th.resume = none → thread t c k = { th with savedSt := th.st, st := .saved, saving := false })
        -- a HALT.end or a TRET that came meanwhile acts on the image
        ∧ (th.endReq = true → thread t c k = { th with savedSt := .done, st := .saved, saving := false, endReq := false })
        ∧ (∀ a, th.endReq = false → th.st = .halt → th.resume = some a →
            thread t c k = { th with savedSt := .run, st := .saved, saving := false, next := a, resume := none })
        ∧ (∀ d j, (d, j) ≠ (c, k) → thread t d j = thread s d j)
        ∧ (let a := scratch c + 0x1C0000 + 0x8000 * k
          let b := keyOf s (rankBlock g c + 0x200000 + 0x3000 * k)
          ∀ x, ¬ (a ≤ x ∧ x < a + 0x8000) → ¬ (b / 4096 * 4096 ≤ x ∧ x < (b + 0x3FFF) / 4096 * 4096) → getByte t x = getByte s x))
    -- the thread returns to rotation with a fresh translation
    ∧ (th.st = .saved → th.savedSt = .done → ∃ t, exec .contextRestoreComplete s = .next t ∧ t.mem = s.mem ∧ (thread t c k).st = .done)
    ∧ (th.st = .saved → th.savedSt ≠ .done → ∃ t, exec .contextRestoreComplete s = .next t ∧ t.mem = s.mem ∧ (thread t c k).st = th.savedSt)
    ∧ (th.st = .saved → th.savedSt ≠ .done → imageIntact s c k = true → ∃ t, exec .contextRestoreComplete s = .next t
        ∧ thread t c k = { th with
            st := th.savedSt, wait := if th.wait = .translation then .none else th.wait
            reply := if th.wait = .translation then none else th.reply, resend := []
            half0 := th.half0.map (expandAgain s c), half1 := th.half1.map (expandAgain s c) })
    ∧ (th.st ≠ .saved → ∃ t, exec .contextRestoreComplete s = .next t ∧ ∀ d j, thread t d j = thread s d j))
  -- a gang saved in place and restored
  ∧ (∀ (s : State) (n : Nat) (g : Gang), s.cur.args = [0x100000 + n] → tfind s.gangs n = some g → g.hold = true → g.completed = none →
    (∀ c ∈ coresOf g, c < 512 ∧ (Machine.core s c).gang = some n) →
    ((∀ c ∈ coresOf g, (engine s c).running = false ∧ (Machine.core s c).port = [] ∧ (Machine.core s c).waits = []
          ∧ (∀ k ∈ slotsOf g.slotm, (thread s c k).st = .saved) ∧ (∀ e ∈ s.agenda, e.instr = .channelWordArrival → e.args.getD 0 0 ≠ c)
          ∧ ∀ p ∈ s.flights, p.2.core = c → p.2.who = 8 ∨ p.2.who = 9 → p.2.replied = true) →
        ∃ t, exec .contextSaveComplete s = .next t ∧ tfind t.gangs n = some { g with savedAll := true }
          ∧ ∀ d, { Machine.core t d with tes := (Machine.core s d).tes } = Machine.core s d)
    ∧ ((∃ c ∈ coresOf g, (engine s c).running = true ∧ (engine s c).fault = 0) → ∃ t, exec .contextSaveComplete s = .next t
        ∧ t.gangs = s.gangs ∧ t.mem = s.mem ∧ ∃ e ∈ t.agenda, e.instr = .contextSaveComplete ∧ e.args = [0x100000 + n] ∧ e.due = s.gcyc + 8)
    ∧ (g.savedAll = true → ∃ t, exec .contextRestoreComplete s = .next t ∧ tfind t.gangs n = some { g with savedAll := false, image := [], kept := [] }
        ∧ t.mem = s.mem ∧ ∀ c ∈ coresOf g, (engine t c).frozen = false
          ∧ ∀ k ∈ slotsOf g.slotm, (thread s c k).st = .saved → (thread t c k).st = (thread s c k).savedSt))
  -- the release and the completion of a gang (R164, R169)
  ∧ (∀ (s : State) (n : Nat) (g : Gang), s.cur.args = [n] → tfind s.gangs n = some g →
    (g.released = true → exec .gangRelease s = .next s)
    ∧ (g.released = false → ∃ t h, exec .gangRelease s = .next t ∧ t.mem = s.mem ∧ tfind t.gangs n = some h
        ∧ h.released = true ∧ h.release = s.gcyc
        ∧ (itemsOf g = 0 → h.completed = some s.gcyc ∧ QueuesEmptied s t n)
        ∧ (itemsOf g ≠ 0 → h.completed = g.completed ∧ ∀ c ∈ coresOf g, ∀ k th, tfind (Machine.core s c).threads k = some th →
            thread t c k = if field g.slotm k 1 = 1 then
                { th with st := .run, half0 := some { expand s c (th.next / 32) with left := 0 } } else th))
    ∧ (g.released = true → g.completed = none →
        (∀ c ∈ coresOf g, ∀ k ∈ slotsOf g.slotm, (thread s c k).st = .done ∧ (thread s c k).faults = [] ∧ (thread s c k).serving = none
          ∧ (thread s c k).busy = 0) → (∀ p ∈ s.flights, p.2.core ∈ coresOf g → p.2.who < 8 → p.2.replied = true ∨ p.2.gone = true) →
        ∃ t h, exec .gangCompletion s = .next t ∧ tfind t.gangs n = some h
          ∧ { h with image := g.image } = { g with completed := some s.gcyc } ∧ QueuesEmptied s t n ∧ t.mem = s.mem)
    ∧ ((∃ c ∈ coresOf g, ∃ k ∈ slotsOf g.slotm, (thread s c k).st ≠ .done) → exec .gangCompletion s = .next s))

/-- Turns, homes and replies. R27, R34, R159, R160, R225, R227, R228, R237, R239, R405. That poison reported with an
acknowledgement is a delivery fault is the model's reading (log 27). -/
def Obligations.TurnsBeginAndFarAccessesEnd : Prop :=
  (∀ (s : State) (c k : Nat), s.cur.args = [c, k] → c < 512 →
    let th := thread s c k
    let seg := th.next / 32
    (th.st = .vacant ∨ th.st = .saved ∨ th.saving = true → ∃ t, TurnOf s t c k false th)
    ∧ (th.st = .halt → Calm th → th.resume = none → ∃ t, TurnOf s t c k false (turnPast th))
    ∧ (th.st = .run ∨ th.st = .out → Calm th → th.ttc < th.outUntil → ∃ t, TurnOf s t c k false (turnPast { th with st := .out }))
    ∧ (th.st = .done → Calm th → th.busy ≠ 0 → ∃ t, TurnOf s t c k false { th with ttc := (th.ttc + 1) % 2 ^ 64 })
    -- the thread's next bundle stands in its current half: it issues, or waits for the expansion
    ∧ (∀ h bs, th.st = .run ∨ th.st = .fetch ∨ th.st = .block → Calm th → th.outUntil ≤ th.ttc → th.curHalf ≤ 1 → halfOf th th.curHalf = some h → h.seg = seg →
        h.bundles = some bs → th.curSeg = some seg →
        (h.left ≠ 0 → ∃ t, TurnOf s t c k false (turnPast { th with st := .fetch }))
        ∧ (h.left = 0 → th.next % 32 < bs.length → ∃ t, TurnOf s t c k true { th with st := .run } ∧ t.cur.addr = th.next))
    -- the landings of a turn
    ∧ (∃ t, exec .landing s = .next t ∧ (thread t c k).lands = th.lands.filter (fun l => th.ttc < l.due) ∧ t.mem = s.mem)
    -- a delivery fault is met
    ∧ (∀ f r, th.faults = f :: r → s.node < 1024 → k < 8 → f.cause < 256 → ∃ t, exec .deliveryFault s = .next t ∧ t.mem = s.mem
        ∧ { thread t c k with ticket := th.ticket } = { th with st := .block, wait := .delivery, serving := some f, faults := r }
        ∧ ∃ e ∈ t.agenda, e.instr = .inboundMessageWrite ∧ e.args.getD 0 0 = svcFor c ∧ field (e.args.getD 1 0) 56 8 = f.cause
          ∧ field (e.args.getD 1 0) 52 4 = 1 ∧ e.args.getD 2 0 = th.next ∧ e.args.getD 3 0 = f.addr.toNat % 2 ^ 64 ∧ e.args.getD 4 0 = f.aword)
    ∧ (th.faults = [] → exec .deliveryFault s = .next s))
  ∧ (∀ (s : State) (c k h : Nat), s.cur.args = [c, k, h] → ∃ t, exec .segmentExpansionComplete s = .next t ∧ t.mem = s.mem
      ∧ (∀ x, halfOf (thread s c k) h = some x → halfOf (thread t c k) h = some { x with left := if x.left = 1 then 0 else x.left })
      ∧ ∀ d j, (d, j) ≠ (c, k) → thread t d j = thread s d j)
  -- an access at its home
  ∧ (∀ (s : State) (id : Nat) (f : Flight), Arrives s id f → 0 < f.size → Clean s f.key f.size →
    ∀ i, i = .homeServeAccess ∧ f.st = .sent ∨ i = .retryRefusalResend ∧ f.st = .refused →
    (f.op = .ld → f.mode = 0 → ∃ t, exec i s = .next t ∧ t.mem = s.mem ∧ t.empty = s.empty ∧ Answers t id f (numberAt s f.key f.size))
    ∧ (f.op = .st → f.mode = 0 → f.data.length = f.size → (∀ b ∈ f.data, b < 256) → ∃ t, exec i s = .next t ∧ Stores s t f.key f.data
        ∧ t.empty = s.empty ∧ Answers t id f 0)
    ∧ (f.op = .atom → f.mode = 0 → f.code ≤ 1 → f.aop = 0 → f.size = (if f.code = 0 then 4 else 8) →
        ∃ t, exec i s = .next t ∧ numberAt t f.key f.size = (numberAt s f.key f.size + f.operand.body) % 2 ^ (8 * f.size)
          ∧ (∀ x, ¬ (f.key ≤ x ∧ x < f.key + f.size) → getByte t x = getByte s x) ∧ Answers t id f (numberAt s f.key f.size))
    -- a synchronising access whose words are not as it needs them joins the retry list, if that has room
    ∧ (f.op = .ld → f.mode = 1 ∨ f.mode = 2 → (∃ x, f.key ≤ x ∧ x < f.key + f.size ∧ isFull s x = false) →
        (tget [] s.retry f.home).length < 4096 → (thread s f.core f.who).saving = false → (thread s f.core f.who).st ≠ .done →
        ∃ t, exec i s = .next t ∧ tfind t.flights id = some { f with st := .waiting }
          ∧ tget [] t.retry f.home = tget [] s.retry f.home ++ [id] ∧ t.mem = s.mem)
    -- or is refused and sent again later (R239)
    ∧ (f.op = .ld → f.mode = 1 ∨ f.mode = 2 → (∃ x, f.key ≤ x ∧ x < f.key + f.size ∧ isFull s x = false) →
        4096 ≤ (tget [] s.retry f.home).length → (thread s f.core f.who).saving = false → (thread s f.core f.who).st ≠ .done →
        ∃ t, exec i s = .next t ∧ tfind t.flights id = some { f with st := .refused } ∧ t.retry = s.retry ∧ t.mem = s.mem
          ∧ Coming s t .retryRefusalResend [id]))
  -- its reply
  ∧ (∀ (s : State) (id : Nat) (f : Flight), s.cur.args = [id] → tfind s.flights id = some f → f.replied = false → f.who < 8 → f.core < 528 →
    (thread s f.core f.who).saving = false → f.group = none → f.early = false → f.gone = false →
    let th := thread s f.core f.who
    ∃ t, exec .farReplyArrival s = .next t ∧ t.mem = s.mem ∧ tfind t.flights id = none
      ∧ (f.cause = 0 → f.op = .ld → ∀ d, f.dest = some d →
        let l : Landing := { due := th.ttc, issued := f.issued, pos := f.pos, act := .sreg d { body := loadExt f.code f.value, tail := 0 },
                             flags := f.oflags, acq := f.ord, far := some (f.aword, f.addr, f.rx) }
        thread t f.core f.who = { th with lands := insLanding l th.lands })
      ∧ (f.cause ≠ 0 → ∃ x, thread t f.core f.who = { th with faults := th.faults ++ [x] } ∧ x.cause = f.cause ∧ x.addr = f.addr ∧ x.dest = f.dest
          ∧ x.issued = f.issued ∧ x.pos = f.pos ∧ x.aword = f.aword))
  -- the end-to-end acknowledgement completes an access at system scope
  ∧ (∀ (s : State) (id : Nat) (f : Flight), s.cur.args = [id, 0] → tfind s.flights id = some f → f.acked = false →
    ∃ t, exec .endToEndAcknowledgement s = .next t
      ∧ tfind t.flights id = (if f.replied then none else some { f with acked := true })
      ∧ (∀ d j, (d, j) ≠ (f.core, f.who) → thread t d j = thread s d j)
      ∧ (8 ≤ f.who ∨ f.early = false ∨ f.oflags = 0 ∨ f.gone = true → t.mem = s.mem ∧ thread t f.core f.who = thread s f.core f.who)
      -- the flags of an FVATOM that its link answered before it performed
      ∧ (f.who < 8 → f.early = true → f.oflags ≠ 0 → f.op = .vat → f.dest = none → f.gone = false → f.core < 2 ^ 32 →
          let th := thread s f.core f.who
          th.st ≠ .saved → t.mem = s.mem ∧ thread t f.core f.who =
            { th with lands := insLanding { due := th.ttc, issued := f.issued, pos := f.pos, act := .nothing, flags := f.oflags } th.lands }))
  -- poison that the far end reports with it is a delivery fault
  ∧ (∀ (s : State) (id n : Nat) (f : Flight), s.cur.args = [id, n] → n ≠ 0 → tfind s.flights id = some f → f.acked = false → f.who < 8 →
    f.gone = false → f.core < 2 ^ 32 → (thread s f.core f.who).st ≠ .saved →
    ∃ t x, exec .endToEndAcknowledgement s = .next t ∧ t.mem = s.mem ∧ x.cause = n ∧ x.addr = f.addr
      ∧ thread t f.core f.who = { thread s f.core f.who with faults := (thread s f.core f.who).faults ++ [x] })

/-- NOP, WAIT, LAUNCH, COPY, CKPT, GRAPH, PREEMPT and RESUME. R342, R366, R368, R371, R373 to R375, R377. The order of the
checks of a launch, that of a copy and that PREEMPT and RESUME retire with the save or restore complete are the model's reading
(log 46, 49, 50), and so are that a launch joins behind those that wait (log 51) and that a copy's operands are held to the
partition as it starts (log 102). -/
def Obligations.FrontEndCommandsOfAnyQueue : Prop :=
  ∀ (s : State) (q seq n : Nat) (k : Command) (p : Partition), AtWork s q seq k → partOf s q = some (n, p) →
    let a := fun i => k.args.getD i 0
    -- NOP
    EndsAt .nopCommand s q k 0 0 0
    -- WAIT (Table 17.6)
    ∧ (field (a 1) 34 30 ≠ 0 ∨ a 0 % 4 ≠ 0 → EndsAt .wait s q k 1 0 0)
    ∧ (field (a 1) 34 30 = 0 → a 0 % 4 = 0 →
        let inside : Prop := InRange p (a 0) 4 ∨ a 0 / 2 ^ 50 = s.node ∧ 2 ^ 49 ≤ a 0 % 2 ^ 50 ∧ a 0 % 2 ^ 50 + 4 ≤ 3 * 2 ^ 48
        let w := numberAt s (keyOf s (a 0)) 4
        let v := field (a 1) 0 32
        let met : Prop := match field (a 1) 32 2 with
          | 0 => v ≤ w
          | 1 => w = v
          | 2 => w ≠ v
          | _ => isBeyond (keyOf s (a 0)) = true ∨ isFull s (keyOf s (a 0)) = true
        (¬ inside → EndsAt .wait s q k 2 0 0)
        ∧ (inside → Seen s (a 0) 4 → met → ∃ t, exec .wait s = .next t ∧ Retires s t q k 0 0 w ∧ t.mem = s.mem)
        ∧ (inside → Seen s (a 0) 4 → ¬ met → ∃ t, exec .wait s = .next t ∧ Waits s t q k ∧ t.mem = s.mem ∧ t.agenda = s.agenda))
    -- LAUNCH: an object outside the range; one that is accepted waits for its place
    ∧ (¬ InRange p (a 0) 64 → s.agenda.any (fun e => e.instr = .launch && e.due ≤ s.gcyc) = true → EndsAt .launch s q k 2 0 0)
    ∧ ((launchRefused s p k.args).1 = 0 → s.agenda.any (fun e => e.instr = .launch && e.due ≤ s.gcyc) = true →
        ∃ t, exec .launch s = .next t ∧ Waits s t q k ∧ t.mem = s.mem ∧ t.cores = s.cores
          ∧ t.front.waits = s.front.waits ++ [{ queue := q, seq := seq, node := 0, args := k.args }])
    -- COPY: the descriptor becomes a command of the tephra core that the partition names
    ∧ (let d := (List.range 16).map (objWord s (a 0))
      let good : Prop := CopyGood (d.set 3 0) ∧ d.getD 3 0 < 16 ∧ d.getD 3 0 % 8 ≤ 4
      ∀ c, field p.copyep 0 3 = 0 → field p.copyep 12 10 = s.node → coreAt (p.copyep % 2 ^ 22) = some c → p.has c = true →
        (Machine.core s c).gang = none → InRange p (a 0) 128 → Seen s (a 0) 128 →
        -- no element lies outside the partition's DRAM (R363)
        let stays := copyStrays s p c d = false
        (¬ good → EndsAt .copy s q k 1 0 0)
        ∧ (good → ¬ (RangesFit s c (CopyIn d) (CopyAligned d) ∧ stays) → EndsAt .copy s q k 2 0 0)
        ∧ (good → RangesFit s c (CopyIn d) (CopyAligned d) → stays → let j := field p.copyep 63 1
            (tephra s c j).queue.length < 8 → ∃ t x, exec .copy s = .next t ∧ t.mem = s.mem
              ∧ (tephra t c j).queue = (tephra s c j).queue ++ [x] ∧ x.coll = false ∧ x.desc = d ∧ x.token = s.nextId + 1
              ∧ (Machine.core t c).windows = p.wins ∧ queue t q = queue s q))
    -- CKPT: the pages are divided among the tephra cores of the partition in ascending endpoint identifier, all of which run the
    -- standard image; the last takes the remainder
    ∧ (a 1 % 4096 ≠ 0 ∨ a 0 % 4096 ≠ 0 ∨ a 2 % 4096 ≠ 0 → EndsAt .ckpt s q k 1 0 0)
    ∧ (a 1 % 4096 = 0 → a 0 % 4096 = 0 → a 2 % 4096 = 0 → (∀ i, a i < 2 ^ 64) →
        let own : Prop := ∃ c ∈ p.cores, ∃ j < 2, (Machine.core s c).gang.isSome ∧ (tephra s c j).std = false
        let m := 2 * p.cores.length
        let pages := a 1 / 4096
        let part := fun i => if i + 1 = m then pages - pages / m * (m - 1) else pages / m
        -- every page of a share lies in the partition's DRAM, if it lies in DRAM of this device at all (R363)
        let stays : Prop := ∀ i < m, ∀ d ∈ pageCopies 64 (a 0 + 4096 * (pages / m * i)) (a 2 + 4096 * (pages / m * i)) (part i),
          copyStrays s p (p.cores.getD (i / 2) 0) d = false
        (own ∨ ¬ stays → EndsAt .ckpt s q k 2 0 0)
        ∧ (¬ own → a 1 = 0 → EndsAt .ckpt s q k 0 0 0)
        ∧ (¬ own → stays → a 1 ≠ 0 → ∃ t, exec .ckpt s = .next t ∧ Waits s t q k ∧ t.mem = s.mem
            ∧ ∀ i < m, 0 < part i → part i ≤ 2 ^ 24 → ∃ id x, tfind t.front.shares id = some x ∧ x.queue = q ∧ x.seq = seq ∧ x.ended = none
                ∧ x.core = p.cores.getD (i / 2) 0 ∧ x.te = i % 2
                ∧ x.desc.getD 0 0 + wordField x.desc 2 56 8 * 2 ^ 64 = a 0 + 4096 * (pages / m * i)
                ∧ x.desc.getD 1 0 + wordField x.desc 2 48 8 * 2 ^ 64 = a 2 + 4096 * (pages / m * i)
                ∧ wordField x.desc 2 46 2 = 1 ∧ wordField x.desc 2 44 2 = 1 ∧ wordField x.desc 2 41 1 = 1 ∧ wordField x.desc 2 29 3 = 0
                ∧ field (copyDim x.desc 0) 0 24 = part i - 1 ∧ field (copyDim x.desc 0) 24 36 = 4096 ∧ field (copyDim x.desc 0) 60 36 = 4096))
    -- GRAPH: the graph is taken over
    ∧ (let h := objWord s (a 0) 0
      let m := field h 56 8 + 1
      let w := fun i j => objWord s (a 0) (8 * (i + 1) + j)
      let good : Prop := field h 0 32 = 0 ∧ field h 32 24 ≠ 0 ∧ ∀ i, 1 ≤ i → i < 8 → objWord s (a 0) i = 0
      -- a conditional's re-arm edge names a node in its range (R377)
      let rearm : Prop := ∀ i < m, field (w i 0) 56 8 = 5 →
        field (w i 1) 0 8 < m ∧ field (w i 4) 0 8 ≤ field (w i 1) 0 8 ∧ field (w i 1) 0 8 ≤ field (w i 4) 8 8
      (¬ InRange p (a 0) 64 → EndsAt .graph s q k 2 0 0)
      ∧ (InRange p (a 0) 64 → Seen s (a 0) 64 → ¬ good → EndsAt .graph s q k 1 0 0)
      ∧ (InRange p (a 0) 64 → Seen s (a 0) 64 → good → ¬ InRange p (a 0) (64 * (m + 1)) → EndsAt .graph s q k 2 0 0)
      ∧ (InRange p (a 0) 64 → InRange p (a 0) (64 * (m + 1)) → Seen s (a 0) (64 * (m + 1)) → good →
          (¬ rearm → EndsAt .graph s q k 1 0 0)
          ∧ (rearm → ∃ t g, exec .graph s = .next t ∧ t.mem = s.mem ∧ queue t q = queue s q ∧ tfind t.front.graphs s.nextId = some g
            ∧ g.queue = q ∧ g.seq = seq ∧ g.loopmax = field h 32 24 ∧ g.closed = false ∧ g.nodes.map Prod.fst = List.range m)))
    -- PREEMPT and RESUME of the gang that a command launched
    ∧ (1 < a 1 → EndsAt .preempt s q k 1 0 0)
    ∧ (a 1 ≤ 1 → gangOfSeq s q (a 0) = none → EndsAt .preempt s q k 2 0 0 ∧ EndsAt .resume s q k 2 0 0)
    ∧ (∀ m g, gangOfSeq s q (a 0) = some (m, g) →
        (a 1 ≤ 1 → g.pre = true → g.released = true → g.completed = none → g.savedAll = false →
          gangSaving s m = false → tfind s.gangs m = some g →
          ∃ t, exec .preempt s = .next t ∧ Waits s t q k ∧ t.mem = s.mem
            ∧ (∃ h, tfind t.gangs m = some h ∧ h = { g with hold := decide (a 1 = 1) })
            ∧ ∃ e ∈ t.agenda, e.instr = .contextSaveComplete ∧ e.args = [0x100000 + m] ∧ e.due = s.gcyc + 8)
        ∧ (a 1 ≤ 1 → g.pre = false → EndsAt .preempt s q k 2 0 0)
        -- the restore begins at once, if the gang's cores are free for it
        ∧ (g.savedAll = true → ∃ t, exec .resume s = .next t ∧ Waits s t q k ∧ t.mem = s.mem
            ∧ ((∀ c ∈ coresOf g, (Machine.core s c).gang = if g.hold then some m else none) →
                ∃ e ∈ t.agenda, e.instr = .contextRestoreComplete ∧ e.args = [0x100000 + m] ∧ e.due = s.gcyc)
            ∧ (¬ (∀ c ∈ coresOf g, (Machine.core s c).gang = if g.hold then some m else none) → t.agenda = s.agenda))
        ∧ (g.savedAll = false → EndsAt .resume s q k 2 0 0))

/-- QCONF, PCONF, PRESET, PWIN, FWLOAD, ATTEST and SWITCH. R363 to R365, R385, R386, R407, R408. The layout of the
report is the model's choice, and so is that SWITCH sets PERS as the group enters TRAIN (log 56, 62); the order of some checks and what
PRESET aborts are its reading (log 49, 53, 57). -/
def Obligations.AdministrationOfTheFrontEnd : Prop :=
  ∀ (s : State) (seq : Nat) (k : Command), AtWork s 0 seq k →
    let a := fun i => k.args.getD i 0
    let ends := fun (i : Instr) (st : Nat) => EndsAt i s 0 k st 0 0
    -- retires OK after `f` has changed the front end
    let does := fun (i : Instr) (P : State → Prop) => ∃ t, exec i s = .next t ∧ Retires s t 0 k 0 0 0 ∧ P t
    -- QCONF (R365, Table 17.3)
    (63 < a 0 → ends .qconf 1)
    ∧ (Seen s (a 1) 64 → a 0 ≤ 63 →
        let w := objWord s (a 1)
        let q := a 0
        let x := queue s q
        let there := fun (b n : Nat) => (b / 2 ^ 50 = s.node ∧ 2 ^ 49 ≤ b % 2 ^ 50 ∧ b % 2 ^ 50 + n ≤ 3 * 2 ^ 48) ∨ ∃ m p, partOf s q = some (m, p) ∧ InRange p b n
        let good : Prop := field (w 0) 0 24 = 0 ∧ field (w 0) 56 4 ≤ 10 ∧ field (w 0) 52 4 ≤ 10 ∧ field (w 0) 32 8 ≠ 0 ∧ w 1 < 2 ^ 60
          ∧ w 1 % 4096 = 0 ∧ w 2 < 2 ^ 60 ∧ w 2 % 4096 = 0 ∧ w 3 < 2 ^ 32 ∧ w 4 ≤ 1 ∧ w 5 = 0 ∧ w 6 = 0 ∧ w 7 = 0
        let rings : Prop := field (w 0) 63 1 = 1 → there (w 1) (64 * 2 ^ (field (w 0) 56 4 + 6)) ∧ there (w 2) (32 * 2 ^ (field (w 0) 52 4 + 6))
        let poisoned : Prop := x.state = 3 ∨ x.state = 2 ∧ x.was = 3
        let busy : Prop := x.cmds ≠ [] ∨ x.due ≠ []
        (¬ good → ends .qconf 1)
        ∧ (good → ¬ rings → ends .qconf 2)
        ∧ (good → rings → poisoned → w 4 = 0 → ends .qconf 2)
        ∧ (good → rings → ¬ poisoned → busy → ends .qconf 2)
        ∧ (q ≠ 0 → good → rings → (poisoned ∧ w 4 = 1) ∨ (¬ poisoned ∧ ¬ busy) → does .qconf (fun t =>
            (queue t q).desc = { en := decide (field (w 0) 63 1 = 1), prio := field (w 0) 60 3, clog := field (w 0) 56 4, klog := field (w 0) 52 4,
                                 vec := field (w 0) 40 12, ccnt := field (w 0) 32 8, ctim := field (w 0) 24 8, cring := w 1, kring := w 2, jbud := w 3 }
            ∧ (x.state ≠ 2 → (queue t q).state = (if field (w 0) 63 1 = 1 then 1 else 0)) ∧ (queue t q).epoch = x.epoch + 1
            ∧ (queue t q).due = x.due ++ x.aborted ∧ (queue t q).aborted = [] ∧ (queue t q).cmds = x.cmds
            ∧ (w 4 = 0 → (queue t q).tail = 0 ∧ (queue t q).lacc = 0 ∧ (queue t q).lret = 0 ∧ (queue t q).cwr = 0 ∧ (queue t q).chead = 0)
            ∧ (w 4 = 1 → (queue t q).tail = x.tail ∧ (queue t q).lacc = x.lacc ∧ (queue t q).cwr = x.cwr))))
    -- PCONF (R363, Table 17.2)
    ∧ (Seen s (a 0) 128 →
        let w := objWord s (a 0)
        let n := field (w 0) 0 3
        let rect := fun i => field (w (1 + i / 2)) (32 * (i % 2)) 32
        let rects := (List.range (field (w 0) 60 4)).map rect
        let good : Prop := field (w 0) 3 57 = 0 ∧ rects.length ≤ 8
          ∧ (∀ r ∈ rects, field r 18 14 = 0 ∧ field r 0 2 = 0 ∧ field r 12 4 + field r 5 4 ≤ 15 ∧ field r 9 3 + field r 2 3 ≤ 7)
          ∧ (∀ i, i = 5 ∨ i = 6 ∨ i = 8 → w i < 2 ^ 60 ∧ w i % 2 ^ 30 = 0) ∧ w 7 % 2 = 0 ∧ field (w 10) 22 41 = 0
          ∧ (∀ i, 11 ≤ i → i < 16 → w i = 0) ∧ (rects ≠ [] → w 6 ≠ 0 → w 5 ≤ w 8 ∧ w 8 < w 5 + w 6)
        -- its rectangles are disjoint, it collides with no other partition, and no gang of it is there
        let free : Prop := (∀ i j, i < j → j < rects.length → ¬ ShareCore (rects.getD i 0) (rects.getD j 0))
          ∧ (∀ o ∈ s.front.parts, o.1 ≠ n → (∀ r ∈ rects, ∀ u ∈ o.2.rects, ¬ ShareCore r u) ∧ w 7 &&& o.2.qmask = 0
              ∧ ¬ (w 5 < o.2.dbase + o.2.dsize ∧ o.2.dbase < w 5 + w 6))
          ∧ ∀ g ∈ s.gangs, g.2.part = n → g.2.completed.isSome
        let resetting : Prop := ∃ p, tfind s.front.parts n = some p ∧ p.resetting.isSome
        (¬ good → ends .pconf 1)
        ∧ (good → ¬ free → ends .pconf 2)
        ∧ (good → free → resetting → ∃ t, exec .pconf s = .next t ∧ { t with agenda := s.agenda } = s
            ∧ ∃ e ∈ t.agenda, e.instr = .pconf ∧ e.args = [0, seq, 0] ∧ e.due = s.gcyc + 250 * s.board.clk)
        ∧ (good → free → ¬ resetting → does .pconf (fun t => t.mem = s.mem
            ∧ (∀ m, m ≠ n → tfind t.front.parts m = tfind s.front.parts m)
            ∧ (rects = [] → tfind t.front.parts n = none)
            ∧ (rects ≠ [] → tfind t.front.parts n = some { rects := rects, dbase := w 5, dsize := w 6, qmask := w 7, farea := w 8, rawp := w 9,
                                                           copyep := w 10, resetting := none
                                                           wins := match tfind s.front.parts n with | some p => p.wins | none => [] }))))
    -- PRESET (R364): the commands that its queues had accepted when it was accepted end ABORTED, and every thread of the partition's
    -- cores ends
    ∧ (7 < a 0 ∨ 1 < a 1 → ends .preset 1)
    ∧ (a 0 ≤ 7 → a 1 ≤ 1 → tfind s.front.parts (a 0) = none → ends .preset 2)
    ∧ (a 0 ≤ 7 → a 1 ≤ 1 → ∀ p, tfind s.front.parts (a 0) = some p → p.resetting.isSome → ends .preset 2)
    ∧ (a 0 ≤ 7 → a 1 ≤ 1 → ∀ p, tfind s.front.parts (a 0) = some p → p.resetting = none → field p.qmask 0 1 = 0 →
        ∃ t, exec .preset s = .next t ∧ Waits s t 0 k ∧ tfind t.front.parts (a 0) = some { p with resetting := some (seq, a 1) }
          ∧ (∀ q, 0 < q → q < 64 → field p.qmask q 1 = 1 →
              let dead := (queue s q).cmds.filter (fun x => x.doomed.contains seq)
              (queue t q).cmds = (queue s q).cmds.filter (fun x => !(dead.map (fun y => y.seq)).contains x.seq)
              ∧ ∃ l, (queue t q).due = (queue s q).due ++ l
                ∧ l.map (fun c => (c.cmdseq, c.status)) = dead.map (fun x => (x.seq, 6)))
          ∧ ∀ c j, (tfind s.cores c).isSome → p.has c = true → j < 8 → let th := thread t c j
              th.st = .vacant ∨ th.st = .done ∨ th.st = .saved ∧ th.savedSt = .done ∨ th.endReq = true)
    -- PWIN (R373)
    ∧ (tfind s.front.parts (a 0) = none → ends .pwin (if 7 < a 0 then 1 else 2))
    ∧ (∀ p, tfind s.front.parts (a 0) = some p → 4096 < a 2 → ends .pwin 1)
    ∧ (∀ p, tfind s.front.parts (a 0) = some p → a 2 ≤ 4096 → Seen s (a 1) (16 * a 2) →
        let e := fun i => numberAt s (keyOf s (a 1) + 16 * i) 16
        let good : Prop := (∀ i < a 2, installCause s [] (e i) = 0)
          ∧ ∀ i j, i < j → j < a 2 → ¬ (field (e i) 127 1 = 1 ∧ entryPlace (e i) = entryPlace (e j))
        (¬ good → ends .pwin 1)
        ∧ (good → does .pwin (fun t => t.mem = s.mem ∧ ∃ y, tfind t.front.parts (a 0) = some { p with wins := y }
            ∧ (∀ i < a 2, (∀ j, i < j → j < a 2 → entryPlace (e j) ≠ entryPlace (e i)) → tget 0 y (entryPlace (e i)) = e i)
            ∧ (∀ n, (∀ i < a 2, entryPlace (e i) ≠ n) → tget 0 y n = 0)
            ∧ ∀ c, (tfind s.cores c).isSome → p.has c = true → (Machine.core s c).gang = none → (Machine.core t c).windows = y)))
    -- FWLOAD and ATTEST (R384, R386)
    ∧ (0x100000 < a 0 + a 1 ∨ a 1 = 0 → ends .fwload 1)
    ∧ (a 0 + a 1 ≤ 0x100000 → a 1 ≠ 0 → s.front.fwload.isSome → ends .fwload 2)
    ∧ (a 0 + a 1 ≤ 0x100000 → a 1 ≠ 0 → s.front.fwload = none → ∃ t, exec .fwload s = .next t ∧ Waits s t 0 k
        ∧ t.front.fwload = some (seq, a 0, a 1) ∧ t.front.hphase = 1 ∧ t.front.rstat = 0 ∧ t.mem = s.mem)
    ∧ ((∃ v < 4, (vent s v).failed = true ∨ (vent s v).reloading = true) → EndsAt .attest s 0 k 9 0xE3 0)
    ∧ ((∀ v < 4, (vent s v).failed = false ∧ (vent s v).reloading = false) →
        let base := keyOf s (a 0)
        let inHost := fun (n : Nat) => a 0 / 2 ^ 50 = s.node ∧ 2 ^ 49 ≤ a 0 % 2 ^ 50 ∧ a 0 % 2 ^ 50 + n ≤ 3 * 2 ^ 48
        (¬ inHost 1 → ends .attest 2)
        ∧ (inHost 8192 → Clean s base 8192 → does .attest (fun t =>
          (∀ i < 4, numberAt t (base + 8 * i) 8 = a (1 + i) % 2 ^ 64)
          -- the version and the measurement of each vent core's image
          ∧ (∀ v < 4, numberAt t (base + 40 + 72 * v) 8 = (vent s v).iver % 2 ^ 64
              ∧ ∀ i < 64, (getByte t (base + 48 + 72 * v + i)).toNat = (shake256 (vent s v).image).getD i 0 % 256)
          ∧ ∀ x, x < base ∨ base + 8192 ≤ x → getByte t x = getByte s x)))
    -- SWITCH (R407, Table 18.7)
    ∧ (let g := a 0
      let pers := a 1 % 16
      let cfg := field (a 1) 6 54
      let r := if pers = 1 then 0 else numberAt s (keyOf s (64 * cfg)) 192
      let st := (edge s g).state
      let shown : Prop := pers ≠ 1 → Seen s (64 * cfg) 192
      let bad : Prop := field r 9 55 ≠ 0 ∨ field r 256 256 ≠ 0 ∨ field r (512 + s.node) 1 ≠ 0 ∨ field r 252 4 ≠ 0
        ∨ pers = 2 ∧ (field r 64 128 ≠ s.node ∨ field r 192 64 ≠ 0)
      let conf := fun (e : EdgeGroup) => { e with
        newPers := pers, req := e.req ++ [seq], tries := 0, tsync := decide (field r 8 1 = 1), tdom := field r 0 8
        addr := field r 64 128, ntab := field r 192 60, nmask := field r 512 1024 }
      (15 < g ∨ pers = 0 ∨ 3 < pers ∨ field (a 1) 60 4 ≠ 0 ∨ field (a 1) 4 2 ≠ 0 → ends .switch 1)
      ∧ (g ≤ 15 → 1 ≤ pers → pers ≤ 3 → field (a 1) 60 4 = 0 → field (a 1) 4 2 = 0 →
          (pers = 1 → cfg ≠ 0 → ends .switch 1)
          ∧ (pers ≠ 1 → shown → bad → ends .switch 1)
          ∧ ((pers = 1 → cfg = 0) → shown → (pers ≠ 1 → ¬ bad) →
              (st ≠ 0 → st ≠ 3 → st ≠ 7 → ends .switch 2)
              -- a group that is DOWN or FAILED trains at once
              ∧ (st = 3 ∨ st = 7 → ∃ t, exec .switch s = .next t ∧ queue t 0 = queue s 0
                ∧ edge t g = { conf (edge s g) with state := 4, pers := pers }
                ∧ (∀ h, h ≠ g → edge t h = edge s h)
                ∧ ∃ e ∈ t.agenda, (e.instr = .linkTrained ∨ e.instr = .trainingFailed) ∧ e.args = [g])
              -- one that is ACTIVE quiesces first, for 2 µs at most
              ∧ (st = 0 → 0 < s.board.clk → ∃ t, exec .switch s = .next t ∧ queue t 0 = queue s 0
                ∧ edge t g = { conf (edge s g) with state := 1 }
                ∧ (∀ h, h ≠ g → edge t h = edge s h)
                ∧ ∃ e ∈ t.agenda, e.instr = .quiesceAcknowledged ∧ e.args = [g] ∧ s.gcyc < e.due ∧ e.due ≤ s.gcyc + 250 * s.board.clk))))

/-- Frames, the host's accesses and reloads. R198, R201, R362, R365, R369, R378, R381 to R384, R419. The layout
of an image's trailer and how a change of the clock comes and shows in STAT are the model's choices, and what a failed core's queues keep
its reading (log 55, 59, 75). -/
def Obligations.FramesHostAccessesAndReloads : Prop :=
  -- the host writes TAIL, CHEAD and ADMINGO (Tables 17.4, 17.13)
  (∀ (s : State) (q v : Nat), s.board.step = 5 → s.board.rst = false → s.board.supply = true → q < 64 →
    (s.cur.args = [q, v] →
      (∃ t, exec .writeTail s = .next t ∧ queue t q = { queue s q with tail := v % 2 ^ 64 } ∧ t.mem = s.mem ∧ ∀ r, r ≠ q → queue t r = queue s r)
      ∧ (∃ t, exec .writeChead s = .next t ∧ t.mem = s.mem ∧ (∀ r, r ≠ q → queue t r = queue s r)
        ∧ queue t q = if (queue s q).chead ≤ v ∧ v ≤ (queue s q).cwr then { queue s q with chead := v } else queue s q))
    ∧ (s.cur.args = [v] → exec .writeAdmingo s = .next { s with front := { s.front with admingo := v % 256 } }))
  -- HOST_APERTURE_ACCESS: a read and a write of a scratchpad through its engine port, a read of a status page, a write of the admin descriptor
  ∧ (∀ (s : State) (c o n : Nat) (l : List Nat), s.board.step = 5 → s.board.rst = false → s.board.supply = true → c < 512 →
    let charged := fun (t : State) => ∀ d, { Machine.core t d with activity := (Machine.core s d).activity } = Machine.core s d
    -- it comes behind what waits at the engine port (R198)
    let joins := fun (t : State) => t.mem = s.mem ∧ t.front = s.front
      ∧ (Machine.core t c).waits = (Machine.core s c).waits ++ [(.hostApertureAccess, s.cur.args)]
    (s.cur.args = [0, scratch c + o, n] → (Machine.core s c).waits ≠ [] → o < 0x200000 → ∃ t, exec .hostApertureAccess s = .next t ∧ joins t)
    ∧ (s.cur.args = [0, scratch c + o, n] → (Machine.core s c).waits = [] → o + n ≤ 0x200000 → SeenAt s (scratch c + o) n →
      o < 0x200000 → ∃ t, exec .hostApertureAccess s = .next t
      ∧ { t with front := { t.front with hostRead := s.front.hostRead }, cores := s.cores } = s ∧ charged t
      ∧ t.front.hostRead = (List.range n).map (fun i => (getByte s (scratch c + o + i)).toNat))
    ∧ (s.cur.args = [1, scratch c + o] ++ l → l ≠ [] → o + l.length ≤ 0x200000 →
      (portBars s c (scratch c + o) l.length = true → ∃ t, exec .hostApertureAccess s = .next t ∧ joins t)
      ∧ (portBars s c (scratch c + o) l.length = false → Clean s (scratch c + o) l.length → ∃ t, exec .hostApertureAccess s = .next t
        ∧ Stores s t (scratch c + o) l ∧ charged t ∧ t.front = s.front ∧ t.empty = s.empty))
    ∧ (∀ q < 64, ∀ i < 8, s.cur.args = [0, 0x3000200010000 + 4096 * q + 8 * i, 8] → ∃ t, exec .hostApertureAccess s = .next t ∧ t.mem = s.mem
      ∧ let x := queue s q
        numberOf t.front.hostRead 0 8 = [x.tail, x.lacc, x.lret, x.cwr, x.chead, x.epoch,
          x.state + (if x.terr then 256 else 0) + (if x.bexh then 512 else 0) + x.owner * 1024, x.jused].getD i 0 % 2 ^ 64)
    ∧ (s.cur.args = [1, 0x3000200000080 + o] ++ l → o + l.length ≤ 64 → ∃ t, exec .hostApertureAccess s = .next t ∧ t.mem = s.mem
      ∧ ∀ i < 64, t.front.adminq.getD i 0 = if o ≤ i ∧ i < o + l.length then l.getD (i - o) 0 else s.front.adminq.getD i 0))
  -- a word of the state block that has waited at a service core's engine port is written full when the port lets it (R198, R410)
  ∧ (∀ (s : State) (c o v : Nat), s.cur.args = [2, scratch c + o, v] → 512 ≤ c → c < 528 → o + 8 ≤ 0x80000 →
    let k := scratch c + o
    (portBars s c k 8 = true → ∃ t, exec .hostApertureAccess s = .next t ∧ t.mem = s.mem
      ∧ (Machine.core t c).waits = (Machine.core s c).waits ++ [(.hostApertureAccess, s.cur.args)])
    ∧ (portBars s c k 8 = false → ∃ t, exec .hostApertureAccess s = .next t ∧ getNat t k 8 = v % 2 ^ 64
      ∧ (∀ x, k ≤ x → x < k + 8 → isFull t x = true) ∧ ∀ x, ¬ (k ≤ x ∧ x < k + 8) → getByte t x = getByte s x ∧ (k % 4 = 0 → isFull t x = isFull s x)))
  -- the executive's frame (R378): the next follows, and the first vent core of four idle ones counts it, once
  ∧ (∀ (s : State) (v : Nat), s.cur.args = [v] → v < 4 →
    ((vent s v).failed = true ∨ (vent s v).reloading = true → ∃ t, exec .executiveFrame s = .next t
        ∧ t.front = s.front ∧ t.mem = s.mem ∧ t.cores = s.cores
        ∧ ∃ e ∈ t.agenda, e.instr = .executiveFrame ∧ e.args = [v] ∧ e.due = s.gcyc + 250 * s.board.clk)
    ∧ ((∀ u < 4, (vent s u).failed = false ∧ (vent s u).reloading = false ∧ (vent s u).orphaned = false) → s.front.fwload = none → s.front.hphase = 0 →
        (∀ q < 64, (queue s q).state = 0 ∧ (queue s q).due = []) → s.front.admingo ≠ 1 → v < 3 → ∃ t, exec .executiveFrame s = .next t ∧ t.mem = s.mem ∧ t.cores = s.cores
        ∧ t.front.frames = (if s.front.started = s.gcyc + 1 then s.front.frames else s.front.frames + 1)
        ∧ t.front.started = s.gcyc + 1
        ∧ (vent t v).hbeat = (vent s v).hbeat + 1
        ∧ ∃ e ∈ t.agenda, e.instr = .executiveFrame ∧ e.args = [v] ∧ e.due = s.gcyc + 250 * s.board.clk))
  -- a new budget period (R381), a change of the clock (R419)
  ∧ (∀ s : State, ∃ t, exec .budgetPeriodBoundary s = .next t ∧ t.mem = s.mem
      ∧ ∀ q x, tfind s.front.queues q = some x → queue t q = { x with charge := 0, jused := 0, bexh := false })
  ∧ (∀ (s : State) (m : Nat), s.cur.args = [m] →
      let up : Prop := s.board.supply = true ∧ s.board.rst = false ∧ 4 ≤ s.board.step
      let one : Prop := (m = 10 ∨ m = 12 ∨ m = 14) ∧ (m = s.board.clk + 2 ∨ m + 2 = s.board.clk)
      (up → one → s.front.clockDue = none →
        ∃ t, exec .clockChange s = .next t ∧ t.front = { s.front with clockDue := some m, heldLaunches := true } ∧ t.board.clk = s.board.clk
          ∧ t.board.stat = (if m < s.board.clk then s.board.stat ||| 2 else s.board.stat) ∧ t.mem = s.mem)
      -- what comes when none can be made shows in STAT alone
      ∧ (up → ¬ one ∨ s.front.clockDue.isSome → exec .clockChange s =
          .next (if m + 2 = s.board.clk then { s with board := { s.board with stat := s.board.stat ||| 2 } } else s))
      ∧ (¬ up → exec .clockChange s = .next s))
  -- the reload of a halted vent core (R382, R384)
  ∧ (∀ (s : State) (r : Nat), s.cur.args = [r] → (vent s (r % 4)).failed = true →
      ∃ t, exec .writeReload s = .next t ∧ (vent t (r % 4)).reloading = true ∧ t.front.rstat = 1 ∧ t.front.reload = r ∧ t.mem = s.mem
        ∧ ∃ e ∈ t.agenda, e.instr = .ventReloadComplete ∧ e.args = [r % 4, field r 12 20 * 4096, field r 32 20 * 4096] ∧ s.gcyc < e.due)
  ∧ (∀ (s : State) (v o n : Nat), s.cur.args = [v, o, n] → (vent s v).reloading = true → (vent s v).failed = true →
      let img := getBytes s (0x3000200100000 + o) n
      (accepts img = true → ∃ t, exec .ventReloadComplete s = .next t ∧ t.front.rstat = 3 ∧ t.mem = s.mem ∧ (vent t v).image = img
          ∧ (vent t v).failed = false ∧ (vent t v).reloading = false ∧ (vent t v).iver = numberOf img (n - 1352) 8
          ∧ ∀ q < 64, (queue s q).owner = v → (queue s q).state = 2 → (queue t q).state = (queue s q).was ∧ (queue t q).epoch = (queue s q).epoch + 1)
      -- the trailer's digest is that of all before it (R384)
      ∧ (accepts img = true → 1352 ≤ n ∧ (img.drop (n - 1344)).take 64 = shake256 (img.take (n - 1344)))
      ∧ (accepts img = false → ∃ t, exec .ventReloadComplete s = .next t ∧ t.front.rstat = 2 ∧ t.mem = s.mem
          ∧ vent t v = { vent s v with reloading := false }))
  -- an error in a queue's table poisons it and ends its commands (R383)
  ∧ (∀ (s : State) (q : Nat), s.cur.args = [q] → 0 < q → q < 64 →
      let up : Prop := s.board.supply = true ∧ s.board.rst = false
      ((queue s q).state = 3 ∨ ¬ up → exec .queueTableError s = .next s)
      ∧ ((queue s q).state ≠ 3 → up → ∃ t, exec .queueTableError s = .next t ∧ (queue t q).state = 3 ∧ (queue t q).cmds = [] ∧ (queue t q).due = (queue s q).due
        ∧ (queue t q).aborted.map (fun c => (c.cmdseq, c.status)) = (queue s q).cmds.map (fun k => (k.seq, 6))
        ∧ ∃ c, (queue t 0).due = (queue s 0).due ++ [c] ∧ c.cause = 0xE0 ∧ c.detail = q ∧ c.cmdseq = 0))

/-- Conduits, edge groups and link peers. R218, R227, R391, R393, R396 to R399, R402, R406, R408, R410, R411. The polls and the
choices of training are the model's (log 62, 63, 67). -/
def Obligations.LinksAndConduits : Prop :=
  -- conduit contexts (R391): OPEN binds a stream to its own tag, a free one, or the one unused longest
  (∀ (s : State) (d u v a n : Nat), s.cur.args = [d, u, v, a, n] →
    (∃ k, exec .openPacket s = .next { s with links := { s.links with
          contexts := tset s.links.contexts (d * 65536 + k) { src := u, dst := v, next := a + n, used := s.gcyc } } }
      ∧ ((∃ p ∈ contextsOf s d, p.2.src = u ∧ p.2.dst = v ∧ p.1 % 65536 = k)
        ∨ ((∀ p ∈ contextsOf s d, ¬ (p.2.src = u ∧ p.2.dst = v)) ∧ (contextsOf s d).length < 4096 ∧ k < 4096
            ∧ ∀ p ∈ contextsOf s d, p.1 % 65536 ≠ k)
        ∨ ((∀ p ∈ contextsOf s d, ¬ (p.2.src = u ∧ p.2.dst = v)) ∧ 4096 ≤ (contextsOf s d).length
            ∧ ∃ p ∈ contextsOf s d, p.1 % 65536 = k ∧ ∀ q ∈ contextsOf s d, p.2.used ≤ q.2.used)))
    ∧ ((∀ p ∈ contextsOf s d, ¬ (p.2.src = u ∧ p.2.dst = v)) → exec .contPacket s = .next s)
    ∧ ((∃ p ∈ contextsOf s d, p.2.src = u ∧ p.2.dst = v) → ∃ k, (∃ p ∈ contextsOf s d, p.2.src = u ∧ p.2.dst = v ∧ p.1 % 65536 = k)
        ∧ exec .contPacket s = .next { s with links := { s.links with
            contexts := tset s.links.contexts (d * 65536 + k) { src := u, dst := v, next := a + n, used := s.gcyc } } }))
  ∧ (∀ (s : State) (d k : Nat), s.cur.args = [d, k] → ∃ t, exec .closePacket s = .next t
      ∧ { t with links := { t.links with contexts := s.links.contexts } } = s
      ∧ ∀ j, tfind t.links.contexts j = if j = d * 65536 + k then none else tfind s.links.contexts j)
  -- the failure of a die boundary (R393), for every access that waits beyond it too
  ∧ (∀ (s : State) (b : Nat), s.cur.args = [b] →
      let up : Prop := s.board.supply = true ∧ s.board.rst = false
      (b ∈ s.links.failed ∨ ¬ up → exec .conduitFailure s = .next s)
      ∧ (b ∉ s.links.failed → up → ∃ t, exec .conduitFailure s = .next t ∧ t.links = { s.links with failed := b :: s.links.failed }
        ∧ t.mem = s.mem ∧ t.cores = s.cores
        ∧ (∃ c, (queue t 0).due = (queue s 0).due ++ [c] ∧ c.cause = 0xC0 ∧ c.detail = 0x80 + b ∧ c.cmdseq = 0)
        ∧ (∀ e ∈ s.agenda, e.instr ≠ .barrierRelease → e ∈ t.agenda)
        ∧ ∀ (id : Nat) (f : Flight), s.flights = [(id, f)] → f.st = .waiting ∨ f.st = .refused → f.early = false → f.core < 512 → f.home < 4 →
            b = (if f.core / 128 / 2 = f.home / 2 then f.core / 128 / 2 else 2 + f.home % 2) → f.core / 128 ≠ f.home →
            flight t id = some { f with st := .served, cause := 0xC0, value := 0, oflags := 0 } ∧ Coming s t .farReplyArrival [id]))
  -- the exchange of timestamps (R398)
  ∧ (∀ s : State, ∃ t, exec .timeSyncExchange s = .next t
      ∧ (∃ e ∈ t.agenda, e.instr = .timeSyncExchange ∧ e.args = [] ∧ e.due = s.gcyc + 2 ^ 20)
      ∧ ((∀ g < 16, ¬ ((edge s g).tsync = true ∧ (edge s g).state = 0)) → t.links = s.links ∧ t.mem = s.mem)
      ∧ ((∃ g < 16, (edge s g).tsync = true ∧ (edge s g).state = 0) → t.links.tskew < 2 ^ 32
        ∧ t.links.talign = (s.links.talign && decide (t.links.tskew ≤ 64)) ∧ t.links.tdom = s.links.tdom
        ∧ ShowsWord s t 0x88 (s.links.tdom * 2 ^ 56 + (if t.links.talign then 2 ^ 47 else 0) + t.links.tskew)))
  -- a held stream waits for its requests on the old group (R397)
  ∧ (∀ (s : State) (u n : Nat), s.cur.args = [u, n] →
      let waits : Prop := ∃ p ∈ s.flights, p.2.group ≠ none ∧ 2 ^ 60 ≤ p.2.key ∧ srcOf s p.2 = u ∧ (p.2.key - 2 ^ 60) / 2 ^ 50 = n
      (¬ waits → exec .streamResume s = .next { s with links := { s.links with heldStreams := s.links.heldStreams.filter (fun x => x ≠ (u, n)) } })
      ∧ (waits → ∃ t, exec .streamResume s = .next t ∧ t.links = s.links ∧ Coming s t .streamResume [u, n]))
  -- the states of a group (R408): QUIESCE, DRAIN, DOWN
  ∧ (∀ (s : State) (g : Nat), s.cur.args = [g] → g ≤ 16 →
      let e := edge s g
      let mine := fun (p : Nat × Flight) => p.2.group = some g
      (e.state ≠ 1 → exec .quiesceAcknowledged s = .next s)
      ∧ (e.state = 1 → ∃ t, exec .quiesceAcknowledged s = .next t ∧ Publishes s t g { e with state := 2 }
        ∧ Coming s t .drainComplete [g] ∧ ∃ x ∈ t.agenda, x.instr = .drainTimeout ∧ x.args = [g] ∧ x.due = s.gcyc + 2 ^ 21)
      ∧ (e.state ≠ 2 → exec .drainComplete s = .next s ∧ exec .drainTimeout s = .next s)
      ∧ (e.state = 2 → (∃ p ∈ s.flights, mine p ∧ p.2.replied = false) ∨ unsent s g = true →
        ∃ t, exec .drainComplete s = .next t ∧ t.links = s.links ∧ Coming s t .drainComplete [g])
      ∧ (e.state = 2 → (∀ p ∈ s.flights, mine p → p.2.replied = true) → unsent s g = false →
        ∃ t, exec .drainComplete s = .next t ∧ GoesDown s t g e)
      ∧ (e.state = 2 → ∃ t, exec .drainTimeout s = .next t ∧ edge t g = { e with state := 3, lanes := 0 } ∧ Coming s t .lanesReconfigured [g]
        ∧ ((∀ p ∈ s.flights, ¬ mine p) → GoesDown s t g e))
      -- R411: what an access that was sent and has no reply receives when the drain ends
      ∧ (∀ (id : Nat) (f : Flight), e.state = 2 → s.flights = [(id, f)] → f.group = some g → f.replied = false → f.core < 0x10000 →
        ∃ t, exec .drainTimeout s = .next t ∧ Coming s t .farReplyArrival [id]
          ∧ flight t id = some { f with st := .served, acked := true
                                        cause := if f.op = .ld ∨ f.op = .rdw ∨ (f.op = .save ∧ f.leg2 = false) then 0xC0 else 0x63 }
          ∧ (f.op = .ld ∨ f.op = .rdw → GoesDown s t g e)
          -- a load that its peer had served has no effect: what it emptied is full (Table 9.3)
          ∧ (f.op = .ld → f.mode = 2 → f.st = .served → f.cause = 0 → hasFe s f = true →
              ∀ x, f.key ≤ x → x < f.key + f.size → isFull t x = true))
      -- TRAIN, ENUM and MAP
      ∧ (e.state ≠ 3 → exec .lanesReconfigured s = .next s)
      ∧ (e.state = 3 → ∃ t, exec .lanesReconfigured s = .next t ∧ Publishes s t g { e with state := 4, pers := e.newPers }
        ∧ (Coming s t .linkTrained [g] ∨ Coming s t .trainingFailed [g]))
      ∧ (e.state ≠ 4 → exec .linkTrained s = .next s ∧ exec .trainingFailed s = .next s)
      ∧ (e.state = 4 →
        (∃ t n, exec .linkTrained s = .next t ∧ 1 ≤ n ∧ n ≤ (if g = 16 then 16 else 8)
          ∧ Publishes s t g { e with state := 5, lanes := n } ∧ Coming s t .enumerationDone [g])
        ∧ (e.tries < 2 → ∃ t, exec .trainingFailed s = .next t ∧ Publishes s t g { e with tries := e.tries + 1 }
          ∧ (Coming s t .linkTrained [g] ∨ Coming s t .trainingFailed [g]))
        -- the third failure ends in FAILED, and every SWITCH that waited with it (R407)
        ∧ (2 ≤ e.tries → ∃ t, exec .trainingFailed s = .next t ∧ Publishes s t g { e with tries := 3, state := 7, req := [] }
          ∧ ∀ q ∈ e.req, ∀ k, command s 0 q = some k → command t 0 q = none
            ∧ ∃ c ∈ (queue t 0).due, c.cmdseq = k.seq ∧ c.status = 7 ∧ c.cause = 0xC0))
      ∧ (e.state ≠ 5 → exec .enumerationDone s = .next s)
      ∧ (e.state = 5 → ∃ t n, exec .enumerationDone s = .next t ∧ Publishes s t g { e with state := 6, peer := n }
        ∧ (n = 2 ∨ n = 1 ∧ (e.pers = 2 ∨ e.pers = 3)) ∧ Coming s t .mapDone [g])
      ∧ (e.state ≠ 6 → exec .mapDone s = .next s)
      ∧ (e.state = 6 → ∃ t, exec .mapDone s = .next t ∧ Publishes s t g { e with state := 0, gen := (e.gen + 1) % 65536, req := [] }
        ∧ (∀ n < 1024, (e.pers = 2 ∨ e.pers = 3) → field e.nmask n 1 = 1 → tfind t.links.bound n = none)
        ∧ ∀ q ∈ e.req, ∀ k, command s 0 q = some k → command t 0 q = none
          ∧ ∃ c ∈ (queue t 0).due, c.cmdseq = k.seq ∧ c.status = 0)
      -- R411: the death of a link that is up
      ∧ (∀ i, i = Instr.linkDeath ∨ i = .acknowledgementTimeout →
        let x := { e with state := 3, lanes := 0, tries := 0, newPers := if e.req = [] then e.pers else e.newPers }
        (e.state = 3 ∨ e.state = 4 ∨ e.state = 7 → exec i s = .next s)
        ∧ (e.state ≠ 3 → e.state ≠ 4 → e.state ≠ 7 → ∃ t, exec i s = .next t ∧ edge t g = x ∧ Coming s t .lanesReconfigured [g]
          ∧ ((∀ p ∈ s.flights, ¬ mine p) → GoesDown s t g x)
          ∧ ∀ n < 1024, e.state = 0 → (e.pers = 2 ∨ e.pers = 3) → field e.nmask n 1 = 1 →
              nodeSet t n = [] → tfind t.links.bound n = some g)))
  -- requests of the host: reads and writes of DRAM (R396, R399 to R403)
  ∧ (∀ (s : State) (k n v : Nat), Clean s k n → 0 < n → k % 4096 + n ≤ 4096 → tget plainPage s.pages (k / 4096) = plainPage →
      (∀ x, k ≤ x → x < k + n → ∀ p ∈ s.gangs, raceByte s x p.2 = none) → s.links.failed = [] → meetsSide k n = false →
      (1 < (edge s 16).state ∨ 0x6000000000 < k + n → s.cur.args = [16, 1, k, n, v] → exec .inboundPeerRequest s = .next s)
      ∧ ((edge s 16).state ≤ 1 → k + n ≤ 0x6000000000 →
        (s.cur.args = [16, 1, k, n, v] → ∃ t, exec .inboundPeerRequest s = .next t ∧ Stores s t k (leBytes n v) ∧ t.empty = s.empty)
        ∧ (s.cur.args = [16, 0, k, n] → ∃ t f, exec .inboundPeerRequest s = .next t ∧ t.mem = s.mem ∧ t.empty = s.empty
            ∧ flight t s.nextId = some f ∧ f.cause = 0 ∧ f.value = numberAt s k n)
        ∧ (s.cur.args = [16, 2, k, n, v] → exec .inboundPeerRequest s = .next s)))
  -- the compare-and-swap of an Ultra Ethernet peer; a request that the record of its stream holds has no effect again (R406)
  ∧ (∀ (s : State) (g k n v : Nat) (p : Nat × Partition), s.cur.args = [g, 3, k, n, v] → g < 16 → (edge s g).state ≤ 1 → (edge s g).pers = 3 →
      p ∈ s.front.parts → p.2.dbase % 2 ^ 50 ≤ k → k + n ≤ p.2.dbase % 2 ^ 50 + p.2.dsize → k + n ≤ 0x6000000000 → (n = 4 ∨ n = 8) →
      Clean s k n → k % 4096 + n ≤ 4096 → tget plainPage s.pages (k / 4096) = plainPage →
      (∀ x, k ≤ x → x < k + n → ∀ p ∈ s.gangs, raceByte s x p.2 = none) → s.links.failed = [] → meetsSide k n = false →
      ∃ t f, exec .inboundPeerRequest s = .next t ∧ flight t s.nextId = some f ∧ f.cause = 0 ∧ f.value = numberAt s k n
        ∧ Stores s t k (if numberAt s k n = v % 2 ^ (8 * n) then leBytes n (v / 2 ^ (8 * n)) else []))
  ∧ (∀ (s : State) (g kind k n v src r : Nat), s.cur.args = [g, kind, k, n, v, 0, src, 0, 0, 0, 0, 1 + r] →
      let told := (tget [] s.links.seen (streamKey g ((if (edge s g).peer = 1 ∧ g ≠ 16 then src else src / 8 * 8) % 2 ^ 22))).find? (fun p => p.1 = 1 + r)
      -- one that is not answered yet
      (∀ q, told = some (q, none) → exec .inboundPeerRequest s = .next s)
      -- one that is: the answer is what the record holds
      ∧ (∀ q x, told = some (q, some x) → g < 16 → (edge s g).state ≤ 1 → (edge s g).pers = 2 ∨ (edge s g).pers = 3 → kind ≤ 1 → 0 < n → n ≤ 256 →
          k + n ≤ 0x6000000000 → ∃ t f, exec .inboundPeerRequest s = .next t ∧ t.mem = s.mem ∧ t.empty = s.empty ∧ t.pages = s.pages
            ∧ flight t s.nextId = some f ∧ f.cause = 0 ∧ f.value = x.1 ∧ f.oflags = x.2))
  -- one of DRAM outside every partition is denied (R396)
  ∧ (∀ (s : State) (g kind k n v : Nat), s.cur.args = [g, kind, k, n, v] → g < 16 → (edge s g).state ≤ 1 → (edge s g).pers = 2 ∨ (edge s g).pers = 3 →
      kind ≤ 1 → 0 < n → n ≤ 256 → k + n ≤ 0x6000000000 → s.links.failed = [] →
      (∀ p ∈ s.front.parts, ¬ (p.2.dbase % 2 ^ 50 ≤ k ∧ k + n ≤ p.2.dbase % 2 ^ 50 + p.2.dsize)) →
      ∃ t f, exec .inboundPeerRequest s = .next t ∧ t.mem = s.mem ∧ t.empty = s.empty ∧ t.pages = s.pages
        ∧ flight t s.nextId = some f ∧ f.cause = 0x62)
  -- a packed write of another node (Table 8.11) is refused
  ∧ (∀ (s : State) (g k n v : Nat) (p : Nat × Partition), s.cur.args = [g, 5, k, n, v] → g < 16 → (edge s g).state ≤ 1 →
      (edge s g).pers = 2 ∨ (edge s g).pers = 3 → (edge s g).peer = 1 → 0 < n →
      p ∈ s.front.parts → p.2.dbase % 2 ^ 50 ≤ k → k + n ≤ p.2.dbase % 2 ^ 50 + p.2.dsize → k + n ≤ 0x6000000000 →
      s.links.failed = [] → meetsSide k n = false →
      ∃ t f, exec .inboundPeerRequest s = .next t ∧ t.mem = s.mem ∧ t.pages = s.pages ∧ t.empty = s.empty
        ∧ flight t s.nextId = some f ∧ f.cause = 0x66)

/-- Reset, bring-up, temperatures, errors and I3C. R201, R206, R382, R384, R410, R418, R420 to R422. What survives a reset and the waits of
bring-up are the model's (log 69, 68, 70), the kinds of uncorrectable error and what steps 4 and 5 do in one event its reading (log 73, 72). -/
def Obligations.ResetSupplyAndErrors : Prop :=
  -- uncorrectable errors (R201, R382)
  (∀ (s : State) (a c o v k : Nat), s.board.supply = true → s.board.rst = false →
    -- a unit of 64 bytes of DRAM, of 16 bytes of a scratchpad, of this node or another
    (s.cur.args = [0, a] → let u := if 0x3000000000000 ≤ (if 2 ^ 60 ≤ a ∧ a < 2 ^ 62 then a % 2 ^ 50 else a) then 16 else 64
        ∃ t, exec .uncorrectableError s = .next t ∧ { t with poison := s.poison } = s
        ∧ ∀ x, tget false t.poison x = if x = a / u * u then true else tget false s.poison x)
    ∧ (s.cur.args = [1, c, o] → ∃ t, exec .uncorrectableError s = .next t ∧ { t with cores := s.cores } = s
        ∧ (∀ x, x ∈ (Machine.core t c).codeBad ↔ x = o ∨ x ∈ (Machine.core s c).codeBad)
        ∧ (∀ d, d ≠ c → Machine.core t d = Machine.core s d)
        ∧ { Machine.core t c with codeBad := (Machine.core s c).codeBad } = Machine.core s c)
    ∧ (s.cur.args = [2, v] → ∃ t, exec .uncorrectableError s = .next t ∧ { t with front := s.front } = s
        ∧ vent t v = { vent s v with failed := true } ∧ ∀ u, u ≠ v → vent t u = vent s u)
    ∧ (s.cur.args = [3, c, k] → ∃ t, exec .uncorrectableError s = .next t ∧ { t with cores := s.cores } = s
        ∧ ∀ d j, tephra t d j = if d = c ∧ j = k then { tephra s d j with imemBad := true } else tephra s d j))
  -- in reset no memory is read
  ∧ (∀ s : State, s.board.supply = false ∨ s.board.rst = true → exec .uncorrectableError s = .next s)
  -- a stack's temperature (R420, Table 20.2)
  ∧ (∀ (s : State) (d : Nat), s.cur.args = [d] → 0 < s.board.clk → ∃ t v, exec .stackTemperatureRead s = .next t ∧ v < 256 ∧ tfind t.board.temps d = some v ∧ t.board.pwr ≤ 4300
      ∧ (∀ p ∈ t.board.temps, p.2 ≤ t.board.tdram) ∧ (∃ p ∈ t.board.temps, p.2 = t.board.tdram)
      ∧ t.mem = s.mem ∧ t.cores = s.cores ∧ t.front = s.front ∧ t.links = s.links ∧ t.gangs = s.gangs ∧ t.flights = s.flights
      ∧ (∃ e ∈ t.agenda, e.instr = .stackTemperatureRead ∧ e.args = [d] ∧ e.due = s.gcyc + 2 ^ 16)
      ∧ t.board.thermtrip = (s.board.thermtrip || decide (105 ≤ v))
      ∧ (105 ≤ v → s.board.thermtrip = false → ∃ e ∈ t.agenda, e.instr = .mainSupplyRemoval ∧ e.due ≤ s.gcyc + 1250000 * s.board.clk)
      ∧ (v < 105 → ∀ e ∈ t.agenda, e.instr = .mainSupplyRemoval → e ∈ s.agenda))
  -- RST_N asserted and the supply removed: all device state is lost (R420, R421)
  ∧ (∀ (s : State) (i : Instr), i = .resetAssert ∨ i = .mainSupplyRemoval → ∃ t, exec i s = .next t
      ∧ t.board.rst = true ∧ t.board.supply = (if i = .resetAssert then s.board.supply else false) ∧ t.board.step = 0
      -- the supply controller keeps the record of a trip
      ∧ (i = .resetAssert → t.board.thermtrip = s.board.thermtrip ∧ t.board.record = s.board.record)
      ∧ (i = .mainSupplyRemoval → t.board.thermtrip = false ∧ t.board.record = (s.board.record || s.board.thermtrip))
      ∧ t.gcyc = 0 ∧ t.cores = [] ∧ t.gangs = [] ∧ t.flights = [] ∧ t.front = {} ∧ t.links = {} ∧ t.pages = [] ∧ t.turns = []
      ∧ ∀ a, tfind t.mem a = if isBeyond a then tfind s.mem a else none)
  -- deassertion and the steps of bring-up (R421, Table 20.3)
  ∧ (∀ s : State,
    (s.cur.args = [] → s.board.rst = false → exec .resetDeassert s = .next s)
    ∧ (s.cur.args = [] → s.board.rst = true → ∃ t, exec .resetDeassert s = .next t
        ∧ { t with agenda := s.agenda, board := { t.board with supply := s.board.supply } } = s ∧ t.board.supply = true
        ∧ ∃ e ∈ t.agenda, e.instr = .resetDeassert ∧ e.args = [1] ∧ e.due = s.gcyc + 2 ^ 16 * 14)
    ∧ (∀ n, s.cur.args = [n] →
      (s.board.step + 1 ≠ n → exec .resetDeassert s = .next s)
      ∧ (s.board.step = 0 → n = 1 → ∃ t, exec .resetDeassert s = .next t ∧ t.gcyc = 0 ∧ t.board.rst = false ∧ t.board.step = 1
        ∧ t.board.stat = (if s.board.record then 1 else 0) ∧ t.board.record = false ∧ t.board.thermtrip = s.board.thermtrip ∧ t.mem = s.mem ∧ t.cores = s.cores
        ∧ ∃ e ∈ t.agenda, e.instr = .resetDeassert ∧ e.args = [2])
      ∧ (s.board.step = 1 → n = 2 → ∃ t, exec .resetDeassert s = .next t ∧ t.board.step = 2 ∧ t.empty = [] ∧ t.poison = []
        ∧ (∀ a, getByte t a = if isDram a ∨ (0x3000000000000 ≤ a ∧ a < 0x3000040800000) then 0 else getByte s a) ∧ t.cores = s.cores
        ∧ (∃ e ∈ t.agenda, e.instr = .resetDeassert ∧ e.args = [3])
        ∧ ∀ d < 4, ∃ e ∈ t.agenda, e.instr = .stackTemperatureRead ∧ e.args = [d] ∧ e.due = s.gcyc + 2 ^ 16)
      ∧ (s.board.step = 2 → n = 3 →
        (accepts s.board.ventImage = false → exec .resetDeassert s = .next { s with board := { s.board with fwstat := 2 } })
        ∧ (accepts s.board.ventImage = true → ∃ t, exec .resetDeassert s = .next t ∧ t.board = { s.board with step := 3 }
          ∧ ∃ e ∈ t.agenda, e.instr = .resetDeassert ∧ e.args = [4] ∧ e.due % 8 = 0 ∧ s.gcyc < e.due))
      ∧ (s.board.step = 3 → n = 4 → (∀ c, 512 ≤ c → c < 528 → (Machine.core s c).port = [] ∧ (Machine.core s c).waits = []) → ∃ t, exec .resetDeassert s = .next t ∧ t.board = { s.board with step := 4, fwstat := 1 }
        -- the state block stands in every service core (R410)
        ∧ (∀ c, 512 ≤ c → c < 528 → (∀ g ≤ 16, getNat t (scratch c + 0x6FF00 + 8 * g) 8 = linkWord (edge s g) % 2 ^ 64)
            ∧ getNat t (scratch c + 0x6FF88) 8 = (s.links.tdom * 2 ^ 56 + (if s.links.talign then 2 ^ 47 else 0) + s.links.tskew % 2 ^ 32) % 2 ^ 64)
        ∧ (∀ x, (∀ c, 512 ≤ c → c < 528 → ¬ (scratch c + 0x6FF00 ≤ x ∧ x < scratch c + 0x6FF90)) → getByte t x = getByte s x)
        ∧ (∀ v < 4, (vent t v).image = s.board.ventImage ∧ (vent t v).iver = imageVersion s.board.ventImage ∧ (vent t v).failed = false
          ∧ ∃ e ∈ t.agenda, e.instr = .executiveFrame ∧ e.args = [v] ∧ e.due = s.gcyc)
        ∧ (∃ e ∈ t.agenda, e.instr = .timeSyncExchange ∧ e.due = s.gcyc + 2 ^ 20)
        ∧ ∃ e ∈ t.agenda, e.instr = .resetDeassert ∧ e.args = [5])
      ∧ (s.board.step = 4 → n = 5 → ∃ t, exec .resetDeassert s = .next t ∧ t.board = { s.board with step := 5 }
        ∧ Publishes s t 16 { edge s 16 with state := 0, pers := 4, lanes := 16, gen := (edge s 16).gen + 1, peer := 2 })))
  -- the management controller clears bits of STAT (R422)
  ∧ (∀ (s : State) (v n : Nat),
      let y := { s with board := { s.board with stat := s.board.stat &&& (255 - v % 256) } }
      let up : Prop := s.board.supply = true ∧ s.board.rst = false
      (up → s.cur.args = [v] ∨ s.cur.args = [v, 2] → exec .i3cStatWrite s = .next y)
      -- of a register that is read only or not listed nothing
      ∧ (¬ up ∨ s.cur.args = [v, n] ∧ n ≠ 2 → exec .i3cStatWrite s = .next s))

/-- A step runs the decoded instruction. R5, R21, R90, R92, R93, R102, R158, R300; the order of parties, the count to what is to come in
reset and the tephra cores that a turn reaches are the model's (log 6, 12, 34, 35). -/
def Obligations.StepsRunWhatComesNext : Prop :=
  -- an event that is due
  (∀ (s : State) (e : Event) (r : List Event), s.agenda = e :: r → e.due ≤ s.gcyc →
    step s = leaves (exec e.instr { s with agenda := r, cur := { args := e.args } }))
  -- nothing is due and every party has had its turn: the next cycle, with the threads of its slot and the tephra cores (R158, R300)
  ∧ (∀ s : State, NothingDue s → s.turns = [] →
    let l := s.cores.map (fun p => Agent.thread p.1 ((s.gcyc + 1) % 8))
    -- a tephra core whose standard image no command has reached only waits
    let m := if (s.gcyc + 1) % 2 = 0 then
        s.cores.flatMap (fun p => (p.2.tes.filter (fun q => !q.2.std || q.2.imemBad || q.2.cur.isSome || q.2.queue ≠ [] || q.2.faults ≠ []
          || q.2.reply.isSome)).map (fun q => Agent.tephra p.1 q.1)) else []
    (s.board.rst = false → step s = .next (stepPorts { s with gcyc := s.gcyc + 1, turns := l ++ m }))
    ∧ (s.board.rst = false → (∀ p ∈ s.cores, p.2.port = [] ∧ p.2.waits = [] ∧ p.2.svc.inbox = []) → step s = .next { s with gcyc := s.gcyc + 1, turns := l ++ m })
    ∧ (s.board.rst = true → step s = .next { s with agenda := s.agenda.map (fun e => { e with due := e.due - 1 }), turns := [] }))
  -- without supply and with no act to come nothing happens
  ∧ (∀ s : State, s.board.supply = false → s.agenda = [] → step s = .fault .poweredOff)
  -- the turn of a thread: the bundle at its pc holds one instruction, which runs; a long immediate's word stands in S0's place (R85)
  ∧ (∀ (s s1 : State) (c k p g : Nat) (q : List Agent) (h : Half) (bs : List Bundle) (b : Bundle) (i : Instr),
    NothingDue s → s.turns = .thread c k :: q → savesNow (thread s c k) = false →
    exec .turnStart { resendAll { s with turns := q } c k with cur := { core := c, slot := k, args := [c, k] } } = .next s1 →
    s1.cur.issue = true → halfOf (me s1) (me s1).curHalf = some h → h.bundles = some bs → bs[s1.cur.addr % 32]? = some b →
    let s2 := { s1 with cur := { s1.cur with cvp := Cvp.of b.cvp } }
    (∀ n, encodingCause s2 b = n → n ≠ 0 → step s = .next { trapBundle s1 n with cur := {} })
    ∧ (encodingCause s2 b = 0 → (me s1).mrep = none → (me s1).packet = none → slotsIn (svc s1) b = [(p, g, i)] →
      let s3 := tickBundle s2 [(p, g, i)]
      (runs s3 (p, g, i) = false → step s = .next { settleBundle s3 s3 [(p, g, i)] with cur := {} })
      ∧ (∀ t, runs s3 (p, g, i) = true → exec i { s3 with cur := { s3.cur with pos := if (shape i).kind = .w then 0 else p, g := g, rep := none } } = .next t →
          step s = .next { settleBundle s3 t [(p, g, i)] with cur := {} })))
  -- the bundles that a thread holds are read from the bytes of the core's code store (R92, R93)
  ∧ (∀ (s : State) (c seg : Nat), seg < 0x40000 → (Machine.core s c).codeBad = [] →
    let w := getNat s (codeStore c + seg) 8
    segHeaderBad seg w = false → (expand s c seg).bundles = readBundles (segLen w) (getBytes s (codeStore c + seg + 8) (segBytes w)))
  ∧ (∀ (w : Nat) (sv : Bool) (i : Instr), w < 2 ^ 32 → decodeS sv none w = .ok i → ∃ b, readBundles 1 (leBytes 4 (16 * 2 ^ 27) ++ leBytes 4 w) = some [b]
      ∧ slotsIn sv b = [(0, guardOf w, i)])
  -- what a bundle that neither traps nor blocks leaves: the pc goes to the jump's target or to the bundle that follows
  ∧ (∀ (s t : State) (l : List (Nat × Nat × Instr)), t.cur = { s.cur with jump := t.cur.jump } → s.cur.trap = none → s.cur.miss = none → s.cur.block = false →
      s.cur.flags = 0 → (me s).packet = none → (me s).mrep = none →
      settleBundle s t l = endTurn (modMe t (fun th => { th with next := t.cur.jump.getD (following (me s) s.cur.addr) })) s.cur.core s.cur.slot)
  -- the turn of a tephra core: the instruction at its pc runs (R300, R306)
  ∧ (∀ (s : State) (c k : Nat) (q : List Agent), NothingDue s → s.turns = .tephra c k :: q →
    let te := tephra s c k
    let s1 := { s with turns := q, cur := { core := c, slot := 8 + k } }
    te.saveWait = false → te.wait = .none → te.fault = 0 → te.faults = [] → te.std = false → te.imemBad = false → te.pc + insLen te ≤ 0x8000 →
      (∀ i, (insWord te % 128 = 0x0B ∨ insWord te % 128 = 0x2B) → decodeT (insWord te) = .ok i → step s = leaves (exec i s1))
      ∧ (¬ (insWord te % 128 = 0x0B ∨ insWord te % 128 = 0x2B) →
        step s = leaves (exec .tephraBaseInstruction { s1 with cur := { s1.cur with rv := rvDecode (insWord te), rvLen := insLen te } })))

/-- Words of the encoding tables. R77 to R80, R88, R89, and the worked words of chapters 4, 5, 9, 11, 12 and 14. Which
of the checks of a word decoding makes is the model's reading (log 14). -/
def Obligations.WordsOfTheEncodingTables : Prop :=
  decodeS false none 0x400C4140 = .ok (.faddF32 ⟨3, 4, 5, none⟩)
  ∧ decodeS false none 0x68100480 = .ok (.rds ⟨4, 0, 18, none⟩)
  ∧ decodeS false none 0x4B1C3200 = .ok (.fcvtF32 ⟨7, 3, 8, none⟩)
  ∧ decodeS false none 0x63089000 = .ok (.loopRegister ⟨2, 9, 0, none⟩)
  ∧ decodeS true none 0x71008240 = .ok (.winset ⟨0, 8, 9, none⟩)
  ∧ decodeS true none 0x70044140 = .ok (.tretAt ⟨1, 4, 5, none⟩)
  ∧ decodeV false none 0x11B28AACBFF811 = .ok (.vfma ⟨6, 20, 21, 22, 23, 255, 0, none⟩)
  ∧ decodeV false none 0x16428AAC07F980 = .ok (.vcvt ⟨8, 20, 21, 22, 0, 255, 6, none⟩)
  ∧ decodeL false 0x023040004C00 = .ok (.ld ⟨6, 2, 2, 6, 0, 0, 0⟩)
  ∧ decodeL false 0x142840008900 = .ok (.ldfTake ⟨5, 2, 4, 4, 1, 0, 0⟩)
  ∧ decodeM false 0x08C00040 = .ok (.mwld ⟨12, 0, 1⟩)
  ∧ decodeM false 0x28702400 = .ok (.mstat ⟨7, 0, 144⟩)
  ∧ decodeX false 0x022C7A00 = .ok (.fld ⟨5, 35, 52, 0⟩)
  ∧ decodeX false 0x1C012080 = .ok (.semwaitDec ⟨0, 9, 1, 0⟩)
  ∧ decodeT 0x0005C52B = .ok (.teCmd ⟨0, 0, 11, 10⟩)
  ∧ decodeT 0x4694702B = .ok (.teSave ⟨35, 9, 8, 0⟩)
  -- no word of a no-operation's opcode is anything else (R88), and reserved and privileged words are refused with 0x01
  ∧ (∀ (sv : Bool) (k : Option Nat) (x : Nat),
      (x < 2 ^ 24 → decodeS sv k x = .ok .nop) ∧ (x < 2 ^ 47 → decodeV sv k x = .ok .vnop) ∧ (x < 2 ^ 41 → decodeL sv x = .ok .lnop)
      ∧ (x < 2 ^ 26 → decodeM sv x = .ok .mnop) ∧ (x < 2 ^ 25 → decodeX sv x = .ok .xnop))
  ∧ (∀ (k : Option Nat) (x : Nat), 0x70000000 ≤ x → x < 0x78000000 → decodeS false k x = .bad 0x01)
  ∧ (∀ (sv : Bool) (k : Option Nat) (x : Nat), 0x78000000 ≤ x → x < 2 ^ 32 → decodeS sv k x = .bad 0x01)
  ∧ (∀ x : Nat, 2 ^ 26 ≤ x → x < 2 ^ 32 → decodeM true x = .bad 0x01)

/-- Decode and encode agree. Tables 3.3 to 3.7, 3.9 and 12.2: no bit of an encoding is dropped. -/
def Obligations.DecodingAnEncodedInstructionGivesItBack : Prop :=
  ∀ (sv : Bool) (i : Instr) (g : Nat), g < 64 → WellFormed sv i = true →
    ∃ x, encode i g = some x ∧ decode sv (shape i).kind (shape i).imm x = .ok i
      ∧ ((shape i).kind ≠ .t → guardOf x = g)

/-- Every step keeps memory canonical. The invariant of the model's memory (R3, R197): addresses strictly rising and
no entry equal to what an unlisted address reads as. -/
def Obligations.MemoryStaysCanonical : Prop :=
  ∀ s t : State, step s = .next t → MemoryCanonical s → MemoryCanonical t

/-- No instruction stops the machine. R423: every behaviour outside the latitudes is fixed by its rule, so no row ends
in a refusal or a fault; a module without supply and with nothing to come takes no step (log 12: the model's choice). -/
def Obligations.EveryStepGoesOn : Prop :=
  (∀ (i : Instr) (s : State), ∃ t, exec i s = .next t)
  ∧ ∀ s : State, (s.board.supply = true ∨ s.agenda ≠ []) → ∃ t, step s = .next t

/-- The state after reset. R421, R200, Tables 17.3, 18.8. That reset is the moment after bring-up step 1 is the
model's choice (log 68); bytes outside scratchpads and DRAM read 0 by log 3, and
register bodies are 0 before any launch by log 4. -/
def Obligations.TheStateAfterReset : Prop :=
  MemoryCanonical State.reset ∧ State.reset.gcyc = 0 ∧ State.reset.board.rst = false ∧ State.reset.board.supply = true
  ∧ State.reset.board.step = 1 ∧ State.reset.board.clk = 14 ∧ State.reset.cores = [] ∧ State.reset.gangs = [] ∧ State.reset.flights = []
  ∧ (∀ c k : Nat, (thread State.reset c k).st = .vacant ∧ (∀ n, (getS (thread State.reset c k) n).body = 0))
  ∧ (∀ q : Nat, (queue State.reset q).tail = 0 ∧ (queue State.reset q).state = 0) ∧ (∀ g : Nat, (edge State.reset g).state = 3)
  ∧ (∀ a : Nat, getByte State.reset a = 0 ∧ isFull State.reset a = true ∧ isPoison State.reset a = false)
  ∧ State.reset.agenda = [{ due := 0, instr := .resetDeassert, args := [2], chan := [] }] ∧ State.reset.turns = []
end

