-- ==== Sys2Proof/Laws/State.lean ====
section
/-! SUPPORT. What each update of the state leaves: one lemma for each field, true by computation. -/

namespace Sys2Proof.Machine

/-! ## setCore -/

@[simp] theorem setCore_gcyc (s : State) (c : Nat) (k : Core) : (setCore s c k).gcyc = s.gcyc := rfl
@[simp] theorem setCore_node (s : State) (c : Nat) (k : Core) : (setCore s c k).node = s.node := rfl
@[simp] theorem setCore_mem (s : State) (c : Nat) (k : Core) : (setCore s c k).mem = s.mem := rfl
@[simp] theorem setCore_empty (s : State) (c : Nat) (k : Core) : (setCore s c k).empty = s.empty := rfl
@[simp] theorem setCore_poison (s : State) (c : Nat) (k : Core) : (setCore s c k).poison = s.poison := rfl
@[simp] theorem setCore_pages (s : State) (c : Nat) (k : Core) : (setCore s c k).pages = s.pages := rfl
@[simp] theorem setCore_gangs (s : State) (c : Nat) (k : Core) : (setCore s c k).gangs = s.gangs := rfl
@[simp] theorem setCore_barriersUsed (s : State) (c : Nat) (k : Core) : (setCore s c k).barriersUsed = s.barriersUsed := rfl
@[simp] theorem setCore_flights (s : State) (c : Nat) (k : Core) : (setCore s c k).flights = s.flights := rfl
@[simp] theorem setCore_retry (s : State) (c : Nat) (k : Core) : (setCore s c k).retry = s.retry := rfl
@[simp] theorem setCore_privs (s : State) (c : Nat) (k : Core) : (setCore s c k).privs = s.privs := rfl
@[simp] theorem setCore_winops (s : State) (c : Nat) (k : Core) : (setCore s c k).winops = s.winops := rfl
@[simp] theorem setCore_front (s : State) (c : Nat) (k : Core) : (setCore s c k).front = s.front := rfl
@[simp] theorem setCore_links (s : State) (c : Nat) (k : Core) : (setCore s c k).links = s.links := rfl
@[simp] theorem setCore_board (s : State) (c : Nat) (k : Core) : (setCore s c k).board = s.board := rfl
@[simp] theorem setCore_agenda (s : State) (c : Nat) (k : Core) : (setCore s c k).agenda = s.agenda := rfl
@[simp] theorem setCore_turns (s : State) (c : Nat) (k : Core) : (setCore s c k).turns = s.turns := rfl
@[simp] theorem setCore_cur (s : State) (c : Nat) (k : Core) : (setCore s c k).cur = s.cur := rfl
@[simp] theorem setCore_nextId (s : State) (c : Nat) (k : Core) : (setCore s c k).nextId = s.nextId := rfl
@[simp] theorem setCore_draw (s : State) (c : Nat) (k : Core) : (setCore s c k).draw = s.draw := rfl

/-! ## modCore -/

@[simp] theorem modCore_gcyc (s : State) (c : Nat) (f : Core → Core) : (modCore s c f).gcyc = s.gcyc := rfl
@[simp] theorem modCore_node (s : State) (c : Nat) (f : Core → Core) : (modCore s c f).node = s.node := rfl
@[simp] theorem modCore_mem (s : State) (c : Nat) (f : Core → Core) : (modCore s c f).mem = s.mem := rfl
@[simp] theorem modCore_empty (s : State) (c : Nat) (f : Core → Core) : (modCore s c f).empty = s.empty := rfl
@[simp] theorem modCore_poison (s : State) (c : Nat) (f : Core → Core) : (modCore s c f).poison = s.poison := rfl
@[simp] theorem modCore_pages (s : State) (c : Nat) (f : Core → Core) : (modCore s c f).pages = s.pages := rfl
@[simp] theorem modCore_gangs (s : State) (c : Nat) (f : Core → Core) : (modCore s c f).gangs = s.gangs := rfl
@[simp] theorem modCore_barriersUsed (s : State) (c : Nat) (f : Core → Core) : (modCore s c f).barriersUsed = s.barriersUsed := rfl
@[simp] theorem modCore_flights (s : State) (c : Nat) (f : Core → Core) : (modCore s c f).flights = s.flights := rfl
@[simp] theorem modCore_retry (s : State) (c : Nat) (f : Core → Core) : (modCore s c f).retry = s.retry := rfl
@[simp] theorem modCore_privs (s : State) (c : Nat) (f : Core → Core) : (modCore s c f).privs = s.privs := rfl
@[simp] theorem modCore_winops (s : State) (c : Nat) (f : Core → Core) : (modCore s c f).winops = s.winops := rfl
@[simp] theorem modCore_front (s : State) (c : Nat) (f : Core → Core) : (modCore s c f).front = s.front := rfl
@[simp] theorem modCore_links (s : State) (c : Nat) (f : Core → Core) : (modCore s c f).links = s.links := rfl
@[simp] theorem modCore_board (s : State) (c : Nat) (f : Core → Core) : (modCore s c f).board = s.board := rfl
@[simp] theorem modCore_agenda (s : State) (c : Nat) (f : Core → Core) : (modCore s c f).agenda = s.agenda := rfl
@[simp] theorem modCore_turns (s : State) (c : Nat) (f : Core → Core) : (modCore s c f).turns = s.turns := rfl
@[simp] theorem modCore_cur (s : State) (c : Nat) (f : Core → Core) : (modCore s c f).cur = s.cur := rfl
@[simp] theorem modCore_nextId (s : State) (c : Nat) (f : Core → Core) : (modCore s c f).nextId = s.nextId := rfl
@[simp] theorem modCore_draw (s : State) (c : Nat) (f : Core → Core) : (modCore s c f).draw = s.draw := rfl

/-! ## setThread -/

@[simp] theorem setThread_gcyc (s : State) (c t : Nat) (th : Thread) : (setThread s c t th).gcyc = s.gcyc := rfl
@[simp] theorem setThread_node (s : State) (c t : Nat) (th : Thread) : (setThread s c t th).node = s.node := rfl
@[simp] theorem setThread_mem (s : State) (c t : Nat) (th : Thread) : (setThread s c t th).mem = s.mem := rfl
@[simp] theorem setThread_empty (s : State) (c t : Nat) (th : Thread) : (setThread s c t th).empty = s.empty := rfl
@[simp] theorem setThread_poison (s : State) (c t : Nat) (th : Thread) : (setThread s c t th).poison = s.poison := rfl
@[simp] theorem setThread_pages (s : State) (c t : Nat) (th : Thread) : (setThread s c t th).pages = s.pages := rfl
@[simp] theorem setThread_gangs (s : State) (c t : Nat) (th : Thread) : (setThread s c t th).gangs = s.gangs := rfl
@[simp] theorem setThread_barriersUsed (s : State) (c t : Nat) (th : Thread) : (setThread s c t th).barriersUsed = s.barriersUsed := rfl
@[simp] theorem setThread_flights (s : State) (c t : Nat) (th : Thread) : (setThread s c t th).flights = s.flights := rfl
@[simp] theorem setThread_retry (s : State) (c t : Nat) (th : Thread) : (setThread s c t th).retry = s.retry := rfl
@[simp] theorem setThread_privs (s : State) (c t : Nat) (th : Thread) : (setThread s c t th).privs = s.privs := rfl
@[simp] theorem setThread_winops (s : State) (c t : Nat) (th : Thread) : (setThread s c t th).winops = s.winops := rfl
@[simp] theorem setThread_front (s : State) (c t : Nat) (th : Thread) : (setThread s c t th).front = s.front := rfl
@[simp] theorem setThread_links (s : State) (c t : Nat) (th : Thread) : (setThread s c t th).links = s.links := rfl
@[simp] theorem setThread_board (s : State) (c t : Nat) (th : Thread) : (setThread s c t th).board = s.board := rfl
@[simp] theorem setThread_agenda (s : State) (c t : Nat) (th : Thread) : (setThread s c t th).agenda = s.agenda := rfl
@[simp] theorem setThread_turns (s : State) (c t : Nat) (th : Thread) : (setThread s c t th).turns = s.turns := rfl
@[simp] theorem setThread_cur (s : State) (c t : Nat) (th : Thread) : (setThread s c t th).cur = s.cur := rfl
@[simp] theorem setThread_nextId (s : State) (c t : Nat) (th : Thread) : (setThread s c t th).nextId = s.nextId := rfl
@[simp] theorem setThread_draw (s : State) (c t : Nat) (th : Thread) : (setThread s c t th).draw = s.draw := rfl

/-! ## modThread -/

@[simp] theorem modThread_gcyc (s : State) (c t : Nat) (f : Thread → Thread) : (modThread s c t f).gcyc = s.gcyc := rfl
@[simp] theorem modThread_node (s : State) (c t : Nat) (f : Thread → Thread) : (modThread s c t f).node = s.node := rfl
@[simp] theorem modThread_mem (s : State) (c t : Nat) (f : Thread → Thread) : (modThread s c t f).mem = s.mem := rfl
@[simp] theorem modThread_empty (s : State) (c t : Nat) (f : Thread → Thread) : (modThread s c t f).empty = s.empty := rfl
@[simp] theorem modThread_poison (s : State) (c t : Nat) (f : Thread → Thread) : (modThread s c t f).poison = s.poison := rfl
@[simp] theorem modThread_pages (s : State) (c t : Nat) (f : Thread → Thread) : (modThread s c t f).pages = s.pages := rfl
@[simp] theorem modThread_gangs (s : State) (c t : Nat) (f : Thread → Thread) : (modThread s c t f).gangs = s.gangs := rfl
@[simp] theorem modThread_barriersUsed (s : State) (c t : Nat) (f : Thread → Thread) : (modThread s c t f).barriersUsed = s.barriersUsed := rfl
@[simp] theorem modThread_flights (s : State) (c t : Nat) (f : Thread → Thread) : (modThread s c t f).flights = s.flights := rfl
@[simp] theorem modThread_retry (s : State) (c t : Nat) (f : Thread → Thread) : (modThread s c t f).retry = s.retry := rfl
@[simp] theorem modThread_privs (s : State) (c t : Nat) (f : Thread → Thread) : (modThread s c t f).privs = s.privs := rfl
@[simp] theorem modThread_winops (s : State) (c t : Nat) (f : Thread → Thread) : (modThread s c t f).winops = s.winops := rfl
@[simp] theorem modThread_front (s : State) (c t : Nat) (f : Thread → Thread) : (modThread s c t f).front = s.front := rfl
@[simp] theorem modThread_links (s : State) (c t : Nat) (f : Thread → Thread) : (modThread s c t f).links = s.links := rfl
@[simp] theorem modThread_board (s : State) (c t : Nat) (f : Thread → Thread) : (modThread s c t f).board = s.board := rfl
@[simp] theorem modThread_agenda (s : State) (c t : Nat) (f : Thread → Thread) : (modThread s c t f).agenda = s.agenda := rfl
@[simp] theorem modThread_turns (s : State) (c t : Nat) (f : Thread → Thread) : (modThread s c t f).turns = s.turns := rfl
@[simp] theorem modThread_cur (s : State) (c t : Nat) (f : Thread → Thread) : (modThread s c t f).cur = s.cur := rfl
@[simp] theorem modThread_nextId (s : State) (c t : Nat) (f : Thread → Thread) : (modThread s c t f).nextId = s.nextId := rfl
@[simp] theorem modThread_draw (s : State) (c t : Nat) (f : Thread → Thread) : (modThread s c t f).draw = s.draw := rfl

/-! ## modMe -/

@[simp] theorem modMe_gcyc (s : State) (f : Thread → Thread) : (modMe s f).gcyc = s.gcyc := rfl
@[simp] theorem modMe_node (s : State) (f : Thread → Thread) : (modMe s f).node = s.node := rfl
@[simp] theorem modMe_mem (s : State) (f : Thread → Thread) : (modMe s f).mem = s.mem := rfl
@[simp] theorem modMe_empty (s : State) (f : Thread → Thread) : (modMe s f).empty = s.empty := rfl
@[simp] theorem modMe_poison (s : State) (f : Thread → Thread) : (modMe s f).poison = s.poison := rfl
@[simp] theorem modMe_pages (s : State) (f : Thread → Thread) : (modMe s f).pages = s.pages := rfl
@[simp] theorem modMe_gangs (s : State) (f : Thread → Thread) : (modMe s f).gangs = s.gangs := rfl
@[simp] theorem modMe_barriersUsed (s : State) (f : Thread → Thread) : (modMe s f).barriersUsed = s.barriersUsed := rfl
@[simp] theorem modMe_flights (s : State) (f : Thread → Thread) : (modMe s f).flights = s.flights := rfl
@[simp] theorem modMe_retry (s : State) (f : Thread → Thread) : (modMe s f).retry = s.retry := rfl
@[simp] theorem modMe_privs (s : State) (f : Thread → Thread) : (modMe s f).privs = s.privs := rfl
@[simp] theorem modMe_winops (s : State) (f : Thread → Thread) : (modMe s f).winops = s.winops := rfl
@[simp] theorem modMe_front (s : State) (f : Thread → Thread) : (modMe s f).front = s.front := rfl
@[simp] theorem modMe_links (s : State) (f : Thread → Thread) : (modMe s f).links = s.links := rfl
@[simp] theorem modMe_board (s : State) (f : Thread → Thread) : (modMe s f).board = s.board := rfl
@[simp] theorem modMe_agenda (s : State) (f : Thread → Thread) : (modMe s f).agenda = s.agenda := rfl
@[simp] theorem modMe_turns (s : State) (f : Thread → Thread) : (modMe s f).turns = s.turns := rfl
@[simp] theorem modMe_cur (s : State) (f : Thread → Thread) : (modMe s f).cur = s.cur := rfl
@[simp] theorem modMe_nextId (s : State) (f : Thread → Thread) : (modMe s f).nextId = s.nextId := rfl
@[simp] theorem modMe_draw (s : State) (f : Thread → Thread) : (modMe s f).draw = s.draw := rfl

/-! ## modMyCore -/

@[simp] theorem modMyCore_gcyc (s : State) (f : Core → Core) : (modMyCore s f).gcyc = s.gcyc := rfl
@[simp] theorem modMyCore_node (s : State) (f : Core → Core) : (modMyCore s f).node = s.node := rfl
@[simp] theorem modMyCore_mem (s : State) (f : Core → Core) : (modMyCore s f).mem = s.mem := rfl
@[simp] theorem modMyCore_empty (s : State) (f : Core → Core) : (modMyCore s f).empty = s.empty := rfl
@[simp] theorem modMyCore_poison (s : State) (f : Core → Core) : (modMyCore s f).poison = s.poison := rfl
@[simp] theorem modMyCore_pages (s : State) (f : Core → Core) : (modMyCore s f).pages = s.pages := rfl
@[simp] theorem modMyCore_gangs (s : State) (f : Core → Core) : (modMyCore s f).gangs = s.gangs := rfl
@[simp] theorem modMyCore_barriersUsed (s : State) (f : Core → Core) : (modMyCore s f).barriersUsed = s.barriersUsed := rfl
@[simp] theorem modMyCore_flights (s : State) (f : Core → Core) : (modMyCore s f).flights = s.flights := rfl
@[simp] theorem modMyCore_retry (s : State) (f : Core → Core) : (modMyCore s f).retry = s.retry := rfl
@[simp] theorem modMyCore_privs (s : State) (f : Core → Core) : (modMyCore s f).privs = s.privs := rfl
@[simp] theorem modMyCore_winops (s : State) (f : Core → Core) : (modMyCore s f).winops = s.winops := rfl
@[simp] theorem modMyCore_front (s : State) (f : Core → Core) : (modMyCore s f).front = s.front := rfl
@[simp] theorem modMyCore_links (s : State) (f : Core → Core) : (modMyCore s f).links = s.links := rfl
@[simp] theorem modMyCore_board (s : State) (f : Core → Core) : (modMyCore s f).board = s.board := rfl
@[simp] theorem modMyCore_agenda (s : State) (f : Core → Core) : (modMyCore s f).agenda = s.agenda := rfl
@[simp] theorem modMyCore_turns (s : State) (f : Core → Core) : (modMyCore s f).turns = s.turns := rfl
@[simp] theorem modMyCore_cur (s : State) (f : Core → Core) : (modMyCore s f).cur = s.cur := rfl
@[simp] theorem modMyCore_nextId (s : State) (f : Core → Core) : (modMyCore s f).nextId = s.nextId := rfl
@[simp] theorem modMyCore_draw (s : State) (f : Core → Core) : (modMyCore s f).draw = s.draw := rfl

/-! ## modGang -/

@[simp] theorem modGang_gcyc (s : State) (g : Nat) (f : Gang → Gang) : (modGang s g f).gcyc = s.gcyc := rfl
@[simp] theorem modGang_node (s : State) (g : Nat) (f : Gang → Gang) : (modGang s g f).node = s.node := rfl
@[simp] theorem modGang_mem (s : State) (g : Nat) (f : Gang → Gang) : (modGang s g f).mem = s.mem := rfl
@[simp] theorem modGang_empty (s : State) (g : Nat) (f : Gang → Gang) : (modGang s g f).empty = s.empty := rfl
@[simp] theorem modGang_poison (s : State) (g : Nat) (f : Gang → Gang) : (modGang s g f).poison = s.poison := rfl
@[simp] theorem modGang_pages (s : State) (g : Nat) (f : Gang → Gang) : (modGang s g f).pages = s.pages := rfl
@[simp] theorem modGang_cores (s : State) (g : Nat) (f : Gang → Gang) : (modGang s g f).cores = s.cores := rfl
@[simp] theorem modGang_barriersUsed (s : State) (g : Nat) (f : Gang → Gang) : (modGang s g f).barriersUsed = s.barriersUsed := rfl
@[simp] theorem modGang_flights (s : State) (g : Nat) (f : Gang → Gang) : (modGang s g f).flights = s.flights := rfl
@[simp] theorem modGang_retry (s : State) (g : Nat) (f : Gang → Gang) : (modGang s g f).retry = s.retry := rfl
@[simp] theorem modGang_privs (s : State) (g : Nat) (f : Gang → Gang) : (modGang s g f).privs = s.privs := rfl
@[simp] theorem modGang_winops (s : State) (g : Nat) (f : Gang → Gang) : (modGang s g f).winops = s.winops := rfl
@[simp] theorem modGang_front (s : State) (g : Nat) (f : Gang → Gang) : (modGang s g f).front = s.front := rfl
@[simp] theorem modGang_links (s : State) (g : Nat) (f : Gang → Gang) : (modGang s g f).links = s.links := rfl
@[simp] theorem modGang_board (s : State) (g : Nat) (f : Gang → Gang) : (modGang s g f).board = s.board := rfl
@[simp] theorem modGang_agenda (s : State) (g : Nat) (f : Gang → Gang) : (modGang s g f).agenda = s.agenda := rfl
@[simp] theorem modGang_turns (s : State) (g : Nat) (f : Gang → Gang) : (modGang s g f).turns = s.turns := rfl
@[simp] theorem modGang_cur (s : State) (g : Nat) (f : Gang → Gang) : (modGang s g f).cur = s.cur := rfl
@[simp] theorem modGang_nextId (s : State) (g : Nat) (f : Gang → Gang) : (modGang s g f).nextId = s.nextId := rfl
@[simp] theorem modGang_draw (s : State) (g : Nat) (f : Gang → Gang) : (modGang s g f).draw = s.draw := rfl

/-! ## putByte -/

@[simp] theorem putByte_gcyc (s : State) (a : Nat) (b : Byte) : (putByte s a b).gcyc = s.gcyc := rfl
@[simp] theorem putByte_node (s : State) (a : Nat) (b : Byte) : (putByte s a b).node = s.node := rfl
@[simp] theorem putByte_empty (s : State) (a : Nat) (b : Byte) : (putByte s a b).empty = s.empty := rfl
@[simp] theorem putByte_poison (s : State) (a : Nat) (b : Byte) : (putByte s a b).poison = s.poison := rfl
@[simp] theorem putByte_pages (s : State) (a : Nat) (b : Byte) : (putByte s a b).pages = s.pages := rfl
@[simp] theorem putByte_cores (s : State) (a : Nat) (b : Byte) : (putByte s a b).cores = s.cores := rfl
@[simp] theorem putByte_gangs (s : State) (a : Nat) (b : Byte) : (putByte s a b).gangs = s.gangs := rfl
@[simp] theorem putByte_barriersUsed (s : State) (a : Nat) (b : Byte) : (putByte s a b).barriersUsed = s.barriersUsed := rfl
@[simp] theorem putByte_flights (s : State) (a : Nat) (b : Byte) : (putByte s a b).flights = s.flights := rfl
@[simp] theorem putByte_retry (s : State) (a : Nat) (b : Byte) : (putByte s a b).retry = s.retry := rfl
@[simp] theorem putByte_privs (s : State) (a : Nat) (b : Byte) : (putByte s a b).privs = s.privs := rfl
@[simp] theorem putByte_winops (s : State) (a : Nat) (b : Byte) : (putByte s a b).winops = s.winops := rfl
@[simp] theorem putByte_front (s : State) (a : Nat) (b : Byte) : (putByte s a b).front = s.front := rfl
@[simp] theorem putByte_links (s : State) (a : Nat) (b : Byte) : (putByte s a b).links = s.links := rfl
@[simp] theorem putByte_board (s : State) (a : Nat) (b : Byte) : (putByte s a b).board = s.board := rfl
@[simp] theorem putByte_agenda (s : State) (a : Nat) (b : Byte) : (putByte s a b).agenda = s.agenda := rfl
@[simp] theorem putByte_turns (s : State) (a : Nat) (b : Byte) : (putByte s a b).turns = s.turns := rfl
@[simp] theorem putByte_cur (s : State) (a : Nat) (b : Byte) : (putByte s a b).cur = s.cur := rfl
@[simp] theorem putByte_nextId (s : State) (a : Nat) (b : Byte) : (putByte s a b).nextId = s.nextId := rfl
@[simp] theorem putByte_draw (s : State) (a : Nat) (b : Byte) : (putByte s a b).draw = s.draw := rfl

/-! ## setFull -/

@[simp] theorem setFull_gcyc (s : State) (a : Nat) (b : Bool) : (setFull s a b).gcyc = s.gcyc := rfl
@[simp] theorem setFull_node (s : State) (a : Nat) (b : Bool) : (setFull s a b).node = s.node := rfl
@[simp] theorem setFull_mem (s : State) (a : Nat) (b : Bool) : (setFull s a b).mem = s.mem := rfl
@[simp] theorem setFull_poison (s : State) (a : Nat) (b : Bool) : (setFull s a b).poison = s.poison := rfl
@[simp] theorem setFull_pages (s : State) (a : Nat) (b : Bool) : (setFull s a b).pages = s.pages := rfl
@[simp] theorem setFull_cores (s : State) (a : Nat) (b : Bool) : (setFull s a b).cores = s.cores := rfl
@[simp] theorem setFull_gangs (s : State) (a : Nat) (b : Bool) : (setFull s a b).gangs = s.gangs := rfl
@[simp] theorem setFull_barriersUsed (s : State) (a : Nat) (b : Bool) : (setFull s a b).barriersUsed = s.barriersUsed := rfl
@[simp] theorem setFull_flights (s : State) (a : Nat) (b : Bool) : (setFull s a b).flights = s.flights := rfl
@[simp] theorem setFull_retry (s : State) (a : Nat) (b : Bool) : (setFull s a b).retry = s.retry := rfl
@[simp] theorem setFull_privs (s : State) (a : Nat) (b : Bool) : (setFull s a b).privs = s.privs := rfl
@[simp] theorem setFull_winops (s : State) (a : Nat) (b : Bool) : (setFull s a b).winops = s.winops := rfl
@[simp] theorem setFull_front (s : State) (a : Nat) (b : Bool) : (setFull s a b).front = s.front := rfl
@[simp] theorem setFull_links (s : State) (a : Nat) (b : Bool) : (setFull s a b).links = s.links := rfl
@[simp] theorem setFull_board (s : State) (a : Nat) (b : Bool) : (setFull s a b).board = s.board := rfl
@[simp] theorem setFull_agenda (s : State) (a : Nat) (b : Bool) : (setFull s a b).agenda = s.agenda := rfl
@[simp] theorem setFull_turns (s : State) (a : Nat) (b : Bool) : (setFull s a b).turns = s.turns := rfl
@[simp] theorem setFull_cur (s : State) (a : Nat) (b : Bool) : (setFull s a b).cur = s.cur := rfl
@[simp] theorem setFull_nextId (s : State) (a : Nat) (b : Bool) : (setFull s a b).nextId = s.nextId := rfl
@[simp] theorem setFull_draw (s : State) (a : Nat) (b : Bool) : (setFull s a b).draw = s.draw := rfl

/-! ## setPoison -/

@[simp] theorem setPoison_gcyc (s : State) (a : Nat) (b : Bool) : (setPoison s a b).gcyc = s.gcyc := rfl
@[simp] theorem setPoison_node (s : State) (a : Nat) (b : Bool) : (setPoison s a b).node = s.node := rfl
@[simp] theorem setPoison_mem (s : State) (a : Nat) (b : Bool) : (setPoison s a b).mem = s.mem := rfl
@[simp] theorem setPoison_empty (s : State) (a : Nat) (b : Bool) : (setPoison s a b).empty = s.empty := rfl
@[simp] theorem setPoison_pages (s : State) (a : Nat) (b : Bool) : (setPoison s a b).pages = s.pages := rfl
@[simp] theorem setPoison_cores (s : State) (a : Nat) (b : Bool) : (setPoison s a b).cores = s.cores := rfl
@[simp] theorem setPoison_gangs (s : State) (a : Nat) (b : Bool) : (setPoison s a b).gangs = s.gangs := rfl
@[simp] theorem setPoison_barriersUsed (s : State) (a : Nat) (b : Bool) : (setPoison s a b).barriersUsed = s.barriersUsed := rfl
@[simp] theorem setPoison_flights (s : State) (a : Nat) (b : Bool) : (setPoison s a b).flights = s.flights := rfl
@[simp] theorem setPoison_retry (s : State) (a : Nat) (b : Bool) : (setPoison s a b).retry = s.retry := rfl
@[simp] theorem setPoison_privs (s : State) (a : Nat) (b : Bool) : (setPoison s a b).privs = s.privs := rfl
@[simp] theorem setPoison_winops (s : State) (a : Nat) (b : Bool) : (setPoison s a b).winops = s.winops := rfl
@[simp] theorem setPoison_front (s : State) (a : Nat) (b : Bool) : (setPoison s a b).front = s.front := rfl
@[simp] theorem setPoison_links (s : State) (a : Nat) (b : Bool) : (setPoison s a b).links = s.links := rfl
@[simp] theorem setPoison_board (s : State) (a : Nat) (b : Bool) : (setPoison s a b).board = s.board := rfl
@[simp] theorem setPoison_agenda (s : State) (a : Nat) (b : Bool) : (setPoison s a b).agenda = s.agenda := rfl
@[simp] theorem setPoison_turns (s : State) (a : Nat) (b : Bool) : (setPoison s a b).turns = s.turns := rfl
@[simp] theorem setPoison_cur (s : State) (a : Nat) (b : Bool) : (setPoison s a b).cur = s.cur := rfl
@[simp] theorem setPoison_nextId (s : State) (a : Nat) (b : Bool) : (setPoison s a b).nextId = s.nextId := rfl
@[simp] theorem setPoison_draw (s : State) (a : Nat) (b : Bool) : (setPoison s a b).draw = s.draw := rfl

/-! ## at' -/

@[simp] theorem atEvent_gcyc (s : State) (due : Nat) (i : Instr) (l : List Nat) : (at' s due i l).gcyc = s.gcyc := rfl
@[simp] theorem atEvent_node (s : State) (due : Nat) (i : Instr) (l : List Nat) : (at' s due i l).node = s.node := rfl
@[simp] theorem atEvent_mem (s : State) (due : Nat) (i : Instr) (l : List Nat) : (at' s due i l).mem = s.mem := rfl
@[simp] theorem atEvent_empty (s : State) (due : Nat) (i : Instr) (l : List Nat) : (at' s due i l).empty = s.empty := rfl
@[simp] theorem atEvent_poison (s : State) (due : Nat) (i : Instr) (l : List Nat) : (at' s due i l).poison = s.poison := rfl
@[simp] theorem atEvent_pages (s : State) (due : Nat) (i : Instr) (l : List Nat) : (at' s due i l).pages = s.pages := rfl
@[simp] theorem atEvent_cores (s : State) (due : Nat) (i : Instr) (l : List Nat) : (at' s due i l).cores = s.cores := rfl
@[simp] theorem atEvent_gangs (s : State) (due : Nat) (i : Instr) (l : List Nat) : (at' s due i l).gangs = s.gangs := rfl
@[simp] theorem atEvent_barriersUsed (s : State) (due : Nat) (i : Instr) (l : List Nat) : (at' s due i l).barriersUsed = s.barriersUsed := rfl
@[simp] theorem atEvent_flights (s : State) (due : Nat) (i : Instr) (l : List Nat) : (at' s due i l).flights = s.flights := rfl
@[simp] theorem atEvent_retry (s : State) (due : Nat) (i : Instr) (l : List Nat) : (at' s due i l).retry = s.retry := rfl
@[simp] theorem atEvent_privs (s : State) (due : Nat) (i : Instr) (l : List Nat) : (at' s due i l).privs = s.privs := rfl
@[simp] theorem atEvent_winops (s : State) (due : Nat) (i : Instr) (l : List Nat) : (at' s due i l).winops = s.winops := rfl
@[simp] theorem atEvent_front (s : State) (due : Nat) (i : Instr) (l : List Nat) : (at' s due i l).front = s.front := rfl
@[simp] theorem atEvent_links (s : State) (due : Nat) (i : Instr) (l : List Nat) : (at' s due i l).links = s.links := rfl
@[simp] theorem atEvent_board (s : State) (due : Nat) (i : Instr) (l : List Nat) : (at' s due i l).board = s.board := rfl
@[simp] theorem atEvent_turns (s : State) (due : Nat) (i : Instr) (l : List Nat) : (at' s due i l).turns = s.turns := rfl
@[simp] theorem atEvent_cur (s : State) (due : Nat) (i : Instr) (l : List Nat) : (at' s due i l).cur = s.cur := rfl
@[simp] theorem atEvent_nextId (s : State) (due : Nat) (i : Instr) (l : List Nat) : (at' s due i l).nextId = s.nextId := rfl
@[simp] theorem atEvent_draw (s : State) (due : Nat) (i : Instr) (l : List Nat) : (at' s due i l).draw = s.draw := rfl

/-! ## later -/

@[simp] theorem later_gcyc (s : State) (ch : List Nat) (i : Instr) (l : List Nat) : (later s ch i l).gcyc = s.gcyc := rfl
@[simp] theorem later_node (s : State) (ch : List Nat) (i : Instr) (l : List Nat) : (later s ch i l).node = s.node := rfl
@[simp] theorem later_mem (s : State) (ch : List Nat) (i : Instr) (l : List Nat) : (later s ch i l).mem = s.mem := rfl
@[simp] theorem later_empty (s : State) (ch : List Nat) (i : Instr) (l : List Nat) : (later s ch i l).empty = s.empty := rfl
@[simp] theorem later_poison (s : State) (ch : List Nat) (i : Instr) (l : List Nat) : (later s ch i l).poison = s.poison := rfl
@[simp] theorem later_pages (s : State) (ch : List Nat) (i : Instr) (l : List Nat) : (later s ch i l).pages = s.pages := rfl
@[simp] theorem later_cores (s : State) (ch : List Nat) (i : Instr) (l : List Nat) : (later s ch i l).cores = s.cores := rfl
@[simp] theorem later_gangs (s : State) (ch : List Nat) (i : Instr) (l : List Nat) : (later s ch i l).gangs = s.gangs := rfl
@[simp] theorem later_barriersUsed (s : State) (ch : List Nat) (i : Instr) (l : List Nat) : (later s ch i l).barriersUsed = s.barriersUsed := rfl
@[simp] theorem later_flights (s : State) (ch : List Nat) (i : Instr) (l : List Nat) : (later s ch i l).flights = s.flights := rfl
@[simp] theorem later_retry (s : State) (ch : List Nat) (i : Instr) (l : List Nat) : (later s ch i l).retry = s.retry := rfl
@[simp] theorem later_privs (s : State) (ch : List Nat) (i : Instr) (l : List Nat) : (later s ch i l).privs = s.privs := rfl
@[simp] theorem later_winops (s : State) (ch : List Nat) (i : Instr) (l : List Nat) : (later s ch i l).winops = s.winops := rfl
@[simp] theorem later_front (s : State) (ch : List Nat) (i : Instr) (l : List Nat) : (later s ch i l).front = s.front := rfl
@[simp] theorem later_links (s : State) (ch : List Nat) (i : Instr) (l : List Nat) : (later s ch i l).links = s.links := rfl
@[simp] theorem later_board (s : State) (ch : List Nat) (i : Instr) (l : List Nat) : (later s ch i l).board = s.board := rfl
@[simp] theorem later_turns (s : State) (ch : List Nat) (i : Instr) (l : List Nat) : (later s ch i l).turns = s.turns := rfl
@[simp] theorem later_cur (s : State) (ch : List Nat) (i : Instr) (l : List Nat) : (later s ch i l).cur = s.cur := rfl
@[simp] theorem later_nextId (s : State) (ch : List Nat) (i : Instr) (l : List Nat) : (later s ch i l).nextId = s.nextId := rfl

/-! ## laterIn -/

@[simp] theorem laterIn_gcyc (s : State) (n : Nat) (i : Instr) (l : List Nat) : (laterIn s n i l).gcyc = s.gcyc := rfl
@[simp] theorem laterIn_node (s : State) (n : Nat) (i : Instr) (l : List Nat) : (laterIn s n i l).node = s.node := rfl
@[simp] theorem laterIn_mem (s : State) (n : Nat) (i : Instr) (l : List Nat) : (laterIn s n i l).mem = s.mem := rfl
@[simp] theorem laterIn_empty (s : State) (n : Nat) (i : Instr) (l : List Nat) : (laterIn s n i l).empty = s.empty := rfl
@[simp] theorem laterIn_poison (s : State) (n : Nat) (i : Instr) (l : List Nat) : (laterIn s n i l).poison = s.poison := rfl
@[simp] theorem laterIn_pages (s : State) (n : Nat) (i : Instr) (l : List Nat) : (laterIn s n i l).pages = s.pages := rfl
@[simp] theorem laterIn_cores (s : State) (n : Nat) (i : Instr) (l : List Nat) : (laterIn s n i l).cores = s.cores := rfl
@[simp] theorem laterIn_gangs (s : State) (n : Nat) (i : Instr) (l : List Nat) : (laterIn s n i l).gangs = s.gangs := rfl
@[simp] theorem laterIn_barriersUsed (s : State) (n : Nat) (i : Instr) (l : List Nat) : (laterIn s n i l).barriersUsed = s.barriersUsed := rfl
@[simp] theorem laterIn_flights (s : State) (n : Nat) (i : Instr) (l : List Nat) : (laterIn s n i l).flights = s.flights := rfl
@[simp] theorem laterIn_retry (s : State) (n : Nat) (i : Instr) (l : List Nat) : (laterIn s n i l).retry = s.retry := rfl
@[simp] theorem laterIn_privs (s : State) (n : Nat) (i : Instr) (l : List Nat) : (laterIn s n i l).privs = s.privs := rfl
@[simp] theorem laterIn_winops (s : State) (n : Nat) (i : Instr) (l : List Nat) : (laterIn s n i l).winops = s.winops := rfl
@[simp] theorem laterIn_front (s : State) (n : Nat) (i : Instr) (l : List Nat) : (laterIn s n i l).front = s.front := rfl
@[simp] theorem laterIn_links (s : State) (n : Nat) (i : Instr) (l : List Nat) : (laterIn s n i l).links = s.links := rfl
@[simp] theorem laterIn_board (s : State) (n : Nat) (i : Instr) (l : List Nat) : (laterIn s n i l).board = s.board := rfl
@[simp] theorem laterIn_turns (s : State) (n : Nat) (i : Instr) (l : List Nat) : (laterIn s n i l).turns = s.turns := rfl
@[simp] theorem laterIn_cur (s : State) (n : Nat) (i : Instr) (l : List Nat) : (laterIn s n i l).cur = s.cur := rfl
@[simp] theorem laterIn_nextId (s : State) (n : Nat) (i : Instr) (l : List Nat) : (laterIn s n i l).nextId = s.nextId := rfl

/-! ## post -/

@[simp] theorem post_gcyc (s : State) (sv src : Nat) (l : List Nat) : (post s sv src l).gcyc = s.gcyc := rfl
@[simp] theorem post_node (s : State) (sv src : Nat) (l : List Nat) : (post s sv src l).node = s.node := rfl
@[simp] theorem post_mem (s : State) (sv src : Nat) (l : List Nat) : (post s sv src l).mem = s.mem := rfl
@[simp] theorem post_empty (s : State) (sv src : Nat) (l : List Nat) : (post s sv src l).empty = s.empty := rfl
@[simp] theorem post_poison (s : State) (sv src : Nat) (l : List Nat) : (post s sv src l).poison = s.poison := rfl
@[simp] theorem post_pages (s : State) (sv src : Nat) (l : List Nat) : (post s sv src l).pages = s.pages := rfl
@[simp] theorem post_cores (s : State) (sv src : Nat) (l : List Nat) : (post s sv src l).cores = s.cores := rfl
@[simp] theorem post_gangs (s : State) (sv src : Nat) (l : List Nat) : (post s sv src l).gangs = s.gangs := rfl
@[simp] theorem post_barriersUsed (s : State) (sv src : Nat) (l : List Nat) : (post s sv src l).barriersUsed = s.barriersUsed := rfl
@[simp] theorem post_flights (s : State) (sv src : Nat) (l : List Nat) : (post s sv src l).flights = s.flights := rfl
@[simp] theorem post_retry (s : State) (sv src : Nat) (l : List Nat) : (post s sv src l).retry = s.retry := rfl
@[simp] theorem post_privs (s : State) (sv src : Nat) (l : List Nat) : (post s sv src l).privs = s.privs := rfl
@[simp] theorem post_winops (s : State) (sv src : Nat) (l : List Nat) : (post s sv src l).winops = s.winops := rfl
@[simp] theorem post_front (s : State) (sv src : Nat) (l : List Nat) : (post s sv src l).front = s.front := rfl
@[simp] theorem post_links (s : State) (sv src : Nat) (l : List Nat) : (post s sv src l).links = s.links := rfl
@[simp] theorem post_board (s : State) (sv src : Nat) (l : List Nat) : (post s sv src l).board = s.board := rfl
@[simp] theorem post_turns (s : State) (sv src : Nat) (l : List Nat) : (post s sv src l).turns = s.turns := rfl
@[simp] theorem post_cur (s : State) (sv src : Nat) (l : List Nat) : (post s sv src l).cur = s.cur := rfl
@[simp] theorem post_nextId (s : State) (sv src : Nat) (l : List Nat) : (post s sv src l).nextId = s.nextId := rfl

/-! ## modQueue -/

@[simp] theorem modQueue_gcyc (s : State) (q : Nat) (f : Queue → Queue) : (modQueue s q f).gcyc = s.gcyc := rfl
@[simp] theorem modQueue_node (s : State) (q : Nat) (f : Queue → Queue) : (modQueue s q f).node = s.node := rfl
@[simp] theorem modQueue_mem (s : State) (q : Nat) (f : Queue → Queue) : (modQueue s q f).mem = s.mem := rfl
@[simp] theorem modQueue_empty (s : State) (q : Nat) (f : Queue → Queue) : (modQueue s q f).empty = s.empty := rfl
@[simp] theorem modQueue_poison (s : State) (q : Nat) (f : Queue → Queue) : (modQueue s q f).poison = s.poison := rfl
@[simp] theorem modQueue_pages (s : State) (q : Nat) (f : Queue → Queue) : (modQueue s q f).pages = s.pages := rfl
@[simp] theorem modQueue_cores (s : State) (q : Nat) (f : Queue → Queue) : (modQueue s q f).cores = s.cores := rfl
@[simp] theorem modQueue_gangs (s : State) (q : Nat) (f : Queue → Queue) : (modQueue s q f).gangs = s.gangs := rfl
@[simp] theorem modQueue_barriersUsed (s : State) (q : Nat) (f : Queue → Queue) : (modQueue s q f).barriersUsed = s.barriersUsed := rfl
@[simp] theorem modQueue_flights (s : State) (q : Nat) (f : Queue → Queue) : (modQueue s q f).flights = s.flights := rfl
@[simp] theorem modQueue_retry (s : State) (q : Nat) (f : Queue → Queue) : (modQueue s q f).retry = s.retry := rfl
@[simp] theorem modQueue_privs (s : State) (q : Nat) (f : Queue → Queue) : (modQueue s q f).privs = s.privs := rfl
@[simp] theorem modQueue_winops (s : State) (q : Nat) (f : Queue → Queue) : (modQueue s q f).winops = s.winops := rfl
@[simp] theorem modQueue_links (s : State) (q : Nat) (f : Queue → Queue) : (modQueue s q f).links = s.links := rfl
@[simp] theorem modQueue_board (s : State) (q : Nat) (f : Queue → Queue) : (modQueue s q f).board = s.board := rfl
@[simp] theorem modQueue_agenda (s : State) (q : Nat) (f : Queue → Queue) : (modQueue s q f).agenda = s.agenda := rfl
@[simp] theorem modQueue_turns (s : State) (q : Nat) (f : Queue → Queue) : (modQueue s q f).turns = s.turns := rfl
@[simp] theorem modQueue_cur (s : State) (q : Nat) (f : Queue → Queue) : (modQueue s q f).cur = s.cur := rfl
@[simp] theorem modQueue_nextId (s : State) (q : Nat) (f : Queue → Queue) : (modQueue s q f).nextId = s.nextId := rfl
@[simp] theorem modQueue_draw (s : State) (q : Nat) (f : Queue → Queue) : (modQueue s q f).draw = s.draw := rfl

/-! ## note -/

@[simp] theorem note_gcyc (s : State) (n : Nat) : (note s n).gcyc = s.gcyc := rfl
@[simp] theorem note_node (s : State) (n : Nat) : (note s n).node = s.node := rfl
@[simp] theorem note_mem (s : State) (n : Nat) : (note s n).mem = s.mem := rfl
@[simp] theorem note_empty (s : State) (n : Nat) : (note s n).empty = s.empty := rfl
@[simp] theorem note_poison (s : State) (n : Nat) : (note s n).poison = s.poison := rfl
@[simp] theorem note_pages (s : State) (n : Nat) : (note s n).pages = s.pages := rfl
@[simp] theorem note_cores (s : State) (n : Nat) : (note s n).cores = s.cores := rfl
@[simp] theorem note_gangs (s : State) (n : Nat) : (note s n).gangs = s.gangs := rfl
@[simp] theorem note_barriersUsed (s : State) (n : Nat) : (note s n).barriersUsed = s.barriersUsed := rfl
@[simp] theorem note_flights (s : State) (n : Nat) : (note s n).flights = s.flights := rfl
@[simp] theorem note_retry (s : State) (n : Nat) : (note s n).retry = s.retry := rfl
@[simp] theorem note_privs (s : State) (n : Nat) : (note s n).privs = s.privs := rfl
@[simp] theorem note_winops (s : State) (n : Nat) : (note s n).winops = s.winops := rfl
@[simp] theorem note_front (s : State) (n : Nat) : (note s n).front = s.front := rfl
@[simp] theorem note_links (s : State) (n : Nat) : (note s n).links = s.links := rfl
@[simp] theorem note_board (s : State) (n : Nat) : (note s n).board = s.board := rfl
@[simp] theorem note_agenda (s : State) (n : Nat) : (note s n).agenda = s.agenda := rfl
@[simp] theorem note_turns (s : State) (n : Nat) : (note s n).turns = s.turns := rfl
@[simp] theorem note_nextId (s : State) (n : Nat) : (note s n).nextId = s.nextId := rfl
@[simp] theorem note_draw (s : State) (n : Nat) : (note s n).draw = s.draw := rfl

/-! ## blockNow -/

@[simp] theorem blockNow_gcyc (s : State) : (blockNow s).gcyc = s.gcyc := rfl
@[simp] theorem blockNow_node (s : State) : (blockNow s).node = s.node := rfl
@[simp] theorem blockNow_mem (s : State) : (blockNow s).mem = s.mem := rfl
@[simp] theorem blockNow_empty (s : State) : (blockNow s).empty = s.empty := rfl
@[simp] theorem blockNow_poison (s : State) : (blockNow s).poison = s.poison := rfl
@[simp] theorem blockNow_pages (s : State) : (blockNow s).pages = s.pages := rfl
@[simp] theorem blockNow_cores (s : State) : (blockNow s).cores = s.cores := rfl
@[simp] theorem blockNow_gangs (s : State) : (blockNow s).gangs = s.gangs := rfl
@[simp] theorem blockNow_barriersUsed (s : State) : (blockNow s).barriersUsed = s.barriersUsed := rfl
@[simp] theorem blockNow_flights (s : State) : (blockNow s).flights = s.flights := rfl
@[simp] theorem blockNow_retry (s : State) : (blockNow s).retry = s.retry := rfl
@[simp] theorem blockNow_privs (s : State) : (blockNow s).privs = s.privs := rfl
@[simp] theorem blockNow_winops (s : State) : (blockNow s).winops = s.winops := rfl
@[simp] theorem blockNow_front (s : State) : (blockNow s).front = s.front := rfl
@[simp] theorem blockNow_links (s : State) : (blockNow s).links = s.links := rfl
@[simp] theorem blockNow_board (s : State) : (blockNow s).board = s.board := rfl
@[simp] theorem blockNow_agenda (s : State) : (blockNow s).agenda = s.agenda := rfl
@[simp] theorem blockNow_turns (s : State) : (blockNow s).turns = s.turns := rfl
@[simp] theorem blockNow_nextId (s : State) : (blockNow s).nextId = s.nextId := rfl
@[simp] theorem blockNow_draw (s : State) : (blockNow s).draw = s.draw := rfl

/-! ## jumpTo -/

@[simp] theorem jumpTo_gcyc (s : State) (a : Nat) : (jumpTo s a).gcyc = s.gcyc := rfl
@[simp] theorem jumpTo_node (s : State) (a : Nat) : (jumpTo s a).node = s.node := rfl
@[simp] theorem jumpTo_mem (s : State) (a : Nat) : (jumpTo s a).mem = s.mem := rfl
@[simp] theorem jumpTo_empty (s : State) (a : Nat) : (jumpTo s a).empty = s.empty := rfl
@[simp] theorem jumpTo_poison (s : State) (a : Nat) : (jumpTo s a).poison = s.poison := rfl
@[simp] theorem jumpTo_pages (s : State) (a : Nat) : (jumpTo s a).pages = s.pages := rfl
@[simp] theorem jumpTo_cores (s : State) (a : Nat) : (jumpTo s a).cores = s.cores := rfl
@[simp] theorem jumpTo_gangs (s : State) (a : Nat) : (jumpTo s a).gangs = s.gangs := rfl
@[simp] theorem jumpTo_barriersUsed (s : State) (a : Nat) : (jumpTo s a).barriersUsed = s.barriersUsed := rfl
@[simp] theorem jumpTo_flights (s : State) (a : Nat) : (jumpTo s a).flights = s.flights := rfl
@[simp] theorem jumpTo_retry (s : State) (a : Nat) : (jumpTo s a).retry = s.retry := rfl
@[simp] theorem jumpTo_privs (s : State) (a : Nat) : (jumpTo s a).privs = s.privs := rfl
@[simp] theorem jumpTo_winops (s : State) (a : Nat) : (jumpTo s a).winops = s.winops := rfl
@[simp] theorem jumpTo_front (s : State) (a : Nat) : (jumpTo s a).front = s.front := rfl
@[simp] theorem jumpTo_links (s : State) (a : Nat) : (jumpTo s a).links = s.links := rfl
@[simp] theorem jumpTo_board (s : State) (a : Nat) : (jumpTo s a).board = s.board := rfl
@[simp] theorem jumpTo_agenda (s : State) (a : Nat) : (jumpTo s a).agenda = s.agenda := rfl
@[simp] theorem jumpTo_turns (s : State) (a : Nat) : (jumpTo s a).turns = s.turns := rfl
@[simp] theorem jumpTo_nextId (s : State) (a : Nat) : (jumpTo s a).nextId = s.nextId := rfl
@[simp] theorem jumpTo_draw (s : State) (a : Nat) : (jumpTo s a).draw = s.draw := rfl

/-! ## land -/

@[simp] theorem land_gcyc (s : State) (lat : Nat) (a : LandAct) (n : Nat) : (land s lat a n).gcyc = s.gcyc := rfl
@[simp] theorem land_node (s : State) (lat : Nat) (a : LandAct) (n : Nat) : (land s lat a n).node = s.node := rfl
@[simp] theorem land_mem (s : State) (lat : Nat) (a : LandAct) (n : Nat) : (land s lat a n).mem = s.mem := rfl
@[simp] theorem land_empty (s : State) (lat : Nat) (a : LandAct) (n : Nat) : (land s lat a n).empty = s.empty := rfl
@[simp] theorem land_poison (s : State) (lat : Nat) (a : LandAct) (n : Nat) : (land s lat a n).poison = s.poison := rfl
@[simp] theorem land_pages (s : State) (lat : Nat) (a : LandAct) (n : Nat) : (land s lat a n).pages = s.pages := rfl
@[simp] theorem land_gangs (s : State) (lat : Nat) (a : LandAct) (n : Nat) : (land s lat a n).gangs = s.gangs := rfl
@[simp] theorem land_barriersUsed (s : State) (lat : Nat) (a : LandAct) (n : Nat) : (land s lat a n).barriersUsed = s.barriersUsed := rfl
@[simp] theorem land_flights (s : State) (lat : Nat) (a : LandAct) (n : Nat) : (land s lat a n).flights = s.flights := rfl
@[simp] theorem land_retry (s : State) (lat : Nat) (a : LandAct) (n : Nat) : (land s lat a n).retry = s.retry := rfl
@[simp] theorem land_privs (s : State) (lat : Nat) (a : LandAct) (n : Nat) : (land s lat a n).privs = s.privs := rfl
@[simp] theorem land_winops (s : State) (lat : Nat) (a : LandAct) (n : Nat) : (land s lat a n).winops = s.winops := rfl
@[simp] theorem land_front (s : State) (lat : Nat) (a : LandAct) (n : Nat) : (land s lat a n).front = s.front := rfl
@[simp] theorem land_links (s : State) (lat : Nat) (a : LandAct) (n : Nat) : (land s lat a n).links = s.links := rfl
@[simp] theorem land_board (s : State) (lat : Nat) (a : LandAct) (n : Nat) : (land s lat a n).board = s.board := rfl
@[simp] theorem land_agenda (s : State) (lat : Nat) (a : LandAct) (n : Nat) : (land s lat a n).agenda = s.agenda := rfl
@[simp] theorem land_turns (s : State) (lat : Nat) (a : LandAct) (n : Nat) : (land s lat a n).turns = s.turns := rfl
@[simp] theorem land_cur (s : State) (lat : Nat) (a : LandAct) (n : Nat) : (land s lat a n).cur = s.cur := rfl
@[simp] theorem land_nextId (s : State) (lat : Nat) (a : LandAct) (n : Nat) : (land s lat a n).nextId = s.nextId := rfl
@[simp] theorem land_draw (s : State) (lat : Nat) (a : LandAct) (n : Nat) : (land s lat a n).draw = s.draw := rfl

/-! ## tick -/

@[simp] theorem tick_gcyc (s : State) (c k n : Nat) : (tick s c k n).gcyc = s.gcyc := rfl
@[simp] theorem tick_node (s : State) (c k n : Nat) : (tick s c k n).node = s.node := rfl
@[simp] theorem tick_mem (s : State) (c k n : Nat) : (tick s c k n).mem = s.mem := rfl
@[simp] theorem tick_empty (s : State) (c k n : Nat) : (tick s c k n).empty = s.empty := rfl
@[simp] theorem tick_poison (s : State) (c k n : Nat) : (tick s c k n).poison = s.poison := rfl
@[simp] theorem tick_pages (s : State) (c k n : Nat) : (tick s c k n).pages = s.pages := rfl
@[simp] theorem tick_gangs (s : State) (c k n : Nat) : (tick s c k n).gangs = s.gangs := rfl
@[simp] theorem tick_barriersUsed (s : State) (c k n : Nat) : (tick s c k n).barriersUsed = s.barriersUsed := rfl
@[simp] theorem tick_flights (s : State) (c k n : Nat) : (tick s c k n).flights = s.flights := rfl
@[simp] theorem tick_retry (s : State) (c k n : Nat) : (tick s c k n).retry = s.retry := rfl
@[simp] theorem tick_privs (s : State) (c k n : Nat) : (tick s c k n).privs = s.privs := rfl
@[simp] theorem tick_winops (s : State) (c k n : Nat) : (tick s c k n).winops = s.winops := rfl
@[simp] theorem tick_front (s : State) (c k n : Nat) : (tick s c k n).front = s.front := rfl
@[simp] theorem tick_links (s : State) (c k n : Nat) : (tick s c k n).links = s.links := rfl
@[simp] theorem tick_board (s : State) (c k n : Nat) : (tick s c k n).board = s.board := rfl
@[simp] theorem tick_agenda (s : State) (c k n : Nat) : (tick s c k n).agenda = s.agenda := rfl
@[simp] theorem tick_turns (s : State) (c k n : Nat) : (tick s c k n).turns = s.turns := rfl
@[simp] theorem tick_cur (s : State) (c k n : Nat) : (tick s c k n).cur = s.cur := rfl
@[simp] theorem tick_nextId (s : State) (c k n : Nat) : (tick s c k n).nextId = s.nextId := rfl
@[simp] theorem tick_draw (s : State) (c k n : Nat) : (tick s c k n).draw = s.draw := rfl

/-! ## setSem -/

@[simp] theorem setSem_gcyc (s : State) (c n v : Nat) : (setSem s c n v).gcyc = s.gcyc := rfl
@[simp] theorem setSem_node (s : State) (c n v : Nat) : (setSem s c n v).node = s.node := rfl
@[simp] theorem setSem_mem (s : State) (c n v : Nat) : (setSem s c n v).mem = s.mem := rfl
@[simp] theorem setSem_empty (s : State) (c n v : Nat) : (setSem s c n v).empty = s.empty := rfl
@[simp] theorem setSem_poison (s : State) (c n v : Nat) : (setSem s c n v).poison = s.poison := rfl
@[simp] theorem setSem_pages (s : State) (c n v : Nat) : (setSem s c n v).pages = s.pages := rfl
@[simp] theorem setSem_gangs (s : State) (c n v : Nat) : (setSem s c n v).gangs = s.gangs := rfl
@[simp] theorem setSem_barriersUsed (s : State) (c n v : Nat) : (setSem s c n v).barriersUsed = s.barriersUsed := rfl
@[simp] theorem setSem_flights (s : State) (c n v : Nat) : (setSem s c n v).flights = s.flights := rfl
@[simp] theorem setSem_retry (s : State) (c n v : Nat) : (setSem s c n v).retry = s.retry := rfl
@[simp] theorem setSem_privs (s : State) (c n v : Nat) : (setSem s c n v).privs = s.privs := rfl
@[simp] theorem setSem_winops (s : State) (c n v : Nat) : (setSem s c n v).winops = s.winops := rfl
@[simp] theorem setSem_front (s : State) (c n v : Nat) : (setSem s c n v).front = s.front := rfl
@[simp] theorem setSem_links (s : State) (c n v : Nat) : (setSem s c n v).links = s.links := rfl
@[simp] theorem setSem_board (s : State) (c n v : Nat) : (setSem s c n v).board = s.board := rfl
@[simp] theorem setSem_agenda (s : State) (c n v : Nat) : (setSem s c n v).agenda = s.agenda := rfl
@[simp] theorem setSem_turns (s : State) (c n v : Nat) : (setSem s c n v).turns = s.turns := rfl
@[simp] theorem setSem_cur (s : State) (c n v : Nat) : (setSem s c n v).cur = s.cur := rfl
@[simp] theorem setSem_nextId (s : State) (c n v : Nat) : (setSem s c n v).nextId = s.nextId := rfl
@[simp] theorem setSem_draw (s : State) (c n v : Nat) : (setSem s c n v).draw = s.draw := rfl

/-! ## drawLat -/

@[simp] theorem drawLat_gcyc (s : State) : (drawLat s).2.gcyc = s.gcyc := rfl
@[simp] theorem drawLat_node (s : State) : (drawLat s).2.node = s.node := rfl
@[simp] theorem drawLat_mem (s : State) : (drawLat s).2.mem = s.mem := rfl
@[simp] theorem drawLat_empty (s : State) : (drawLat s).2.empty = s.empty := rfl
@[simp] theorem drawLat_poison (s : State) : (drawLat s).2.poison = s.poison := rfl
@[simp] theorem drawLat_pages (s : State) : (drawLat s).2.pages = s.pages := rfl
@[simp] theorem drawLat_cores (s : State) : (drawLat s).2.cores = s.cores := rfl
@[simp] theorem drawLat_gangs (s : State) : (drawLat s).2.gangs = s.gangs := rfl
@[simp] theorem drawLat_barriersUsed (s : State) : (drawLat s).2.barriersUsed = s.barriersUsed := rfl
@[simp] theorem drawLat_flights (s : State) : (drawLat s).2.flights = s.flights := rfl
@[simp] theorem drawLat_retry (s : State) : (drawLat s).2.retry = s.retry := rfl
@[simp] theorem drawLat_privs (s : State) : (drawLat s).2.privs = s.privs := rfl
@[simp] theorem drawLat_winops (s : State) : (drawLat s).2.winops = s.winops := rfl
@[simp] theorem drawLat_front (s : State) : (drawLat s).2.front = s.front := rfl
@[simp] theorem drawLat_links (s : State) : (drawLat s).2.links = s.links := rfl
@[simp] theorem drawLat_board (s : State) : (drawLat s).2.board = s.board := rfl
@[simp] theorem drawLat_agenda (s : State) : (drawLat s).2.agenda = s.agenda := rfl
@[simp] theorem drawLat_turns (s : State) : (drawLat s).2.turns = s.turns := rfl
@[simp] theorem drawLat_cur (s : State) : (drawLat s).2.cur = s.cur := rfl
@[simp] theorem drawLat_nextId (s : State) : (drawLat s).2.nextId = s.nextId := rfl

/-! ## drawChoice -/

@[simp] theorem drawChoice_gcyc (s : State) : (drawChoice s).2.gcyc = s.gcyc := rfl
@[simp] theorem drawChoice_node (s : State) : (drawChoice s).2.node = s.node := rfl
@[simp] theorem drawChoice_mem (s : State) : (drawChoice s).2.mem = s.mem := rfl
@[simp] theorem drawChoice_empty (s : State) : (drawChoice s).2.empty = s.empty := rfl
@[simp] theorem drawChoice_poison (s : State) : (drawChoice s).2.poison = s.poison := rfl
@[simp] theorem drawChoice_pages (s : State) : (drawChoice s).2.pages = s.pages := rfl
@[simp] theorem drawChoice_cores (s : State) : (drawChoice s).2.cores = s.cores := rfl
@[simp] theorem drawChoice_gangs (s : State) : (drawChoice s).2.gangs = s.gangs := rfl
@[simp] theorem drawChoice_barriersUsed (s : State) : (drawChoice s).2.barriersUsed = s.barriersUsed := rfl
@[simp] theorem drawChoice_flights (s : State) : (drawChoice s).2.flights = s.flights := rfl
@[simp] theorem drawChoice_retry (s : State) : (drawChoice s).2.retry = s.retry := rfl
@[simp] theorem drawChoice_privs (s : State) : (drawChoice s).2.privs = s.privs := rfl
@[simp] theorem drawChoice_winops (s : State) : (drawChoice s).2.winops = s.winops := rfl
@[simp] theorem drawChoice_front (s : State) : (drawChoice s).2.front = s.front := rfl
@[simp] theorem drawChoice_links (s : State) : (drawChoice s).2.links = s.links := rfl
@[simp] theorem drawChoice_board (s : State) : (drawChoice s).2.board = s.board := rfl
@[simp] theorem drawChoice_agenda (s : State) : (drawChoice s).2.agenda = s.agenda := rfl
@[simp] theorem drawChoice_turns (s : State) : (drawChoice s).2.turns = s.turns := rfl
@[simp] theorem drawChoice_cur (s : State) : (drawChoice s).2.cur = s.cur := rfl
@[simp] theorem drawChoice_nextId (s : State) : (drawChoice s).2.nextId = s.nextId := rfl

/-! ## drawTicket -/

@[simp] theorem drawTicket_gcyc (s : State) : (drawTicket s).2.gcyc = s.gcyc := rfl
@[simp] theorem drawTicket_node (s : State) : (drawTicket s).2.node = s.node := rfl
@[simp] theorem drawTicket_mem (s : State) : (drawTicket s).2.mem = s.mem := rfl
@[simp] theorem drawTicket_empty (s : State) : (drawTicket s).2.empty = s.empty := rfl
@[simp] theorem drawTicket_poison (s : State) : (drawTicket s).2.poison = s.poison := rfl
@[simp] theorem drawTicket_pages (s : State) : (drawTicket s).2.pages = s.pages := rfl
@[simp] theorem drawTicket_cores (s : State) : (drawTicket s).2.cores = s.cores := rfl
@[simp] theorem drawTicket_gangs (s : State) : (drawTicket s).2.gangs = s.gangs := rfl
@[simp] theorem drawTicket_barriersUsed (s : State) : (drawTicket s).2.barriersUsed = s.barriersUsed := rfl
@[simp] theorem drawTicket_flights (s : State) : (drawTicket s).2.flights = s.flights := rfl
@[simp] theorem drawTicket_retry (s : State) : (drawTicket s).2.retry = s.retry := rfl
@[simp] theorem drawTicket_privs (s : State) : (drawTicket s).2.privs = s.privs := rfl
@[simp] theorem drawTicket_winops (s : State) : (drawTicket s).2.winops = s.winops := rfl
@[simp] theorem drawTicket_front (s : State) : (drawTicket s).2.front = s.front := rfl
@[simp] theorem drawTicket_links (s : State) : (drawTicket s).2.links = s.links := rfl
@[simp] theorem drawTicket_board (s : State) : (drawTicket s).2.board = s.board := rfl
@[simp] theorem drawTicket_agenda (s : State) : (drawTicket s).2.agenda = s.agenda := rfl
@[simp] theorem drawTicket_turns (s : State) : (drawTicket s).2.turns = s.turns := rfl
@[simp] theorem drawTicket_cur (s : State) : (drawTicket s).2.cur = s.cur := rfl
@[simp] theorem drawTicket_nextId (s : State) : (drawTicket s).2.nextId = s.nextId := rfl

/-! ## fresh -/

@[simp] theorem fresh_gcyc (s : State) : (fresh s).2.gcyc = s.gcyc := rfl
@[simp] theorem fresh_node (s : State) : (fresh s).2.node = s.node := rfl
@[simp] theorem fresh_mem (s : State) : (fresh s).2.mem = s.mem := rfl
@[simp] theorem fresh_empty (s : State) : (fresh s).2.empty = s.empty := rfl
@[simp] theorem fresh_poison (s : State) : (fresh s).2.poison = s.poison := rfl
@[simp] theorem fresh_pages (s : State) : (fresh s).2.pages = s.pages := rfl
@[simp] theorem fresh_cores (s : State) : (fresh s).2.cores = s.cores := rfl
@[simp] theorem fresh_gangs (s : State) : (fresh s).2.gangs = s.gangs := rfl
@[simp] theorem fresh_barriersUsed (s : State) : (fresh s).2.barriersUsed = s.barriersUsed := rfl
@[simp] theorem fresh_flights (s : State) : (fresh s).2.flights = s.flights := rfl
@[simp] theorem fresh_retry (s : State) : (fresh s).2.retry = s.retry := rfl
@[simp] theorem fresh_privs (s : State) : (fresh s).2.privs = s.privs := rfl
@[simp] theorem fresh_winops (s : State) : (fresh s).2.winops = s.winops := rfl
@[simp] theorem fresh_front (s : State) : (fresh s).2.front = s.front := rfl
@[simp] theorem fresh_links (s : State) : (fresh s).2.links = s.links := rfl
@[simp] theorem fresh_board (s : State) : (fresh s).2.board = s.board := rfl
@[simp] theorem fresh_agenda (s : State) : (fresh s).2.agenda = s.agenda := rfl
@[simp] theorem fresh_turns (s : State) : (fresh s).2.turns = s.turns := rfl
@[simp] theorem fresh_cur (s : State) : (fresh s).2.cur = s.cur := rfl
@[simp] theorem fresh_draw (s : State) : (fresh s).2.draw = s.draw := rfl

end Sys2Proof.Machine
end

