-- ==== Sys2Proof/Laws/Tab.lean ====
section
/-! SUPPORT. Sparse tables: reading after writing, and the canonical form. -/

namespace Sys2Proof.Machine

/-! ## Reading after writing -/

theorem tget_tset {α : Type} (d : α) (t : Tab α) (k j : Nat) (x : α) :
    tget d (tset t k x) j = if k = j then x else tget d t j := by
  induction t with
  | nil => simp [tset, tget]
  | cons p r ih =>
    obtain ⟨i, y⟩ := p
    by_cases h1 : k < i
    · simp [tset, tget, h1]
    · by_cases h2 : k = i
      · subst h2; by_cases h3 : k = j <;> simp [tset, tget, h3]
      · simp only [tset, h1, h2, if_false, tget, ih]
        by_cases h3 : i = j <;> by_cases h4 : k = j <;> simp_all

@[simp] theorem tget_tset_same {α : Type} (d : α) (t : Tab α) (k : Nat) (x : α) : tget d (tset t k x) k = x := by
  simp [tget_tset]

theorem tget_tset_ne {α : Type} (d : α) (t : Tab α) {k j : Nat} (x : α) (h : k ≠ j) :
    tget d (tset t k x) j = tget d t j := by simp [tget_tset, h]

theorem tfind_tset {α : Type} (t : Tab α) (k j : Nat) (x : α) :
    tfind (tset t k x) j = if k = j then some x else tfind t j := by
  induction t with
  | nil => simp [tset, tfind]
  | cons p r ih =>
    obtain ⟨i, y⟩ := p
    by_cases h1 : k < i
    · simp [tset, tfind, h1]
    · by_cases h2 : k = i
      · subst h2; by_cases h3 : k = j <;> simp [tset, tfind, h3]
      · simp only [tset, h1, h2, if_false, tfind, ih]
        by_cases h3 : i = j <;> by_cases h4 : k = j <;> simp_all

@[simp] theorem tfind_tset_same {α : Type} (t : Tab α) (k : Nat) (x : α) : tfind (tset t k x) k = some x := by
  simp [tfind_tset]

theorem tget_tdel {α : Type} (d : α) (t : Tab α) (k j : Nat) :
    tget d (tdel t k) j = if k = j then d else tget d t j := by
  induction t with
  | nil => simp [tdel, tget]
  | cons p r ih =>
    obtain ⟨i, y⟩ := p
    have ih' : tget d (r.filter (fun p => p.1 != k)) j = if k = j then d else tget d r j := ih
    by_cases h1 : i = k
    · subst h1; by_cases h2 : i = j <;> simp_all [tdel, tget]
    · by_cases h2 : i = j <;> by_cases h3 : k = j <;> simp_all [tdel, tget]

theorem tfind_tdel {α : Type} (t : Tab α) (k j : Nat) : tfind (tdel t k) j = if k = j then none else tfind t j := by
  induction t with
  | nil => simp [tdel, tfind]
  | cons p r ih =>
    obtain ⟨i, y⟩ := p
    have ih' : tfind (r.filter (fun p => p.1 != k)) j = if k = j then none else tfind r j := ih
    by_cases h1 : i = k
    · subst h1; by_cases h2 : i = j <;> simp_all [tdel, tfind]
    · by_cases h2 : i = j <;> by_cases h3 : k = j <;> simp_all [tdel, tfind]

theorem tget_tput {α : Type} [DecidableEq α] (d : α) (t : Tab α) (k j : Nat) (x : α) :
    tget d (tput d t k x) j = if k = j then x else tget d t j := by
  unfold tput
  split
  · subst x; exact tget_tdel d t k j
  · exact tget_tset d t k j x

@[simp] theorem tget_tput_same {α : Type} [DecidableEq α] (d : α) (t : Tab α) (k : Nat) (x : α) :
    tget d (tput d t k x) k = x := by simp [tget_tput]

theorem tget_eq_tfind {α : Type} (d : α) (t : Tab α) (k : Nat) : tget d t k = (tfind t k).getD d := by
  induction t with
  | nil => rfl
  | cons p r ih => obtain ⟨i, y⟩ := p; by_cases h : i = k <;> simp_all [tget, tfind]

/-! ## The canonical form -/

/-- The form of a table as a proposition: the keys rise, and no entry is the default. -/
theorem twf_iff {α : Type} [DecidableEq α] (d : α) (t : Tab α) :
    twf d t = true ↔ t.Pairwise (fun p q => p.1 < q.1) ∧ ∀ p ∈ t, p.2 ≠ d := by
  have hs : tsorted t = true ↔ t.Pairwise (fun p q => p.1 < q.1) := by
    induction t with
    | nil => simp [tsorted]
    | cons p r ih =>
      cases r with
      | nil => simp [tsorted]
      | cons q r' =>
        simp only [tsorted, Bool.and_eq_true, decide_eq_true_eq, ih]
        constructor
        · rintro ⟨h1, h2⟩
          refine List.pairwise_cons.2 ⟨?_, h2⟩
          intro x hx
          rcases List.mem_cons.1 hx with rfl | hx'
          · exact h1
          · exact Nat.lt_trans h1 ((List.pairwise_cons.1 h2).1 x hx')
        · intro h
          obtain ⟨h1, h2⟩ := List.pairwise_cons.1 h
          exact ⟨h1 q (by simp), h2⟩
  simp [twf, hs]

theorem twf_filter {α : Type} [DecidableEq α] (d : α) (t : Tab α) (f : Nat × α → Bool) (h : twf d t = true) :
    twf d (t.filter f) = true := by
  rw [twf_iff] at *
  exact ⟨h.1.filter f, fun p hp => h.2 p (List.mem_filter.1 hp).1⟩

theorem twf_tdel {α : Type} [DecidableEq α] (d : α) (t : Tab α) (k : Nat) (h : twf d t = true) :
    twf d (tdel t k) = true := twf_filter d t _ h

theorem twf_tclear {α : Type} [DecidableEq α] (d : α) (t : Tab α) (lo n : Nat) (h : twf d t = true) :
    twf d (tclear t lo n) = true := twf_filter d t _ h

theorem mem_tset {α : Type} (t : Tab α) (k : Nat) (x : α) (p : Nat × α) (h : p ∈ tset t k x) : p = (k, x) ∨ p ∈ t := by
  induction t with
  | nil => simpa [tset] using h
  | cons q r ih =>
    obtain ⟨i, y⟩ := q
    unfold tset at h
    split at h
    · simpa using h
    · split at h
      · rcases List.mem_cons.1 h with h | h
        · exact .inl h
        · exact .inr (List.mem_cons_of_mem _ h)
      · rcases List.mem_cons.1 h with h | h
        · exact .inr (by simp [h])
        · rcases ih h with h | h
          · exact .inl h
          · exact .inr (List.mem_cons_of_mem _ h)

theorem twf_tset {α : Type} [DecidableEq α] (d : α) (t : Tab α) (k : Nat) (x : α) (hx : x ≠ d) (h : twf d t = true) :
    twf d (tset t k x) = true := by
  rw [twf_iff] at *
  refine ⟨?_, fun p hp => ?_⟩
  · obtain ⟨h, -⟩ := h
    induction t with
    | nil => simp [tset]
    | cons q r ih =>
      obtain ⟨i, y⟩ := q
      obtain ⟨h1, h2⟩ := List.pairwise_cons.1 h
      unfold tset
      split
      · rename_i hk
        refine List.pairwise_cons.2 ⟨fun p hp => ?_, h⟩
        rcases List.mem_cons.1 hp with rfl | hp
        · exact hk
        · exact Nat.lt_trans hk (h1 p hp)
      · split
        · rename_i hk; subst hk; exact List.pairwise_cons.2 ⟨h1, h2⟩
        · rename_i hk1 hk2
          refine List.pairwise_cons.2 ⟨fun p hp => ?_, ih h2⟩
          rcases mem_tset r k x p hp with rfl | hp
          · simp only; omega
          · exact h1 p hp
  · rcases mem_tset t k x p hp with rfl | hp
    · exact hx
    · exact h.2 p hp

theorem twf_tput {α : Type} [DecidableEq α] (d : α) (t : Tab α) (k : Nat) (x : α) (h : twf d t = true) :
    twf d (tput d t k x) = true := by
  unfold tput
  split
  · exact twf_tdel d t k h
  · rename_i hx; exact twf_tset d t k x hx h

theorem twf_tmerge {α : Type} [DecidableEq α] (d : α) (t new : Tab α) (h : twf d t = true) :
    twf d (tmerge d t new) = true := by
  unfold tmerge
  induction new generalizing t with
  | nil => exact h
  | cons p r ih => exact ih _ (twf_tput d t p.1 p.2 h)

/-- Two canonical tables that read alike everywhere are equal. -/
theorem twf_ext {α : Type} [DecidableEq α] (d : α) (t u : Tab α) (ht : twf d t = true) (hu : twf d u = true)
    (h : ∀ k, tget d t k = tget d u k) : t = u := by
  rw [twf_iff] at ht hu
  have key : ∀ {l : Tab α} {k : Nat}, (∀ p ∈ l, k < p.1) → tget d l k = d := by
    intro l k hl
    induction l with
    | nil => rfl
    | cons p r ih =>
      have h1 := hl p (by simp)
      simp only [tget]
      rw [if_neg (by omega)]
      exact ih (fun q hq => hl q (List.mem_cons_of_mem _ hq))
  induction t generalizing u with
  | nil =>
    cases u with
    | nil => rfl
    | cons q r =>
      have := h q.1
      simp only [tget, if_true] at this
      exact absurd this.symm (hu.2 q (by simp))
  | cons p r ih =>
    cases u with
    | nil =>
      have := h p.1
      simp only [tget, if_true] at this
      exact absurd this (ht.2 p (by simp))
    | cons q r' =>
      obtain ⟨hp1, hp2⟩ := List.pairwise_cons.1 ht.1
      obtain ⟨hq1, hq2⟩ := List.pairwise_cons.1 hu.1
      have hpq : p.1 = q.1 := by
        rcases Nat.lt_trichotomy p.1 q.1 with hlt | heq | hgt
        · have h1 := h p.1
          rw [key (l := q :: r') (k := p.1) (by
            intro x hx; rcases List.mem_cons.1 hx with rfl | hx
            · exact hlt
            · exact Nat.lt_trans hlt (hq1 x hx))] at h1
          simp only [tget, if_true] at h1
          exact absurd h1 (ht.2 p (by simp))
        · exact heq
        · have h1 := h q.1
          rw [key (l := p :: r) (k := q.1) (by
            intro x hx; rcases List.mem_cons.1 hx with rfl | hx
            · exact hgt
            · exact Nat.lt_trans hgt (hp1 x hx))] at h1
          simp only [tget, if_true] at h1
          exact absurd h1.symm (hu.2 q (by simp))
      have hval : p.2 = q.2 := by
        have h1 := h p.1
        simpa [tget, hpq] using h1
      have hr : r = r' := by
        apply ih
        · exact ⟨hp2, fun x hx => ht.2 x (List.mem_cons_of_mem _ hx)⟩
        · exact ⟨hq2, fun x hx => hu.2 x (List.mem_cons_of_mem _ hx)⟩
        · intro k
          by_cases hk : p.1 = k
          · subst hk
            rw [key hp1, hpq, key hq1]
          · have h1 := h k
            have hk' : q.1 ≠ k := hpq ▸ hk
            simpa [tget, hk, hk'] using h1
      subst hr
      exact congrArg (· :: r) (Prod.ext hpq hval)

end Sys2Proof.Machine
end

