-- ==== Sys2Proof/Laws/Ops.lean ====
section
/-! SUPPORT. The shared operations: what each of them does, once. -/

namespace Sys2Proof.Machine

/-! ## Cores and threads -/

theorem core_setCore (s : State) (c d : Nat) (k : Core) : core (setCore s c k) d = if c = d then k else core s d := by
  simp [core, setCore, tget_tset]

@[simp] theorem core_setCore_same (s : State) (c : Nat) (k : Core) : core (setCore s c k) c = k := by
  simp [core_setCore]

theorem core_modCore (s : State) (c d : Nat) (f : Core → Core) :
    core (modCore s c f) d = if c = d then f (core s c) else core s d := by simp [modCore, core_setCore]

@[simp] theorem core_modCore_same (s : State) (c : Nat) (f : Core → Core) : core (modCore s c f) c = f (core s c) := by
  simp [core_modCore]

theorem core_setThread (s : State) (c t d : Nat) (th : Thread) :
    core (setThread s c t th) d =
      if c = d then { core s c with threads := tset (core s c).threads t th } else core s d := by
  simp [setThread, core_modCore]

theorem thread_setThread (s : State) (c t d u : Nat) (th : Thread) :
    thread (setThread s c t th) d u = if c = d ∧ t = u then th else thread s d u := by
  by_cases h : c = d
  · subst h; by_cases h2 : t = u <;> simp [thread, core_setThread, tget_tset, h2]
  · simp [thread, core_setThread, h]

@[simp] theorem thread_setThread_same (s : State) (c t : Nat) (th : Thread) : thread (setThread s c t th) c t = th := by
  simp [thread_setThread]

theorem thread_modThread (s : State) (c t d u : Nat) (f : Thread → Thread) :
    thread (modThread s c t f) d u = if c = d ∧ t = u then f (thread s c t) else thread s d u := by
  simp [modThread, thread_setThread]

@[simp] theorem thread_modThread_same (s : State) (c t : Nat) (f : Thread → Thread) :
    thread (modThread s c t f) c t = f (thread s c t) := by simp [thread_modThread]

@[simp] theorem me_modMe (s : State) (f : Thread → Thread) : me (modMe s f) = f (me s) := by
  simp [me, modMe]

/-- A change of the threads of a core leaves all else of every core. -/
theorem core_modThread (s : State) (c t d : Nat) (f : Thread → Thread) :
    core (modThread s c t f) d =
      if c = d then { core s c with threads := tset (core s c).threads t (f (thread s c t)) } else core s d := by
  simp [modThread, core_setThread]

/-- A landing is all that `land` adds, to the pending landings of the thread at work (R26). -/
theorem thread_land (s : State) (lat : Nat) (a : LandAct) (n c t : Nat) :
    thread (land s lat a n) c t =
      if s.cur.core = c ∧ s.cur.slot = t then
        { me s with lands := insLanding { due := (me s).ttc + lat, issued := (me s).ttc, pos := s.cur.pos, act := a,
                                          flags := n } (me s).lands }
      else thread s c t := by
  simp [land, modMe, thread_modThread, me]

/-! ## Memory -/

@[simp] theorem getByte_putByte (s : State) (a b : Nat) (x : Byte) :
    getByte (putByte s a x) b = if a = b then x else getByte s b := by
  simp [getByte, putByte, tget_tput]

theorem getByte_of_mem {s t : State} (h : s.mem = t.mem) (a : Nat) : getByte s a = getByte t a := by
  simp [getByte, h]

theorem getByte_putBytes (s : State) (a b : Nat) (l : List Nat) :
    getByte (putBytes s a l) b =
      if a ≤ b ∧ b < a + l.length then BitVec.ofNat 8 (l.getD (b - a) 0) else getByte s b := by
  induction l generalizing s a with
  | nil => simp only [putBytes, List.length_nil, Nat.add_zero]; rw [if_neg (by omega)]
  | cons x r ih =>
    simp only [putBytes, ih, getByte_putByte, List.length_cons]
    by_cases h1 : a = b
    · subst h1
      rw [if_neg (by omega), if_pos rfl, if_pos (by omega)]; simp
    · by_cases h2 : a + 1 ≤ b ∧ b < a + 1 + r.length
      · rw [if_pos h2, if_pos (by omega)]
        have : b - a = (b - (a + 1)) + 1 := by omega
        rw [this]; simp
      · rw [if_neg h2, if_neg h1, if_neg (by omega)]

theorem getByte_putNat (s : State) (a b n v : Nat) :
    getByte (putNat s a n v) b =
      if a ≤ b ∧ b < a + n then BitVec.ofNat 8 (v / 256 ^ (b - a) % 256) else getByte s b := by
  induction n generalizing s a v with
  | zero => simp only [putNat]; rw [if_neg (by omega)]
  | succ n ih =>
    simp only [putNat, ih, getByte_putByte]
    by_cases h1 : a = b
    · subst h1
      rw [if_neg (by omega), if_pos rfl, if_pos (by omega)]; simp
    · by_cases h2 : a + 1 ≤ b ∧ b < a + 1 + n
      · rw [if_pos h2, if_pos (by omega)]
        have h3 : b - a = (b - (a + 1)) + 1 := by omega
        rw [h3, Nat.pow_succ, Nat.mul_comm, ← Nat.div_div_eq_div_mul]
      · rw [if_neg h2, if_neg h1, if_neg (by omega)]

/-- A read of what was written gives it back, modulo its width. -/
theorem getNat_putNat (s : State) (a n v : Nat) : getNat (putNat s a n v) a n = v % 256 ^ n := by
  have key : ∀ (m : Nat) (u : State) (b w : Nat), (∀ i, i < m → getByte u (b + i) = BitVec.ofNat 8 (w / 256 ^ i % 256)) →
      getNat u b m = w % 256 ^ m := by
    intro m
    induction m with
    | zero => intro u b w _; simp [getNat, Nat.mod_one]
    | succ m ih =>
      intro u b w h
      have h0 := h 0 (by omega)
      have h1 := ih u (b + 1) (w / 256) (fun i hi => by
        have := h (i + 1) (by omega)
        rw [Nat.add_assoc, Nat.add_comm 1 i, this, Nat.pow_succ, Nat.mul_comm, ← Nat.div_div_eq_div_mul])
      simp only [getNat, h1]
      simp only [Nat.add_zero, Nat.pow_zero, Nat.div_one] at h0
      rw [h0, Nat.pow_succ, Nat.mul_comm (256 ^ m) 256, Nat.mod_mul]
      simp
  exact key n _ a v (fun i hi => by rw [getByte_putNat, if_pos (by omega), Nat.add_sub_cancel_left])

/-! ## The canonical form of memory -/

theorem putByte_wf (s : State) (a : Nat) (b : Byte) (h : Memory.wf s.mem) : Memory.wf (putByte s a b).mem :=
  twf_tput _ _ _ _ h

theorem putNat_wf (s : State) (a n v : Nat) (h : Memory.wf s.mem) : Memory.wf (putNat s a n v).mem := by
  induction n generalizing s a v with
  | zero => exact h
  | succ n ih => exact ih _ _ _ (putByte_wf _ _ _ h)

theorem putBytes_wf (s : State) (a : Nat) (l : List Nat) (h : Memory.wf s.mem) : Memory.wf (putBytes s a l).mem := by
  induction l generalizing s a with
  | nil => exact h
  | cons x r ih => exact ih _ _ (putByte_wf _ _ _ h)

/-- What a loop keeps if each round keeps it. -/
theorem foldl_wf {α : Type} (f : State → α → State) (l : List α)
    (hf : ∀ s x, Memory.wf s.mem → Memory.wf (f s x).mem) (s : State) (h : Memory.wf s.mem) :
    Memory.wf (l.foldl f s).mem := by
  induction l generalizing s with
  | nil => exact h
  | cons x r ih => exact ih _ (hf s x h)

/-! ## Loops that leave a field -/

@[simp] theorem setFulls_mem (s : State) (b : Bool) (ws : List Nat) : (setFulls s b ws).mem = s.mem := by
  unfold setFulls
  induction ws generalizing s with
  | nil => rfl
  | cons w r ih => simp only [List.foldl_cons, ih]; rfl

@[simp] theorem clearPoison_mem (s : State) (a n : Nat) : (clearPoison s a n).mem = s.mem := by
  unfold clearPoison
  induction ((unitsOf a n).filter (coversUnit a n)) generalizing s with
  | nil => rfl
  | cons w r ih => simp only [List.foldl_cons, ih]; rfl


end Sys2Proof.Machine
end

