-- ==== Sys2Proof/Laws/Access.lean ====
section
/-! SUPPORT. What reads of the state see through updates of another part of it: true by computation. -/

namespace Sys2Proof.Machine

/-! ## at' -/

@[simp] theorem core_atEvent (s : State) (due : Nat) (i : Instr) (l : List Nat) (c : Nat) : core (at' s due i l) c = core s c := rfl
@[simp] theorem thread_atEvent (s : State) (due : Nat) (i : Instr) (l : List Nat) (c t : Nat) : thread (at' s due i l) c t = thread s c t := rfl
@[simp] theorem me_atEvent (s : State) (due : Nat) (i : Instr) (l : List Nat) : me (at' s due i l) = me s := rfl
@[simp] theorem engine_atEvent (s : State) (due : Nat) (i : Instr) (l : List Nat) (c : Nat) : engine (at' s due i l) c = engine s c := rfl
@[simp] theorem tephra_atEvent (s : State) (due : Nat) (i : Instr) (l : List Nat) (c k : Nat) : tephra (at' s due i l) c k = tephra s c k := rfl
@[simp] theorem sem_atEvent (s : State) (due : Nat) (i : Instr) (l : List Nat) (c n : Nat) : sem (at' s due i l) c n = sem s c n := rfl
@[simp] theorem gang_atEvent (s : State) (due : Nat) (i : Instr) (l : List Nat) (g : Nat) : gang (at' s due i l) g = gang s g := rfl
@[simp] theorem gangOf_atEvent (s : State) (due : Nat) (i : Instr) (l : List Nat) (c : Nat) : gangOf (at' s due i l) c = gangOf s c := rfl
@[simp] theorem getByte_atEvent (s : State) (due : Nat) (i : Instr) (l : List Nat) (a : Nat) : getByte (at' s due i l) a = getByte s a := rfl
@[simp] theorem isFull_atEvent (s : State) (due : Nat) (i : Instr) (l : List Nat) (a : Nat) : isFull (at' s due i l) a = isFull s a := rfl
@[simp] theorem isPoison_atEvent (s : State) (due : Nat) (i : Instr) (l : List Nat) (a : Nat) : isPoison (at' s due i l) a = isPoison s a := rfl
@[simp] theorem queue_atEvent (s : State) (due : Nat) (i : Instr) (l : List Nat) (q : Nat) : queue (at' s due i l) q = queue s q := rfl
@[simp] theorem edge_atEvent (s : State) (due : Nat) (i : Instr) (l : List Nat) (g : Nat) : edge (at' s due i l) g = edge s g := rfl
@[simp] theorem vent_atEvent (s : State) (due : Nat) (i : Instr) (l : List Nat) (v : Nat) : vent (at' s due i l) v = vent s v := rfl
@[simp] theorem retryOf_atEvent (s : State) (due : Nat) (i : Instr) (l : List Nat) (h : Nat) : retryOf (at' s due i l) h = retryOf s h := rfl

/-! ## later -/

@[simp] theorem core_later (s : State) (ch : List Nat) (i : Instr) (l : List Nat) (c : Nat) : core (later s ch i l) c = core s c := rfl
@[simp] theorem thread_later (s : State) (ch : List Nat) (i : Instr) (l : List Nat) (c t : Nat) : thread (later s ch i l) c t = thread s c t := rfl
@[simp] theorem me_later (s : State) (ch : List Nat) (i : Instr) (l : List Nat) : me (later s ch i l) = me s := rfl
@[simp] theorem engine_later (s : State) (ch : List Nat) (i : Instr) (l : List Nat) (c : Nat) : engine (later s ch i l) c = engine s c := rfl
@[simp] theorem tephra_later (s : State) (ch : List Nat) (i : Instr) (l : List Nat) (c k : Nat) : tephra (later s ch i l) c k = tephra s c k := rfl
@[simp] theorem sem_later (s : State) (ch : List Nat) (i : Instr) (l : List Nat) (c n : Nat) : sem (later s ch i l) c n = sem s c n := rfl
@[simp] theorem gang_later (s : State) (ch : List Nat) (i : Instr) (l : List Nat) (g : Nat) : gang (later s ch i l) g = gang s g := rfl
@[simp] theorem gangOf_later (s : State) (ch : List Nat) (i : Instr) (l : List Nat) (c : Nat) : gangOf (later s ch i l) c = gangOf s c := rfl
@[simp] theorem getByte_later (s : State) (ch : List Nat) (i : Instr) (l : List Nat) (a : Nat) : getByte (later s ch i l) a = getByte s a := rfl
@[simp] theorem isFull_later (s : State) (ch : List Nat) (i : Instr) (l : List Nat) (a : Nat) : isFull (later s ch i l) a = isFull s a := rfl
@[simp] theorem isPoison_later (s : State) (ch : List Nat) (i : Instr) (l : List Nat) (a : Nat) : isPoison (later s ch i l) a = isPoison s a := rfl
@[simp] theorem queue_later (s : State) (ch : List Nat) (i : Instr) (l : List Nat) (q : Nat) : queue (later s ch i l) q = queue s q := rfl
@[simp] theorem edge_later (s : State) (ch : List Nat) (i : Instr) (l : List Nat) (g : Nat) : edge (later s ch i l) g = edge s g := rfl
@[simp] theorem vent_later (s : State) (ch : List Nat) (i : Instr) (l : List Nat) (v : Nat) : vent (later s ch i l) v = vent s v := rfl
@[simp] theorem retryOf_later (s : State) (ch : List Nat) (i : Instr) (l : List Nat) (h : Nat) : retryOf (later s ch i l) h = retryOf s h := rfl

/-! ## laterIn -/

@[simp] theorem core_laterIn (s : State) (m : Nat) (i : Instr) (l : List Nat) (c : Nat) : core (laterIn s m i l) c = core s c := rfl
@[simp] theorem thread_laterIn (s : State) (m : Nat) (i : Instr) (l : List Nat) (c t : Nat) : thread (laterIn s m i l) c t = thread s c t := rfl
@[simp] theorem me_laterIn (s : State) (m : Nat) (i : Instr) (l : List Nat) : me (laterIn s m i l) = me s := rfl
@[simp] theorem engine_laterIn (s : State) (m : Nat) (i : Instr) (l : List Nat) (c : Nat) : engine (laterIn s m i l) c = engine s c := rfl
@[simp] theorem tephra_laterIn (s : State) (m : Nat) (i : Instr) (l : List Nat) (c k : Nat) : tephra (laterIn s m i l) c k = tephra s c k := rfl
@[simp] theorem sem_laterIn (s : State) (m : Nat) (i : Instr) (l : List Nat) (c n : Nat) : sem (laterIn s m i l) c n = sem s c n := rfl
@[simp] theorem gang_laterIn (s : State) (m : Nat) (i : Instr) (l : List Nat) (g : Nat) : gang (laterIn s m i l) g = gang s g := rfl
@[simp] theorem gangOf_laterIn (s : State) (m : Nat) (i : Instr) (l : List Nat) (c : Nat) : gangOf (laterIn s m i l) c = gangOf s c := rfl
@[simp] theorem getByte_laterIn (s : State) (m : Nat) (i : Instr) (l : List Nat) (a : Nat) : getByte (laterIn s m i l) a = getByte s a := rfl
@[simp] theorem isFull_laterIn (s : State) (m : Nat) (i : Instr) (l : List Nat) (a : Nat) : isFull (laterIn s m i l) a = isFull s a := rfl
@[simp] theorem isPoison_laterIn (s : State) (m : Nat) (i : Instr) (l : List Nat) (a : Nat) : isPoison (laterIn s m i l) a = isPoison s a := rfl
@[simp] theorem queue_laterIn (s : State) (m : Nat) (i : Instr) (l : List Nat) (q : Nat) : queue (laterIn s m i l) q = queue s q := rfl
@[simp] theorem edge_laterIn (s : State) (m : Nat) (i : Instr) (l : List Nat) (g : Nat) : edge (laterIn s m i l) g = edge s g := rfl
@[simp] theorem vent_laterIn (s : State) (m : Nat) (i : Instr) (l : List Nat) (v : Nat) : vent (laterIn s m i l) v = vent s v := rfl
@[simp] theorem retryOf_laterIn (s : State) (m : Nat) (i : Instr) (l : List Nat) (h : Nat) : retryOf (laterIn s m i l) h = retryOf s h := rfl

/-! ## post -/

@[simp] theorem core_post (s : State) (sv src : Nat) (l : List Nat) (c : Nat) : core (post s sv src l) c = core s c := rfl
@[simp] theorem thread_post (s : State) (sv src : Nat) (l : List Nat) (c t : Nat) : thread (post s sv src l) c t = thread s c t := rfl
@[simp] theorem me_post (s : State) (sv src : Nat) (l : List Nat) : me (post s sv src l) = me s := rfl
@[simp] theorem engine_post (s : State) (sv src : Nat) (l : List Nat) (c : Nat) : engine (post s sv src l) c = engine s c := rfl
@[simp] theorem tephra_post (s : State) (sv src : Nat) (l : List Nat) (c k : Nat) : tephra (post s sv src l) c k = tephra s c k := rfl
@[simp] theorem sem_post (s : State) (sv src : Nat) (l : List Nat) (c n : Nat) : sem (post s sv src l) c n = sem s c n := rfl
@[simp] theorem gang_post (s : State) (sv src : Nat) (l : List Nat) (g : Nat) : gang (post s sv src l) g = gang s g := rfl
@[simp] theorem gangOf_post (s : State) (sv src : Nat) (l : List Nat) (c : Nat) : gangOf (post s sv src l) c = gangOf s c := rfl
@[simp] theorem getByte_post (s : State) (sv src : Nat) (l : List Nat) (a : Nat) : getByte (post s sv src l) a = getByte s a := rfl
@[simp] theorem isFull_post (s : State) (sv src : Nat) (l : List Nat) (a : Nat) : isFull (post s sv src l) a = isFull s a := rfl
@[simp] theorem isPoison_post (s : State) (sv src : Nat) (l : List Nat) (a : Nat) : isPoison (post s sv src l) a = isPoison s a := rfl
@[simp] theorem queue_post (s : State) (sv src : Nat) (l : List Nat) (q : Nat) : queue (post s sv src l) q = queue s q := rfl
@[simp] theorem edge_post (s : State) (sv src : Nat) (l : List Nat) (g : Nat) : edge (post s sv src l) g = edge s g := rfl
@[simp] theorem vent_post (s : State) (sv src : Nat) (l : List Nat) (v : Nat) : vent (post s sv src l) v = vent s v := rfl
@[simp] theorem retryOf_post (s : State) (sv src : Nat) (l : List Nat) (h : Nat) : retryOf (post s sv src l) h = retryOf s h := rfl

/-! ## note -/

@[simp] theorem core_note (s : State) (m : Nat) (c : Nat) : core (note s m) c = core s c := rfl
@[simp] theorem thread_note (s : State) (m : Nat) (c t : Nat) : thread (note s m) c t = thread s c t := rfl
@[simp] theorem me_note (s : State) (m : Nat) : me (note s m) = me s := rfl
@[simp] theorem engine_note (s : State) (m : Nat) (c : Nat) : engine (note s m) c = engine s c := rfl
@[simp] theorem tephra_note (s : State) (m : Nat) (c k : Nat) : tephra (note s m) c k = tephra s c k := rfl
@[simp] theorem sem_note (s : State) (m : Nat) (c n : Nat) : sem (note s m) c n = sem s c n := rfl
@[simp] theorem gang_note (s : State) (m : Nat) (g : Nat) : gang (note s m) g = gang s g := rfl
@[simp] theorem gangOf_note (s : State) (m : Nat) (c : Nat) : gangOf (note s m) c = gangOf s c := rfl
@[simp] theorem getByte_note (s : State) (m : Nat) (a : Nat) : getByte (note s m) a = getByte s a := rfl
@[simp] theorem isFull_note (s : State) (m : Nat) (a : Nat) : isFull (note s m) a = isFull s a := rfl
@[simp] theorem isPoison_note (s : State) (m : Nat) (a : Nat) : isPoison (note s m) a = isPoison s a := rfl
@[simp] theorem queue_note (s : State) (m : Nat) (q : Nat) : queue (note s m) q = queue s q := rfl
@[simp] theorem edge_note (s : State) (m : Nat) (g : Nat) : edge (note s m) g = edge s g := rfl
@[simp] theorem vent_note (s : State) (m : Nat) (v : Nat) : vent (note s m) v = vent s v := rfl
@[simp] theorem retryOf_note (s : State) (m : Nat) (h : Nat) : retryOf (note s m) h = retryOf s h := rfl

/-! ## blockNow -/

@[simp] theorem core_blockNow (s : State) (c : Nat) : core (blockNow s) c = core s c := rfl
@[simp] theorem thread_blockNow (s : State) (c t : Nat) : thread (blockNow s) c t = thread s c t := rfl
@[simp] theorem me_blockNow (s : State)  : me (blockNow s) = me s := rfl
@[simp] theorem engine_blockNow (s : State) (c : Nat) : engine (blockNow s) c = engine s c := rfl
@[simp] theorem tephra_blockNow (s : State) (c k : Nat) : tephra (blockNow s) c k = tephra s c k := rfl
@[simp] theorem sem_blockNow (s : State) (c n : Nat) : sem (blockNow s) c n = sem s c n := rfl
@[simp] theorem gang_blockNow (s : State) (g : Nat) : gang (blockNow s) g = gang s g := rfl
@[simp] theorem gangOf_blockNow (s : State) (c : Nat) : gangOf (blockNow s) c = gangOf s c := rfl
@[simp] theorem getByte_blockNow (s : State) (a : Nat) : getByte (blockNow s) a = getByte s a := rfl
@[simp] theorem isFull_blockNow (s : State) (a : Nat) : isFull (blockNow s) a = isFull s a := rfl
@[simp] theorem isPoison_blockNow (s : State) (a : Nat) : isPoison (blockNow s) a = isPoison s a := rfl
@[simp] theorem queue_blockNow (s : State) (q : Nat) : queue (blockNow s) q = queue s q := rfl
@[simp] theorem edge_blockNow (s : State) (g : Nat) : edge (blockNow s) g = edge s g := rfl
@[simp] theorem vent_blockNow (s : State) (v : Nat) : vent (blockNow s) v = vent s v := rfl
@[simp] theorem retryOf_blockNow (s : State) (h : Nat) : retryOf (blockNow s) h = retryOf s h := rfl

/-! ## jumpTo -/

@[simp] theorem core_jumpTo (s : State) (b : Nat) (c : Nat) : core (jumpTo s b) c = core s c := rfl
@[simp] theorem thread_jumpTo (s : State) (b : Nat) (c t : Nat) : thread (jumpTo s b) c t = thread s c t := rfl
@[simp] theorem me_jumpTo (s : State) (b : Nat) : me (jumpTo s b) = me s := rfl
@[simp] theorem engine_jumpTo (s : State) (b : Nat) (c : Nat) : engine (jumpTo s b) c = engine s c := rfl
@[simp] theorem tephra_jumpTo (s : State) (b : Nat) (c k : Nat) : tephra (jumpTo s b) c k = tephra s c k := rfl
@[simp] theorem sem_jumpTo (s : State) (b : Nat) (c n : Nat) : sem (jumpTo s b) c n = sem s c n := rfl
@[simp] theorem gang_jumpTo (s : State) (b : Nat) (g : Nat) : gang (jumpTo s b) g = gang s g := rfl
@[simp] theorem gangOf_jumpTo (s : State) (b : Nat) (c : Nat) : gangOf (jumpTo s b) c = gangOf s c := rfl
@[simp] theorem getByte_jumpTo (s : State) (b : Nat) (a : Nat) : getByte (jumpTo s b) a = getByte s a := rfl
@[simp] theorem isFull_jumpTo (s : State) (b : Nat) (a : Nat) : isFull (jumpTo s b) a = isFull s a := rfl
@[simp] theorem isPoison_jumpTo (s : State) (b : Nat) (a : Nat) : isPoison (jumpTo s b) a = isPoison s a := rfl
@[simp] theorem queue_jumpTo (s : State) (b : Nat) (q : Nat) : queue (jumpTo s b) q = queue s q := rfl
@[simp] theorem edge_jumpTo (s : State) (b : Nat) (g : Nat) : edge (jumpTo s b) g = edge s g := rfl
@[simp] theorem vent_jumpTo (s : State) (b : Nat) (v : Nat) : vent (jumpTo s b) v = vent s v := rfl
@[simp] theorem retryOf_jumpTo (s : State) (b : Nat) (h : Nat) : retryOf (jumpTo s b) h = retryOf s h := rfl

/-! ## putByte -/

@[simp] theorem core_putByte (s : State) (b : Nat) (x : Byte) (c : Nat) : core (putByte s b x) c = core s c := rfl
@[simp] theorem thread_putByte (s : State) (b : Nat) (x : Byte) (c t : Nat) : thread (putByte s b x) c t = thread s c t := rfl
@[simp] theorem me_putByte (s : State) (b : Nat) (x : Byte) : me (putByte s b x) = me s := rfl
@[simp] theorem engine_putByte (s : State) (b : Nat) (x : Byte) (c : Nat) : engine (putByte s b x) c = engine s c := rfl
@[simp] theorem tephra_putByte (s : State) (b : Nat) (x : Byte) (c k : Nat) : tephra (putByte s b x) c k = tephra s c k := rfl
@[simp] theorem sem_putByte (s : State) (b : Nat) (x : Byte) (c n : Nat) : sem (putByte s b x) c n = sem s c n := rfl
@[simp] theorem gang_putByte (s : State) (b : Nat) (x : Byte) (g : Nat) : gang (putByte s b x) g = gang s g := rfl
@[simp] theorem gangOf_putByte (s : State) (b : Nat) (x : Byte) (c : Nat) : gangOf (putByte s b x) c = gangOf s c := rfl
@[simp] theorem isFull_putByte (s : State) (b : Nat) (x : Byte) (a : Nat) : isFull (putByte s b x) a = isFull s a := rfl
@[simp] theorem isPoison_putByte (s : State) (b : Nat) (x : Byte) (a : Nat) : isPoison (putByte s b x) a = isPoison s a := rfl
@[simp] theorem queue_putByte (s : State) (b : Nat) (x : Byte) (q : Nat) : queue (putByte s b x) q = queue s q := rfl
@[simp] theorem edge_putByte (s : State) (b : Nat) (x : Byte) (g : Nat) : edge (putByte s b x) g = edge s g := rfl
@[simp] theorem vent_putByte (s : State) (b : Nat) (x : Byte) (v : Nat) : vent (putByte s b x) v = vent s v := rfl
@[simp] theorem retryOf_putByte (s : State) (b : Nat) (x : Byte) (h : Nat) : retryOf (putByte s b x) h = retryOf s h := rfl

/-! ## setFull -/

@[simp] theorem core_setFull (s : State) (b : Nat) (x : Bool) (c : Nat) : core (setFull s b x) c = core s c := rfl
@[simp] theorem thread_setFull (s : State) (b : Nat) (x : Bool) (c t : Nat) : thread (setFull s b x) c t = thread s c t := rfl
@[simp] theorem me_setFull (s : State) (b : Nat) (x : Bool) : me (setFull s b x) = me s := rfl
@[simp] theorem engine_setFull (s : State) (b : Nat) (x : Bool) (c : Nat) : engine (setFull s b x) c = engine s c := rfl
@[simp] theorem tephra_setFull (s : State) (b : Nat) (x : Bool) (c k : Nat) : tephra (setFull s b x) c k = tephra s c k := rfl
@[simp] theorem sem_setFull (s : State) (b : Nat) (x : Bool) (c n : Nat) : sem (setFull s b x) c n = sem s c n := rfl
@[simp] theorem gang_setFull (s : State) (b : Nat) (x : Bool) (g : Nat) : gang (setFull s b x) g = gang s g := rfl
@[simp] theorem gangOf_setFull (s : State) (b : Nat) (x : Bool) (c : Nat) : gangOf (setFull s b x) c = gangOf s c := rfl
@[simp] theorem getByte_setFull (s : State) (b : Nat) (x : Bool) (a : Nat) : getByte (setFull s b x) a = getByte s a := rfl
@[simp] theorem isPoison_setFull (s : State) (b : Nat) (x : Bool) (a : Nat) : isPoison (setFull s b x) a = isPoison s a := rfl
@[simp] theorem queue_setFull (s : State) (b : Nat) (x : Bool) (q : Nat) : queue (setFull s b x) q = queue s q := rfl
@[simp] theorem edge_setFull (s : State) (b : Nat) (x : Bool) (g : Nat) : edge (setFull s b x) g = edge s g := rfl
@[simp] theorem vent_setFull (s : State) (b : Nat) (x : Bool) (v : Nat) : vent (setFull s b x) v = vent s v := rfl
@[simp] theorem retryOf_setFull (s : State) (b : Nat) (x : Bool) (h : Nat) : retryOf (setFull s b x) h = retryOf s h := rfl

/-! ## setPoison -/

@[simp] theorem core_setPoison (s : State) (b : Nat) (x : Bool) (c : Nat) : core (setPoison s b x) c = core s c := rfl
@[simp] theorem thread_setPoison (s : State) (b : Nat) (x : Bool) (c t : Nat) : thread (setPoison s b x) c t = thread s c t := rfl
@[simp] theorem me_setPoison (s : State) (b : Nat) (x : Bool) : me (setPoison s b x) = me s := rfl
@[simp] theorem engine_setPoison (s : State) (b : Nat) (x : Bool) (c : Nat) : engine (setPoison s b x) c = engine s c := rfl
@[simp] theorem tephra_setPoison (s : State) (b : Nat) (x : Bool) (c k : Nat) : tephra (setPoison s b x) c k = tephra s c k := rfl
@[simp] theorem sem_setPoison (s : State) (b : Nat) (x : Bool) (c n : Nat) : sem (setPoison s b x) c n = sem s c n := rfl
@[simp] theorem gang_setPoison (s : State) (b : Nat) (x : Bool) (g : Nat) : gang (setPoison s b x) g = gang s g := rfl
@[simp] theorem gangOf_setPoison (s : State) (b : Nat) (x : Bool) (c : Nat) : gangOf (setPoison s b x) c = gangOf s c := rfl
@[simp] theorem getByte_setPoison (s : State) (b : Nat) (x : Bool) (a : Nat) : getByte (setPoison s b x) a = getByte s a := rfl
@[simp] theorem isFull_setPoison (s : State) (b : Nat) (x : Bool) (a : Nat) : isFull (setPoison s b x) a = isFull s a := rfl
@[simp] theorem queue_setPoison (s : State) (b : Nat) (x : Bool) (q : Nat) : queue (setPoison s b x) q = queue s q := rfl
@[simp] theorem edge_setPoison (s : State) (b : Nat) (x : Bool) (g : Nat) : edge (setPoison s b x) g = edge s g := rfl
@[simp] theorem vent_setPoison (s : State) (b : Nat) (x : Bool) (v : Nat) : vent (setPoison s b x) v = vent s v := rfl
@[simp] theorem retryOf_setPoison (s : State) (b : Nat) (x : Bool) (h : Nat) : retryOf (setPoison s b x) h = retryOf s h := rfl

/-! ## modGang -/

@[simp] theorem core_modGang (s : State) (m : Nat) (f : Gang → Gang) (c : Nat) : core (modGang s m f) c = core s c := rfl
@[simp] theorem thread_modGang (s : State) (m : Nat) (f : Gang → Gang) (c t : Nat) : thread (modGang s m f) c t = thread s c t := rfl
@[simp] theorem me_modGang (s : State) (m : Nat) (f : Gang → Gang) : me (modGang s m f) = me s := rfl
@[simp] theorem engine_modGang (s : State) (m : Nat) (f : Gang → Gang) (c : Nat) : engine (modGang s m f) c = engine s c := rfl
@[simp] theorem tephra_modGang (s : State) (m : Nat) (f : Gang → Gang) (c k : Nat) : tephra (modGang s m f) c k = tephra s c k := rfl
@[simp] theorem sem_modGang (s : State) (m : Nat) (f : Gang → Gang) (c n : Nat) : sem (modGang s m f) c n = sem s c n := rfl
@[simp] theorem getByte_modGang (s : State) (m : Nat) (f : Gang → Gang) (a : Nat) : getByte (modGang s m f) a = getByte s a := rfl
@[simp] theorem isFull_modGang (s : State) (m : Nat) (f : Gang → Gang) (a : Nat) : isFull (modGang s m f) a = isFull s a := rfl
@[simp] theorem isPoison_modGang (s : State) (m : Nat) (f : Gang → Gang) (a : Nat) : isPoison (modGang s m f) a = isPoison s a := rfl
@[simp] theorem queue_modGang (s : State) (m : Nat) (f : Gang → Gang) (q : Nat) : queue (modGang s m f) q = queue s q := rfl
@[simp] theorem edge_modGang (s : State) (m : Nat) (f : Gang → Gang) (g : Nat) : edge (modGang s m f) g = edge s g := rfl
@[simp] theorem vent_modGang (s : State) (m : Nat) (f : Gang → Gang) (v : Nat) : vent (modGang s m f) v = vent s v := rfl
@[simp] theorem retryOf_modGang (s : State) (m : Nat) (f : Gang → Gang) (h : Nat) : retryOf (modGang s m f) h = retryOf s h := rfl

/-! ## modQueue -/

@[simp] theorem core_modQueue (s : State) (m : Nat) (f : Queue → Queue) (c : Nat) : core (modQueue s m f) c = core s c := rfl
@[simp] theorem thread_modQueue (s : State) (m : Nat) (f : Queue → Queue) (c t : Nat) : thread (modQueue s m f) c t = thread s c t := rfl
@[simp] theorem me_modQueue (s : State) (m : Nat) (f : Queue → Queue) : me (modQueue s m f) = me s := rfl
@[simp] theorem engine_modQueue (s : State) (m : Nat) (f : Queue → Queue) (c : Nat) : engine (modQueue s m f) c = engine s c := rfl
@[simp] theorem tephra_modQueue (s : State) (m : Nat) (f : Queue → Queue) (c k : Nat) : tephra (modQueue s m f) c k = tephra s c k := rfl
@[simp] theorem sem_modQueue (s : State) (m : Nat) (f : Queue → Queue) (c n : Nat) : sem (modQueue s m f) c n = sem s c n := rfl
@[simp] theorem gang_modQueue (s : State) (m : Nat) (f : Queue → Queue) (g : Nat) : gang (modQueue s m f) g = gang s g := rfl
@[simp] theorem gangOf_modQueue (s : State) (m : Nat) (f : Queue → Queue) (c : Nat) : gangOf (modQueue s m f) c = gangOf s c := rfl
@[simp] theorem getByte_modQueue (s : State) (m : Nat) (f : Queue → Queue) (a : Nat) : getByte (modQueue s m f) a = getByte s a := rfl
@[simp] theorem isFull_modQueue (s : State) (m : Nat) (f : Queue → Queue) (a : Nat) : isFull (modQueue s m f) a = isFull s a := rfl
@[simp] theorem isPoison_modQueue (s : State) (m : Nat) (f : Queue → Queue) (a : Nat) : isPoison (modQueue s m f) a = isPoison s a := rfl
@[simp] theorem edge_modQueue (s : State) (m : Nat) (f : Queue → Queue) (g : Nat) : edge (modQueue s m f) g = edge s g := rfl
@[simp] theorem retryOf_modQueue (s : State) (m : Nat) (f : Queue → Queue) (h : Nat) : retryOf (modQueue s m f) h = retryOf s h := rfl

/-! ## modCore -/

@[simp] theorem gang_modCore (s : State) (m : Nat) (f : Core → Core) (g : Nat) : gang (modCore s m f) g = gang s g := rfl
@[simp] theorem getByte_modCore (s : State) (m : Nat) (f : Core → Core) (a : Nat) : getByte (modCore s m f) a = getByte s a := rfl
@[simp] theorem isFull_modCore (s : State) (m : Nat) (f : Core → Core) (a : Nat) : isFull (modCore s m f) a = isFull s a := rfl
@[simp] theorem isPoison_modCore (s : State) (m : Nat) (f : Core → Core) (a : Nat) : isPoison (modCore s m f) a = isPoison s a := rfl
@[simp] theorem queue_modCore (s : State) (m : Nat) (f : Core → Core) (q : Nat) : queue (modCore s m f) q = queue s q := rfl
@[simp] theorem edge_modCore (s : State) (m : Nat) (f : Core → Core) (g : Nat) : edge (modCore s m f) g = edge s g := rfl
@[simp] theorem vent_modCore (s : State) (m : Nat) (f : Core → Core) (v : Nat) : vent (modCore s m f) v = vent s v := rfl
@[simp] theorem retryOf_modCore (s : State) (m : Nat) (f : Core → Core) (h : Nat) : retryOf (modCore s m f) h = retryOf s h := rfl

/-! ## setThread -/

@[simp] theorem gang_setThread (s : State) (m n' : Nat) (th : Thread) (g : Nat) : gang (setThread s m n' th) g = gang s g := rfl
@[simp] theorem getByte_setThread (s : State) (m n' : Nat) (th : Thread) (a : Nat) : getByte (setThread s m n' th) a = getByte s a := rfl
@[simp] theorem isFull_setThread (s : State) (m n' : Nat) (th : Thread) (a : Nat) : isFull (setThread s m n' th) a = isFull s a := rfl
@[simp] theorem isPoison_setThread (s : State) (m n' : Nat) (th : Thread) (a : Nat) : isPoison (setThread s m n' th) a = isPoison s a := rfl
@[simp] theorem queue_setThread (s : State) (m n' : Nat) (th : Thread) (q : Nat) : queue (setThread s m n' th) q = queue s q := rfl
@[simp] theorem edge_setThread (s : State) (m n' : Nat) (th : Thread) (g : Nat) : edge (setThread s m n' th) g = edge s g := rfl
@[simp] theorem vent_setThread (s : State) (m n' : Nat) (th : Thread) (v : Nat) : vent (setThread s m n' th) v = vent s v := rfl
@[simp] theorem retryOf_setThread (s : State) (m n' : Nat) (th : Thread) (h : Nat) : retryOf (setThread s m n' th) h = retryOf s h := rfl

/-! ## modThread -/

@[simp] theorem gang_modThread (s : State) (m n' : Nat) (f : Thread → Thread) (g : Nat) : gang (modThread s m n' f) g = gang s g := rfl
@[simp] theorem getByte_modThread (s : State) (m n' : Nat) (f : Thread → Thread) (a : Nat) : getByte (modThread s m n' f) a = getByte s a := rfl
@[simp] theorem isFull_modThread (s : State) (m n' : Nat) (f : Thread → Thread) (a : Nat) : isFull (modThread s m n' f) a = isFull s a := rfl
@[simp] theorem isPoison_modThread (s : State) (m n' : Nat) (f : Thread → Thread) (a : Nat) : isPoison (modThread s m n' f) a = isPoison s a := rfl
@[simp] theorem queue_modThread (s : State) (m n' : Nat) (f : Thread → Thread) (q : Nat) : queue (modThread s m n' f) q = queue s q := rfl
@[simp] theorem edge_modThread (s : State) (m n' : Nat) (f : Thread → Thread) (g : Nat) : edge (modThread s m n' f) g = edge s g := rfl
@[simp] theorem vent_modThread (s : State) (m n' : Nat) (f : Thread → Thread) (v : Nat) : vent (modThread s m n' f) v = vent s v := rfl
@[simp] theorem retryOf_modThread (s : State) (m n' : Nat) (f : Thread → Thread) (h : Nat) : retryOf (modThread s m n' f) h = retryOf s h := rfl

/-! ## modMe -/

@[simp] theorem gang_modMe (s : State) (f : Thread → Thread) (g : Nat) : gang (modMe s f) g = gang s g := rfl
@[simp] theorem getByte_modMe (s : State) (f : Thread → Thread) (a : Nat) : getByte (modMe s f) a = getByte s a := rfl
@[simp] theorem isFull_modMe (s : State) (f : Thread → Thread) (a : Nat) : isFull (modMe s f) a = isFull s a := rfl
@[simp] theorem isPoison_modMe (s : State) (f : Thread → Thread) (a : Nat) : isPoison (modMe s f) a = isPoison s a := rfl
@[simp] theorem queue_modMe (s : State) (f : Thread → Thread) (q : Nat) : queue (modMe s f) q = queue s q := rfl
@[simp] theorem edge_modMe (s : State) (f : Thread → Thread) (g : Nat) : edge (modMe s f) g = edge s g := rfl
@[simp] theorem vent_modMe (s : State) (f : Thread → Thread) (v : Nat) : vent (modMe s f) v = vent s v := rfl
@[simp] theorem retryOf_modMe (s : State) (f : Thread → Thread) (h : Nat) : retryOf (modMe s f) h = retryOf s h := rfl

/-! ## land -/

@[simp] theorem gang_land (s : State) (lat : Nat) (x : LandAct) (m : Nat) (g : Nat) : gang (land s lat x m) g = gang s g := rfl
@[simp] theorem getByte_land (s : State) (lat : Nat) (x : LandAct) (m : Nat) (a : Nat) : getByte (land s lat x m) a = getByte s a := rfl
@[simp] theorem isFull_land (s : State) (lat : Nat) (x : LandAct) (m : Nat) (a : Nat) : isFull (land s lat x m) a = isFull s a := rfl
@[simp] theorem isPoison_land (s : State) (lat : Nat) (x : LandAct) (m : Nat) (a : Nat) : isPoison (land s lat x m) a = isPoison s a := rfl
@[simp] theorem queue_land (s : State) (lat : Nat) (x : LandAct) (m : Nat) (q : Nat) : queue (land s lat x m) q = queue s q := rfl
@[simp] theorem edge_land (s : State) (lat : Nat) (x : LandAct) (m : Nat) (g : Nat) : edge (land s lat x m) g = edge s g := rfl
@[simp] theorem vent_land (s : State) (lat : Nat) (x : LandAct) (m : Nat) (v : Nat) : vent (land s lat x m) v = vent s v := rfl
@[simp] theorem retryOf_land (s : State) (lat : Nat) (x : LandAct) (m : Nat) (h : Nat) : retryOf (land s lat x m) h = retryOf s h := rfl

/-! ## tick -/

@[simp] theorem gang_tick (s : State) (m k' n' : Nat) (g : Nat) : gang (tick s m k' n') g = gang s g := rfl
@[simp] theorem getByte_tick (s : State) (m k' n' : Nat) (a : Nat) : getByte (tick s m k' n') a = getByte s a := rfl
@[simp] theorem isFull_tick (s : State) (m k' n' : Nat) (a : Nat) : isFull (tick s m k' n') a = isFull s a := rfl
@[simp] theorem isPoison_tick (s : State) (m k' n' : Nat) (a : Nat) : isPoison (tick s m k' n') a = isPoison s a := rfl
@[simp] theorem queue_tick (s : State) (m k' n' : Nat) (q : Nat) : queue (tick s m k' n') q = queue s q := rfl
@[simp] theorem edge_tick (s : State) (m k' n' : Nat) (g : Nat) : edge (tick s m k' n') g = edge s g := rfl
@[simp] theorem vent_tick (s : State) (m k' n' : Nat) (v : Nat) : vent (tick s m k' n') v = vent s v := rfl
@[simp] theorem retryOf_tick (s : State) (m k' n' : Nat) (h : Nat) : retryOf (tick s m k' n') h = retryOf s h := rfl

/-! ## setSem -/

@[simp] theorem gang_setSem (s : State) (m n' v' : Nat) (g : Nat) : gang (setSem s m n' v') g = gang s g := rfl
@[simp] theorem getByte_setSem (s : State) (m n' v' : Nat) (a : Nat) : getByte (setSem s m n' v') a = getByte s a := rfl
@[simp] theorem isFull_setSem (s : State) (m n' v' : Nat) (a : Nat) : isFull (setSem s m n' v') a = isFull s a := rfl
@[simp] theorem isPoison_setSem (s : State) (m n' v' : Nat) (a : Nat) : isPoison (setSem s m n' v') a = isPoison s a := rfl
@[simp] theorem queue_setSem (s : State) (m n' v' : Nat) (q : Nat) : queue (setSem s m n' v') q = queue s q := rfl
@[simp] theorem edge_setSem (s : State) (m n' v' : Nat) (g : Nat) : edge (setSem s m n' v') g = edge s g := rfl
@[simp] theorem vent_setSem (s : State) (m n' v' : Nat) (v : Nat) : vent (setSem s m n' v') v = vent s v := rfl
@[simp] theorem retryOf_setSem (s : State) (m n' v' : Nat) (h : Nat) : retryOf (setSem s m n' v') h = retryOf s h := rfl

/-! ## report0 -/

@[simp] theorem core_report0 (s : State) (m n' : Nat) (c : Nat) : core (report0 s m n') c = core s c := rfl
@[simp] theorem thread_report0 (s : State) (m n' : Nat) (c t : Nat) : thread (report0 s m n') c t = thread s c t := rfl
@[simp] theorem me_report0 (s : State) (m n' : Nat) : me (report0 s m n') = me s := rfl
@[simp] theorem engine_report0 (s : State) (m n' : Nat) (c : Nat) : engine (report0 s m n') c = engine s c := rfl
@[simp] theorem tephra_report0 (s : State) (m n' : Nat) (c k : Nat) : tephra (report0 s m n') c k = tephra s c k := rfl
@[simp] theorem sem_report0 (s : State) (m n' : Nat) (c n : Nat) : sem (report0 s m n') c n = sem s c n := rfl
@[simp] theorem gang_report0 (s : State) (m n' : Nat) (g : Nat) : gang (report0 s m n') g = gang s g := rfl
@[simp] theorem gangOf_report0 (s : State) (m n' : Nat) (c : Nat) : gangOf (report0 s m n') c = gangOf s c := rfl
@[simp] theorem getByte_report0 (s : State) (m n' : Nat) (a : Nat) : getByte (report0 s m n') a = getByte s a := rfl
@[simp] theorem isFull_report0 (s : State) (m n' : Nat) (a : Nat) : isFull (report0 s m n') a = isFull s a := rfl
@[simp] theorem isPoison_report0 (s : State) (m n' : Nat) (a : Nat) : isPoison (report0 s m n') a = isPoison s a := rfl
@[simp] theorem edge_report0 (s : State) (m n' : Nat) (g : Nat) : edge (report0 s m n') g = edge s g := rfl
@[simp] theorem retryOf_report0 (s : State) (m n' : Nat) (h : Nat) : retryOf (report0 s m n') h = retryOf s h := rfl

/-! ## drawLat -/

@[simp] theorem core_drawLat (s : State) (c : Nat) : core (drawLat s).2 c = core s c := rfl
@[simp] theorem thread_drawLat (s : State) (c t : Nat) : thread (drawLat s).2 c t = thread s c t := rfl
@[simp] theorem me_drawLat (s : State) : me (drawLat s).2 = me s := rfl
@[simp] theorem engine_drawLat (s : State) (c : Nat) : engine (drawLat s).2 c = engine s c := rfl
@[simp] theorem tephra_drawLat (s : State) (c k : Nat) : tephra (drawLat s).2 c k = tephra s c k := rfl
@[simp] theorem sem_drawLat (s : State) (c n : Nat) : sem (drawLat s).2 c n = sem s c n := rfl
@[simp] theorem gang_drawLat (s : State) (g : Nat) : gang (drawLat s).2 g = gang s g := rfl
@[simp] theorem gangOf_drawLat (s : State) (c : Nat) : gangOf (drawLat s).2 c = gangOf s c := rfl
@[simp] theorem getByte_drawLat (s : State) (a : Nat) : getByte (drawLat s).2 a = getByte s a := rfl
@[simp] theorem isFull_drawLat (s : State) (a : Nat) : isFull (drawLat s).2 a = isFull s a := rfl
@[simp] theorem isPoison_drawLat (s : State) (a : Nat) : isPoison (drawLat s).2 a = isPoison s a := rfl
@[simp] theorem queue_drawLat (s : State) (q : Nat) : queue (drawLat s).2 q = queue s q := rfl
@[simp] theorem edge_drawLat (s : State) (g : Nat) : edge (drawLat s).2 g = edge s g := rfl
@[simp] theorem vent_drawLat (s : State) (v : Nat) : vent (drawLat s).2 v = vent s v := rfl
@[simp] theorem retryOf_drawLat (s : State) (h : Nat) : retryOf (drawLat s).2 h = retryOf s h := rfl

/-! ## drawChoice -/

@[simp] theorem core_drawChoice (s : State) (c : Nat) : core (drawChoice s).2 c = core s c := rfl
@[simp] theorem thread_drawChoice (s : State) (c t : Nat) : thread (drawChoice s).2 c t = thread s c t := rfl
@[simp] theorem me_drawChoice (s : State) : me (drawChoice s).2 = me s := rfl
@[simp] theorem engine_drawChoice (s : State) (c : Nat) : engine (drawChoice s).2 c = engine s c := rfl
@[simp] theorem tephra_drawChoice (s : State) (c k : Nat) : tephra (drawChoice s).2 c k = tephra s c k := rfl
@[simp] theorem sem_drawChoice (s : State) (c n : Nat) : sem (drawChoice s).2 c n = sem s c n := rfl
@[simp] theorem gang_drawChoice (s : State) (g : Nat) : gang (drawChoice s).2 g = gang s g := rfl
@[simp] theorem gangOf_drawChoice (s : State) (c : Nat) : gangOf (drawChoice s).2 c = gangOf s c := rfl
@[simp] theorem getByte_drawChoice (s : State) (a : Nat) : getByte (drawChoice s).2 a = getByte s a := rfl
@[simp] theorem isFull_drawChoice (s : State) (a : Nat) : isFull (drawChoice s).2 a = isFull s a := rfl
@[simp] theorem isPoison_drawChoice (s : State) (a : Nat) : isPoison (drawChoice s).2 a = isPoison s a := rfl
@[simp] theorem queue_drawChoice (s : State) (q : Nat) : queue (drawChoice s).2 q = queue s q := rfl
@[simp] theorem edge_drawChoice (s : State) (g : Nat) : edge (drawChoice s).2 g = edge s g := rfl
@[simp] theorem vent_drawChoice (s : State) (v : Nat) : vent (drawChoice s).2 v = vent s v := rfl
@[simp] theorem retryOf_drawChoice (s : State) (h : Nat) : retryOf (drawChoice s).2 h = retryOf s h := rfl

/-! ## drawTicket -/

@[simp] theorem core_drawTicket (s : State) (c : Nat) : core (drawTicket s).2 c = core s c := rfl
@[simp] theorem thread_drawTicket (s : State) (c t : Nat) : thread (drawTicket s).2 c t = thread s c t := rfl
@[simp] theorem me_drawTicket (s : State) : me (drawTicket s).2 = me s := rfl
@[simp] theorem engine_drawTicket (s : State) (c : Nat) : engine (drawTicket s).2 c = engine s c := rfl
@[simp] theorem tephra_drawTicket (s : State) (c k : Nat) : tephra (drawTicket s).2 c k = tephra s c k := rfl
@[simp] theorem sem_drawTicket (s : State) (c n : Nat) : sem (drawTicket s).2 c n = sem s c n := rfl
@[simp] theorem gang_drawTicket (s : State) (g : Nat) : gang (drawTicket s).2 g = gang s g := rfl
@[simp] theorem gangOf_drawTicket (s : State) (c : Nat) : gangOf (drawTicket s).2 c = gangOf s c := rfl
@[simp] theorem getByte_drawTicket (s : State) (a : Nat) : getByte (drawTicket s).2 a = getByte s a := rfl
@[simp] theorem isFull_drawTicket (s : State) (a : Nat) : isFull (drawTicket s).2 a = isFull s a := rfl
@[simp] theorem isPoison_drawTicket (s : State) (a : Nat) : isPoison (drawTicket s).2 a = isPoison s a := rfl
@[simp] theorem queue_drawTicket (s : State) (q : Nat) : queue (drawTicket s).2 q = queue s q := rfl
@[simp] theorem edge_drawTicket (s : State) (g : Nat) : edge (drawTicket s).2 g = edge s g := rfl
@[simp] theorem vent_drawTicket (s : State) (v : Nat) : vent (drawTicket s).2 v = vent s v := rfl
@[simp] theorem retryOf_drawTicket (s : State) (h : Nat) : retryOf (drawTicket s).2 h = retryOf s h := rfl

/-! ## fresh -/

@[simp] theorem core_fresh (s : State) (c : Nat) : core (fresh s).2 c = core s c := rfl
@[simp] theorem thread_fresh (s : State) (c t : Nat) : thread (fresh s).2 c t = thread s c t := rfl
@[simp] theorem me_fresh (s : State) : me (fresh s).2 = me s := rfl
@[simp] theorem engine_fresh (s : State) (c : Nat) : engine (fresh s).2 c = engine s c := rfl
@[simp] theorem tephra_fresh (s : State) (c k : Nat) : tephra (fresh s).2 c k = tephra s c k := rfl
@[simp] theorem sem_fresh (s : State) (c n : Nat) : sem (fresh s).2 c n = sem s c n := rfl
@[simp] theorem gang_fresh (s : State) (g : Nat) : gang (fresh s).2 g = gang s g := rfl
@[simp] theorem gangOf_fresh (s : State) (c : Nat) : gangOf (fresh s).2 c = gangOf s c := rfl
@[simp] theorem getByte_fresh (s : State) (a : Nat) : getByte (fresh s).2 a = getByte s a := rfl
@[simp] theorem isFull_fresh (s : State) (a : Nat) : isFull (fresh s).2 a = isFull s a := rfl
@[simp] theorem isPoison_fresh (s : State) (a : Nat) : isPoison (fresh s).2 a = isPoison s a := rfl
@[simp] theorem queue_fresh (s : State) (q : Nat) : queue (fresh s).2 q = queue s q := rfl
@[simp] theorem edge_fresh (s : State) (g : Nat) : edge (fresh s).2 g = edge s g := rfl
@[simp] theorem vent_fresh (s : State) (v : Nat) : vent (fresh s).2 v = vent s v := rfl
@[simp] theorem retryOf_fresh (s : State) (h : Nat) : retryOf (fresh s).2 h = retryOf s h := rfl

end Sys2Proof.Machine
end

