-- ==== Sys2Proof/Laws/Port.lean ====
section
/-! SUPPORT. What an access of the thread port does: at its issue it joins the port and nothing else changes; when it performs
it changes memory, full/empty bits and poison alone, and keeps memory canonical (R124, R201, R247). -/

namespace Sys2Proof.Machine

/-- An access that issues joins the end of its core's port. -/
theorem portAccess_port (s : State) (touch : Pieces) (writes : List (Nat × List Nat)) (full : Option Bool) :
    (core (portAccess s touch writes full) s.cur.core).port
      = (core s s.cur.core).port ++ [{ due := s.gcyc + 4, touch := touch, writes := writes, full := full }] := by
  unfold portAccess modMyCore
  rw [core_modCore_same]

/-- And it leaves every byte as it was. -/
@[simp] theorem portAccess_mem (s : State) (touch : Pieces) (writes : List (Nat × List Nat)) (full : Option Bool) :
    (portAccess s touch writes full).mem = s.mem := rfl
@[simp] theorem portAccess_empty (s : State) (touch : Pieces) (writes : List (Nat × List Nat)) (full : Option Bool) :
    (portAccess s touch writes full).empty = s.empty := rfl
@[simp] theorem portAccess_poison (s : State) (touch : Pieces) (writes : List (Nat × List Nat)) (full : Option Bool) :
    (portAccess s touch writes full).poison = s.poison := rfl
@[simp] theorem portAccess_agenda (s : State) (touch : Pieces) (writes : List (Nat × List Nat)) (full : Option Bool) :
    (portAccess s touch writes full).agenda = s.agenda := rfl
@[simp] theorem portAccess_cur (s : State) (touch : Pieces) (writes : List (Nat × List Nat)) (full : Option Bool) :
    (portAccess s touch writes full).cur = s.cur := rfl

theorem core_portAccess_ne (s : State) (touch : Pieces) (writes : List (Nat × List Nat)) (full : Option Bool) {c : Nat}
    (h : s.cur.core ≠ c) : core (portAccess s touch writes full) c = core s c := by
  unfold portAccess modMyCore
  rw [core_modCore, if_neg h]

/-- What an access finds with the port at rest. -/
theorem settled_of_idle {s : State} {c : Nat} (h : (core s c).port = []) : settled s c = s := by
  unfold settled
  rw [h]
  rfl

/-! ## Performing -/


theorem storePieces_wf (s : State) (l : List (Nat × List Nat)) (h : Memory.wf s.mem) : Memory.wf (storePieces s l).mem := by
  unfold storePieces
  refine foldl_wf _ _ (fun x u hx => ?_) _ (foldl_wf _ _ (fun x p hx => putBytes_wf x p.1 (storedBytes p.1 p.2) hx) _ h)
  split
  · exact hx
  · exact hx

theorem performPort_wf (s : State) (a : PortAccess) (h : Memory.wf s.mem) : Memory.wf (performPort s a).mem := by
  unfold performPort
  cases a.full with
  | none => exact storePieces_wf s a.writes h
  | some b => simpa using storePieces_wf s a.writes h

theorem settled_wf (s : State) (c : Nat) (h : Memory.wf s.mem) : Memory.wf (settled s c).mem :=
  foldl_wf performPort _ (fun x a hx => performPort_wf x a hx) s h

/-- Performing touches no core. -/
theorem performPort_cores (s : State) (a : PortAccess) : (performPort s a).cores = s.cores := by
  have hb : ∀ (l : List Nat) (x : State) (a : Nat), (putBytes x a l).cores = x.cores := by
    intro l
    induction l with
    | nil => intro x a; rfl
    | cons b r ih => intro x a; exact ih _ _
  have hl : ∀ (l : List (Nat × List Nat)) (x : State), (l.foldl (fun x p => putBytes x p.1 (storedBytes p.1 p.2)) x).cores = x.cores := by
    intro l
    induction l with
    | nil => intro x; rfl
    | cons p r ih => intro x; rw [List.foldl_cons, ih, hb]
  have hp : ∀ (l : List Nat) (ps : Pieces) (x : State),
      (l.foldl (fun x u => if isPoison x u && coversWord ps u then setPoison x u false else x) x).cores = x.cores := by
    intro l ps
    induction l with
    | nil => intro x; rfl
    | cons u r ih => intro x; rw [List.foldl_cons, ih]; split <;> rfl
  have hs : (storePieces s a.writes).cores = s.cores := by
    unfold storePieces
    rw [hp, hl]
  have hf : ∀ (l : List Nat) (b : Bool) (x : State), (setFulls x b l).cores = x.cores := by
    intro l b
    unfold setFulls
    induction l with
    | nil => intro x; rfl
    | cons u r ih => intro x; rw [List.foldl_cons, ih]; rfl
  unfold performPort
  cases a.full with
  | none => exact hs
  | some b => simpa [hf] using hs

end Sys2Proof.Machine
end

