-- ==== Sys2Proof/Laws/Traps.lean ====
section
/-! SUPPORT. The agenda, messages and traps: what each shared operation does, once. -/

namespace Sys2Proof.Machine

/-! ## The agenda -/

theorem mem_insEvent (e x : Event) (l : List Event) : x ∈ insEvent e l ↔ x = e ∨ x ∈ l := by
  induction l with
  | nil => simp [insEvent]
  | cons y r ih => simp only [insEvent]; split <;> simp [ih]; tauto

theorem mem_agenda_at' (s : State) (due : Nat) (i : Instr) (l : List Nat) (x : Event) :
    x ∈ (at' s due i l).agenda ↔ x = { due := due, instr := i, args := l, chan := [] } ∨ x ∈ s.agenda :=
  mem_insEvent _ _ _

/-- An event of free timing comes after this cycle; the others stay. -/
theorem later_agenda (s : State) (ch : List Nat) (i : Instr) (l : List Nat) :
    ∃ due, s.gcyc < due ∧ (later s ch i l).agenda = insEvent { due := due, instr := i, args := l, chan := ch } s.agenda :=
  ⟨_, by simp [drawLat]; omega, rfl⟩

theorem laterIn_agenda (s : State) (b : Nat) (i : Instr) (l : List Nat) :
    ∃ due, s.gcyc < due ∧ (0 < b → due ≤ s.gcyc + b)
      ∧ (laterIn s b i l).agenda = insEvent { due := due, instr := i, args := l, chan := [] } s.agenda :=
  ⟨_, by omega, fun h => by have := Nat.mod_lt (drawLat s).1 h; omega, rfl⟩

/-! ## Messages and traps -/

/-- The message of a thread: its thread awaits a ticket, the message is on its way, and nothing else has changed. -/
theorem postThread_spec (s : State) (c t cause kind acause : Nat) (w : List Nat) :
    ∃ tk due dr, tk < 65536 ∧ s.gcyc < due
      ∧ postThread s c t cause kind acause w =
        { setThread s c t { thread s c t with ticket := tk } with
          agenda := insEvent
            { due := due, instr := .inboundMessageWrite
              args := svcFor c :: ([msgWord0 cause kind (coord s c) t acause tk] ++ w ++ List.replicate (5 - w.length) 0
                ++ [s.gcyc % 2 ^ 64, (thread s c t).ttc % 2 ^ 64])
              chan := [1, 8 * c + t] } s.agenda
          draw := dr } :=
  ⟨_, _, _, Nat.mod_lt _ (by decide), by simp [drawLat, drawTicket]; omega, rfl⟩

theorem tset_tset {α : Type} (t : Tab α) (k : Nat) (x y : α) : tset (tset t k x) k y = tset t k y := by
  induction t with
  | nil => simp [tset]
  | cons p r ih =>
    obtain ⟨i, z⟩ := p
    by_cases h1 : k < i
    · simp [tset, h1]
    · by_cases h2 : k = i
      · subst h2; simp [tset]
      · simp [tset, h1, h2, ih]

@[simp] theorem setCore_setCore (s : State) (c : Nat) (k l : Core) : setCore (setCore s c k) c l = setCore s c l := by
  simp [setCore, tset_tset]

@[simp] theorem setThread_setThread (s : State) (c t : Nat) (x y : Thread) :
    setThread (setThread s c t x) c t y = setThread s c t y := by
  simp [setThread, modCore, tset_tset]

/-- The message of a thread that halts is on its way, and nothing else has changed. -/
theorem postHalted_spec (s : State) (c t cause acause addr : Nat) :
    ∃ tk due dr, tk < 65536 ∧ s.gcyc < due
      ∧ postHalted s c t cause acause addr =
        { s with
          agenda := insEvent
            { due := due, instr := .inboundMessageWrite
              args := [svcFor c, msgWord0 cause 2 (coord s c) t acause tk, addr, 0, 0, 0, 0, s.gcyc % 2 ^ 64,
                (thread s c t).ttc % 2 ^ 64]
              chan := [1, 8 * c + t] } s.agenda
          draw := dr } :=
  ⟨_, _, _, Nat.mod_lt _ (by decide), by simp [drawLat, drawTicket]; omega, rfl⟩

/-- HALT without a handler, on a compute core: the thread halts and its message of KIND 2 is on its way. -/
theorem haltWith_spec (s : State) (c t cause acause addr : Nat) (h : isSvc c = false) :
    ∃ tk due dr, tk < 65536 ∧ s.gcyc < due
      ∧ haltWith s c t cause acause addr =
        { setThread s c t { thread s c t with st := .halt } with
          agenda := insEvent
            { due := due, instr := .inboundMessageWrite
              args := [svcFor c, msgWord0 cause 2 (coord s c) t acause tk, addr, 0, 0, 0, 0, s.gcyc % 2 ^ 64,
                (thread s c t).ttc % 2 ^ 64]
              chan := [1, 8 * c + t] } s.agenda
          draw := dr } := by
  obtain ⟨tk, due, dr, h1, h2, h3⟩ := postHalted_spec (modThread s c t (fun th => { th with st := .halt })) c t cause acause addr
  refine ⟨tk, due, dr, h1, h2, ?_⟩
  have e : haltWith s c t cause acause addr = postHalted (modThread s c t (fun th => { th with st := .halt })) c t cause acause addr := by
    simp [haltWith, h]
  rw [e, h3]
  unfold modThread
  simp only [thread_setThread_same]
  rfl

/-- The thread as a trap leaves it: its open packet and its privileged request are gone. -/
abbrev trapped (th : Thread) : Thread := { th with packet := none, priv := none, privDone := none }

/-- A trap with a handler: the thread goes on at the handler's first bundle. -/
theorem takeTrapAt_handler (s : State) (c t cause addr seg : Nat) (h0 : cause ≠ 0x0D) (h1 : (thread s c t).hact = false)
    (h2 : tfind (core s c).trapv (causeClass cause) = some seg) :
    takeTrapAt s c t cause addr = setThread s c t
      { landTrap (trapped (thread s c t)) cause addr with hact := true, next := seg * 32, st := .run, mrep := none } := by
  unfold takeTrapAt
  rw [if_neg (by rw [h1]; decide), if_neg h0, h2]

/-- What a halt on a compute core leaves of a state in which the thread's record is `th`. -/
theorem haltWith_setThread (s : State) (c t cause acause addr : Nat) (th : Thread) (h : isSvc c = false)
    (h2 : th.ttc = (thread s c t).ttc) :
    ∃ tk due dr, tk < 65536 ∧ s.gcyc < due
      ∧ haltWith (setThread s c t th) c t cause acause addr =
        { setThread s c t { th with st := .halt } with
          agenda := insEvent
            { due := due, instr := .inboundMessageWrite
              args := [svcFor c, msgWord0 cause 2 (coord s c) t acause tk, addr, 0, 0, 0, 0, s.gcyc % 2 ^ 64,
                (thread s c t).ttc % 2 ^ 64]
              chan := [1, 8 * c + t] } s.agenda
          draw := dr } := by
  obtain ⟨tk, due, dr, e1, e2, e3⟩ := haltWith_spec (setThread s c t th) c t cause acause addr h
  refine ⟨tk, due, dr, e1, e2, ?_⟩
  rw [e3]
  simp only [thread_setThread_same, setThread_setThread, h2]
  rfl

/-- A trap without one, on a compute core. -/
theorem takeTrapAt_halts (s : State) (c t cause addr : Nat) (h0 : cause ≠ 0x0D) (h1 : (thread s c t).hact = false)
    (h2 : tfind (core s c).trapv (causeClass cause) = none) (h : isSvc c = false) :
    ∃ tk due dr, tk < 65536 ∧ s.gcyc < due
      ∧ takeTrapAt s c t cause addr =
        { setThread s c t { landTrap (trapped (thread s c t)) cause addr with st := .halt } with
          agenda := insEvent
            { due := due, instr := .inboundMessageWrite
              args := [svcFor c, msgWord0 cause 2 (coord s c) t 0 tk, addr, 0, 0, 0, 0, s.gcyc % 2 ^ 64, (thread s c t).ttc % 2 ^ 64]
              chan := [1, 8 * c + t] } s.agenda
          draw := dr } := by
  have e : takeTrapAt s c t cause addr =
      haltWith (setThread s c t (landTrap (trapped (thread s c t)) cause addr)) c t cause 0 addr := by
    unfold takeTrapAt
    rw [if_neg (by rw [h1]; decide), if_neg h0, h2]
  rw [e]
  exact haltWith_setThread s c t cause 0 addr _ h rfl

/-- A trap in a handler: cause 0x0D, with the cause that came second. -/
theorem takeTrapAt_nested (s : State) (c t cause addr : Nat) (h1 : (thread s c t).hact = true) (h : isSvc c = false) :
    ∃ tk due dr, tk < 65536 ∧ s.gcyc < due
      ∧ takeTrapAt s c t cause addr =
        { setThread s c t { landTrap (trapped (thread s c t)) 0x0D addr with st := .halt } with
          agenda := insEvent
            { due := due, instr := .inboundMessageWrite
              args := [svcFor c, msgWord0 0x0D 2 (coord s c) t cause tk, addr, 0, 0, 0, 0, s.gcyc % 2 ^ 64, (thread s c t).ttc % 2 ^ 64]
              chan := [1, 8 * c + t] } s.agenda
          draw := dr } := by
  have e : takeTrapAt s c t cause addr =
      haltWith (setThread s c t (landTrap (trapped (thread s c t)) 0x0D addr)) c t 0x0D cause addr := by
    unfold takeTrapAt
    rw [if_pos h1]
  rw [e]
  exact haltWith_setThread s c t 0x0D cause addr _ h rfl

end Sys2Proof.Machine
end

