-- ==== Sys2Proof/Tests/Slice0.lean ====
section
/-! SUPPORT. Tests of the model, each on one small state: words written out from the encoding tables, ill-formed terms that the
checks refuse, single effects of instructions with results worked out by hand from the rules, and for every statement with
hypotheses a state and operands that meet them. -/

open Sys2Proof Sys2Proof.Machine Sys2Proof.Claim

namespace Sys2Proof.Tests

/-! ## Small states -/

/-- Core 17 (die 0, column 1, row 1) with one thread, which is at work. -/
def one (th : Thread) : State := { State.reset with cores := [(17, { threads := [(0, th)] })], cur := { core := 17 } }

/-- A thread with a few scalars: numbers, FP32 bodies, a scratchpad offset; with address registers and lanes. -/
def scal : Thread :=
  { st := .run, nv := 48, ttc := 100, lsd := 0
    sregs := [(1, ⟨7, 0⟩), (2, ⟨-1, 0⟩), (3, ⟨0x8000000000000000, 0⟩), (4, ⟨0x3F800000, 0⟩), (5, ⟨0x40000000, 0⟩), (6, ⟨0x7FC00000, 0⟩),
              (7, ⟨0x7F800000, 0⟩), (8, ⟨0x100, 0⟩), (9, ⟨0x1FFFFF, 0⟩), (10, ⟨0x200000, 0⟩), (11, ⟨0x7F800001, 0⟩), (12, ⟨0x1FFFC0, 0⟩)]
    aregs := [(1, 0x1000), (2, 0xF00012000000000100), (3, 0xEFFFFFFFFFFFFFFFFF)]
    pregs := [(1, 0x5)]
    vregs := [(128 * 1, ⟨0x7F800102, 0⟩), (128 * 2, ⟨0x01FF0303, 0⟩), (128 * 1 + 1, ⟨3, 0⟩)] }

def st : State := one scal

/-- What a next state has landed on the thread at work beyond the old landings, and how a bundle ends otherwise. -/
def lands (o : Host.Outcome State Fault Refusal) : List (Nat × LandAct × Nat) :=
  match o with
  | .next t => (me t).lands.map (fun l => (l.due, l.act, l.flags))
  | _ => []

def traps (o : Host.Outcome State Fault Refusal) : Option Nat :=
  match o with
  | .next t => t.cur.trap
  | _ => none

def blocks (o : Host.Outcome State Fault Refusal) : Bool :=
  match o with
  | .next t => t.cur.block
  | _ => false

/-- A number read from the next state. -/
def after {α : Type} (o : Host.Outcome State Fault Refusal) (f : State → α) : Option α :=
  match o with
  | .next t => some (f t)
  | _ => none

/-! ## Words of the encoding tables -/

/-- S slot (Tables 3.3, 3.17): opcode in bits 31:24, D 23:18, A 17:12, B 11:6, guard 0. -/
theorem test_words_s0 :
    ([(0x11490c0, none, (.add ⟨5, 9, 3, none⟩)),
    (0x21490c0, none, (.sub ⟨5, 9, 3, none⟩)),
    (0x31490c0, none, (.addi ⟨5, 9, 3, none⟩)),
    (0x41490c0, none, (.mul ⟨5, 9, 3, none⟩)),
    (0x51490c0, none, (.mulh ⟨5, 9, 3, none⟩)),
    (0x61490c0, none, (.mulhn ⟨5, 9, 3, none⟩)),
    (0x71490c0, none, (.div ⟨5, 9, 3, none⟩)),
    (0x81490c0, none, (.divn ⟨5, 9, 3, none⟩)),
    (0x91490c0, none, (.rem ⟨5, 9, 3, none⟩)),
    (0xa1490c0, none, (.remn ⟨5, 9, 3, none⟩)),
    (0xb1490c0, none, (.and ⟨5, 9, 3, none⟩)),
    (0xc1490c0, none, (.or ⟨5, 9, 3, none⟩)),
    (0xd1490c0, none, (.xor ⟨5, 9, 3, none⟩)),
    (0xe1490c0, none, (.andn ⟨5, 9, 3, none⟩)),
    (0xf1490c0, none, (.shl ⟨5, 9, 3, none⟩)),
    (0x101490c0, none, (.shr ⟨5, 9, 3, none⟩)),
    (0x111490c0, none, (.sar ⟨5, 9, 3, none⟩)),
    (0x121490c0, none, (.rol ⟨5, 9, 3, none⟩)),
    (0x13149000, none, (.clz ⟨5, 9, 0, none⟩)),
    (0x14149000, none, (.popc ⟨5, 9, 0, none⟩)),
    (0x151490c0, none, (.min ⟨5, 9, 3, none⟩)),
    (0x161490c0, none, (.max ⟨5, 9, 3, none⟩)),
    (0x171490c0, none, (.minn ⟨5, 9, 3, none⟩)),
    (0x181490c0, none, (.maxn ⟨5, 9, 3, none⟩)),
    (0x191490c0, none, (.sel ⟨5, 9, 3, none⟩)),
    (0x1a1490c0, none, (.ext ⟨5, 9, 3, none⟩)),
    (0x1b1490c0, none, (.ins ⟨5, 9, 3, none⟩)),
    (0x1c149000, none, (.mov ⟨5, 9, 0, none⟩)),
    (0x1d1490c0, none, (.moviShort ⟨5, 9, 3, none⟩)),
    (0x1d140000, some 77, (.moviImm32 ⟨5, 0, 0, some 77⟩))] : List (Nat × Option Nat × Instr)).all
      (fun p => decodeS false p.2.1 p.1 = .ok p.2.2) = true := by decide

/-- S slot (Tables 3.3, 3.17): opcode in bits 31:24, D 23:18, A 17:12, B 11:6, guard 0. -/
theorem test_words_s1 :
    ([(0x201490c0, none, (.cmpeq ⟨5, 9, 3, none⟩)),
    (0x211490c0, none, (.cmpne ⟨5, 9, 3, none⟩)),
    (0x221490c0, none, (.cmplt ⟨5, 9, 3, none⟩)),
    (0x231490c0, none, (.cmple ⟨5, 9, 3, none⟩)),
    (0x241490c0, none, (.cmpltn ⟨5, 9, 3, none⟩)),
    (0x251490c0, none, (.cmplen ⟨5, 9, 3, none⟩)),
    (0x281490c0, none, (.lea ⟨5, 9, 3, none⟩)),
    (0x291490c0, none, (.adda ⟨5, 9, 3, none⟩)),
    (0x2a149000, none, (.movaAS ⟨5, 9, 0, none⟩)),
    (0x2a149040, none, (.movaSA ⟨5, 9, 1, none⟩)),
    (0x2a149080, none, (.movaHiSA ⟨5, 9, 2, none⟩)),
    (0x2a1490c0, none, (.movaAA ⟨5, 9, 3, none⟩)),
    (0x2a149100, none, (.movaHiAS ⟨5, 9, 4, none⟩)),
    (0x301490c0, none, (.faddF64 ⟨5, 9, 3, none⟩)),
    (0x311490c0, none, (.fsubF64 ⟨5, 9, 3, none⟩)),
    (0x321490c0, none, (.fmulF64 ⟨5, 9, 3, none⟩)),
    (0x331490c0, none, (.fmaF64 ⟨5, 9, 3, none⟩)),
    (0x341490c0, none, (.fdivF64 ⟨5, 9, 3, none⟩)),
    (0x35149000, none, (.fsqrtF64 ⟨5, 9, 0, none⟩)),
    (0x361490c0, none, (.fminF64 ⟨5, 9, 3, none⟩)),
    (0x371490c0, none, (.fmaxF64 ⟨5, 9, 3, none⟩)),
    (0x381490c0, none, (.fcmpeqF64 ⟨5, 9, 3, none⟩)),
    (0x391490c0, none, (.fcmpltF64 ⟨5, 9, 3, none⟩)),
    (0x3a1490c0, none, (.fcmpleF64 ⟨5, 9, 3, none⟩)),
    (0x3b1490c0, none, (.fcvtF64 ⟨5, 9, 3, none⟩)),
    (0x3c149000, none, (.setlF64 ⟨5, 9, 0, none⟩)),
    (0x3d149000, none, (.fclassF64 ⟨5, 9, 0, none⟩)),
    (0x401490c0, none, (.faddF32 ⟨5, 9, 3, none⟩)),
    (0x411490c0, none, (.fsubF32 ⟨5, 9, 3, none⟩)),
    (0x421490c0, none, (.fmulF32 ⟨5, 9, 3, none⟩))] : List (Nat × Option Nat × Instr)).all
      (fun p => decodeS false p.2.1 p.1 = .ok p.2.2) = true := by decide

/-- S slot (Tables 3.3, 3.17): opcode in bits 31:24, D 23:18, A 17:12, B 11:6, guard 0. -/
theorem test_words_s2 :
    ([(0x431490c0, none, (.fmaF32 ⟨5, 9, 3, none⟩)),
    (0x441490c0, none, (.fdivF32 ⟨5, 9, 3, none⟩)),
    (0x45149000, none, (.fsqrtF32 ⟨5, 9, 0, none⟩)),
    (0x461490c0, none, (.fminF32 ⟨5, 9, 3, none⟩)),
    (0x471490c0, none, (.fmaxF32 ⟨5, 9, 3, none⟩)),
    (0x481490c0, none, (.fcmpeqF32 ⟨5, 9, 3, none⟩)),
    (0x491490c0, none, (.fcmpltF32 ⟨5, 9, 3, none⟩)),
    (0x4a1490c0, none, (.fcmpleF32 ⟨5, 9, 3, none⟩)),
    (0x4b1490c0, none, (.fcvtF32 ⟨5, 9, 3, none⟩)),
    (0x4c149000, none, (.setlF32 ⟨5, 9, 0, none⟩)),
    (0x4d149000, none, (.fclassF32 ⟨5, 9, 0, none⟩)),
    (0x501490c0, none, (.pand ⟨5, 9, 3, none⟩)),
    (0x511490c0, none, (.por ⟨5, 9, 3, none⟩)),
    (0x521490c0, none, (.pxor ⟨5, 9, 3, none⟩)),
    (0x53149000, none, (.pnot ⟨5, 9, 0, none⟩)),
    (0x54149000, none, (.pmov ⟨5, 9, 0, none⟩)),
    (0x55149000, none, (.pall ⟨5, 9, 0, none⟩)),
    (0x56149000, none, (.pany ⟨5, 9, 0, none⟩)),
    (0x60000000, some 77, (.br ⟨0, 0, 0, some 77⟩)),
    (0x61000000, some 77, (.callLabel ⟨0, 0, 0, some 77⟩)),
    (0x61009000, none, (.callRegister ⟨0, 9, 0, none⟩)),
    (0x63149000, none, (.loopRegister ⟨5, 9, 0, none⟩)),
    (0x63140000, some 77, (.loopImmediate ⟨5, 0, 0, some 77⟩)),
    (0x650000c0, none, (.lpin ⟨0, 0, 3, none⟩)),
    (0x670000c0, none, (.trap ⟨0, 0, 3, none⟩)),
    (0x681400c0, none, (.rds ⟨5, 0, 3, none⟩)),
    (0x69009500, none, (.wrs ⟨0, 9, 20, none⟩)),
    (0x6a0090c0, none, (.rotset ⟨0, 9, 3, none⟩)),
    (0x6b009000, none, (.waitcRegister ⟨0, 9, 0, none⟩)),
    (0x6b000000, some 77, (.waitcImmediate ⟨0, 0, 0, some 77⟩))] : List (Nat × Option Nat × Instr)).all
      (fun p => decodeS false p.2.1 p.1 = .ok p.2.2) = true := by decide

/-- S slot (Tables 3.3, 3.17): opcode in bits 31:24, D 23:18, A 17:12, B 11:6, guard 0. -/
theorem test_words_s3 :
    ([(0x6c009000, none, (.bri ⟨0, 9, 0, none⟩))] : List (Nat × Option Nat × Instr)).all
      (fun p => decodeS false p.2.1 p.1 = .ok p.2.2) = true := by decide

/-- Privileged words on a service core (Table 14.7). -/
theorem test_words_privileged :
    ([(0x70009000, none, (.tretRetry ⟨0, 9, 0, none⟩)),
    (0x700490c0, none, (.tretAt ⟨1, 9, 3, none⟩)),
    (0x70089000, none, (.tretNext ⟨2, 9, 0, none⟩)),
    (0x700c9000, none, (.tretSkip ⟨3, 9, 0, none⟩)),
    (0x710090c0, none, (.winset ⟨0, 9, 3, none⟩)),
    (0x72009000, none, (.winkill ⟨0, 9, 0, none⟩)),
    (0x730090c0, none, (.grant ⟨0, 9, 3, none⟩)),
    (0x740090c0, none, (.mbreplyRetry ⟨0, 9, 3, none⟩)),
    (0x740490c0, none, (.mbreplyResume ⟨1, 9, 3, none⟩)),
    (0x740890c0, none, (.mbreplyResumev ⟨2, 9, 3, none⟩)),
    (0x740c90c0, none, (.mbreplyError ⟨3, 9, 3, none⟩)),
    (0x741090c0, none, (.mbreplyMbok ⟨4, 9, 3, none⟩)),
    (0x741490c0, none, (.mbreplyMberr ⟨5, 9, 3, none⟩)),
    (0x75009000, none, (.ctxsvThr ⟨0, 9, 0, none⟩)),
    (0x75049000, none, (.ctxsvGang ⟨1, 9, 0, none⟩)),
    (0x76009000, none, (.ctxldThr ⟨0, 9, 0, none⟩)),
    (0x76049000, none, (.ctxldGang ⟨1, 9, 0, none⟩)),
    (0x77009000, none, (.haltStop ⟨0, 9, 0, none⟩)),
    (0x77049000, none, (.haltEnd ⟨1, 9, 0, none⟩)),
    (0x77089000, none, (.haltReset ⟨2, 9, 0, none⟩))] : List (Nat × Option Nat × Instr)).all
      (fun p => decodeS true p.2.1 p.1 = .ok p.2.2) = true := by decide

/-- V slot (Tables 3.4, 3.18): opcode in bits 55:47, TYPE, D, A, B, C, CM, MOD. -/
theorem test_words_v0 :
    ([(0x90a486052800, (.vadd ⟨2, 5, 9, 3, 0, 165, 0, none⟩)),
    (0x110a486052800, (.vsub ⟨2, 5, 9, 3, 0, 165, 0, none⟩)),
    (0x190a486052800, (.vmul ⟨2, 5, 9, 3, 0, 165, 0, none⟩)),
    (0x210a486052800, (.vmulh ⟨2, 5, 9, 3, 0, 165, 0, none⟩)),
    (0x290a4863d2800, (.vmad ⟨2, 5, 9, 3, 7, 165, 0, none⟩)),
    (0x310a486052800, (.vand ⟨2, 5, 9, 3, 0, 165, 0, none⟩)),
    (0x390a486052800, (.vor ⟨2, 5, 9, 3, 0, 165, 0, none⟩)),
    (0x410a486052800, (.vxor ⟨2, 5, 9, 3, 0, 165, 0, none⟩)),
    (0x490a486052800, (.vshl ⟨2, 5, 9, 3, 0, 165, 0, none⟩)),
    (0x510a486052800, (.vshr ⟨2, 5, 9, 3, 0, 165, 0, none⟩)),
    (0x590a486052800, (.vsar ⟨2, 5, 9, 3, 0, 165, 0, none⟩)),
    (0x610a486052800, (.vmin ⟨2, 5, 9, 3, 0, 165, 0, none⟩)),
    (0x690a486052800, (.vmax ⟨2, 5, 9, 3, 0, 165, 0, none⟩)),
    (0x710a480052800, (.vabs ⟨2, 5, 9, 0, 0, 165, 0, none⟩)),
    (0x790a480052800, (.vclz ⟨2, 5, 9, 0, 0, 165, 0, none⟩)),
    (0x810a480052800, (.vpopc ⟨2, 5, 9, 0, 0, 165, 0, none⟩)),
    (0x880a4863d2800, (.vdot4 ⟨0, 5, 9, 3, 7, 165, 0, none⟩)),
    (0x900a4863d2800, (.vsel ⟨0, 5, 9, 3, 7, 165, 0, none⟩)),
    (0x990a486052800, (.vcmp ⟨2, 5, 9, 3, 0, 165, 0, none⟩)),
    (0x1030a486052800, (.vfadd ⟨6, 5, 9, 3, 0, 165, 0, none⟩)),
    (0x10b0a486052800, (.vfsub ⟨6, 5, 9, 3, 0, 165, 0, none⟩)),
    (0x1130a486052800, (.vfmul ⟨6, 5, 9, 3, 0, 165, 0, none⟩)),
    (0x11b0a4863d2800, (.vfma ⟨6, 5, 9, 3, 7, 165, 0, none⟩)),
    (0x1230a486052800, (.vfmin ⟨6, 5, 9, 3, 0, 165, 0, none⟩)),
    (0x12b0a486052800, (.vfmax ⟨6, 5, 9, 3, 0, 165, 0, none⟩)),
    (0x1330a486052800, (.vfminn ⟨6, 5, 9, 3, 0, 165, 0, none⟩)),
    (0x13b0a486052800, (.vfmaxn ⟨6, 5, 9, 3, 0, 165, 0, none⟩)),
    (0x1430a480052800, (.vfabs ⟨6, 5, 9, 0, 0, 165, 0, none⟩)),
    (0x14b0a480052800, (.vfneg ⟨6, 5, 9, 0, 0, 165, 0, none⟩)),
    (0x1530a486052800, (.vfcmp ⟨6, 5, 9, 3, 0, 165, 0, none⟩))] : List (Nat × Instr)).all (fun p => decodeV false none p.1 = .ok p.2) = true := by decide

/-- V slot (Tables 3.4, 3.18): opcode in bits 55:47, TYPE, D, A, B, C, CM, MOD. -/
theorem test_words_v1 :
    ([(0x15b0a486052800, (.vfcmps ⟨6, 5, 9, 3, 0, 165, 0, none⟩)),
    (0x1610a480052800, (.vcvt ⟨2, 5, 9, 0, 0, 165, 0, none⟩)),
    (0x16b0a480052800, (.vsetl ⟨6, 5, 9, 0, 0, 165, 0, none⟩)),
    (0x1730a480052800, (.vfclass ⟨6, 5, 9, 0, 0, 165, 0, none⟩)),
    (0x1830a480052800, (.vexp2 ⟨6, 5, 9, 0, 0, 165, 0, none⟩)),
    (0x18b0a480052800, (.vlog2 ⟨6, 5, 9, 0, 0, 165, 0, none⟩)),
    (0x1930a480052800, (.vrcp ⟨6, 5, 9, 0, 0, 165, 0, none⟩)),
    (0x19b0a480052800, (.vrsq ⟨6, 5, 9, 0, 0, 165, 0, none⟩)),
    (0x1a30a480052800, (.vsqrt ⟨6, 5, 9, 0, 0, 165, 0, none⟩)),
    (0x1ab0a480052800, (.vsin ⟨6, 5, 9, 0, 0, 165, 0, none⟩)),
    (0x1b30a480052800, (.vcos ⟨6, 5, 9, 0, 0, 165, 0, none⟩)),
    (0x2000a486052800, (.vshuf ⟨0, 5, 9, 3, 0, 165, 0, none⟩)),
    (0x2080a486052800, (.vbcast ⟨0, 5, 9, 3, 0, 165, 0, none⟩)),
    (0x2110a480052800, (.vred ⟨2, 5, 9, 0, 0, 165, 0, none⟩)),
    (0x2190a480052800, (.vscan ⟨2, 5, 9, 0, 0, 165, 0, none⟩)),
    (0x2200a480052800, (.vcmprs ⟨0, 5, 9, 0, 0, 165, 0, none⟩)),
    (0x22a0a480052800, (.viota ⟨4, 5, 9, 0, 0, 165, 0, none⟩)),
    (0x2328a4863d2800, (.vrng ⟨5, 5, 9, 3, 7, 165, 0, none⟩)),
    (0x2380a480052800, (.vmovsToVector ⟨0, 5, 9, 0, 0, 165, 0, none⟩)),
    (0x2380a4863d2840, (.vmovsToScalar ⟨0, 5, 9, 3, 7, 165, 1, none⟩)),
    (0x2400a480052800, (.vmovlToVector ⟨0, 5, 9, 0, 0, 165, 0, none⟩)),
    (0x2400a480052840, (.vmovlToPredicate ⟨0, 5, 9, 0, 0, 165, 1, none⟩)),
    (0x2480a480052800, (.vmov ⟨0, 5, 9, 0, 0, 165, 0, none⟩)),
    (0x2500a480052800, (.xcl ⟨0, 5, 9, 0, 0, 165, 0, none⟩)),
    (0x2580a486052800, (.vpack ⟨0, 5, 9, 3, 0, 165, 0, none⟩)),
    (0x2600a480052800, (.vunpk ⟨0, 5, 9, 0, 0, 165, 0, none⟩))] : List (Nat × Instr)).all (fun p => decodeV false none p.1 = .ok p.2) = true := by decide

/-- L slot (Tables 3.5, 3.19): opcode in bits 47:41, DATA, BASE, OFS, SZ, MD2, MD1, MD0. -/
theorem test_words_l :
    ([(0x2293ffe6800, (.ld ⟨5, 9, 65523, 4, 0, 0, 0⟩)),
    (0x4293ffe6800, (.st ⟨5, 9, 65523, 4, 0, 0, 0⟩)),
    (0x6293ffe6900, (.ldv ⟨5, 9, 65523, 4, 1, 0, 0⟩)),
    (0x8293ffe6800, (.stv ⟨5, 9, 65523, 4, 0, 0, 0⟩)),
    (0xa2921900800, (.ldx ⟨5, 9, 3200, 4, 0, 0, 0⟩)),
    (0xc2921900800, (.stx ⟨5, 9, 3200, 4, 0, 0, 0⟩)),
    (0xe293ffe6100, (.spill ⟨5, 9, 65523, 0, 1, 0, 0⟩)),
    (0x10293ffe6100, (.fill ⟨5, 9, 65523, 0, 1, 0, 0⟩)),
    (0x122920246800, (.atom ⟨5, 9, 291, 4, 0, 0, 0⟩)),
    (0x14293ffe6880, (.ldf ⟨5, 9, 65523, 4, 0, 1, 0⟩)),
    (0x14293ffe6980, (.ldfTake ⟨5, 9, 65523, 4, 1, 1, 0⟩)),
    (0x16293ffe6880, (.ste ⟨5, 9, 65523, 4, 0, 1, 0⟩)),
    (0x16293ffe6980, (.steFill ⟨5, 9, 65523, 4, 1, 1, 0⟩)),
    (0x18293ffe6000, (.clrf ⟨5, 9, 65523, 0, 0, 0, 0⟩)),
    (0x18293ffe6100, (.clrfSet ⟨5, 9, 65523, 0, 1, 0, 0⟩)),
    (0x1a2920000000, (.tagq ⟨5, 9, 0, 0, 0, 0, 0⟩)),
    (0x1a2920000100, (.tagqClaim ⟨5, 9, 0, 0, 1, 0, 0⟩)),
    (0x1c2920000000, (.tagw ⟨5, 9, 0, 0, 0, 0, 0⟩)),
    (0x1e2920000000, (.tagx ⟨5, 9, 0, 0, 0, 0, 0⟩)),
    (0x1e2920000100, (.tagxRd ⟨5, 9, 0, 0, 1, 0, 0⟩))] : List (Nat × Instr)).all (fun p => decodeL false p.1 = .ok p.2) = true := by decide

/-- M slot (Tables 3.6, 3.20): opcode in bits 31:26, A, B, IMM8. -/
theorem test_words_m :
    ([(0x49003c0, (.ringsetDef ⟨9, 0, 15⟩)),
    (0x49007c0, (.ringsetTail ⟨9, 0, 31⟩)),
    (0x4900bc0, (.ringsetHead ⟨9, 0, 47⟩)),
    (0x890c040, (.mwld ⟨9, 3, 1⟩)),
    (0xc90c500, (.mwldv ⟨9, 3, 20⟩)),
    (0x1090c000, (.mstrm ⟨9, 3, 0⟩)),
    (0x14902540, (.mrep ⟨9, 0, 149⟩)),
    (0x1890c1c0, (.mdrain ⟨9, 3, 7⟩)),
    (0x1c90c7c0, (.mdrainv ⟨9, 3, 31⟩)),
    (0x2000c7c0, (.mzero ⟨0, 3, 31⟩)),
    (0x2490c000, (.mcmd ⟨9, 3, 0⟩)),
    (0x28902540, (.mstat ⟨9, 0, 149⟩))] : List (Nat × Instr)).all (fun p => decodeM false p.1 = .ok p.2) = true := by decide

/-- X slot (Tables 3.7, 3.21): opcode in bits 31:25, DA, B, CI, END. -/
theorem test_words_x :
    ([(0x22cb200, (.fld ⟨5, 37, 36, 0⟩)),
    (0x42cb200, (.fst ⟨5, 37, 36, 0⟩)),
    (0x6293240, (.fstp ⟨5, 9, 36, 1⟩)),
    (0x82caa00, (.fatom ⟨5, 37, 20, 0⟩)),
    (0xa2ca600, (.fvatom ⟨5, 37, 12, 0⟩)),
    (0xc000200, (.fence ⟨0, 0, 4, 0⟩)),
    (0xe1ca600, (.chsend ⟨3, 37, 12, 0⟩)),
    (0x10286600, (.chrecv ⟨5, 3, 12, 0⟩)),
    (0x12286000, (.chpeek ⟨5, 3, 0, 0⟩)),
    (0x14000180, (.bar ⟨0, 0, 3, 0⟩)),
    (0x16280180, (.bara ⟨5, 0, 3, 0⟩)),
    (0x18280000, (.nxt ⟨5, 0, 0, 0⟩)),
    (0x1a04a000, (.semsigAdd ⟨0, 37, 0, 0⟩)),
    (0x1a04a080, (.semsigSub ⟨0, 37, 1, 0⟩)),
    (0x1a04a100, (.semsigSet ⟨0, 37, 2, 0⟩)),
    (0x1c04a000, (.semwait ⟨0, 37, 0, 0⟩)),
    (0x1c04a080, (.semwaitDec ⟨0, 37, 1, 0⟩)),
    (0x1e2ca000, (.semtry ⟨5, 37, 0, 0⟩)),
    (0x1e2ca080, (.semtryDec ⟨5, 37, 1, 0⟩)),
    (0x202cb200, (.mbox ⟨5, 37, 36, 0⟩)),
    (0x222ca080, (.tcopy ⟨5, 37, 1, 0⟩)),
    (0x242ca080, (.tcoll ⟨5, 37, 1, 0⟩))] : List (Nat × Instr)).all (fun p => decodeX false p.1 = .ok p.2) = true := by decide

/-- Xtephra words (R303, Table 12.2). -/
theorem test_words_t :
    ([(0xe04830b, (.teRd ⟨7, 0, 9, 6⟩)),
    (0xeb4900b, (.teWr ⟨7, 11, 9, 0⟩)),
    (0xeb4a00b, (.teRdw ⟨7, 11, 9, 0⟩)),
    (0xeb4b00b, (.teWrw ⟨7, 11, 9, 0⟩)),
    (0x1ab4c30b, (.teAtom ⟨13, 11, 9, 6⟩)),
    (0x1ab4d00b, (.teVat ⟨13, 11, 9, 0⟩)),
    (0x1a04e30b, (.teFullWf ⟨13, 0, 9, 6⟩)),
    (0x2e04e30b, (.teFullWfe ⟨23, 0, 9, 6⟩)),
    (0xeb4f00b, (.teEmpty ⟨7, 11, 9, 0⟩)),
    (0x8b4802b, (.teSigAdd ⟨4, 11, 9, 0⟩)),
    (0xab4802b, (.teSigSub ⟨5, 11, 9, 0⟩)),
    (0xcb4802b, (.teSigSet ⟨6, 11, 9, 0⟩)),
    (0x204932b, (.tePoll ⟨1, 0, 9, 6⟩)),
    (0xe04a02b, (.teWinLo ⟨7, 0, 9, 0⟩)),
    (0x1a04a02b, (.teWinMid ⟨13, 0, 9, 0⟩)),
    (0x2e04a02b, (.teWinHi ⟨23, 0, 9, 0⟩)),
    (0x3e04a32b, (.teWinProbe ⟨31, 0, 9, 6⟩)),
    (0xb4b32b, (.teMbox ⟨0, 11, 9, 6⟩)),
    (0x4c32b, (.teCmd ⟨0, 0, 9, 6⟩)),
    (0x4d02b, (.teDone ⟨0, 0, 9, 0⟩)),
    (0x200632b, (.teGcyc ⟨1, 0, 0, 6⟩)),
    (0x1ab4f02b, (.teSave ⟨13, 11, 9, 0⟩))] : List (Nat × Instr)).all (fun p => decodeT p.1 = .ok p.2) = true := by decide
/-- The words without operands, and MOVI with its long immediate in the W position (R85). -/
theorem test_words_bare :
    decodeS false none 0x62000000 = .ok .ret ∧ decodeS false none 0x64000000 = .ok .lend ∧ decodeS false none 0x66000000 = .ok .endThread
    ∧ decodeW false (some 0x123456789A) 0x1D140000 = .ok (.moviLong ⟨5, 0, 0, some 0x123456789A⟩) := by decide

/-- RISC-V words as the public manual encodes them (R300): ADDI x5, x6, -1; LUI x1, 0x12345; JAL x1, 8; BEQ x1, x2, -4;
LW x3, 4(x2); SW x3, 8(x2); MUL and DIVU x5, x6, x7; FENCE; ECALL, which faults here; and compressed words: C.ADDI x8, 1;
C.LWSP x10, 0; C.MV x10, x11; C.JR x1; C.LI x10, 5. -/
theorem test_words_base :
    rvDecode 0xFFF30293 = .opImm .add 5 6 0xFFFFFFFF ∧ rvDecode 0x123450B7 = .lui 1 0x12345000 ∧ rvDecode 0x008000EF = .jal 1 8
    ∧ rvDecode 0xFE208EE3 = .branch .eq 1 2 0xFFFFFFFC ∧ rvDecode 0x00412183 = .load .w 3 2 4 ∧ rvDecode 0x00312423 = .store .w 2 3 8
    ∧ rvDecode 0x027302B3 = .op .mul 5 6 7 ∧ rvDecode 0x027352B3 = .op .divu 5 6 7 ∧ rvDecode 0x0000000F = .fence
    ∧ rvDecode 0x00000073 = .illegal ∧ rvDecode 0x0405 = .opImm .add 8 8 1 ∧ rvDecode 0x4502 = .load .w 10 2 0
    ∧ rvDecode 0x852E = .op .add 10 0 11 ∧ rvDecode 0x8082 = .jalr 0 1 0 ∧ rvDecode 0x4515 = .opImm .add 10 0 5 := by decide

/-- Every encoded word gives its instruction back with its guard (Table 3.9). -/
theorem test_round_trip :
    ([.add ⟨5, 9, 3, none⟩, .vfma ⟨6, 1, 2, 3, 4, 255, 0, none⟩, .ld ⟨5, 9, 65523, 4, 0, 0, 0⟩, .mwld ⟨9, 3, 1⟩, .fld ⟨5, 37, 36, 0⟩] : List Instr).all
      (fun i => (encode i 17).any (fun x => decode false (shape i).kind none x = .ok i && guardOf x = 17)) = true := by decide

/-! ## Ill-formed terms -/

/-- Refused terms: an address register 16 (R78), a vector register 48, a predicate 48, a privileged opcode on a compute core
(R89), a field that must be zero (R76), a channel 4, a type that no row takes (R79), a field beyond its width, and an event,
which no word encodes. -/
theorem test_ill_formed :
    ([.movaAA ⟨16, 3, 3, none⟩, .vadd ⟨2, 48, 1, 2, 0, 255, 0, none⟩, .cmpeq ⟨48, 1, 2, none⟩, .winset ⟨0, 8, 9, none⟩,
      .clz ⟨5, 9, 3, none⟩, .chpeek ⟨5, 4, 0, 0⟩, .vsin ⟨5, 5, 9, 0, 0, 255, 0, none⟩, .add ⟨64, 9, 3, none⟩, .ld ⟨5, 9, 65536, 4, 0, 0, 0⟩,
      .linkDeath] : List Instr).all (fun i => !WellFormed false i) = true := by decide

/-- The same terms with the fault mended are well formed; a matrix word is none on a service core (R89). -/
theorem test_well_formed :
    ([.movaAA ⟨15, 3, 3, none⟩, .vadd ⟨2, 47, 1, 2, 0, 255, 0, none⟩, .cmpeq ⟨47, 1, 2, none⟩, .clz ⟨5, 9, 0, none⟩,
      .chpeek ⟨5, 3, 0, 0⟩, .vsin ⟨6, 5, 9, 0, 0, 255, 0, none⟩, .add ⟨63, 9, 3, none⟩, .ld ⟨5, 9, 65535, 4, 0, 0, 0⟩] : List Instr).all
      (WellFormed false) = true ∧ WellFormed true (.winset ⟨0, 8, 9, none⟩) = true ∧ WellFormed true (.mwld ⟨9, 3, 1⟩) = false := by decide

/-! ## Single effects -/

/-- ADD wraps (R104): 7 + (2^64 - 1). -/
theorem test_add_wraps : lands (exec (.add ⟨20, 1, 2, none⟩) st) = [(101, .sreg 20 ⟨6, 0⟩, 0)] := by decide

/-- ADDI takes its imm6 as signed: 7 + (-1). -/
theorem test_addi_sign : lands (exec (.addi ⟨20, 1, 63, none⟩) st) = [(101, .sreg 20 ⟨6, 0⟩, 0)] := by decide

/-- MULH is signed: the high half of -7 is all ones; MULHN is not. -/
theorem test_mulh : lands (exec (.mulh ⟨20, 1, 2, none⟩) st) = [(101, .sreg 20 ⟨-1, 0⟩, 0)]
    ∧ lands (exec (.mulhn ⟨20, 1, 2, none⟩) st) = [(101, .sreg 20 ⟨6, 0⟩, 0)] := by decide

/-- DIV of -2^63 by -1 answers -2^63 four turns later; division by zero traps with 0x28 (R105). -/
theorem test_div_corners : lands (exec (.div ⟨20, 3, 2, none⟩) st) = [(104, .sreg 20 ⟨0x8000000000000000, 0⟩, 0)]
    ∧ lands (exec (.rem ⟨20, 3, 2, none⟩) st) = [(104, .sreg 20 ⟨0, 0⟩, 0)] ∧ traps (exec (.div ⟨20, 3, 0, none⟩) st) = some 0x28 := by decide

/-- SAR copies the sign; SHL takes its count modulo 64. -/
theorem test_shifts : lands (exec (.sar ⟨20, 3, 0, some 63⟩) st) = [(101, .sreg 20 ⟨-1, 0⟩, 0)]
    ∧ lands (exec (.shl ⟨20, 1, 0, some 65⟩) st) = [(101, .sreg 20 ⟨14, 0⟩, 0)] := by decide

/-- The last bit of the immediate is a sign for signed rows and none for unsigned ones (R99). -/
theorem test_immediate_extension : lands (exec (.cmplt ⟨1, 1, 0, some 0xFFFFFFFF⟩) st) = [(101, .preg 1 0 (BitVec.allOnes 128), 0)]
    ∧ lands (exec (.cmpltn ⟨1, 1, 0, some 0xFFFFFFFF⟩) st) = [(101, .preg 1 (BitVec.allOnes 128) (BitVec.allOnes 128), 0)] := by decide

/-- EXT of four bits from bit 28 of 0x3F800000, zero-extended (R106). -/
theorem test_ext : lands (exec (.ext ⟨20, 4, 0, some 0x314⟩) st) = [(101, .sreg 20 ⟨8, 0⟩, 0)] := by decide

/-- LEA beyond the scratchpad traps with 0x40 (R109). -/
theorem test_lea_range : traps (exec (.lea ⟨1, 10, 0, none⟩) st) = some 0x40 ∧ traps (exec (.lea ⟨1, 9, 0, none⟩) st) = none := by decide

/-- 1.0 + 2.0 = 3.0; infinity less infinity raises NV and gives the canonical NaN (R54, R113). -/
theorem test_fadd : lands (exec (.faddF32 ⟨20, 4, 5, none⟩) st) = [(101, .sreg 20 ⟨0x40400000, 0⟩, 0)]
    ∧ lands (exec (.fsubF32 ⟨20, 7, 7, none⟩) st) = [(101, .sreg 20 ⟨0x7FC00000, 0⟩, fNV)] := by decide

/-- FCMPLT of a quiet NaN is false and raises NV; FCMPEQ raises none (R69). -/
theorem test_fcmp_nan : lands (exec (.fcmpltF32 ⟨1, 6, 4, none⟩) st) = [(101, .preg 1 0 (BitVec.allOnes 128), fNV)]
    ∧ lands (exec (.fcmpeqF32 ⟨1, 6, 4, none⟩) st) = [(101, .preg 1 0 (BitVec.allOnes 128), 0)] := by decide

/-- FDIV of 1.0 by 0.0 raises DZ (R54). -/
theorem test_fdiv_zero : lands (exec (.fdivF32 ⟨20, 4, 0, none⟩) st) = [(104, .sreg 20 ⟨0x7F800000, 0⟩, fDZ)] := by decide

/-- LOOP names 1 to 16 stages (R120). -/
theorem test_loop_stages : traps (exec (.loopRegister ⟨0, 1, 0, none⟩) st) = some 0x02 ∧ traps (exec (.loopRegister ⟨17, 1, 0, none⟩) st) = some 0x02
    ∧ traps (exec (.loopRegister ⟨16, 1, 0, none⟩) st) = none := by decide

/-- TRAP 15 raises cause 0x1F (R119). -/
theorem test_trap : traps (exec (.trap ⟨0, 0, 15, none⟩) st) = some 0x1F := by decide

/-- VADD.s8.sat of lane 0 in cluster 0 alone: bytes 0x7F+0x01 saturates to 0x7F, 0x80+0xFF saturates to 0x80, 1+3, 2+3. -/
theorem test_vadd_saturates :
    lands (exec (.vadd ⟨0, 3, 1, 2, 0, 1, 1, none⟩) { st with cur := { st.cur with g := 1 } }) =
      [(101, .lanes 3 [(0, ⟨0x7F800405, 0⟩), (2, ⟨0, 0⟩)], 0)] := by decide

/-- VSEL under mask 0 acts on no lane. -/
theorem test_vsel_masked : lands (exec (.vsel ⟨0, 3, 1, 2, 1, 0, 0, none⟩) st) = [(101, .lanes 3 [], 0)] := by decide

/-- Four bytes in the scratchpad, 0xFE at 0x100 of core 17. -/
def mem4 : State := { st with mem := [⟨0x3000002200100, 0xFE⟩, ⟨0x3000002200101, 0xFF⟩, ⟨0x3000002200102, 0x01⟩, ⟨0x3000002200103, 0x80⟩] }

/-- LD sign-extends an s16 and zero-extends a u16 (Table 4.11); an odd address traps with 0x41, one at the end with 0x40 (R123). -/
theorem test_ld : lands (exec (.ld ⟨20, 8, 0, 2, 0, 0, 0⟩) mem4) = [(102, .sreg 20 ⟨0xFFFFFFFFFFFFFFFE, 0⟩, 0)]
    ∧ lands (exec (.ld ⟨20, 8, 0, 3, 0, 0, 0⟩) mem4) = [(102, .sreg 20 ⟨0xFFFE, 0⟩, 0)]
    ∧ traps (exec (.ld ⟨20, 1, 0, 2, 0, 0, 0⟩) mem4) = some 0x41 ∧ traps (exec (.ld ⟨20, 10, 0, 2, 0, 0, 0⟩) mem4) = some 0x40 := by decide

/-- ST writes its low bytes, the first at the lowest address (R3), four cycles after its issue (R124); a zero byte leaves the list. -/
theorem test_st : after (exec (.st ⟨8, 8, 1, 2, 0, 0, 0⟩) mem4) (fun t => (t.mem.map Prod.snd, ((settled t 17).mem.map Prod.snd))) = some ([0xFE, 0xFF, 0x01, 0x80], [0xFE, 0xFF, 0x01]) := by decide

/-- ATOM.add.u32 answers the old word and stores the sum (R131). -/
theorem test_atom : lands (exec (.atom ⟨1, 8, 0, 5, 0, 0, 0⟩) mem4) = [(102, .sreg 1 ⟨0x8001FFFE, 0⟩, 0)]
    ∧ after (exec (.atom ⟨1, 8, 0, 5, 0, 0, 0⟩) mem4) (fun t => getNat (settled t 17) 0x3000002200100 4) = some 0x80020005 := by decide

/-- LDF blocks on an empty word and takes a full one (R247). -/
theorem test_ldf : blocks (exec (.ldf ⟨20, 8, 0, 4, 0, 0, 0⟩) { mem4 with empty := [(0x3000002200100 / 4, true)] }) = true
    ∧ lands (exec (.ldfTake ⟨20, 8, 0, 5, 0, 0, 0⟩) mem4) = [(102, .sreg 20 ⟨0x8001FFFE, 0⟩, 0)]
    ∧ after (exec (.ldfTake ⟨20, 8, 0, 5, 0, 0, 0⟩) mem4) (fun t => isFull (settled t 17) 0x3000002200102) = some false := by decide

/-- A semaphore at its limit traps with 0xA2 (R190); one below its threshold blocks. -/
theorem test_semaphores :
    let s := { st with cores := [(17, { threads := [(0, { scal with sregs := [(1, ⟨0x10003, 0⟩)] })], sems := [(3, 0xFFFF)] })] }
    traps (exec (.semsigAdd ⟨0, 1, 0, 0⟩) s) = some 0xA2 ∧ blocks (exec (.semwait ⟨0, 1, 2, 0⟩) s) = false
    ∧ after (exec (.semsigSub ⟨0, 1, 0, 0⟩) s) (fun t => sem t 17 3) = some 0xFFFE := by decide

/-- RINGSET.def of two slots of 64 bytes at 0x100; a slot size of zero traps with 0x86 (R282). -/
theorem test_ringset :
    let s := one { scal with sregs := [(1, ⟨0x10001000100, 0⟩), (2, ⟨0x100, 0⟩)] }
    after (exec (.ringsetDef ⟨1, 0, 3⟩) s) (fun t => ring (engine t 17) 3) = some { base := 0x100, nslot := 2, slotb := 64, head := 0, tail := 0 }
    ∧ traps (exec (.ringsetDef ⟨2, 0, 3⟩) s) = some 0x86 := by decide

/-- FENCE with nothing outstanding goes on; NXT outside a gang answers no item after six turns (R188). -/
theorem test_fence_nxt : blocks (exec (.fence ⟨0, 0, 0, 0⟩) st) = false
    ∧ lands (exec (.nxt ⟨20, 0, 0, 0⟩) st) = [(106, .sreg 20 ⟨-1, 0⟩, 0)] := by decide

/-- A tephra core: ADDI x5, x6, -1; a word load at an odd address faults with 0x85 (R300). -/
def tc (te : Tephra) (rv : Rv) : State :=
  { State.reset with cores := [(17, { tes := [(0, te)] })], cur := { core := 17, slot := 8, rv := rv, rvLen := 4 } }

theorem test_tephra_base :
    after (exec .tephraBaseInstruction (tc { x := [(6, 3)], pc := 8 } (.opImm .add 5 6 0xFFFFFFFF))) (fun t => (getX (myTe t) 5, (myTe t).pc)) = some (2, 12)
    ∧ after (exec .tephraBaseInstruction (tc { x := [(6, 0x10001)] } (.load .w 5 6 0))) (fun t => (myTe t).fault) = some 0x85 := by decide

/-- A tephra store and the byte order of its data memory. -/
theorem test_tephra_store :
    after (exec .tephraBaseInstruction (tc { x := [(6, 0x10000), (7, 0x12345678)] } (.store .h 6 7 2))) (fun t => (myTe t).dmem) =
      some [(0x10002, 0x78), (0x10003, 0x56)] := by decide

/-- The host writes TAIL of queue 3 after bring-up (Table 17.4). -/
theorem test_tail : after (exec .writeTail { State.reset with board := { step := 5 }, cur := { args := [3, 9] } }) (fun t => ((queue t 3).tail, (queue t 2).tail))
    = some (9, 0) := by decide

/-- A word of the table placed where the next step fetches: ADD s5, s9, s3 runs, and the thread goes on at the segment's NEXT. -/
theorem test_step_runs_a_word :
    after (step (State.reset.withFetchWord 32 0x011490C0)) (fun t => ((thread t 0 0).next, (thread t 0 0).lands.map (fun l => l.act))) =
      some (32 * 0xFFFFFF, [.sreg 5 ⟨0, 0⟩]) := by decide


/-! ## Witnesses: states and operands that meet the hypotheses of the statements

One theorem for a statement; its parts follow the statement's clauses, at the ends of the ranges where clauses meet. -/

/-- No poison, no poisoned byte. -/
theorem clean_of_empty {s : State} (h : s.poison = []) (a n : Nat) : Clean s a n := by
  intro x _ _
  unfold isPoison
  rw [h]
  rfl

/-- With no access under way on the thread port, an access finds memory as it is. -/
theorem found_of_idle {s : State} (h : (Machine.core s s.cur.core).port = []) : Machine.found s = s := by
  unfold Machine.found settled
  rw [h]
  rfl

theorem seen_of_plain {s : State} (h : s.pages = []) (p : s.poison = []) (g : s.gangs = []) (k n : Nat) : SeenAt s k n := by
  intro x _ _
  have hr : pageRec s x = plainPage := by unfold pageRec; rw [h]; split <;> rfl
  have hp : isPoison s x = false := by unfold isPoison; rw [p]; rfl
  refine ⟨?_, by rw [hr]; decide⟩
  unfold visByte memByte
  simp only [hr, hp, g]
  rfl

theorem witness_IntegerArithmeticAndBits :
    (immFits ⟨5, 1, 63, none⟩ ∧ (63 : Nat) < 64) ∧ (immFits ⟨5, 1, 0, some 0xFFFFFFFF⟩ ∧ (0 : Nat) < 64 ∧ (some 0xFFFFFFFF : Option Nat).isSome = true) := by
  unfold immFits; decide

theorem witness_Divisions :
    (immFits ⟨5, 3, 2, none⟩ ∧ opnd st ⟨5, 3, 2, none⟩ true ≠ 0 ∧ (body st 3).toInt = -2 ^ 63 ∧ (opnd st ⟨5, 3, 2, none⟩ true).toInt = -1)
    ∧ (immFits ⟨5, 3, 0, some 1⟩ ∧ opnd st ⟨5, 3, 0, some 1⟩ true ≠ 0 ∧ opnd st ⟨5, 3, 0, some 1⟩ false ≠ 0)
    ∧ (immFits ⟨63, 63, 0, none⟩ ∧ opnd st ⟨63, 63, 0, none⟩ true = 0 ∧ opnd st ⟨63, 63, 0, none⟩ false = 0 ∧ (63 : Nat) < 64) := by
  unfold immFits; decide

theorem witness_MovesFieldsAndAddresses :
    (immFits ⟨63, 63, 63, none⟩ ∧ (63 : Nat) < 64 ∧ immFits ⟨63, 63, 0, some 0xFFFFFFFF⟩)
    -- LEA: beyond the scratchpad, outside the fabric, inside
    ∧ (immFits ⟨1, 10, 0, none⟩ ∧ 0x1FFFFF < (body st 10).toNat)
    ∧ (immFits ⟨1, 9, 0, some 0x1E⟩ ∧ (body st 9).toNat = 0x1FFFFF
        ∧ (colOf 17 : Int) + (BitVec.ofNat 5 (opnd st ⟨1, 9, 0, some 0x1E⟩ true).toNat).toInt < 0)
    ∧ (immFits ⟨1, 9, 0, some 0⟩ ∧ st.node < 1024 ∧ st.cur.core < 528 ∧ (colOf 17 : Int) = 1 ∧ rowOf 17 = 1)
    -- ADDA: a virtual address that stays one or becomes a mesh address, a mesh address at and beyond its end
    ∧ (isMesh (areg st 1) = false ∧ isMesh (areg st 1 + (opnd st ⟨1, 1, 0, some 8⟩ true).signExtend 72) = false)
    ∧ (isMesh (areg st 3) = false ∧ isMesh (areg st 3 + (opnd st ⟨1, 3, 0, some 1⟩ true).signExtend 72) = true)
    ∧ (isMesh (areg st 2) = true ∧ (meshOfs (areg st 2) : Int) + (opnd st ⟨1, 2, 0, some 0x1FFEFF⟩ true).toInt = 0x1FFFFF)
    ∧ (isMesh (areg st 2) = true ∧ (meshOfs (areg st 2) : Int) + (opnd st ⟨1, 2, 0, some 0x1FFF00⟩ true).toInt = 0x200000) := by
  unfold immFits; decide

theorem witness_ComparesAndPredicates : immFits ⟨1, 1, 0, some 0xFFFFFFFF⟩ ∧ immFits ⟨1, 1, 2, none⟩ ∧ (127 : Nat) < 128 := by
  unfold immFits; decide

/-- Operands of every kind in FP32: numbers, zero, both NaNs, an infinity. -/
theorem witness_ScalarFloatingArithmetic :
    immFits ⟨20, 4, 5, none⟩ ∧ Finite (valA st .f32 ⟨20, 4, 0, none⟩) ∧ Finite (valB st .f32 ⟨20, 4, 5, none⟩) ∧ Finite (valB st .f32 ⟨20, 4, 0, none⟩)
    ∧ ratOf (valB st .f32 ⟨20, 4, 0, none⟩) = 0 ∧ ratOf (valA st .f32 ⟨20, 4, 0, none⟩) = 1
    ∧ someNan (valA st .f32 ⟨20, 6, 4, none⟩) (valB st .f32 ⟨20, 6, 4, none⟩) ∧ valA st .f32 ⟨20, 11, 4, none⟩ = .nan true
    ∧ valA st .f32 ⟨20, 7, 7, none⟩ = .inf false ∧ valB st .f32 ⟨20, 7, 7, none⟩ = .inf false
    ∧ ¬ someNan (valA st .f32 ⟨20, 4, 5, none⟩) (valB st .f32 ⟨20, 4, 5, none⟩) ∧ Made .f32 (heldS st .f32 4) ∧ Made .f32 (heldS st .f32 7) := by
  refine ⟨by unfold immFits; decide, ⟨false, 0x2000000, -25, by decide⟩, ⟨false, 0x2000000, -24, by decide⟩, ⟨false, 0, -151, by decide⟩, ?_, ?_,
    Or.inl ⟨false, by decide⟩, by decide, by decide, by decide, ?_, by unfold Made; decide, by unfold Made; decide⟩
  · rw [show valB st .f32 ⟨20, 4, 0, none⟩ = .fin false 0 (-151) by decide]; norm_num [ratOf]
  · rw [show valA st .f32 ⟨20, 4, 0, none⟩ = .fin false 0x2000000 (-25) by decide]; norm_num [ratOf]
  · rintro (⟨b, h⟩ | ⟨b, h⟩) <;> revert h <;> cases b <;> decide

theorem witness_FusedMultiplyAddMergesAtItsLanding :
    (valA st .f32 ⟨20, 7, 0, none⟩ = .inf false ∧ valB st .f32 ⟨20, 7, 0, none⟩ = .fin false 0 (-151))
    ∧ valA st .f32 ⟨20, 11, 4, none⟩ = .nan true ∧ valA st .f32 ⟨20, 4, 5, none⟩ = .fin false 0x2000000 (-25)
    ∧ physS (me st) 20 ≠ 0
    ∧ ({ due := 101, issued := 100, pos := 0, act := .fma 20 .f32 (heldS st .f32 4) (heldS st .f32 5) st.cur.cvp, flags := 0 } : Landing).act
        = .fma (physS (me st) 20) .f32 (heldS st .f32 4) (heldS st .f32 5) st.cur.cvp := by decide

theorem witness_ScalarConversionsAndSettling :
    (fmtOf 8 = some .bf16 ∧ fmtOf 6 = some .f32 ∧ intOf 0 = some (8, true) ∧ intOf 12 = some (64, false))
    ∧ (valA st .f32 ⟨20, 6, 4, none⟩ = .nan false ∧ valA st .f32 ⟨20, 7, 4, none⟩ = .inf false ∧ valA st .f32 ⟨20, 4, 4, none⟩ = .fin false 0x2000000 (-25))
    ∧ (Fmt.f32.isNan (heldS st .f32 6).body = true ∧ Fmt.f32.isInf (heldS st .f32 7).body = true)
    ∧ (Fmt.f32.isNan (heldS st .f32 4).body = false ∧ Fmt.f32.isInf (heldS st .f32 4).body = false ∧ (heldS st .f32 4).code .f32 < Fmt.f32.ovfCode)
    ∧ (heldS (one { scal with sregs := [(13, ⟨0x7F7FFFFF, 3⟩)] }) .f32 13).code .f32 = Fmt.f32.ovfCode := by decide

theorem witness_HeldValuesRoundToOdd :
    (0x7F7FFFFF < 2 ^ Fmt.f32.width ∧ (3 : Nat) < 4 ∧ Fmt.f32.isNan 0x7F7FFFFF = false ∧ Fmt.f32.isInf 0x7F7FFFFF = false
      ∧ (⟨0x7F7FFFFF, 3⟩ : Held).code .f32 = Fmt.f32.ovfCode)
    ∧ (Fmt.f32.isInf 0xFF800000 = true ∧ Fmt.f32.isNan 0xFFC00000 = true)
    ∧ Held.val .f32 ⟨0x00000001, 0⟩ = .fin false 4 (-151)
    ∧ roCode .f32 3 (-151) false ≤ Fmt.f32.ovfCode ∧ (hold .f32 (.fin true 3 (-151) false)).code .f32 + 1 ≤ Fmt.f32.ovfCode := by decide

theorem witness_ZeroRegistersReadConstantAndDiscardWrites :
    ((63 : Nat) < 64 ∧ (47 : Nat) < 48)
    ∧ writesS 0 { due := 1, issued := 0, pos := 0, act := .sreg 0 ⟨7, 0⟩, flags := 0 } = true
    ∧ ({ due := 1, issued := 0, pos := 0, act := .preg 0 0 5, flags := 0 } : Landing).act = .preg 0 0 5
    ∧ (writesOf 0 48 (.add ⟨5, 1, 2, none⟩)).length = 1 := by decide

theorem witness_RegisterInstructionsOnlyAddLandings :
    landsOnly (.add ⟨20, 1, 2, none⟩) = true ∧ landsOnly (.vred ⟨2, 1, 2, 0, 0, 255, 0, none⟩) = true ∧ landsOnly (.fill ⟨1, 8, 0, 0, 1, 0, 0⟩) = true
    ∧ (∃ t, exec (.add ⟨20, 1, 2, none⟩) st = .next t ∧ t.cur.trap = none) ∧ InIssueOrder (me st).lands :=
  ⟨by decide, by decide, by decide, ⟨_, rfl, by decide⟩, List.Pairwise.nil⟩

theorem witness_LandingsArriveInOrderAfterTheirLatency :
    let l : Landing := { due := 100, issued := 98, pos := 0, act := .sreg 5 ⟨9, 0⟩, flags := 0 }
    let m : Landing := { due := 101, issued := 97, pos := 0, act := .sreg 5 ⟨8, 0⟩, flags := 0 }
    let s := one { scal with lands := [m, l] }
    let a : Landing := { due := 100, issued := 98, pos := 0, act := .areg 3 5, flags := 0 }
    let p : Landing := { due := 100, issued := 98, pos := 0, act := .preg 2 4 4, flags := 0 }
    let v : Landing := { due := 100, issued := 99, pos := 0, act := .lanes 4 [(127, ⟨9, 0⟩)], flags := 0 }
    -- an address register, a bit of a predicate register, the last lane of a vector register; on a service core too
    ((thread (one { scal with lands := [a, p, v] }) 17 0).lands.filter (fun x => x.due ≤ 100) = [] ++ a :: [p, v] ∧ a.act = .areg 3 5
      ∧ [p, v].all (fun x => !writesA 3 x) = true ∧ [a] ++ p :: [v] = [a, p, v] ∧ p.act = .preg 2 4 4 ∧ (4 : Pred).getLsbD 2 = true ∧ [v].all (fun x => !writesP 2 2 x) = true
      ∧ [a, p] ++ v :: [] = [a, p, v] ∧ ([(127, ⟨9, 0⟩)] : List (Nat × Lane)).map Prod.fst = [127] ∧ (127 : Nat) < 128
      ∧ [a, p, v].all (fun y => !writesV 4 126 y) = true ∧ isSvc 512 = true ∧ [a, p, v].all (fun x => !isSys x) = true)
    ∧ (isSvc 17 = false ∧ (thread s 17 0).lands.filter (fun x => x.due ≤ 100) = [] ++ l :: [] ∧ l.act = .sreg 5 ⟨9, 0⟩ ∧ (5 : Nat) ≠ 0
      ∧ ([] : List Landing).all (fun x => !writesS 5 x) = true ∧ [l].all (fun x => !writesS 6 x) = true)
    ∧ (isSvc st.cur.core = false ∧ (0 : Nat) < 63 ∧ (63 : Nat) < 64 ∧ (0 : Nat) < 4 ∧ (me st).lands = []) := by decide

theorem witness_TrapsEnterTheHandlerOrHalt :
    let v : State := { st with cores := [(17, { threads := [(0, { scal with hact := true }), (7, scal)], trapv := [(causeClass 0x1F, 4)] }), (512, { threads := [(7, scal)] })] }
    ((0x1F : Nat) < 256 ∧ v.node < 1024 ∧ (17 : Nat) < 528 ∧ (7 : Nat) < 8)
    ∧ ((thread v 17 7).hact = false ∧ tfind (Machine.core v 17).trapv (causeClass 0x1F) = some 4)
    ∧ ((thread v 17 7).hact = false ∧ tfind (Machine.core v 17).trapv (causeClass 0x40) = none ∧ isSvc 17 = false)
    ∧ ((thread v 17 0).hact = true ∧ isSvc 17 = false)
    ∧ ((thread v 512 7).hact = false ∧ tfind (Machine.core v 512).trapv (causeClass 0x40) = none ∧ isSvc 512 = true) := by decide

/-- A thread whose current half holds a segment of two bundles at 0x40, at its first bundle or at its last. -/
def held (n : Nat) : State :=
  let s := one { scal with half0 := some { seg := 2, next := 5, len := 2, bundles := none, left := 0 } }
  { s with cur := { s.cur with addr := 64 + n } }

theorem witness_ControlTransfersChooseTheNextBundle :
    (0x1FFFFFFF < 2 ^ 29 ∧ (15 : Nat) < 16)
    ∧ (halfOf (me (held 0)) (me (held 0)).curHalf = some { seg := 2, next := 5, len := 2, bundles := none, left := 0 } ∧ (held 0).cur.addr % 32 + 1 < 2)
    ∧ (halfOf (me (held 1)) (me (held 1)).curHalf = some { seg := 2, next := 5, len := 2, bundles := none, left := 0 } ∧ 2 ≤ (held 1).cur.addr % 32 + 1) := by decide

theorem witness_LoopsPushAndPopTheLoopStack :
    let deep := one { scal with lsd := 6 }
    (isSvc st.cur.core = false ∧ (me st).lands = [] ∧ (me st).lsd = 0 ∧ (me st).nv = 48)
    ∧ (isSvc deep.cur.core = false ∧ (me deep).lands = [] ∧ (me deep).lsd = 6)
    ∧ ((17 : Nat) > 16 ∧ (16 : Nat) ≤ 16 ∧ (2 ^ 29 : Nat) ≤ 2 ^ 29 ∧ (⟨16, 0, 0, some (2 ^ 29)⟩ : SWord).imm = some (2 ^ 29)) := by decide

theorem witness_PinsSystemRegistersAndGates :
    let s := one { scal with nv := 48, lsd := 2, sregs := [(1, ⟨31, 0⟩), (2, ⟨32, 0⟩), (3, ⟨2, 0⟩), (4, ⟨3, 0⟩), (5, ⟨0xF1F1F, 0⟩)] }
    let d : State := { State.reset with cores := [(512, { svc := { dbgBusy := true } })], cur := { core := 512 } }
    let far : State := one { scal with half0 := some { seg := 2, next := 0x40000, len := 2, bundles := none, left := 0 } }
    (halfOf (me (held 0)) (me (held 0)).curHalf = some { seg := 2, next := 5, len := 2, bundles := none, left := 0 } ∧ (held 0).cur.addr % 32 + 2 + 0 ≤ 2)
    ∧ (halfOf (me far) (me far).curHalf = some { seg := 2, next := 0x40000, len := 2, bundles := none, left := 0 } ∧ 2 < far.cur.addr % 32 + 2 + 1)
    -- a second segment that is as long as is asked, and one that is shorter
    ∧ (let two := fun (m : List Host.Cell) => { one { scal with half0 := some { seg := 2, next := 8, len := 2, bundles := none, left := 0 } } with
          mem := m, cur := { st.cur with addr := 65 } }
      let n := fun (m : List Host.Cell) => min ((getByte (two m) (codeStore 17 + 8)).toNat % 64) 32
      (two []).cur.addr % 32 < 2 ∧ 2 < (two []).cur.addr % 32 + 2 + 1 ∧ 8 < 0x40000 ∧ n [] < 1 + 2 + 1 - 2 ∧ 1 + 2 + 1 - 2 ≤ n [⟨codeStore 17 + 8, 2⟩])
    ∧ ((sysValues s).any (fun p => p.1 = 64 * 0 + 18) = true ∧ 64 * 0 + 37 = 0x020 + 5 ∧ ((sysAccepts s 5).map Prod.fst).contains (64 * 32 + 1) = true
        ∧ isSvc d.cur.core = true ∧ (myCore d).svc.inbox = [] ∧ (me d).lands = [])
    ∧ (64 * 0 + 18 ≠ 0x806 ∧ 64 * 32 + 6 = 0x806 ∧ (myCore d).svc.dbgBusy = true ∧ (myCore State.reset).svc.dbgBusy = false)
    ∧ (64 * 0 + 16 = 0x010 ∧ (body s 1).toNat < 32 ∧ 32 ≤ (body s 2).toNat)
    ∧ (64 * 0 + 25 = 0x019 ∧ (body s 3).toNat ≤ (me s).lsd ∧ (me s).lsd < (body s 4).toNat)
    ∧ (16 < (me s).nv ∧ (body s 5).toNat / 256 % 32 < (me s).nv - 16 ∧ isSvc s.cur.core = false ∧ (me s).lands = [])
    ∧ ((body s 0).toNat ≤ s.gcyc ∧ s.gcyc < (body s 1).toNat) := by decide

theorem witness_VectorIntegersAndBits :
    (5 : Nat) ≤ 5 ∧ (⟨5, 3, 1, 2, 0, 255, 1, none⟩ : VWord).md = 1 ∧ (⟨1, 3, 1, 2, 4, 255, 0, none⟩ : VWord).ty ≤ 1 ∧ On st ⟨2, 3, 1, 2, 0, 255, 0, none⟩ 127 := by
  unfold On; decide

/-- Lanes of FP32: 1.0, a quiet and a signalling NaN, both infinities, zero, −1.0, a quarter, three quarters, a half. -/
def fl : State :=
  one { scal with vregs := [(0x3F800000, 0), (0x7FC00000, 1), (0x7F800001, 2), (0x7F800000, 3), (0xFF800000, 4), (0, 5), (0xBF800000, 6),
    (0x3E800000, 7), (0x3F400000, 8), (0x3F000000, 9)].map (fun p => (128 + p.2, { data := BitVec.ofNat 32 p.1, tail := 0 })) }

theorem fl_lanes :
    (eltHeldAt .f32 0 (vlane fl 1 0)).val .f32 = .fin false 0x2000000 (-25) ∧ (eltHeldAt .f32 0 (vlane fl 1 1)).val .f32 = .nan false
    ∧ (eltHeldAt .f32 0 (vlane fl 1 2)).val .f32 = .nan true ∧ (eltHeldAt .f32 0 (vlane fl 1 3)).val .f32 = .inf false
    ∧ (eltHeldAt .f32 0 (vlane fl 1 4)).val .f32 = .inf true ∧ (eltHeldAt .f32 0 (vlane fl 1 5)).val .f32 = .fin false 0 (-151)
    ∧ (eltHeldAt .f32 0 (vlane fl 1 6)).val .f32 = .fin true 0x2000000 (-25) ∧ (eltHeldAt .f32 0 (vlane fl 1 7)).val .f32 = .fin false 0x2000000 (-27)
    ∧ (eltHeldAt .f32 0 (vlane fl 1 8)).val .f32 = .fin false 0x3000000 (-26) ∧ (eltHeldAt .f32 0 (vlane fl 1 9)).val .f32 = .fin false 0x2000000 (-26) := by decide

theorem witness_VectorFloatingArithmetic :
    (fmtOf 10 = some .e5m2 ∧ (10 : Nat) ≤ 10 ∧ fmtOf 6 = some .f32)
    ∧ (Finite ((eltHeldAt .f32 0 (vlane fl 1 0)).val .f32) ∧ ratOf ((eltHeldAt .f32 0 (vlane fl 1 0)).val .f32) = ((1 : Int) : ℚ)
      ∧ ratOf ((eltHeldAt .f32 0 (vlane fl 1 0)).val .f32) = (2 : ℚ) ^ (0 : Int))
    ∧ ratOf ((eltHeldAt .f32 0 (vlane fl 1 5)).val .f32) = 0 ∧ ratOf ((eltHeldAt .f32 0 (vlane fl 1 6)).val .f32) < 0
    ∧ ratOf ((eltHeldAt .f32 0 (vlane fl 1 7)).val .f32) = ((0 : Int) : ℚ) + 1 / 4 ∧ ratOf ((eltHeldAt .f32 0 (vlane fl 1 8)).val .f32) = ((0 : Int) : ℚ) + 3 / 4
    ∧ ratOf ((eltHeldAt .f32 0 (vlane fl 1 9)).val .f32) = ((0 : Int) : ℚ) + 1 / 2 := by
  obtain ⟨h0, -, -, -, -, h5, h6, h7, h8, h9⟩ := fl_lanes
  rw [h0, h5, h6, h7, h8, h9]
  refine ⟨by decide, ⟨⟨_, _, _, rfl⟩, ?_, ?_⟩, ?_, ?_, ?_, ?_, ?_⟩ <;> norm_num [ratOf]

theorem witness_VectorChoicesComparesAndClasses :
    (fmtOf 6 = some .f32 ∧ (6 : Nat) ≤ 10 ∧ 2 ≤ Fmt.f32.width / 8)
    ∧ someNan ((eltHeldAt .f32 0 (vlane fl 1 1)).val .f32) ((eltHeldAt .f32 0 (vlane fl 1 0)).val .f32)
    ∧ (Fmt.f32.isNan (eltHeldAt .f32 0 (vlane fl 1 1)).body = true ∧ Fmt.f32.isNan (eltHeldAt .f32 0 (vlane fl 1 0)).body = false)
    ∧ ¬ someNan ((eltHeldAt .f32 0 (vlane fl 1 0)).val .f32) ((eltHeldAt .f32 0 (vlane fl 1 3)).val .f32)
    ∧ Made .f32 (eltHeldAt .f32 0 (vlane fl 1 0)) ∧ Made .f32 (eltHeldAt .f32 0 (vlane fl 1 3))
    ∧ ((eltHeldAt .f32 0 (vlane fl 1 0)).tail = 0 ∧ (eltHeldAt .f32 0 (vlane fl 1 0)).code .f32 < Fmt.f32.ovfCode)
    ∧ (29 % 8 ≤ 5 ∧ 29 / 8 < 32 / tyBits 0 ∧ 6 % 8 ≤ 6 ∧ 6 / 8 < 32 / Fmt.f32.width) := by
  refine ⟨by decide, Or.inl ⟨false, by decide⟩, by decide, ?_, by unfold Made; decide, by unfold Made; decide, by decide, by decide⟩
  rintro (⟨b, h⟩ | ⟨b, h⟩) <;> revert h <;> cases b <;> decide

theorem witness_VectorMovesAndShuffles :
    On st ⟨0, 3, 1, 15, 7, 0x80, 0, none⟩ (16 * (7 % 8) + 15 % 16) ∧ ¬ On st ⟨0, 3, 1, 15, 7, 0x7F, 0, none⟩ (16 * (7 % 8) + 15 % 16)
    ∧ (getP (me st) 1).getLsbD (16 * (2 / 16) + 2) = true ∧ ((List.range 2).filter (fun i => (getP (me st) 1).getLsbD (16 * (1 / 16) + i))).length = 1 % 16
    ∧ 15 / 8 = 1 ∧ 23 / 8 = 2 := by
  unfold On; decide

theorem witness_VectorConversions :
    -- to a narrower float, from an integer to a float of its width, between integers, from a float to a wider integer
    (8 ≤ 10 ∧ 6 ≤ 10 ∧ tyBits 6 = 2 * tyBits 8 ∧ 6 / 16 ≤ 1 ∧ fmtOf 6 = some .f32 ∧ fmtOf 8 = some .bf16)
    ∧ (tyBits 4 = tyBits 6 ∧ 4 ≤ 5 ∧ fmtOf 6 = some .f32) ∧ (tyBits 2 = 2 * tyBits 0 ∧ 0 ≤ 5 ∧ 2 ≤ 5)
    ∧ (tyBits 4 = 2 * tyBits 8 ∧ 24 % 16 = 8 ∧ 24 / 16 ≤ 1 ∧ fmtOf 8 = some .bf16) ∧ On st ⟨4, 3, 1, 0, 0, 255, 24, none⟩ 0
    ∧ (eltHeldAt .f32 0 (vlane fl 1 1)).val .f32 = .nan false ∧ (eltHeldAt .f32 0 (vlane fl 1 3)).val .f32 = .inf false
    ∧ (eltHeldAt .f32 0 (vlane fl 1 0)).val .f32 = .fin false 0x2000000 (-25) := by
  unfold On; decide

theorem witness_VectorReductionsAndScans :
    (5 ≤ 5 ∧ 25 % 16 = 9 ∧ On st ⟨5, 3, 1, 0, 0, 255, 25, none⟩ 0) ∧ (1 ≤ 4 ∧ 4 ≤ 4 ∧ (16 : Nat) + 9 = 25)
    -- one acting lane with a signalling NaN, and two lanes
    ∧ ([(⟨0x7F800001, 0⟩ : Held)].length = 1 ∧ Fmt.f32.isSnan 0x7F800001 = true ∧ Fmt.f32.isNan 0x3F800000 = false ∧ Made .f32 ⟨0x3F800000, 0⟩
        ∧ runSum st.cur.cvp .f32 [] = none ∧ runSum st.cur.cvp .f32 [⟨0x3F800000, 0⟩] = some ⟨0x3F800000, 0⟩) ∧ (fmtOf 6 = some .f32 ∧ 6 ≤ 10)
    ∧ sumTree st.cur.cvp .f32 (fun i => if i = 0 then some ⟨0x3F800000, 0⟩ else none) 4 0 = some ⟨0x3F800000, 0⟩ := by
  unfold On Made; decide

theorem witness_RandomWordsAndBlockImages :
    (5 < 6 ∧ 15 < 16 ∧ 15 % 8 = 7 ∧ 14 % 8 = 6 ∧ On fl ⟨6, 3, 1, 2, 0, 255, 0, none⟩ (16 * 7))
    ∧ Fmt.f32.isNan (eltHeldAt .f32 0 (vlane fl 1 1)).body = true
    ∧ (∀ j < 32, Fmt.f32.isNan (eltHeldAt .f32 0 (vlane fl (if j < 16 then 1 else 2) (16 * 1 + j % 16))).body = false)
    ∧ Held.val .e4m3 ⟨0x38, 0⟩ = .fin false 32 (-5) ∧ Held.val .e5m2 ⟨0x7C, 0⟩ = .inf false := by
  unfold On; decide

/-- The scratchpad offset 0x100, a poisoned bank word there, the context region closed. -/
def bad : State := { st with poison := [(0x3000002200100, true)] }
def closed : State := { st with cores := [(17, { threads := [(0, scal)], pre := true })] }

theorem witness_LocalAccesses :
    (¬ (0 ≤ ea st 10 0 16 4 ∧ ea st 10 0 16 4 + 4 ≤ scratchLimit st.cur.core))
    ∧ ((0 ≤ ea st 1 0 16 4 ∧ ea st 1 0 16 4 + 4 ≤ scratchLimit st.cur.core) ∧ ea st 1 0 16 4 % 4 ≠ 0)
    ∧ (ea closed 12 0 16 4 + 4 ≤ scratchLimit closed.cur.core ∧ ea closed 12 0 16 4 % 4 = 0 ∧ (Machine.core closed closed.cur.core).pre = true
        ∧ isSvc closed.cur.core = false ∧ 0x1C0000 < ea closed 12 0 16 4 + 4)
    ∧ (Reachable bad (ea bad 8 0 16 4) 4 4 ∧ ¬ Clean bad (at_ bad (ea bad 8 0 16 4)) 4)
    ∧ ((13 : Nat) ≤ 13 ∧ fmtOf 13 = some .f64 ∧ fmtOf 12 = none ∧ Reachable st (ea st 12 7 16 8) 8 8 ∧ Clean st (at_ st (ea st 12 7 16 8)) 8) := by
  refine ⟨by decide, by decide, by decide, ⟨by unfold Reachable; decide, fun h => absurd (h 0x3000002200100 (by decide) (by decide)) (by decide)⟩,
    by decide, by decide, by decide, by unfold Reachable; decide, clean_of_empty rfl _ _⟩

theorem witness_VectorLoadsAndStores :
    (∃ l, Active st l) ∧ Active st 127 ∧ Reachable st (ea st 8 0 16 64) (4 * laneCount st) 64 ∧ Clean st (at_ st (ea st 8 0 16 64)) (4 * laneCount st)
    ∧ Reachable st (ea st 12 0 16 64) 64 64 ∧ fmtOf 8 = some .bf16 ∧ Reachable st (ea st 8 0 16 32) (2 * laneCount st) 32
    ∧ fmtOf 14 = some .e2m1 ∧ Reachable st (ea st 8 0 16 8) (laneCount st / 2) 8 ∧ Clean st (at_ st (ea st 8 0 16 8)) (laneCount st / 2) := by
  have h : Active st 127 := by unfold Active; decide
  exact ⟨⟨127, h⟩, h, by unfold Reachable; decide, clean_of_empty rfl _ _, by unfold Reachable; decide, by decide, by unfold Reachable; decide,
    by decide, by unfold Reachable; decide, clean_of_empty rfl _ _⟩

/-- One lane on: p1 holds bit 0 alone. -/
def lane0 : State :=
  let s := one { scal with pregs := [(1, 1)], vregs := [] }
  { s with cur := { s.cur with g := 1 } }

theorem witness_IndexedLoadsAndStores :
    (10 : Nat) ≤ 10
    ∧ (∀ l, 16 * 0 ≤ l ∧ l < 16 * 0 + 16 ∧ (guardPred (me lane0) lane0.cur.g).getLsbD l = true →
      Reachable lane0 ((body lane0 8).toNat + (vlane lane0 3 l).data.toNat : Nat) 4 4
        ∧ Clean lane0 (at_ lane0 ((body lane0 8).toNat + (vlane lane0 3 l).data.toNat : Nat)) 4)
    ∧ (guardPred (me lane0) lane0.cur.g).getLsbD 0 = true
    ∧ ∀ k, (k < 16 ∧ (guardPred (me lane0) lane0.cur.g).getLsbD k = true) → ¬ 0 < k := by
  refine ⟨by decide, fun l _ => ?_, by decide, ?_⟩
  · rw [show vlane lane0 3 l = laneZero from rfl]
    exact ⟨by unfold Reachable; decide, clean_of_empty rfl _ _⟩
  · rintro k ⟨hk, hb⟩ h
    revert hb
    revert k
    decide

theorem witness_SpillsAndFills :
    Reachable st (ea st 12 0 16 16) 16 16 ∧ Clean st (at_ st (ea st 12 0 16 16)) 16 ∧ Reachable st (ea st 8 0 16 16) (5 * laneCount st) 16
    ∧ Clean st (at_ st (ea st 8 0 16 16)) (5 * laneCount st) :=
  ⟨by unfold Reachable; decide, clean_of_empty rfl _ _, by unfold Reachable; decide, clean_of_empty rfl _ _⟩

theorem witness_LocalAtomics :
    (65535 < 2 ^ 16 ∧ 32768 / 4096 = 8 ∧ fmtOf 4 = none ∧ fmtOf 6 = some .f32 ∧ szBytes 13 = 8)
    ∧ Reachable mem4 (ea mem4 8 (32768 % 4096) 12 8) 8 8 ∧ Clean mem4 (at_ mem4 (ea mem4 8 0 12 8)) 8 :=
  ⟨by decide, by unfold Reachable; decide, clean_of_empty rfl _ _⟩

/-- The word at 0x100 of core 17 empty. -/
def hollow : State := { st with empty := [(0x3000002200100 / 4, true)] }

theorem witness_SynchronisingAccesses :
    ((Machine.core st st.cur.core).gang = none ∧ retryOf st (16 + st.cur.core) = [] ∧ retryOf hollow (16 + hollow.cur.core) = [])
    ∧ Reachable st (ea st 8 0 16 4) 4 4 ∧ Clean st (at_ st (ea st 8 0 16 4)) 4 ∧ Extends 4 4 (numberAt st (at_ st (ea st 8 0 16 4)) 4) 0
    ∧ (∀ x, at_ st (ea st 8 0 16 4) ≤ x → x < at_ st (ea st 8 0 16 4) + 4 → isFull st x = true)
    ∧ (∀ x, at_ hollow (ea hollow 8 0 16 4) ≤ x → x < at_ hollow (ea hollow 8 0 16 4) + 4 → isFull hollow x = false)
    ∧ fmtOf 5 = none
    -- the vector forms
    ∧ (∃ l, Active st l) ∧ Reachable st (ea st 8 0 16 64) (4 * laneCount st) 64 ∧ Clean st (at_ st (ea st 8 0 16 64)) (4 * laneCount st)
    ∧ (∀ l, Active st l → isFull st (at_ st (ea st 8 0 16 64) + 4 * l) = true)
    ∧ ¬ (∀ l, Active hollow l → isFull hollow (at_ hollow (ea hollow 8 0 16 64) + 4 * l) = true) := by
  refine ⟨by decide, by unfold Reachable; decide, clean_of_empty rfl _ _, by unfold Extends; decide, fun _ _ _ => rfl, ?_, by decide,
    ⟨127, by unfold Active; decide⟩, by unfold Reachable; decide, clean_of_empty rfl _ _, fun _ _ => rfl,
    fun h => absurd (h 0 (by unfold Active; decide)) (by decide)⟩
  intro x h1 h2
  have e : at_ hollow (ea hollow 8 0 16 4) = 0x3000002200100 := by decide
  rw [e] at h1 h2
  unfold isFull
  rw [show x / 4 = 0x3000002200100 / 4 by omega]
  decide

theorem witness_ClearingFullBitsAndTags :
    let s := one { scal with sregs := [(1, ⟨6, 0⟩), (2, ⟨512, 0⟩), (3, ⟨516, 0⟩), (4, ⟨1023, 0⟩), (5, ⟨1024, 0⟩), (6, ⟨0x77, 0⟩), (8, ⟨0x100, 0⟩)] }
    let m := { s with cores := [(17, { threads := (Machine.core s 17).threads, tags := [(8 * tagSet 0x77 + 3, { v := true, key := 0x77 })] })] }
    retryOf s (16 + s.cur.core) = []
    ∧ ((body s 1).toNat % 4 ≠ 0) ∧ ((body s 0).toNat % 4 = 0 ∧ (body s 0).toNat = 0) ∧ ((body s 3).toNat % 4 = 0 ∧ 512 < (body s 3).toNat)
    ∧ ((body s 2).toNat % 4 = 0 ∧ 0 < (body s 2).toNat ∧ (body s 2).toNat ≤ 512 ∧ Reachable s (ea s 8 0 16 4) (body s 2).toNat 4)
    ∧ (1023 < (body s 5).toNat) ∧ ((body s 4).toNat ≤ 1023 ∧ (3 : Nat) < 4)
    ∧ tagFind m (body m 6) = some (8 * tagSet 0x77 + 3) ∧ tagFind s (body s 6) = none ∧ tget 0 (myCore s).tagPtr (tagSet 0x77) < 8 := by
  unfold Reachable; decide

/-- A window over the page at virtual address 0: readable, writable and open to atomics, or parked, or closed; frame 5. -/
def win (b : Nat) : State := { st with cores := [(17, { threads := [(0, scal)], windows := [(0, 2 ^ 127 + b * 2 ^ 58 + 5)] })] }

theorem witness_WindowsTranslateFarAddresses :
    isMesh 0x123 = false
    ∧ (∀ n < 8, ¬ (tget 0 (Machine.core st 17).windows (512 * n + vpnHash (0x123 / 2 ^ [12, 16, 21, 24, 27, 30, 33, 36].getD n 36)) / 2 ^ 127 % 2 = 1))
    ∧ (let e := tget 0 (Machine.core (win 28) 17).windows (512 * 0 + vpnHash (0x123 / 2 ^ 12))
      e / 2 ^ 127 % 2 = 1 ∧ e / 2 ^ 64 % 2 ^ 60 * 2 ^ 12 / 2 ^ 12 = 0x123 / 2 ^ 12 ∧ e / 2 ^ 58 % 4 ≠ 1 ∧ e / 2 ^ 60 % 2 = 1
        ∧ (translate (win 28) 17 0x123 .read).key < 2 ^ 48)
    ∧ (tget 0 (Machine.core (win 1) 17).windows 0 / 2 ^ 58 % 4 = 1) ∧ (tget 0 (Machine.core (win 0) 17).windows 0 / 2 ^ 61 % 2 = 0) := by decide

/-- A far access of the thread that has no reply yet. -/
def away : Flight := { core := 17, op := .ld, operand := ⟨0, 0⟩, cvp := { mode := .rne, sat := false, sow := false }, st := .sent, key := 0x100 }

theorem witness_FarAccessesAreChecked :
    let s := one { scal with aregs := [(1, 0xF00012000020000000), (2, 0xF000120000001FFFFF), (3, 0x1001), (4, 0x1000)] }
    let o := { s with flights := [(0, away)] }
    ((me s).packet = none ∧ (me o).packet = none)
    ∧ (isMesh (getA (me s) (1 % 16)) = true ∧ meshRsvd (getA (me s) (1 % 16)) ≠ 0)
    ∧ (isMesh (getA (me s) (2 % 16)) = true ∧ meshRsvd (getA (me s) (2 % 16)) = 0 ∧ 0x200000 < meshOfs (getA (me s) (2 % 16)) + 4)
    ∧ (isMesh (getA (me s) (3 % 16)) = false ∧ (getA (me s) (3 % 16)).toNat % 4 ≠ 0)
    ∧ (isMesh (getA (me s) (4 % 16)) = false ∧ (getA (me s) (4 % 16)).toNat % 128 = 0 ∧ (∃ p ∈ flightsOf o o.cur.core o.cur.slot, p.2.replied = false ∧ p.2.rx = false))
    ∧ (flightsOf s s.cur.core s.cur.slot = [] ∧ (translate s s.cur.core (getA (me s) (4 % 16)) .read).cause ≠ 0) := by decide

theorem witness_FarAccessesLeaveTheirThread :
    (tfind st.flights st.nextId = none ∧ (Machine.core st st.cur.core).gang = none ∧ (me st).packet = none)
    ∧ (6 % 16 ≤ 13 ∧ FarGood st (getA (me st) (34 % 16)) (szBytes (6 % 16)) .read ∧ FarGood st (getA (me st) (2 % 16)) 8 .write)
    ∧ (FarGood st (getA (me st) (2 % 16)) 4 .atomic ∧ 12 % 4 ≤ 1 ∧ 2 ≤ 38 % 4) ∧ FarGood st (getA (me st) (2 % 16)) 128 .atomic
    ∧ (guardPred (me st) st.cur.g).getLsbD (32 * (12 / 4 % 4) + 31) = true := by
  unfold FarGood; decide

/-- An open packet of `n` bytes, eight bytes before the end of its 128. -/
def pack (n : Nat) : State :=
  one { scal with packet := some { rx := false, ord := false, addr := 0xF00012000000000178, key := 0x100, win := 0, ofs := 0, data := List.replicate n 1,
                                   aword := 0, issued := 0, pos := 0, bundles := 1 } }

theorem witness_PacketsFencesAndMailboxes :
    let held := { st with flights := [(0, { away with replied := true })] }
    let beyond := { st with flights := [(0, { away with op := .st, key := 2 ^ 60, replied := true })] }
    let wait := { st with flights := [(0, away)] }
    let ans := fun k => one { scal with mboxReq := some (1, 2), mboxReply := some { kind := k, value := 9 } }
    (tfind st.flights st.nextId = none ∧ (Machine.core st st.cur.core).gang = none ∧ 5 % 16 ≤ 12 ∧ fmtOf (5 % 16) = none)
    ∧ ((me st).packet = none ∧ FarGood st (getA (me st) (2 % 16)) 4 .write)
    ∧ (tfind (pack 4).flights (pack 4).nextId = none ∧ 5 / 16 % 2 = 0 ∧ ∀ p, (me (pack 4)).packet = some p → p.data.length % 4 = 0 ∧ p.addr.toNat % 128 + p.data.length + 4 ≤ 128)
    ∧ ((me (pack 8)).packet.isSome = true ∧ (∀ p, (me (pack 8)).packet = some p → 128 < p.addr.toNat % 128 + p.data.length + 4))
    ∧ ((1 : Nat) ≠ 0 ∧ 21 / 16 % 2 = 1)
    -- FENCE
    ∧ ((∀ p ∈ flightsOf held held.cur.core held.cur.slot, p.2.replied = true) ∧ (me held).faults = [])
    ∧ (flightsOf st st.cur.core st.cur.slot = []) ∧ (∃ p ∈ flightsOf wait wait.cur.core wait.cur.slot, p.2.replied = false)
    -- an FVATOM that its link answered before it performed
    ∧ (let late := { st with flights := [(0, { away with op := .vat, key := 2 ^ 60, replied := true, early := true })] }
      ∃ p ∈ flightsOf late late.cur.core late.cur.slot, p.2.op = .vat ∧ p.2.early = true ∧ p.2.acked = false)
    ∧ (∃ p ∈ flightsOf beyond beyond.cur.core beyond.cur.slot, 2 ^ 60 ≤ p.2.key ∧ p.2.key < 2 ^ 62 ∧ p.2.op = .st ∧ p.2.acked = false ∧ p.2.cancelled = false)
    -- MBOX
    ∧ (isSvc 512 = true ∧ isSvc st.cur.core = false ∧ (me st).mboxReply = none ∧ (me st).mboxReq = none ∧ st.cur.core < 512 ∧ st.cur.slot < 8 ∧ st.node < 1024)
    ∧ ((me (ans 5)).mboxReq = some (1, 2) ∧ (me (ans 5)).mboxReply = some { kind := 5, value := 9 } ∧ (me (ans 4)).mboxReply = some { kind := 4, value := 9 }) := by
  refine ⟨by decide, ⟨by decide, by unfold FarGood; decide⟩, ⟨by decide, by decide, ?_⟩, ⟨by decide, ?_⟩, by decide, by decide, by decide, by decide, by decide, by decide,
    by decide, by decide⟩ <;> (intro p h; cases h; decide)

/-- A gang of cores 17 and 18 with slot 0, one barrier of both threads, and items to deal. -/
def pair : Gang :=
  { cols := 2, rows := 1, dies := [0], orgs := [(1, 1)], slotm := 1, nbar := 1, bslots := [1], widths := [2, 3], counts := [3, 5], dist := true, arrived := [(0, 1)],
    released := true }

def duo (th : Thread) : State :=
  { st with cores := [(17, { threads := [(0, th)], gang := some 0 }), (18, { threads := [(0, {})], gang := some 0 })], gangs := [(0, pair)] }

theorem duo_leads (th : Thread) : Leads (duo th) 1 18 := ⟨pair, rfl, by show beside 17 1 = some 18; decide, by decide, by show pair.slotm / 2 ^ 0 % 2 = 1; decide⟩

theorem witness_ChannelsCarryWords :
    let full := { duo scal with cores := [(17, { threads := [(0, { scal with queues := [(1, { words := [⟨[]⟩] })] })], gang := some 0 }),
      (18, { threads := [(0, { queues := [(3, { words := [⟨[]⟩, ⟨[]⟩, ⟨[]⟩, ⟨[]⟩] })] })], gang := some 0 })] }
    let due : State := { duo { scal with queues := [(1, { coming := 1 })] } with cur := { args := [17, 0, 1] ++ [5] } }
    ((duo scal).cur.core < 512 ∧ (duo scal).cur.slot < 8) ∧ (¬ ∃ n, Leads (duo scal) 0 n) ∧ Leads (duo scal) 1 18
    ∧ (recvQ (thread (duo scal) 18 0) ((1 + 2) % 4)).words.length + (recvQ (thread (duo scal) 18 0) 3).coming < 4
    ∧ ¬ ((recvQ (thread full 18 0) ((1 + 2) % 4)).words.length < 4)
    ∧ ((8 : Nat) / 8 % 2 = 1 ∧ (7 : Nat) / 8 % 2 = 0)
    ∧ (due.cur.args = [17, 0, 1] ++ [5] ∧ 0 < (recvQ (thread due 17 0) 1).coming)
    ∧ (recvQ (me (duo scal)) 1).words = [] ∧ (recvQ (me full) 1).words = ⟨[]⟩ :: [] := by
  refine ⟨by decide, ?_, duo_leads scal, by decide, by decide, by decide, by decide, by decide, by decide⟩
  rintro ⟨n, g, hg, hb, hr, -⟩
  have h1 : gangOf (duo scal) (duo scal).cur.core = some pair := rfl
  have h2 : beside (duo scal).cur.core 0 = some 1 := by decide
  rw [h1] at hg; rw [h2] at hb
  cases hg; cases hb
  exact absurd hr (by decide)

theorem witness_BarriersReleaseWhenAllHaveArrived :
    let s := duo scal
    let w := duo { scal with arrivals := [(0, 1)] }
    let p := { duo { scal with arrivals := [(0, 1)] } with gangs := [(0, { pair with gens := [(0, 1)] })] }
    ((Machine.core s s.cur.core).gang = some 0 ∧ tfind s.gangs 0 = some pair ∧ pair.raceMode = 0)
    ∧ ¬ ((1 : Nat) < pair.nbar) ∧ ((0 : Nat) < pair.nbar ∧ pair.bslots.getD 0 0 / 2 ^ s.cur.slot % 2 = 1)
    ∧ (tget 0 (me s).arrivals 0 = 0 ∧ tget 0 (me s).arrivals 0 ≠ tget 0 pair.gens 0 + 1 ∧ s.links.failed = []
        ∧ tget 0 pair.arrived 0 + 1 = (slotsOf (pair.bslots.getD 0 0)).length * (pair.cols * pair.rows * pair.dies.length))
    ∧ (tget 0 (me w).arrivals 0 = tget 0 (gang w 0).gens 0 + 1)
    ∧ (tget 0 (me p).arrivals 0 ≠ 0 ∧ tget 0 (me p).arrivals 0 ≠ tget 0 (gang p 0).gens 0 + 1)
    ∧ (let x := { s with cur := { args := [0, 0] } }
      x.gangs = s.gangs ∧ x.cur.args = [0, 0] ∧ tget 0 pair.arrived 0 ≠ 0) := by decide

theorem witness_WorkItemsAndSemaphores :
    let s := duo scal
    let done : State := { s with gangs := [(0, { pair with counters := [(0, 15)] })] }
    let u := fun x => { st with cores := [(17, { threads := [(0, { scal with sregs := [(1, ⟨0x20003, 0⟩)] })], sems := [(3, x)] })] }
    (Machine.core st st.cur.core).gang = none
    ∧ ((Machine.core s s.cur.core).gang = some 0 ∧ tfind s.gangs 0 = some pair ∧ isSvc s.cur.core = false ∧ pair.dist = true ∧ pair.dies.length = 1
        ∧ dieIndex pair (dieOf s.cur.core) = 0 ∧ tget 0 pair.counters 0 < pair.counts.foldl (· * ·) 1)
    ∧ (pair.counts.foldl (· * ·) 1 ≤ tget 0 (gang done 0).counters 0 ∧ ({ pair with dist := false } : Gang).dist = false)
    ∧ (pair.widths = [2, 3] ∧ pair.counts = [3, 5] ∧ (14 : Nat) < 3 * 5)
    -- semaphores of 1, 2, 0xFFFD and 0xFFFE against an operand of 2
    ∧ ((Machine.core (u 1) 17).gang = none ∧ (Machine.core (u 1) 17).eng = {} ∧ (body (u 1) 1).toNat % 256 = 3 ∧ (body (u 1) 1).toNat / 65536 % 65536 = 2)
    ∧ (sem (u 1) 17 3 < 2 ∧ 2 ≤ sem (u 2) 17 3 ∧ sem (u 0xFFFD) 17 3 + 2 ≤ 0xFFFF ∧ 0xFFFF < sem (u 0xFFFE) 17 3 + 2) := by decide

/-- Core 17 with ring 3 of two slots that hold `n` tiles. -/
def ringed (n : Nat) : State :=
  { st with cores := [(17, { threads := [(0, { scal with sregs := [(1, ⟨1, 0⟩), (2, ⟨0x10001000100, 0⟩), (3, ⟨0x0000010001FFFC0, 0⟩), (4, ⟨0x0000010001FFF80, 0⟩), (5, ⟨0x000001000100020, 0⟩)] })]
                             eng := { rings := [(3, { base := 0x100, nslot := 2, slotb := 64, head := 0, tail := n })] } })] }

theorem witness_RingsAreDefinedPushedAndPopped :
    let s := ringed 1
    -- a reserved field, a ring beyond the end, one that is not aligned, a good one
    (field (body s 1).toNat 24 16 = 0) ∧ (field (body s 2).toNat 48 16 = 0 ∧ 64 * field (body s 2).toNat 24 16 = 64 ∧ field (body s 2).toNat 21 3 = 0)
    ∧ (0x200000 < 0x1FFFC0 + (1 + 1) * 64) ∧ (0x1FFF80 + (1 + 1) * 64 ≤ 0x200000 ∧ 0x100020 % 64 ≠ 0)
    ∧ (Idle s s.cur.core ∧ (Machine.core s s.cur.core).pre = false)
    ∧ ((ring (engine st 17) 3).nslot = 0 ∧ (ring (engine s 17) (3 % 16)).nslot ≠ 0)
    ∧ (tilesIn (ring (engine s 17) 3) + 1 ≤ 2 ∧ 2 < tilesIn (ring (engine (ringed 2) 17) 3) + 1)
    ∧ (1 ≤ tilesIn (ring (engine s 17) 3) ∧ tilesIn (ring (engine (ringed 0) 17) 3) < 1) := by
  unfold Idle; decide

/-- Core 17 with an engine, over a thread with given scalars and memory. -/
def machine (e : Engine) (th : Thread) (mem : List Host.Cell) : State :=
  { st with mem := mem, cores := [(17, { threads := [(0, th)], eng := e })] }

/-- Ring 3: two slots of 64 bytes at 0x100, one tile. -/
def ring3 (n : Nat) : Tab Ring := [(3, { base := 0x100, nslot := 2, slotb := 64, head := 0, tail := n })]

/-- A stream descriptor at 0x400: FP8 activations from ring 3, one tile, one row, one dimension of one element. -/
def streamMem : List Host.Cell := [⟨0x3000002200406, 1⟩, ⟨0x3000002200407, 0x13⟩]

theorem witness_EngineCommandsAreAccepted :
    let e : Engine := { rings := ring3 1, wfmt := 1 }
    let full : Engine := { queue := List.replicate 8 {} }
    -- s1: a refused sync word; s2, s3: a good and a bad weight load; s4 to s7: drains that fit, have a reserved field, pass the end, are not
    -- aligned; s8: the descriptor; s9: a place from which 64 bytes pass the end
    let th : Thread := { scal with sregs := [(1, ⟨0x40, 0⟩), (2, ⟨0xFC13, 0⟩), (3, ⟨0xFCB3, 0⟩), (4, ⟨0x4000000000100, 0⟩), (5, ⟨0x4000000200100, 0⟩),
      (6, ⟨0x40200001FFFFC, 0⟩), (7, ⟨0x4000000000002, 0⟩), (8, ⟨0x400, 0⟩), (9, ⟨0x1FFFE0, 0⟩)] }
    let s := machine e th streamMem
    let p := { s with poison := [(0x3000002200410, true)] }
    let n := fun i => (body s i).toNat
    (s.cur.rep = none ∧ ¬ SyncOk (n 1) ∧ SyncOk (n 0)) ∧ 8 ≤ (engine (machine full th []) 17).queue.length ∧ (engine s 17).queue.length < 8
    -- MWLD
    ∧ Idle s s.cur.core
    ∧ (field (n 2) 24 8 = 0 ∧ field (n 2) 8 2 = 0 ∧ field (n 2) 4 4 = 1 ∧ (ring e (n 2 % 16)).nslot ≠ 0 ∧ sharedBytes 1 = 0 ∧ field (n 2) 48 16 = 0
        ∧ (field (n 2) 17 7) * field (n 2) 32 16 + (field (n 2) 10 7 + 1) ≤ (ring e (n 2 % 16)).slotb)
    ∧ ¬ (field (n 3) 4 4 ≤ 10)
    -- MDRAIN
    ∧ (field (n 4) 30 4 = 0 ∧ field (n 4) 21 9 = 0 ∧ (field (n 4) 34 7 + 1) * 4 ≤ field (n 4) 48 16 ∧ field (n 4) 48 16 % 4 = 0
        ∧ field (n 4) 0 21 + field (n 4) 41 7 * field (n 4) 48 16 + 4 ≤ 0x200000 ∧ field (n 4) 0 21 % 4 = 0 ∧ (field e.tint (0 % 4) 1 = 1 ↔ field (n 4) 30 4 = 5))
    ∧ ¬ (field (n 5) 21 9 = 0)
    ∧ (field (n 6) 21 9 = 0 ∧ field (n 6) 48 16 = 4 ∧ 0x200000 < field (n 6) 0 21 + field (n 6) 41 7 * 4 + 4)
    ∧ (field (n 7) 0 21 + 4 ≤ 0x200000 ∧ field (n 7) 0 21 % 4 ≠ 0)
    -- MSTRM
    ∧ ¬ (n 9 + 64 ≤ scratchLimit 17)
    ∧ (Reachable p (n 8) 64 64 ∧ ¬ Clean p (at_ p (n 8)) 64) ∧ (Reachable s (n 8) 64 64 ∧ Clean s (at_ s (n 8)) 64 ∧ e.wfmt ≤ 10)
    ∧ (let d := fun i => numberAt s (at_ s (n 8) + 8 * i) 8
      field (d 0) 60 4 = 1 ∧ field (d 0) 0 19 = 0 ∧ field (d 0) 40 8 ≤ field (d 0) 48 8 ∧ field (d 0) 48 8 = 1 ∧ 1 ≤ (ring e (field (d 0) 56 4)).nslot
        ∧ field (d 0) 26 7 + (field (d 0) 33 7 + 1) ≤ 128 ∧ field (d 0) 22 2 ≤ 1 ∧ field (d 0) 19 3 + 1 = 1 ∧ field (d 2) 16 16 = 0
        ∧ (∀ i < 6, 1 ≤ i → d (2 + i) = 0) ∧ 1 * (field (d 2) 0 16 + 1) = (field (d 0) 33 7 + 1) * (e.wk + 1) ∧ field (d 2) 32 32 = 0 ∧ d 1 = 0
        ∧ eltBits 1 = eltBits e.wfmt ∧ field e.tint (field (d 0) 24 2) 1 = 0)
    ∧ ((255 : Nat) < 256 ∧ e.queue.length ≤ 8 ∧ e.fault < 256 ∧ e.wfmt < 16 ∧ e.wk < 128 ∧ e.wn < 128 ∧ e.tint < 16 ∧ e.flags < 32) := by
  refine ⟨by unfold SyncOk; decide, by decide, by decide, by unfold Idle; decide, by decide, by decide, by decide, by decide, by decide, by decide, by decide,
    ⟨by unfold Reachable; decide, fun h => absurd (h 0x3000002200410 (by decide) (by decide)) (by decide)⟩,
    ⟨by unfold Reachable; decide, clean_of_empty rfl _ _, by decide⟩, by decide, by decide⟩

/-- The stream of that descriptor never leaves its tile. -/
theorem witness_stream_in_span (ix : Nat → Nat) (h : ∀ i < 1, ix i < 1) :
    0 ≤ ((List.range 1).map (fun i => (ix i : Int) * 0)).sum ∧ ((List.range 1).map (fun i => (ix i : Int) * 0)).sum + 1 ≤ 64 := by
  have := h 0 (by decide)
  simp

/-- An engine at work on one command. -/
def busy (q : EngCmd) (run : Bool) (sems : Tab Nat) : State :=
  { State.reset with
    gangs := [(0, pair)]
    cores := [(17, { threads := [(0, { scal with busy := 1 })], sems := sems, gang := some 0
                     eng := { rings := [(3, { base := 0x100, nslot := 2, slotb := 64, head := 0, tail := 1 }), (4, { base := 0x200, nslot := 2, slotb := 64, head := 0, tail := 2 })]
                              wfmt := 1, queue := [q], running := run } })]
    cur := { args := [17] } }

/-- Its gang detects no races. -/
theorem busy_calm (q : EngCmd) (run : Bool) (sems : Tab Nat) :
    ∀ m, (Machine.core (busy q run sems) 17).gang = some m → (gang (busy q run sems) m).raceMode = 0 := by
  intro m h
  cases (show some 0 = some m from h)
  rfl

def cmdOf (op aval sync : Nat) : EngCmd := { op := op, aval := aval, sync := sync, core := 17, slot := 0 }
def streamCmd : EngCmd := { cmdOf 4 0x400 0 with desc := [0x1301000000000000, 0, 0, 0, 0, 0, 0, 0] }

theorem witness_EngineCommandsPerform :
    let z := busy (cmdOf 8 0 0x0500030000000000) false
    let r := fun q => busy q true []
    -- whatever the command
    ((z []).cur.args = [17] ∧ 17 < 512 ∧ (engine (z []) 17).queue = cmdOf 8 0 0x0500030000000000 :: [] ∧ (engine (z []) 17).hand = false
        ∧ (Machine.core (z []) 17).gang = some 0)
    -- its start: the semaphore at its threshold and below it
    ∧ ((engine (z [(5, 3)]) 17).running = false ∧ (engine (z [(5, 3)]) 17).frozen = false ∧ (engine (z [(5, 3)]) 17).fault = 0
        ∧ field 0x0500030000000000 40 16 = sem (z [(5, 3)]) 17 (field 0x0500030000000000 56 8) ∧ sem (z [(5, 2)]) 17 5 < field 0x0500030000000000 40 16)
    ∧ (1 ≤ tilesIn (ring (engine (r (cmdOf 2 3 0)) 17) (3 % 16)) ∧ field (streamCmd.desc.getD 0 0) 48 8 ≤ tilesIn (ring (engine (r streamCmd) 17) (field (streamCmd.desc.getD 0 0) 56 4))
        ∧ tilesIn (ring (engine (ringed 0) 17) 3) = 0)
    -- its parts
    ∧ ((engine (r (cmdOf 8 0 0)) 17).running = true ∧ (r (cmdOf 8 0 0)).retry = [])
    ∧ (field 0x13 4 4 ≤ 10 ∧ field 0 5 1 = 0 ∧ (ring (engine (r (cmdOf 2 0x13 0)) 17) 3).nslot ≠ 0 ∧ (engine (r (cmdOf 2 0x13 0)) 17).row ≤ field 0x13 17 7 ∧ (Machine.core (r (cmdOf 2 0x13 0)) 17).waits = []
        ∧ sharedBytes 9 ≠ 0 ∧ field 0x20 5 1 = 1)
    ∧ (field 0x4000000000100 30 4 ≤ 5 ∧ (engine (r (cmdOf 6 0x4000000000100 0)) 17).row ≤ field 0x4000000000100 41 7
        ∧ portHolds (r (cmdOf 6 0x4000000000100 0)) 17 (scratch 17 + 0x100) 4 = false)
    ∧ ((engine (r streamCmd) 17).wfmt ≤ 10 ∧ (engine (r streamCmd) 17).wk < 128 ∧ (engine (r streamCmd) 17).row ≤ field (streamCmd.desc.getD 0 0) 33 7
        ∧ field (streamCmd.desc.getD 0 0) 60 4 = 1 ∧ field 0 (field (streamCmd.desc.getD 0 0) 24 2) 1 = 0 ∧ eltBits 1 = 8 ∧ sharedBytes 1 = 0
        ∧ eltVal 1 (elementAt (r streamCmd) 17 (ring (engine (r streamCmd) 17) 3) 8 0 0) 0 0 = .fin false 0 (-11)
        ∧ eltVal 1 (tget 0 (engine (r streamCmd) 17).weights 0) 0 0 = .fin false 0 (-11))
    -- its retirement: a ring with room and a full one, a semaphore that stays within its width and one that does not
    ∧ ((cmdOf 8 0 0x1300).notify = none ∧ field 0x1300 12 1 = 1
        ∧ tilesIn (ring (engine (r (cmdOf 8 0 0x1300)) 17) (field 0x1300 8 4)) < 2 ∧ tilesIn (ring (engine (r (cmdOf 8 0 0x1400)) 17) (field 0x1400 8 4)) = 2)
    ∧ (sem (busy (cmdOf 8 0 0x0701000000) true [(7, 0xFFFE)]) 17 (field 0x0701000000 32 8) + field 0x0701000000 24 8 ≤ 0xFFFF
        ∧ 0xFFFF < sem (busy (cmdOf 8 0 0x0701000000) true [(7, 0xFFFF)]) 17 7 + field 0x0701000000 24 8 ∧ field 0x0701000000 12 1 = 0) := by decide

theorem witness_busy_clean (q : EngCmd) (a n : Nat) : Clean (busy q true []) a n := clean_of_empty rfl a n

theorem witness_HandOversPassTheVectorRegisters :
    let s := machine { wfmt := 1 } { scal with sregs := [(1, ⟨0x40, 0⟩), (2, ⟨0x10000000000, 0⟩)] } []
    let h := fun (op : Nat) => { busy { cmdOf op 0 0x0701000000 with regs := List.range 32, imm := 4 } true [] with
      cores := [(17, { threads := [(0, scal)], gang := some 0
                       eng := { queue := [{ cmdOf op 0 0x0701000000 with regs := List.range 32, imm := if op = 3 then 4 else 31 }, cmdOf 8 0 0], running := true, hand := true } })] }
    (s.cur.rep = none ∧ (me s).nv ≤ 17 + 31 ∧ 16 + 31 < (me s).nv)
    ∧ (¬ SyncOk (body s 1).toNat ∧ SyncOk (body s 2).toNat ∧ field (body s 2).toNat 40 16 ≠ 0 ∧ SyncOk (body s 0).toNat ∧ field (body s 0).toNat 40 16 = 0)
    ∧ ((engine s 17).queue = [] ∧ field 0x12 4 1 = 1 ∧ (engine s 17).wfmt ≠ 0x12 % 16)
    ∧ ((engine s 17).running = false ∧ (engine s 17).fault = 0 ∧ (engine s 17).frozen = false ∧ field 0x2 4 1 = 0 ∧ (engine s 17).wfmt = 0x11 % 16)
    ∧ ¬ ((engine (busy (cmdOf 8 0 0) true []) 17).queue = [])
    -- the end
    ∧ ∀ op ∈ [3, 7], ((h op).cur.args = [17] ∧ (engine (h op) 17).queue = { cmdOf op 0 0x0701000000 with regs := List.range 32, imm := if op = 3 then 4 else 31 } :: [cmdOf 8 0 0] ∧ (engine (h op) 17).hand = true
        ∧ field 0x0701000000 12 1 = 0 ∧ sem (h op) 17 (field 0x0701000000 32 8) + field 0x0701000000 24 8 ≤ 0xFFFF
        ∧ (Machine.core (h op) 17).gang = some 0 ∧ (gang (h op) 0).raceMode = 0 ∧ (List.range 32).length = 32 ∧ 4 % 16 < 5) := by
  unfold SyncOk; decide

theorem witness_RemoteCommandsCrossTheMesh :
    let th : Thread := { scal with sregs := [(1, ⟨0x400, 0⟩)], aregs := [(1, 0xF00020000000000000), (2, 0x1000)] }
    let s := machine {} th [⟨0x3000002200408, 8⟩]
    let w := machine { port := 4 } th [⟨0x3000002200408, 8⟩]
    let d := fun i => numberAt s (at_ s 0x400 + 8 * i) 8
    let g : State := { duo scal with cores := [(17, { gang := some 0, eng := { inbound := [(6, cmdOf 8 0 0, 5)], mcap := 5 } })], cur := { args := [17] } }
    (s.cur.rep = none ∧ (body s 1).toNat = 0x400)
    ∧ (isMesh (getA (me s) 1) = true ∧ (getA (me s) 1).toNat % 2 ^ 49 = 0) ∧ ¬ (isMesh (getA (me s) 2) = true)
    ∧ Reachable s (0x400 : Nat) 64 64 ∧ Clean s (at_ s (0x400 : Nat)) 64
    ∧ (field (d 1) 14 50 = 0 ∧ SyncOk (d 3) ∧ field (d 4) 40 23 = 0 ∧ d 4 % 4 = 0 ∧ field (d 5) 32 32 = 0 ∧ d 6 = 0 ∧ d 7 = 0 ∧ field (d 1) 0 6 = 8 ∧ field (d 1) 6 8 ≤ 31)
    ∧ ((engine s 17).port < 4 ∧ 4 ≤ (engine w 17).port)
    -- the request, its acceptance with the right and a wrong capability, its reply
    ∧ (meshNode (BitVec.ofNat 72 0xF00020000000000000) = s.node ∧ s.links.failed = [] ∧ (engine s (meshCore (BitVec.ofNat 72 0xF00020000000000000))).inbound.length < 8
        ∧ gangOf s (meshCore (BitVec.ofNat 72 0xF00020000000000000)) = none)
    ∧ (g.cur.args = [17] ∧ (engine g 17).inbound = (6, cmdOf 8 0 0, 5) :: [] ∧ (engine g 17).queue.length < 8 ∧ gangOf g 17 = some pair ∧ pair.savedAll = false
        ∧ (cmdOf 8 0 0).op = 8 ∧ SyncOk (cmdOf 8 0 0).sync ∧ (engine g 17).mcap ≠ 0 ∧ 5 = (engine g 17).mcap)
    ∧ (Machine.core st 17).gang = none :=
  ⟨by decide, by decide, by decide, by unfold Reachable; decide, clean_of_empty rfl _ _, by unfold SyncOk; decide, by decide, by decide, by unfold SyncOk; decide, by decide⟩

theorem witness_TephraBaseInstructions :
    let s := tc { x := [(6, 0x17FFC), (7, 0x18000)] } (.load .w 5 6 0)
    let o := tc { x := [(6, 0x17FFC), (7, 0x18000)] } (.store .h 7 6 0)
    (s.cur.rv = .load .w 5 6 0 ∧ ((getX (myTe s) 6).toNat + 0) % 2 ^ 32 % 4 = 0 ∧ 0x10000 ≤ 0x17FFC ∧ 0x17FFC + 4 ≤ 0x18000 ∧ s.flights = [])
    ∧ (o.cur.rv = .store .h 7 6 0 ∧ 0x18000 < ((getX (myTe o) 7).toNat + 0) % 2 ^ 32 + 2)
    ∧ ((tc {} (.lui 5 0xFFFFF000)).cur.rv = .lui 5 0xFFFFF000 ∧ 0xFFFFF000 < 2 ^ 32)
    ∧ ((tc {} (.op .div 5 6 7)).cur.rv = .op .div 5 6 7 ∧ (tc {} (.opImm .add 5 6 1)).cur.rv = .opImm .add 5 6 1 ∧ (tc {} .illegal).cur.rv = .illegal
        ∧ (tc {} (.branch .geu 1 2 8)).cur.rv = .branch .geu 1 2 8 ∧ (tc {} (.jal 1 8)).cur.rv = .jal 1 8) := by decide

/-- Tephra core 0 of core 17 with far address registers 0 (a mesh address), 1 (the end of one), 2 (an odd virtual address), 3 (virtual 0), and with a
window over page 0 or none. -/
def far (te : Tephra) (b : Nat) : State :=
  { State.reset with
    cores := [(17, { tes := [(0, { te with x := [(6, 0x17FC0), (7, 1), (8, 0x18000)], fa := [(0, 0xF00012000000000100), (1, 0xF000120000001FFFFF), (2, 1)] })]
                     windows := if b = 0 then [] else [(0, 2 ^ 127 + b * 2 ^ 58 + 5)] })]
    cur := { core := 17, slot := 8 } }

theorem far_quiet (te : Tephra) (h : te.pending = none) (k : te.value = none) (b : Nat) : TeQuiet (far te b) :=
  ⟨fun _ hp => absurd hp (by simp [far, State.reset]), Nat.le_refl 8, h, k, rfl⟩

theorem witness_TephraAccessesLeaveTheirCore :
    let s := far {} 28
    TeQuiet s ∧ TeQuiet (far {} 0)
    ∧ (TeGood s 0 0 4 .read 0xF00012000000000100 ∧ TeGood s 0 0 4 .write 0xF00012000000000100 ∧ TeGood s 0 0 4 .atomic 0xF00012000000000100)
    ∧ (TeGood s 0 0 64 .read 0xF00012000000000100 ∧ TeGood s 0 0 64 .write 0xF00012000000000100 ∧ TeGood s 0 0 64 .atomic 0xF00012000000000100)
    ∧ (xr s 6 % 64 = 0 ∧ 0x10000 ≤ xr s 6 ∧ xr s 6 + 64 ≤ 0x18000) ∧ (¬ (xr s 8 + 64 ≤ 0x18000) ∧ ¬ (xr s 7 % 64 = 0))
    ∧ (TeGood s 3 0 4096 .read 0 ∧ TeGood s 4 0 4096 .write 0 ∧ isMesh 0 = false)
    -- the checks
    ∧ ((addAddr (tget 0 (myTe s).fa 1) (getX (myTe s) 7).toInt).2 ≠ 0)
    ∧ (addAddr (tget 0 (myTe s).fa 2) (getX (myTe s) 0).toInt = (1, 0) ∧ ¬ (isMesh 1 = true) ∧ (1 : Addr).toNat % 4 ≠ 0)
    ∧ (addAddr (tget 0 (myTe (far {} 0)).fa 3) (getX (myTe (far {} 0)) 0).toInt = (0, 0) ∧ (translate (far {} 0) 17 0 .read).cause ≠ 0)
    ∧ (myTe (far { value := some 9 } 0)).value = some 9 :=
  ⟨far_quiet _ rfl rfl _, far_quiet _ rfl rfl _, by unfold TeGood; decide, by unfold TeGood; decide, by decide, by decide, by unfold TeGood; decide,
    by decide, by decide, by decide, by decide⟩

/-- A descriptor at 0x400 of a collective of two members and one element. -/
def collMem : List Host.Cell := [⟨0x3000002200405, 4⟩, ⟨0x3000002200407, 8⟩, ⟨0x3000002200408, 1⟩]

theorem nest_of_zeros (base size n limit : Nat) (h : base + size ≤ limit) (f : Nat → Nat) (g : Nat → Int) (hg : ∀ i, g i = 0) :
    NestIn base size n f g limit := by
  intro ix _
  have : ((List.range n).map (fun i => (ix i : Int) * g i)).sum = 0 := by
    apply List.sum_eq_zero
    intro x hx
    obtain ⟨i, _, rfl⟩ := List.mem_map.1 hx
    simp [hg]
  simp [this]
  omega

theorem zero_dims (d : List Nat) (h : ((List.range 12).map (fun j => d.getD (4 + j) 0 * 2 ^ (64 * j))).sum = 0) (p i : Nat) :
    signed 36 (field (copyDim d i) p 36) = 0 := by
  unfold copyDim
  rw [h]
  simp [signed, field]

theorem witness_TensorCommandsAreAccepted :
    let th : Thread := { scal with sregs := [(1, ⟨0x400, 0⟩), (2, ⟨0x40, 0⟩), (3, ⟨0x1FFFC0, 0⟩), (4, ⟨0x410, 0⟩)] }
    let s := machine {} th []
    let c := machine {} th collMem
    let p := { s with poison := [(0x3000002200400, true)] }
    let d := fun (s : State) => (List.range 16).map (fun i => numberAt s (at_ s (0x400 : Nat) + 8 * i) 8)
    let full := { s with cores := [(17, { threads := [(0, th)], tes := [(1, { queue := List.replicate 8 {} })] })] }
    (¬ SyncOk (body s 2).toNat ∧ SyncOk (body s 0).toNat)
    ∧ ¬ ((body s 3).toNat + 128 ≤ scratchLimit 17) ∧ ((body s 4).toNat + 128 ≤ scratchLimit 17 ∧ (body s 4).toNat % 64 ≠ 0)
    ∧ (Reachable p (0x400 : Nat) 128 64 ∧ ¬ Clean p (at_ p (0x400 : Nat)) 128) ∧ (Reachable s (0x400 : Nat) 128 64 ∧ Clean s (at_ s (0x400 : Nat)) 128)
    ∧ CopyGood (d s) ∧ ¬ CopyGood (d c) ∧ CollFields (d c) ∧ ¬ CollFields (d s)
    ∧ RangesFit c 17 (CollIn (d c)) (CollAligned (d c)) ∧ ¬ CollIn (d c) 0x1FFF ∧ CollIn ((d c).set 2 1) 0x200000 ∧ ¬ CollAligned ((d c).set 2 1)
    ∧ (∀ n, 0x2000 ≤ n → CollIn (d c) n)
    ∧ (∀ n, 1 ≤ n → CopyIn (d s) n) ∧ CopyAligned (d s)
    ∧ field (body s 0).toNat 12 1 ≠ 1 ∧ (tephra s 17 (0 % 2)).queue.length < 8 ∧ 8 ≤ (tephra full 17 (1 % 2)).queue.length := by
  refine ⟨by unfold SyncOk; decide, by decide, by decide, ⟨by unfold Reachable; decide, fun h => absurd (h 0x3000002200400 (by decide) (by decide)) (by decide)⟩,
    ⟨by unfold Reachable; decide, clean_of_empty rfl _ _⟩, by unfold CopyGood; decide, fun h => absurd (h.2.2.2.2.2.2.2.2.1 (by decide)) (by decide), ?_, ?_,
    ⟨by unfold CollIn; decide, by unfold CollAligned; decide, fun h => absurd h (by decide)⟩, by unfold CollIn; decide, by unfold CollIn; decide, by unfold CollAligned; decide, ?_, ?_,
    by unfold CopyAligned; decide, by decide, by decide, by decide⟩
  · refine ⟨by decide, by decide, by decide, by decide, by decide, by decide, by decide, by decide, by decide, by decide, by decide, by decide, by decide, ?_⟩
    intro i h1 h2; revert i; decide
  · intro h; exact absurd h.2.2.2.1 (by decide)
  · intro n hn p hp
    have : p.1 + p.2.1 ≤ 0x2000 := by revert p; decide
    omega
  · intro n hn
    refine ⟨fun _ => nest_of_zeros _ _ _ _ (by exact hn) _ _ (zero_dims _ (by decide) _), fun _ => nest_of_zeros _ _ _ _ (by exact hn) _ _ (zero_dims _ (by decide) _),
      fun h => absurd h (by decide)⟩

theorem witness_TephraCommandsAndSignals :
    let q : TeCmd := { desc := List.range 16, sync := 0x0500030000000000, core := 17, slot := 7 }
    let s := far {} 28
    let idle := { far { queue := [q] } 0 with cores := [(17, { tes := [(0, { queue := [q], x := [(6, 0x17F78), (7, 0x17F80)] })], sems := [(5, 3)] })] }
    let atWork := far { cur := some { q with sync := 0 } } 0
    TeQuiet s ∧ TeQuiet atWork ∧ TeQuiet (far { wait := .mbox } 0)
    ∧ (addAddr (tget 0 (myTe s).fa 3) (getX (myTe s) 0).toInt = (0, 0) ∧ isMesh 0 = false ∧ addAddr (tget 0 (myTe s).fa 0) (getX (myTe s) 0).toInt = (0xF00012000000000100, 0)
        ∧ isMesh 0xF00012000000000100 = true)
    ∧ (2 % 2 = 0 ∧ 3 % 2 = 1) ∧ ((engine s 17).queue = [] ∧ (engine s 17).inbound = [])
    ∧ (sem s 17 (xr s 7 % 256) + xr s 7 % 65536 ≤ 0xFFFF ∧ sem s 17 1 < xr s 7 % 65536 ∧ xr s 0 % 65536 ≤ sem s 17 1)
    -- te.mbox
    ∧ ((myTe s).wait = .none ∧ (myTe (far { wait := .mbox } 0)).wait = .mbox ∧ (myTe (far { wait := .mbox } 0)).reply = none
        ∧ (myTe (far { wait := .mbox, reply := some { kind := 5, value := 0 } } 0)).reply = some { kind := 5, value := 0 })
    -- te.cmd: the last place of 136 bytes, one beyond it; the semaphore at the threshold, and below
    ∧ (¬ ((myTe idle).cur.isSome ∨ xr idle 6 % 8 ≠ 0 ∨ xr idle 6 < 0x10000 ∨ 0x18000 < xr idle 6 + 136) ∧ 0x18000 < xr idle 7 + 136 ∧ (myTe s).queue = [])
    ∧ ((myTe idle).queue = q :: [] ∧ field q.sync 40 16 = sem idle 17 (field q.sync 56 8) ∧ q.desc.length = 16 ∧ q.token = 0 ∧ q.slot < 8
        ∧ sem (far { queue := [q] } 0) 17 5 < field q.sync 40 16)
    -- te.done
    ∧ ((myTe s).cur = none ∧ (myTe atWork).cur = some { q with sync := 0 } ∧ xr atWork 7 % 256 ≠ 0 ∧ xr atWork 0 % 256 = 0 ∧ field 0 12 1 ≠ 1
        ∧ sem atWork 17 (field 0 32 8) + field 0 24 8 ≤ 0xFFFF) :=
  ⟨far_quiet _ rfl rfl _, far_quiet _ rfl rfl _, far_quiet _ rfl rfl _, by decide, by decide, by decide, by decide, by decide, by decide, by decide, by decide⟩

/-- A service core that asks core 17 (route word 0x88 × 8): a target thread in a state, in a gang. -/
def serve (x : TState) (r : PrivReq) : State :=
  { duo { scal with st := x } with privs := [(0, r)], cur := { core := 512, args := [0] } }

def req (op k : Nat) (a b : Word) : PrivReq := { core := 512, slot := 0, op := op, k := k, a := a, b := b, left := 0 }

theorem witness_PrivilegedInstructionsAwaitTheirAcknowledgement :
    let th : Thread := { scal with sregs := [(1, ⟨0x0004000000000048, 0⟩), (2, ⟨0x0002000000000048, 0⟩), (3, ⟨0x0001000000000048, 0⟩), (4, ⟨0x48, 0⟩), (5, ⟨0x1048, 0⟩)] }
    let s : State := { State.reset with cores := [(512, { threads := [(0, th)] })], cur := { core := 512 } }
    let done : State := { State.reset with cores := [(512, { threads := [(0, { th with priv := some 3, privDone := some 8 })] })], cur := { core := 512 } }
    let n := fun i => (body s i).toNat
    ((field (n 4) 50 14 = 0 ∧ field (n 4) 49 1 = 0 ∧ field (n 4) 48 2 = 0) ∧ ¬ (field (n 1) 50 14 = 0) ∧ ¬ (field (n 2) 49 1 = 0) ∧ ¬ (field (n 3) 48 1 = 0))
    ∧ ((me s).privDone = none ∧ (me s).priv = none ∧ (me done).privDone = some 8 ∧ (me done).priv = some 3)
    ∧ (field (n 4) 12 10 = s.node ∧ field (n 5) 12 10 ≠ s.node)
    -- at the target
    ∧ (let h := serve .halt (req 0 0 0x48 0)
      h.cur.args = [0] ∧ tfind h.privs 0 = some (req 0 0 0x48 0) ∧ Routes h 0x48 17 ∧ 0x48 % 8 = 0 ∧ field 0x48 25 1 = 0 ∧ (Machine.core h 17).gang.isSome = true
        ∧ (thread h 17 (field 0x48 22 3)).lands = [] ∧ (thread h 17 0).st = .halt)
    ∧ ((thread (serve .run (req 0 1 0x48 0)) 17 0).st ≠ .halt ∧ (thread (serve .run (req 7 0 0x48 0)) 17 0).st = .run ∧ (thread (serve .done (req 7 1 0x48 0)) 17 0).st = .done
        ∧ (thread (serve .vacant (req 7 0 0x48 0)) 17 0).st ≠ .saved
        ∧ (thread (serve .run (req 7 0 0x48 0)) 17 0).saving = false)
    ∧ (let g := serve .run (req 3 0 0x10003FFF8000 0x48)
      Routes g 0x48 17 ∧ field 0x10003FFF8000 44 1 = 1 ∧ field 0x10003FFF8000 15 15 + field 0x10003FFF8000 0 15 = 0x7FFF
        ∧ 0x7FFF < field 0x10003FFF8001 15 15 + field 0x10003FFF8001 0 15)
    ∧ (let k : State := { serve .run (req 0 0 0x48 0) with cur := { args := [0, 1] } }
      k.cur.args = [0, 1] ∧ tfind k.privs 0 = some (req 0 0 0x48 0) ∧ (thread k 512 0).priv ≠ some 0
        ∧ (thread { k with cores := [(512, { threads := [(0, { scal with priv := some 0 })] })] } 512 0).priv = some 0) := by
  unfold Routes; decide

/-- Causes that reach a thread, at the ends of the table's ranges, and the codes beyond them. -/
theorem witness_causes_that_reach_a_thread :
    (∀ n ∈ [0x01, 0x06, 0x08, 0x0D, 0x10, 0x24, 0x28, 0x29, 0x40, 0x44, 0x60, 0x67, 0x80, 0x86, 0xA0, 0xA3, 0xC0, 0xC2], ReachesThread n)
    ∧ (∀ n ∈ [0x00, 0x07, 0x0E, 0x0F, 0x25, 0x2A, 0x45, 0x68, 0x87, 0xA4, 0xC3, 0xE0, 0xE3, 0xFF], ¬ ReachesThread n) := by
  unfold ReachesThread; simp

theorem witness_ServiceMessagesRepliesAndWindows :
    let sv := fun (q r : Nat) => { State.reset with cores := [(512, { svc := { inqw := q, inqr := r } })], cur := { args := 512 :: [1, 2, 3, 4, 5, 6, 7, 8] } }
    let s := duo { scal with wait := .translation, ticket := 5, mboxReq := some (1, 2), mboxTicket := 6 }
    let op : WinOp := { req := 0, kill := true, table := 0, index := 7, entry := 9, begun := true, left := [17] }
    let o : State := { duo scal with winops := [(4, op)], cur := { args := [4, 17] } }
    -- 1,023 and 1,024 messages are unread
    (((sv 3 64516).cur.args = 512 :: [1, 2, 3, 4, 5, 6, 7, 8] ∧ [1, 2, 3, 4, 5, 6, 7, 8].length = 8 ∧ (Machine.core (sv 3 64516) 512).svc.inbox = []
      ∧ portHolds (sv 3 64516) 512 (scratch 512 + 0x70000 + 64 * 3) 64 = false ∧ (Machine.core (sv 3 64516) 512).waits = [])
      ∧ (3 + 65536 - 64516) % 65536 < 1024 ∧ 1024 ≤ (3 + 65536 - 64515) % 65536)
    -- the thread port holds the slot's bank words
    ∧ portHolds { sv 3 3 with cores := [(512, { svc := { inqw := 3 }, port := [⟨4, [(scratch 512 + 0x70000 + 64 * 3 + 63, 1)], [], none⟩] })] } 512
        (scratch 512 + 0x70000 + 64 * 3) 64 = true
    -- an install under way covers the address of the awaited fault, or none does
    ∧ (covered s (faultAt s 17 0x500000048) = false
        ∧ (let m := duo { scal with wait := .translation, ticket := 5, missed := some (0, 0x4000) }
          let i : WinOp := { req := 0, kill := false, table := 0, index := 7, entry := 2 ^ 127 + 4 * 2 ^ 64, begun := true, left := [] }
          covered { m with winops := [(1, i)] } (faultAt m 17 0x500000048) = true))
    ∧ (coreAt (field 0x500000048 0 22) = some 17 ∧ 0x500000048 % 8 = 0 ∧ (Machine.core s 17).gang.isSome = true ∧ (thread s 17 (field 0x500000048 22 3)).st ≠ .saved)
    ∧ ((thread s 17 0).wait ≠ .none ∧ (thread s 17 0).reply = none ∧ (thread s 17 0).ticket = field 0x500000048 32 16)
    ∧ ((thread s 17 0).mboxReq.isSome = true ∧ (thread s 17 0).mboxReply = none ∧ (thread s 17 0).mboxTicket = field 0x600000048 32 16)
    ∧ ¬ ((thread s 17 0).ticket = field 0x700000048 32 16)
    -- a finished thread that awaits the answer to a delivery fault
    ∧ (let e := duo { scal with st := .done, wait := .delivery, ticket := 5, serving := some ⟨0xC0, 0, 0, none, 0, 0, 0, false, false⟩ }
      covered e (faultAt e 17 0x500000048) = false ∧ (thread e 17 0).st = .done ∧ (thread e 17 0).wait = .delivery ∧ (thread e 17 0).reply = none
        ∧ (thread e 17 0).ticket = field 0x500000048 32 16 ∧ (thread e 17 0).serving = some ⟨0xC0, 0, 0, none, 0, 0, 0, false, false⟩)
    -- the debug read of a vacant and of a running thread, at the last register of each class
    ∧ (coreAt (field 0x48 0 22) = some 17 ∧ field 0x48 12 10 = (duo scal).node ∧ (thread (duo { scal with st := .vacant }) 17 0).st = .vacant
        ∧ (thread (duo scal) 17 0).st ≠ .vacant ∧ field 0x3F0000048 25 3 = 0 ∧ field 0x0F2000048 25 3 = 1 ∧ field 0x0F2000048 28 6 = 15 ∧ field 0x2F4000048 25 3 = 2
        ∧ field 0x2F4000048 28 6 = 47 ∧ 47 < (thread (duo scal) 17 0).nv ∧ (thread (duo { scal with nv := 47 }) 17 0).nv ≤ 47
        ∧ (thread (duo scal) 17 0).lands = [] ∧ field 0x240008000048 25 3 = 4 ∧ field 0x240008000048 41 12 = 0x012 ∧ (thread (duo scal) 17 0).saving = false
        ∧ (duo scal).gcyc % 8 = field 0x48 22 3 ∧ (duo scal).gcyc % 8 ≠ field 0x400048 22 3)
    ∧ ((Machine.core { (duo scal) with cores := [(512, { svc := { dbgsel := 0x48 } })] } 512).svc.dbgsel.toNat = 0x48 ∧ 2 ^ 64 - 1 < 2 ^ 64)
    -- installs and kills
    ∧ (o.cur.args = [4, 17] ∧ tfind o.winops 4 = some op ∧ op.left = [17] ∧ op.kill = true ∧ 17 ∈ op.left ∧ o.flights = [] ∧ packetThrough o 17 7 = false
        ∧ packetThrough (duo { scal with packet := some ⟨false, false, 0, 0, 8, 0, [], 0, 0, 0, 0⟩ }) 17 7 = true) := by decide

/-- Core 17 in a gang of its own whose thread stands in a state. -/
def solo (th : Thread) (g : Gang) : State :=
  { State.reset with cores := [(17, { threads := [(0, th)], gang := some 0 })], gangs := [(0, g)], cur := { args := [17, 0] } }
def lone : Gang := { cols := 1, rows := 1, dies := [0], orgs := [(1, 1)], slotm := 1, counts := [1], widths := [0], pre := true, savb := 0x400000 }

theorem witness_ContextsAreSavedAndGangsReleased :
    let s := solo { scal with saveReq := true } lone
    let v := solo { scal with saving := true } lone
    let d := solo { scal with st := .saved } lone
    let g := fun (th : Thread) (x : Gang) => { solo th x with cur := { args := [0x100000 + 0] } }
    let r := fun (th : Thread) (x : Gang) => { solo th x with cur := { args := [0] } }
    (s.cur.args = [17, 0] ∧ s.flights = [] ∧ (∀ p ∈ ({ s with flights := [(0, { away with who := 1 }), (1, { away with core := 18 })] } : State).flights, ¬ (p.2.core = 17 ∧ p.2.who = 0))
        ∧ (thread s 17 0).faults = [] ∧ (thread s 17 0).saveReq = true ∧ (thread v 17 0).saveReq = false)
    ∧ ((thread v 17 0).saving = true ∧ (thread v 17 0).nv ≤ 48 ∧ (thread v 17 0).lands.length ≤ 9 ∧ gangOf v 17 = some lone ∧ lone.savedAll = false ∧ (thread s 17 0).saving = false)
    ∧ ((thread v 17 0).endReq = false ∧ (thread v 17 0).resume = none ∧ (solo { scal with saving := true, endReq := true } lone).flights = []
        ∧ ({ scal with saving := true, st := .halt, resume := some 5 } : Thread).endReq = false)
    ∧ ((thread d 17 0).st = .saved ∧ (thread d 17 0).savedSt ≠ .done ∧ (thread s 17 0).st ≠ .saved
        ∧ (thread (solo { scal with st := .saved, savedSt := .done } lone) 17 0).savedSt = .done)
    -- the save turn finds the bundle expanded, or its expansion under way
    ∧ (let f := fun (n : Nat) => { scal with saveReq := true, half0 := some { seg := 0, next := 5, len := 1, bundles := some [], left := n } }
      (f 0).st = .run ∧ (f 0).curHalf ≤ 1 ∧ (halfOf (f 0) (f 0).curHalf).map Half.seg = some ((f 0).next / 32) ∧ (halfOf (f 0) (f 0).curHalf).map Half.left = some 0
        ∧ (halfOf (f 3) (f 3).curHalf).map Half.left = some 3 ∧ ({ scal with saveReq := true, st := .halt } : Thread).st ≠ .run)
    -- an image that no one has touched: that of a thread without a gang, none being kept
    ∧ ((thread (one { scal with st := .saved }) 17 0).st = .saved ∧ (thread (one { scal with st := .saved }) 17 0).savedSt ≠ .done ∧ imageIntact (one { scal with st := .saved }) 17 0 = true)
    -- a gang: all saved, or its engine at work
    ∧ (let h : Gang := { lone with hold := true }
      tfind (g { scal with st := .saved } h).gangs 0 = some h ∧ h.hold = true ∧ (∀ c ∈ coresOf h, c < 512 ∧ (Machine.core (g { scal with st := .saved } h) c).gang = some 0)
        ∧ (∀ c ∈ coresOf h, (engine (g { scal with st := .saved } h) c).running = false ∧ (Machine.core (g { scal with st := .saved } h) c).port = []
          ∧ (Machine.core (g { scal with st := .saved } h) c).waits = [] ∧ (g { scal with st := .saved } h).flights = []
          ∧ (∀ e ∈ (g { scal with st := .saved } h).agenda, e.instr ≠ .channelWordArrival) ∧ ∀ k ∈ slotsOf h.slotm, (thread (g { scal with st := .saved } h) c k).st = .saved))
    ∧ (let b : State := { g scal { lone with hold := true } with cores := [(17, { threads := [(0, scal)], gang := some 0, eng := { running := true } })] }
      ∃ c ∈ coresOf { lone with hold := true }, (engine b c).running = true ∧ (engine b c).fault = 0)
    ∧ ({ lone with hold := true, savedAll := true } : Gang).savedAll = true
    -- release and completion
    ∧ (tfind (r scal lone).gangs 0 = some lone ∧ lone.released = false ∧ itemsOf lone ≠ 0 ∧ itemsOf { lone with counts := [0] } = 0)
    ∧ (let w := r { scal with st := .done } { lone with released := true }
      tfind w.gangs 0 = some { lone with released := true } ∧ lone.completed = none ∧ (∀ c ∈ coresOf lone, ∀ k ∈ slotsOf lone.slotm, (thread w c k).st = .done
        ∧ (thread w c k).faults = [] ∧ (thread w c k).serving = none ∧ (thread w c k).busy = 0) ∧ w.flights = [] ∧ lone.released = false
        ∧ ({ lone with released := true } : Gang).completed = none ∧ ({ away with gone := true } : Flight).gone = true)
    ∧ (∃ c ∈ coresOf lone, ∃ k ∈ slotsOf lone.slotm, (thread (r scal lone) c k).st ≠ .done) := by
  refine ⟨by decide, by decide, by decide, by decide, by decide, by decide, by decide, by decide, by decide, by decide, by decide, by decide⟩

theorem witness_TurnsBeginAndFarAccessesEnd :
    let t := fun (th : Thread) => { one th with cur := { args := [17, 0] } }
    let hf := fun (n : Nat) => ({ seg := 0, next := 5, len := 1, bundles := some [], left := n } : Half)
    let b := { scal with half0 := some (hf 1), curSeg := some 0 }
    let home := fun (f : Flight) => { st with flights := [(0, f)], cores := [], cur := { args := [0] } }
    ((t scal).cur.args = [17, 0] ∧ (Machine.core (t scal) 17).gang = none)
    ∧ ((thread (t { scal with st := .vacant }) 17 0).st = .vacant ∧ (thread (t { scal with st := .halt }) 17 0).st = .halt ∧ Calm { scal with st := .halt })
    ∧ (Calm { scal with st := .out, outUntil := 101 } ∧ scal.st = .run ∧ Calm { scal with outUntil := 101 } ∧ scal.ttc < 101 ∧ Calm { scal with st := .done, busy := 1 })
    ∧ (Calm b ∧ b.outUntil ≤ b.ttc ∧ b.curHalf ≤ 1 ∧ halfOf b b.curHalf = some (hf 1) ∧ (hf 1).seg = b.next / 32 ∧ (hf 1).bundles = some [] ∧ b.curSeg = some (b.next / 32) ∧ (hf 1).left ≠ 0 ∧ (hf 0).left = 0)
    ∧ ((thread (t { scal with faults := [⟨0xC0, 0, 0, none, 0, 0, 0, false, false⟩] }) 17 0).faults = ⟨0xC0, 0, 0, none, 0, 0, 0, false, false⟩ :: [] ∧ 0xC0 < 256 ∧ (t scal).node < 1024 ∧ (thread (t scal) 17 0).faults = [])
    -- a home: a load, a store, an atomic, a load that waits
    ∧ (Arrives (home { away with size := 4 }) 0 { away with size := 4 } ∧ Clean (home { away with size := 4 }) 0x100 4)
    ∧ Arrives (home { away with op := .st, size := 2, data := [1, 255] }) 0 { away with op := .st, size := 2, data := [1, 255] }
    ∧ Arrives (home { away with op := .atom, size := 8, code := 1 }) 0 { away with op := .atom, size := 8, code := 1 }
    ∧ Arrives (home { away with size := 4, st := .refused }) 0 { away with size := 4, st := .refused }
    ∧ (((tget [] (home away).retry away.home).length < 4096 ∧ 4096 ≤ (List.replicate 4096 7).length ∧ ∀ l, tget [] ({ home away with retry := [(0, l)] } : State).retry 0 = l)
        ∧ (thread (home away) 17 0).saving = false)
    ∧ (∃ x, 0x100 ≤ x ∧ x < 0x100 + 4 ∧ (thread (home away) 17 0).st ≠ .done ∧ isFull { home { away with size := 4, mode := 1 } with empty := [(0x40, true)] } x = false)
    -- replies
    ∧ (tfind (home { away with dest := some 5 }).flights 0 = some { away with dest := some 5 } ∧ away.replied = false ∧ away.acked = false ∧ away.who < 8 ∧ away.core < 528
        ∧ (thread st 17 0).saving = false ∧ away.group = none ∧ away.early = false)
    -- an FVATOM that its link answered early, with flags, and one whose party is no more
    ∧ (away.gone = false ∧ ({ away with gone := true } : Flight).gone = true ∧ away.core < 2 ^ 32 ∧ (thread st 17 0).st ≠ .saved)
    ∧ (let v : Flight := { away with op := .vat, early := true, oflags := 1 }
      v.who < 8 ∧ v.early = true ∧ v.oflags ≠ 0 ∧ v.op = .vat ∧ v.dest = none ∧ v.acked = false ∧ away.oflags = 0 ∧ (0x65 : Nat) ≠ 0) := by
  refine ⟨by decide, ⟨by decide, by decide, ?_⟩, ⟨?_, by decide, ?_⟩, ⟨?_, by decide⟩, by decide, ⟨?_, clean_of_empty rfl _ _⟩, ?_, ?_, ?_, ⟨⟨by decide, by rw [List.length_replicate], fun _ => rfl⟩, by decide⟩, ⟨0x100, by decide⟩, by decide, by decide, by decide⟩ <;>
    first
    | (unfold Calm; decide)
    | exact ⟨rfl, rfl, by decide, fun _ _ _ => ⟨rfl, fun p h => absurd (show p ∈ ([] : Tab Gang) from h) List.not_mem_nil⟩, rfl, by decide, by decide,
        fun g h => absurd (show none = some g from h) (by simp), by decide, by decide, rfl, rfl, rfl, rfl, rfl, rfl, rfl, rfl⟩

/-- A partition of the whole of die 0 with 1 MiB of DRAM, and queue 1 with one command of it at work. -/
def tenant : Partition := { rects := [508], dbase := 0, dsize := 0x100000, qmask := 2, copyep := 0x48 }
def cmd (args : List Nat) : Command := { seq := 4, kind := 1, flags := 0, args := args, st := .running, left := 0, status := 0, cause := 0 }

def asked (args : List Nat) (mem : List Host.Cell) (gs : Tab Gang) : State :=
  { State.reset with
    mem := mem, gangs := gs, front := { parts := [(0, tenant)], queues := [(1, { cmds := [cmd args] })] }, cur := { args := [1, 4, 0] }
    agenda := [{ due := 0, instr := .launch, args := [1, 4, 0], chan := [] }] }

/-- A code object at 0x1000, written out from Tables 15.1 to 15.5 and 3.22: one core, slot 0, one loop of one item; a segment of one bundle that
holds a NOP; the chain of that segment. -/
def objectMem : List Host.Cell :=
  [⟨0x1000, 84⟩, ⟨0x1001, 67⟩, ⟨0x1002, 79⟩, ⟨0x1003, 49⟩, ⟨0x1004, 17⟩, ⟨0x1005, 1⟩, ⟨0x1008, 3⟩, ⟨0x100C, 40⟩, ⟨0x100D, 1⟩, ⟨0x1040, 1⟩,
   ⟨0x1044, 112⟩, ⟨0x1048, 160⟩, ⟨0x1050, 2⟩, ⟨0x1054, 16⟩, ⟨0x1055, 1⟩, ⟨0x1058, 16⟩, ⟨0x1060, 3⟩, ⟨0x1064, 32⟩, ⟨0x1065, 1⟩, ⟨0x1068, 4⟩,
   ⟨0x1075, 136⟩, ⟨0x1078, 9⟩, ⟨0x1080, 1⟩, ⟨0x1110, 1⟩, ⟨0x1111, 255⟩, ⟨0x1112, 255⟩, ⟨0x1113, 255⟩, ⟨0x1116, 8⟩, ⟨0x111B, 128⟩]

theorem witness_launch_object : (launchRefused (asked [0x1000] objectMem []) tenant [0x1000]).1 = 0 := by decide +kernel

theorem witness_FrontEndCommandsOfAnyQueue :
    let s := asked [0x1000] [] []
    let v := fun (l : List Nat) => (cmd l).args
    let gr := asked [0x1000] [⟨0x1004, 1⟩] []
    let gc := asked [0x1000] [⟨0x1015, 0x30⟩] []
    let rg := fun (n : Nat) => asked [0x1000] [⟨0x1004, 1⟩, ⟨0x1047, 5⟩, ⟨0x1048, BitVec.ofNat 8 n⟩] []
    let ow : State := { s with cores := [(17, { tes := [(1, { std := false })], gang := some 0 })] }
    let g : Gang := { lone with queue := 1, seq := 9, released := true }
    let x := asked [9, 1] [] [(0, g)]
    (AtWork s 1 4 (cmd [0x1000]) ∧ partOf s 1 = some (0, tenant))
    -- WAIT: a reserved bit, an odd address, beyond the range, met and not met
    ∧ (field 0x400000000 34 30 ≠ 0 ∧ 0x1002 % 4 ≠ 0 ∧ field 0x3FFFFFFFF 34 30 = 0 ∧ field 0x3FFFFFFFF 32 2 = 3)
    ∧ (InRange tenant 0xFFFFC 4 ∧ ¬ InRange tenant 0x100000 4 ∧ (0 : Nat) ≤ numberAt s (keyOf s 0xFFFFC) 4 ∧ ¬ (1 ≤ numberAt s (keyOf s 0xFFFFC) 4) ∧ Seen s 0xFFFFC 4)
    -- LAUNCH
    ∧ (¬ InRange tenant 0xFFFC1 64 ∧ InRange tenant 0xFFFC0 64 ∧ s.agenda.any (fun e => e.instr = .launch && e.due ≤ s.gcyc) = true)
    -- COPY of a descriptor of zeros
    ∧ (CopyGood (((List.range 16).map (objWord s 0x1000)).set 3 0) ∧ ((List.range 16).map (objWord s 0x1000)).getD 3 0 < 16 ∧ ((List.range 16).map (objWord s 0x1000)).getD 3 0 % 8 ≤ 4
        ∧ ¬ CopyGood (((List.range 16).map (objWord gc 0x1000)).set 3 0) ∧ RangesFit s 17 (CopyIn ((List.range 16).map (objWord s 0x1000))) (CopyAligned ((List.range 16).map (objWord s 0x1000)))
        ∧ copyStrays s tenant 17 ((List.range 16).map (objWord s 0x1000)) = false ∧ field tenant.copyep 0 3 = 0 ∧ field tenant.copyep 12 10 = s.node ∧ coreAt (tenant.copyep % 2 ^ 22) = some 17
        ∧ tenant.has 17 = true ∧ (Machine.core s 17).gang = none ∧ InRange tenant 0x1000 128 ∧ Seen s 0x1000 128
        ∧ (tephra s 17 (field tenant.copyep 63 1)).queue.length < 8)
    -- CKPT
    ∧ ((v [0, 1]).getD 1 0 % 4096 ≠ 0 ∧ (v [0x1000, 0, 0x2000]).getD 1 0 = 0 ∧ (v [0x1000, 0, 0x2000]).getD 2 0 % 4096 = 0 ∧ (∀ c ∈ tenant.cores, ∀ j < 2, ¬ ((Machine.core s c).gang.isSome = true ∧ (tephra s c j).std = false))
        ∧ (v [0x1000, 0x1000, 0x2000]).getD 1 0 ≠ 0 ∧ 2 * tenant.cores.length = 256 ∧ (0x1000 / 4096 - 0x1000 / 4096 / 256 * 255 = 1) ∧ (1 : Nat) ≤ 2 ^ 24
        ∧ (∃ c ∈ tenant.cores, ∃ j < 2, (Machine.core ow c).gang.isSome = true ∧ (tephra ow c j).std = false))
    -- GRAPH of one node
    ∧ (InRange tenant 0x1000 (64 * (0 + 1 + 1)) ∧ field (objWord gr 0x1000 0) 0 32 = 0 ∧ field (objWord gr 0x1000 0) 32 24 = 1 ∧ field (objWord gr 0x1000 0) 56 8 = 0
        ∧ (∀ i < 8, 1 ≤ i → objWord gr 0x1000 i = 0) ∧ field (objWord gr 0x1000 8) 56 8 ≠ 5 ∧ field (objWord s 0x1000 0) 32 24 = 0
        ∧ (field (objWord (rg 0) 0x1000 8) 56 8 = 5 ∧ field (objWord (rg 0) 0x1000 9) 0 8 < 1 ∧ field (objWord (rg 0) 0x1000 12) 0 8 ≤ 0 ∧ 0 ≤ field (objWord (rg 0) 0x1000 12) 8 8)
        ∧ (field (objWord (rg 1) 0x1000 8) 56 8 = 5 ∧ ¬ (field (objWord (rg 1) 0x1000 9) 0 8 < 1)) ∧ Seen gr 0x1000 128)
    -- PREEMPT and RESUME
    ∧ (gangOfSeq s 1 0x1000 = none ∧ gangOfSeq x 1 9 = some (0, g) ∧ g.pre = true ∧ g.released = true ∧ g.completed = none ∧ g.savedAll = false
        ∧ gangSaving x 0 = false ∧ tfind x.gangs 0 = some g
        -- a gang saved with its cores freed, which are free, and which another holds
        ∧ (let y := asked [9, 1] [] [(0, { g with savedAll := true })]
          gangOfSeq y 1 9 = some (0, { g with savedAll := true }) ∧ (∀ c ∈ coresOf g, (Machine.core y c).gang = if g.hold then some 0 else none)
            ∧ ¬ (∀ c ∈ coresOf g, (Machine.core { y with cores := [(17, { gang := some 5 })] } c).gang = if g.hold then some 0 else none))) := by
  refine ⟨by unfold AtWork; decide, by decide, ⟨by unfold InRange; decide, by unfold InRange; decide, by decide, by decide, by decide, seen_of_plain rfl rfl rfl _ _⟩,
    by unfold InRange; decide, ⟨by unfold CopyGood; decide, by decide, by decide, by unfold CopyGood; decide,
      ⟨⟨fun _ => nest_of_zeros _ _ _ _ (by decide) _ _ (fun i => zero_dims _ (by decide) 24 i),
          fun _ => nest_of_zeros _ _ _ _ (by decide) _ _ (fun i => zero_dims _ (by decide) 60 i), fun h => absurd h (by decide)⟩,
        by unfold CopyAligned; decide, fun h => absurd h (by decide)⟩,
      by decide, by decide, by decide, by decide, by decide, by decide, by unfold InRange; decide, ⟨by decide, seen_of_plain rfl rfl rfl _ _⟩, by decide⟩, by decide +kernel,
    ⟨by unfold InRange; decide, by decide, by decide, by decide, by decide, by decide, by decide, by decide, by decide, ⟨by decide, seen_of_plain rfl rfl rfl _ _⟩⟩, by decide⟩

/-- Queue 0 with one command at work, over a memory, partitions and queues. -/
def admin (args : List Nat) (mem : List Host.Cell) (f : Front) : State :=
  { State.reset with mem := mem, front := { f with queues := (0, { cmds := [cmd args] }) :: f.queues }, cur := { args := [0, 4, 0] } }

theorem witness_AdministrationOfTheFrontEnd :
    let s := admin [63, 0x1000] [⟨0x1004, 1⟩] {}
    let p := admin [0] [] { parts := [(0, tenant), (7, { tenant with resetting := some (1, 0) })], fwload := some (1, 2, 3) }
    let w := fun i => objWord s 0x1000 i
    let pc := admin [0x1000] [⟨0x1007, 0x10⟩, ⟨0x1008, 0xFC⟩, ⟨0x1009, 1⟩, ⟨0x1033, 0x40⟩] {}
    let pw := admin [0, 0x1000, 1] [⟨0x1000, 5⟩, ⟨0x1007, 0x70⟩, ⟨0x100F, 0x80⟩] { parts := [(0, tenant)] }
    let po := admin [63, 0x1000] [] { queues := [(63, { state := 2, was := 3 })] }
    let up := fun (st : Nat) (r : List Nat) => { admin [3, 1] [] {} with links := { groups := [(3, { state := st, req := r })] } }
    let dead := admin [0] [] { vents := [(3, { failed := true })] }
    (AtWork s 0 4 (cmd [63, 0x1000]) ∧ Seen s 0x1000 64 ∧ Seen s 0x2000 128)
    -- QCONF: the last queue, a good and an empty descriptor block, queues at rest and at work
    ∧ ((63 : Nat) ≤ 63 ∧ 0x1000 % 2 ^ 50 + 64 ≤ 2 ^ 50 ∧ field (w 0) 0 24 = 0 ∧ field (w 0) 56 4 ≤ 10 ∧ field (w 0) 52 4 ≤ 10 ∧ field (w 0) 32 8 ≠ 0
        ∧ (∀ i < 8, 1 ≤ i → w i = 0) ∧ field (objWord s 0x2000 0) 32 8 = 0)
    ∧ ((queue s 63).state ≠ 3 ∧ (queue s 63).cmds = [] ∧ (queue s 63).due = [] ∧ (queue (asked [] [] []) 1).cmds ≠ []
        ∧ ((queue po 63).state = 2 ∧ (queue po 63).was = 3) ∧ (2 ^ 49 / 2 ^ 50 = s.node ∧ 2 ^ 49 ≤ 2 ^ 49 % 2 ^ 50 ∧ 2 ^ 49 % 2 ^ 50 + 64 * 2 ^ (10 + 6) ≤ 3 * 2 ^ 48)
        ∧ InRange tenant 0xFF000 (64 * 2 ^ (0 + 6)) ∧ ¬ InRange tenant 0xFF000 (64 * 2 ^ (1 + 6)))
    -- PCONF of one rectangle and of none
    ∧ (field (objWord s 0x2000 0) 3 57 = 0 ∧ field (objWord s 0x2000 0) 60 4 = 0 ∧ (∀ i < 16, objWord s 0x2000 i = 0) ∧ s.front.parts = [] ∧ s.gangs = []
        ∧ field (objWord pc 0x1000 0) 60 4 = 1 ∧ field (objWord pc 0x1000 0) 0 60 = 0 ∧ objWord pc 0x1000 1 = 508 ∧ (field 508 18 14 = 0 ∧ field 508 0 2 = 0 ∧ field 508 12 4 + field 508 5 4 = 15
        ∧ field 508 9 3 + field 508 2 3 = 7) ∧ objWord pc 0x1000 5 = 0 ∧ objWord pc 0x1000 6 = 2 ^ 30 ∧ objWord pc 0x1000 7 = 0 ∧ objWord pc 0x1000 8 = 0
        ∧ (∀ i < 16, 9 ≤ i → objWord pc 0x1000 i = 0) ∧ rectHas 508 0 15 7 = true ∧ rectHas 508 1 0 0 = false)
    -- PRESET and PWIN
    ∧ (tfind s.front.parts 7 = none ∧ tfind p.front.parts 7 = some { tenant with resetting := some (1, 0) } ∧ tfind p.front.parts 0 = some tenant ∧ tenant.resetting = none
        ∧ field tenant.qmask 0 1 = 0 ∧ p.gangs = [] ∧ p.cores = []
        ∧ installCause pw [] (numberAt pw (keyOf pw 0x1000) 16) = 0 ∧ installCause pw [] (2 ^ 127 + 2 ^ 48) ≠ 0 ∧ (4096 : Nat) ≤ 4096)
    -- a command that stood accepted as the PRESET was, and one that came after it
    ∧ (let dk : State := { p with front := { p.front with queues := [(1, { cmds := [{ cmd [] with doomed := [4] }, { cmd [] with seq := 5 }] })] } }
      field tenant.qmask 1 1 = 1 ∧ ((queue dk 1).cmds.filter (fun x => x.doomed.contains 4)).map (fun x => x.seq) = [4]
        ∧ (queue dk 1).cmds.map (fun x => x.seq) = [4, 5])
    -- FWLOAD and ATTEST
    ∧ (0x100000 < 0xFFFFF + 2 ∧ 0xFFFFF + 1 ≤ 0x100000 ∧ p.front.fwload.isSome = true ∧ s.front.fwload = none)
    ∧ ((∃ v < 4, (vent dead v).failed = true ∨ (vent dead v).reloading = true) ∧ (∀ v < 4, (vent s v).failed = false ∧ (vent s v).reloading = false)
        ∧ 2 ^ 49 / 2 ^ 50 = s.node ∧ 2 ^ 49 ≤ 2 ^ 49 % 2 ^ 50 ∧ 2 ^ 49 % 2 ^ 50 + 8192 ≤ 3 * 2 ^ 48)
    -- SWITCH
    ∧ ((4 : Nat) > 3 ∧ field 0x1000000000000001 60 4 ≠ 0 ∧ (edge (up 5 []) 3).state = 5 ∧ (edge (up 3 [9]) 3).state = 3
        ∧ (edge (up 7 []) 3).state = 7 ∧ (edge (up 0 []) 3).state = 0 ∧ 0 < (up 0 []).board.clk
        ∧ field (numberAt s (keyOf s 0x2000) 192) 9 55 = 0 ∧ field (numberAt s (keyOf s 0x1000) 192) 9 55 ≠ 0 ∧ Seen s 0x2000 192) := by
  refine ⟨⟨by unfold AtWork; decide, ⟨by decide, seen_of_plain rfl rfl rfl _ _⟩, ⟨by decide, seen_of_plain rfl rfl rfl _ _⟩⟩, by decide, by unfold InRange; decide, by decide, by decide, by decide, by decide,
    by decide, ⟨by decide, by decide, by decide, by decide, by decide, by decide, by decide, by decide +kernel, by decide +kernel, ⟨by decide, seen_of_plain rfl rfl rfl _ _⟩⟩⟩

theorem witness_FramesHostAccessesAndReloads :
    let h := fun (l : List Nat) => { State.reset with board := { step := 5 }, cur := { args := l } }
    let q : State := { h [9, 5] with front := { queues := [(9, { cwr := 7, chead := 5 })] } }
    let d : State := { h [3] with front := { vents := [(3, { failed := true }), (2, { failed := true, reloading := true })] } }
    ((h [63, 9]).board.step = 5 ∧ (h [63, 9]).board.rst = false ∧ (h [63, 9]).board.supply = true ∧ (63 : Nat) < 64)
    ∧ ((queue q 9).chead ≤ 7 ∧ 7 ≤ (queue q 9).cwr ∧ ¬ (8 ≤ (queue q 9).cwr))
    ∧ (0x1FFFF0 + 16 ≤ 0x200000 ∧ (511 : Nat) < 512 ∧ 60 + [1, 2, 3, 4].length ≤ 64 ∧ portHolds (h []) 511 (scratch 511 + 0x1FFFF0) 16 = false
        ∧ portBars (h []) 511 (scratch 511 + 0x1FFFF0) 16 = false ∧ (Machine.core (h []) 511).waits = []
        ∧ (Machine.core { h [] with cores := [(511, { waits := [(.hostApertureAccess, [0, 0, 1])] })] } 511).waits ≠ []
        ∧ portBars { h [] with cores := [(511, { port := [⟨4, [(scratch 511 + 0x1FFFF1, 1)], [], none⟩] })] } 511 (scratch 511 + 0x1FFFF0) 2 = true)
    -- a word of the state block, with the port free and not
    ∧ (0x6FF88 + 8 ≤ 0x80000 ∧ portBars (h []) 527 (scratch 527 + 0x6FF88) 8 = false ∧ (scratch 527 + 0x6FF88) % 4 = 0
        ∧ portBars { h [] with cores := [(527, { waits := [(.hostApertureAccess, [2, scratch 527, 1])] })] } 527 (scratch 527 + 0x6FF88) 8 = true)
    ∧ ((vent d 3).failed = true ∧ (∀ u < 4, (vent (h [2]) u).failed = false ∧ (vent (h [2]) u).reloading = false ∧ (vent (h [2]) u).orphaned = false)
        ∧ (h [2]).front.fwload = none ∧ (h [2]).front.hphase = 0 ∧ (∀ q < 64, (queue (h [2]) q).state = 0 ∧ (queue (h [2]) q).due = []) ∧ (h [2]).front.admingo ≠ 1
        ∧ (h [2]).front.started ≠ (h [2]).gcyc + 1 ∧ ({ h [2] with front := { started := 1 } } : State).front.started = (h [2]).gcyc + 1)
    ∧ (State.reset.gangs = [] ∧ tfind q.front.queues 9 = some { cwr := 7, chead := 5 })
    ∧ ((12 : Nat) + 2 = (h [12]).board.clk ∧ (h [12]).front.clockDue = none ∧ ¬ (10 + 2 = (h [10]).board.clk) ∧ 4 ≤ (h [12]).board.step
        ∧ ({ h [8] with board := { step := 5, clk := 10 } } : State).board.clk = 8 + 2 ∧ ¬ ((8 : Nat) = 10 ∨ 8 = 12 ∨ 8 = 14) ∧ ¬ (4 ≤ State.reset.board.step))
    ∧ ((vent d (7 % 4)).failed = true ∧ (vent d 2).reloading = true ∧ (vent d 2).failed = true)
    ∧ ((queue (h [63]) 63).state ≠ 3 ∧ (queue { h [63] with front := { queues := [(63, { state := 3 })] } } 63).state = 3) := by decide

/-- An image of a trailer alone, of version 0, whose digest is that of its first 8 bytes: whether it is accepted rests on the two free values alone. -/
theorem witness_trailer :
    let img := List.replicate 8 0 ++ shake256 (List.replicate 8 0) ++ List.replicate 1280 0
    img.length = 1352 ∧ imageVersion img = 0 ∧ imageDigest img = shake256 (img.take (trailerAt img + 8)) := by decide +kernel

/-- SHAKE256 of the empty message begins with 46 B9 DD 2B 0B A8 8D 13 and its 64 bytes end with B3 B7 C4 BE (FIPS 202). -/
theorem test_shake256 : (shake256 []).take 8 = [0x46, 0xB9, 0xDD, 0x2B, 0x0B, 0xA8, 0x8D, 0x13] ∧ (shake256 []).drop 60 = [0xB3, 0xB7, 0xC4, 0xBE] := by decide +kernel

theorem witness_LinksAndConduits :
    let c : State := { State.reset with links := { contexts := [(65536 * 2 + 7, { src := 5, dst := 6, next := 64, used := 3 })], failed := [2] }, cur := { args := [2, 5, 6, 64, 64] } }
    let f : Flight := { away with group := some 3, key := 2 ^ 60 + 2 ^ 50 }
    let e := fun (st tr : Nat) (r : List Nat) => { State.reset with
      links := { groups := [(3, { state := st, tries := tr, req := r, pers := 3 }), (16, { state := 0 })] }, front := { queues := [(0, { cmds := [cmd []] })] }, cur := { args := [3] } }
    -- contexts: a stream that has its tag, and one that has none
    ((∃ p ∈ contextsOf c 2, p.2.src = 5 ∧ p.2.dst = 6) ∧ (∀ p ∈ contextsOf c 2, ¬ (p.2.src = 6 ∧ p.2.dst = 5)))
    ∧ (2 ∈ c.links.failed ∧ 1 ∉ c.links.failed ∧ c.board.supply = true ∧ c.board.rst = false ∧ ({ rst := true } : Board).rst = true
        ∧ (let w : Flight := { away with st := .waiting, home := 1 }
          w.early = false ∧ w.core < 512 ∧ w.home < 4 ∧ (0 : Nat) = (if w.core / 128 / 2 = w.home / 2 then w.core / 128 / 2 else 2 + w.home % 2) ∧ w.core / 128 ≠ w.home))
    ∧ ((∀ g < 16, ¬ ((edge c g).tsync = true ∧ (edge c g).state = 0)) ∧ (∃ g < 16, (edge { c with links := { groups := [(15, { tsync := true, state := 0 })] } } g).tsync = true
        ∧ (edge { c with links := { groups := [(15, { tsync := true, state := 0 })] } } g).state = 0))
    ∧ (∃ p ∈ ({ c with flights := [(0, f)] } : State).flights, p.2.group ≠ none ∧ 2 ^ 60 ≤ p.2.key ∧ srcOf c p.2 = coord c 17 ∧ (p.2.key - 2 ^ 60) / 2 ^ 50 = 1)
    -- the states of group 3
    ∧ ((e 1 0 []).cur.args = [3] ∧ (edge (e 1 0 []) 3).state = 1 ∧ (edge (e 2 0 []) 3).state = 2 ∧ (edge (e 3 0 []) 3).state = 3 ∧ (edge (e 4 1 []) 3).tries < 2
        ∧ 2 ≤ (edge (e 4 2 []) 3).tries ∧ (edge (e 4 2 []) 3).req = [] ∧ (edge (e 5 0 []) 3).state = 5 ∧ (edge (e 6 0 []) 3).state = 6)
    ∧ ((edge (e 4 2 ([4])) 3).req = [4] ∧ command (e 4 2 ([4])) 0 4 = some (cmd []) ∧ (edge (e 6 0 ([4])) 3).req = [4] ∧ command (e 6 0 ([4])) 0 4 = some (cmd []))
    ∧ (∃ p ∈ ({ e 2 0 [] with flights := [(0, f)] } : State).flights, p.2.group = some 3 ∧ p.2.replied = false)
    ∧ (f.group = some 3 ∧ f.replied = false ∧ f.core < 0x10000 ∧ f.op = .ld
        ∧ (let y : Flight := { f with mode := 2, st := .served, size := 4 }
          y.mode = 2 ∧ y.st = .served ∧ y.cause = 0 ∧ hasFe { e 2 0 [] with links := { groups := [(3, { state := 2, pers := 3, peer := 1 })] } } y = true))
    -- a service core whose engine port takes a word of the state block, and one where it waits
    ∧ (portBars (e 1 0 []) 527 (scratch 527 + 0x6FF00 + 8 * 3) 8 = false
        ∧ portBars { e 1 0 [] with cores := [(527, { waits := [(.hostApertureAccess, [2, 0, 0])] })] } 527 (scratch 527 + 0x6FF00 + 8 * 3) 8 = true)
    ∧ (2 < (edge (e 3 0 []) 3).state ∧ (edge (e 0 0 []) 3).state = 0 ∧ (edge (e 0 0 []) 3).pers = 3)
    -- the death of the only link to node 1, which stays bound to its group
    ∧ (let x : State := { e 0 0 [] with links := { groups := [(3, { state := 0, pers := 3, nmask := 2 })] } }
      field (edge x 3).nmask 1 1 = 1 ∧ after (exec .linkDeath x) (fun t => (nodeSet t 1, tfind t.links.bound 1)) = some ([], some 3))
    -- requests of peers: of the host at the last byte, and of a UALink peer in a partition
    ∧ (c.poison = [] ∧ 0x5FDFFFFFFF % 4096 + 1 ≤ 4096 ∧ tget plainPage c.pages (0x5FDFFFFFFF / 4096) = plainPage ∧ (Machine.core c 0x10010).gang = none
        ∧ meetsSide 0x5FDFFFFFFF 1 = false ∧ (edge (e 0 0 []) 16).state ≤ 1 ∧ 0x5FDFFFFFFF + 1 ≤ 0x6000000000 ∧ 0x6000000000 < 0x6000000000 + 1 ∧ meetsSide 0x6000000000 1 = false)
    ∧ (let u : State := { State.reset with
          links := { groups := [(3, { state := 0, pers := 3, peer := 1 })], seen := [(streamKey 3 (5 % 2 ^ 22), [(1 + 7, none)])] }, front := { parts := [(0, tenant)] } }
      (0, tenant) ∈ u.front.parts ∧ (edge u 3).state ≤ 1 ∧ (edge u 3).pers = 3 ∧ (edge u 3).peer = 1 ∧ u.pages = [] ∧ u.poison = [] ∧ u.links.failed = [] ∧ meetsSide 0xFFFF8 8 = false
        ∧ (tget [] u.links.seen (streamKey 3 ((if (edge u 3).peer = 1 ∧ 3 ≠ 16 then 5 else 5 / 8 * 8) % 2 ^ 22))).find? (fun p => p.1 = 1 + 7) = some (1 + 7, none)
        ∧ ([(1 + 7, some (9, 1))] : List (Nat × Option (Nat × Nat))).find? (fun p => p.1 = 1 + 7) = some (1 + 7, some (9, 1))
        ∧ (∀ p ∈ u.front.parts, ¬ (p.2.dbase % 2 ^ 50 ≤ 0xFFFF9 ∧ 0xFFFF9 + 8 ≤ p.2.dbase % 2 ^ 50 + p.2.dsize)) ∧ u.gangs = []
        ∧ 0xFFFF8 % 4096 + 8 ≤ 4096
        ∧ numberAt u 0xFFFF8 8 = (7 * 2 ^ 64) % 2 ^ (8 * 8) ∧ numberAt u 0xFFFF8 8 ≠ 1 % 2 ^ (8 * 8))
    ∧ ((0, tenant) ∈ ({ parts := [(0, tenant)] } : Front).parts ∧ tenant.dbase % 2 ^ 50 ≤ 0xFFFF8 ∧ 0xFFFF8 + 8 ≤ tenant.dbase % 2 ^ 50 + tenant.dsize
        ∧ getNat c 0xFFFF8 8 = (7 * 2 ^ 64) % 2 ^ (8 * 8) ∧ getNat c 0xFFFF8 8 ≠ 1 % 2 ^ (8 * 8)) := by
  refine ⟨⟨by decide, by decide⟩, by decide, ⟨by decide, by decide⟩, by decide, by decide, by decide, by decide, by decide, by decide, by decide, by decide +kernel, by decide, by decide, ⟨by decide, by decide⟩⟩

theorem witness_ResetSupplyAndErrors :
    let b := fun (x : Board) (l : List Nat) => { State.reset with board := x, cur := { args := l } }
    ((b {} [0, 0x3000000000010]).cur.args = [0, 0x3000000000010] ∧ 0x3000000000000 ≤ 0x3000000000010)
    ∧ ((b {} [1, 17, 8]).cur.args = [1, 17, 8] ∧ (b {} [2, 3]).cur.args = [2, 3] ∧ (b {} [3, 17, 1]).cur.args = [3, 17, 1])
    ∧ ((b { rst := true } []).cur.args = [] ∧ (b { rst := true } []).board.rst = true ∧ (b {} []).board.rst = false)
    ∧ ((b { step := 0 } [1]).board.step = 0 ∧ (b { step := 1 } [2]).board.step = 1 ∧ (b { step := 2 } [3]).board.step = 2 ∧ (b { step := 3 } [4]).board.step = 3
        ∧ (b { step := 4 } [5]).board.step = 4 ∧ (b { step := 5 } [5]).board.step + 1 ≠ 5)
    ∧ (0 < (b {} []).board.clk ∧ (b {} []).board.supply = true ∧ (b { supply := false } []).board.supply = false
        ∧ ∀ c, 512 ≤ c → c < 528 → (Machine.core (b { step := 3 } [4]) c).port = [] ∧ (Machine.core (b { step := 3 } [4]) c).waits = [])
    ∧ ((b {} [255]).cur.args = [255] ∧ (b {} [255, 2]).cur.args = [255, 2] ∧ (b {} [255, 6]).cur.args = [255, 6] ∧ (6 : Nat) ≠ 2) :=
  ⟨by decide, by decide, by decide, by decide, ⟨by decide, by decide, by decide, fun _ _ _ => ⟨rfl, rfl⟩⟩, by decide⟩

/-- What the turn of the placed bundle finds: whether it issues, the cause of its encoding checks, its instructions, and whether the first of them runs. -/
def found (s : State) : Option (Bool × Option (Nat × List (Nat × Nat × Instr))) :=
  after (exec .turnStart { resendAll { s with turns := [] } 0 0 with cur := { core := 0, slot := 0, args := [0, 0] } }) (fun t =>
    (t.cur.issue, ((halfOf (me t) (me t).curHalf).bind (fun h => h.bundles.bind (fun bs => bs[t.cur.addr % 32]?))).map (fun b =>
      (encodingCause { t with cur := { t.cur with cvp := Cvp.of b.cvp } } b, slotsIn (svc t) b))))

theorem witness_StepsRunWhatComesNext :
    let s := State.reset.withFetchWord 32 0x011490C0
    let r := placeBundle State.reset 0 0 (oneBundle .s false 0x78000000)
    let t := State.reset.withFetchWord 32 0x0403028B
    let b := tc { std := false, imem := [(0, 0x93), (1, 0x02), (2, 0xF3), (3, 0xFF)] } .illegal
    (State.reset.agenda = { due := 0, instr := .resetDeassert, args := [2], chan := [] } :: [] ∧ (0 : Nat) ≤ State.reset.gcyc)
    ∧ (NothingDue { st with agenda := [] } ∧ st.turns = [] ∧ st.board.rst = false ∧ NothingDue { st with agenda := [], board := { rst := true } }
        ∧ ∀ p ∈ st.cores, p.2.port = [] ∧ p.2.waits = [] ∧ p.2.svc.inbox = [])
    ∧ (({ st with agenda := [], board := { supply := false } } : State).board.supply = false)
    -- a thread's turn: a good word, a reserved one
    ∧ (NothingDue s ∧ s.turns = .thread 0 0 :: [] ∧ savesNow (thread s 0 0) = false ∧ ((found s).map Prod.fst = some true ∧ ((found s).bind Prod.snd).map Prod.fst = some 0
        ∧ (((found s).bind Prod.snd).map Prod.snd).getD [] = [(0, 0, Instr.add ⟨5, 9, 3, none⟩)]))
    ∧ (found r).map (fun p => p.2.map Prod.fst) = some (some 0x01)
    ∧ ((me s).mrep = none ∧ (me s).packet = none ∧ runs s (0, 0, .add ⟨5, 9, 3, none⟩) = true ∧ runs s (0, 48, .add ⟨5, 9, 3, none⟩) = false
        ∧ (shape (.moviLong ⟨6, 0, 0, some 5⟩)).kind = .w)
    -- the code store
    ∧ ((0x3FFFF : Nat) < 0x40000 ∧ (Machine.core s 0).codeBad = [] ∧ segHeaderBad 0 (getNat s (codeStore 0 + 0) 8) = false)
    ∧ (decodeS false none 0x011490C0 = .ok (.add ⟨5, 9, 3, none⟩) ∧ 0x011490C0 < 2 ^ 32)
    ∧ (s.cur.trap = none ∧ s.cur.miss = none ∧ s.cur.block = false ∧ s.cur.flags = 0)
    -- a tephra core's turn
    ∧ (NothingDue t ∧ t.turns = .tephra 0 0 :: [] ∧ (tephra t 0 0).saveWait = false ∧ (tephra t 0 0).wait = .none ∧ (tephra t 0 0).fault = 0 ∧ (tephra t 0 0).faults = []
        ∧ (tephra t 0 0).std = false ∧ (tephra t 0 0).imemBad = false ∧ (tephra t 0 0).pc + insLen (tephra t 0 0) ≤ 0x8000 ∧ insWord (tephra t 0 0) % 128 = 0x0B
        ∧ decodeT (insWord (tephra t 0 0)) = .ok (.teRd ⟨2, 0, 6, 5⟩))
    ∧ ¬ (insWord (tephra b 17 0) % 128 = 0x0B ∨ insWord (tephra b 17 0) % 128 = 0x2B) := by
  refine ⟨by decide, ⟨⟨by decide, fun e r h => absurd (show ([] : List Event) = e :: r from h).symm (List.cons_ne_nil e r)⟩, by decide, by decide, ⟨by decide, fun e r h => absurd (show ([] : List Event) = e :: r from h).symm (List.cons_ne_nil e r)⟩, by decide⟩, by decide, ⟨⟨by decide, fun e r h => absurd (show ([] : List Event) = e :: r from h).symm (List.cons_ne_nil e r)⟩, by decide, by decide, by decide, by decide, by decide⟩, by decide, by decide, by decide, by decide,
    by decide, ⟨⟨by decide, fun e r h => absurd (show ([] : List Event) = e :: r from h).symm (List.cons_ne_nil e r)⟩, by decide⟩, by decide⟩

theorem witness_WordsOfTheEncodingTables :
    (0xFFFFFF < 2 ^ 24 ∧ 0x7FFFFFFFFFFF < 2 ^ 47) ∧ (0x77FFFFFF < 0x78000000 ∧ 0x70000000 ≤ 0x77FFFFFF) ∧ (0x78000000 ≤ 0xFFFFFFFF ∧ 0xFFFFFFFF < 2 ^ 32) := by decide

theorem witness_DecodingAnEncodedInstructionGivesItBack :
    WellFormed false (.vfma ⟨6, 47, 20, 21, 22, 255, 0, none⟩) = true ∧ WellFormed true (.grant ⟨0, 8, 9, none⟩) = true ∧ (63 : Nat) < 64 := by decide

theorem witness_MemoryStaysCanonical : ∃ t, step { mem4 with agenda := [] } = .next t ∧ MemoryCanonical mem4 := ⟨_, rfl, by unfold MemoryCanonical; decide⟩

theorem witness_EveryStepGoesOn : State.reset.board.supply = true := by decide

end Sys2Proof.Tests
end

/-! # What leaves memory

Which operations of the model leave the bytes of memory as they are. Every step's effect on memory then
is that of the few operations left: the writers of bytes and the removers of entries. -/

namespace Sys2Proof.Machine

/-! ## Branches and loops -/

@[simp] theorem mem_ite (p : Prop) [Decidable p] (s t : State) :
    (if p then s else t).mem = if p then s.mem else t.mem :=
  apply_ite ..

/-- A loop leaves memory if each round does. -/
@[simp] theorem foldl_mem {α : Type} (f : State → α → State) (l : List α) (hf : ∀ s x, (f s x).mem = s.mem) (s : State) :
    (l.foldl f s).mem = s.mem := by
  induction l generalizing s with
  | nil => rfl
  | cons x r ih => rw [List.foldl_cons, ih, hf]

theorem foldl_fst_mem {α β : Type} (f : State × β → α → State × β) (l : List α) (hf : ∀ p x, (f p x).1.mem = p.1.mem)
    (p : State × β) : (l.foldl f p).1.mem = p.1.mem := by
  induction l generalizing p with
  | nil => rfl
  | cons x r ih => rw [List.foldl_cons, ih, hf]

/-! ## The shared operations -/

@[simp] theorem portWait_mem (s : State) (c : Nat) (i : Instr) (args : List Nat) :
    (portWait s c i args).mem = s.mem := rfl
@[simp] theorem drawFrom_mem (s : State) (l : List (Nat × Nat)) : (drawFrom s l).2.mem = s.mem := by
  simp only [drawFrom]; split <;> simp
@[simp] theorem drawWords_mem (s : State) (n : Nat) : (drawWords s n).2.mem = s.mem := rfl
@[simp] theorem laterFrom_mem (s : State) (floor : Nat) (chan : List Nat) (i : Instr) (args : List Nat) :
    (laterFrom s floor chan i args).mem = s.mem := rfl
@[simp] theorem report0_mem (s : State) (cause detail : Nat) : (report0 s cause detail).mem = s.mem := rfl
@[simp] theorem postThread_mem (s : State) (c t cause kind acause : Nat) (w : List Nat) :
    (postThread s c t cause kind acause w).mem = s.mem := rfl
@[simp] theorem postHalted_mem (s : State) (c t cause acause addr : Nat) :
    (postHalted s c t cause acause addr).mem = s.mem := rfl
@[simp] theorem landS_mem (s : State) (d lat : Nat) (v : SReg) (flags : Nat) :
    (landS s d lat v flags).mem = s.mem := rfl
@[simp] theorem landW_mem (s : State) (d lat : Nat) (v : Word) (flags : Nat) :
    (landW s d lat v flags).mem = s.mem := rfl
@[simp] theorem landH_mem (s : State) (d lat : Nat) (h : Held) (flags : Nat) :
    (landH s d lat h flags).mem = s.mem := rfl
@[simp] theorem landP_mem (s : State) (d : Nat) (v mask : Pred) (flags : Nat) :
    (landP s d v mask flags).mem = s.mem := rfl
@[simp] theorem landB_mem (s : State) (d : Nat) (b : Bool) (flags : Nat) : (landB s d b flags).mem = s.mem := rfl
@[simp] theorem landA_mem (s : State) (d : Nat) (v : Addr) : (landA s d v).mem = s.mem := rfl
@[simp] theorem landV_mem (s : State) (d lat : Nat) (l : List (Nat × Lane)) (flags : Nat) :
    (landV s d lat l flags).mem = s.mem := rfl
@[simp] theorem landSys_mem (s : State) (n : Nat) (v : Word) : (landSys s n v).mem = s.mem := rfl
@[simp] theorem noteAcquire_mem (s : State) (c kind idx : Nat) : (noteAcquire s c kind idx).mem = s.mem := by
  unfold noteAcquire; split <;> simp
@[simp] theorem haltWith_mem (s : State) (c t cause acause addr : Nat) :
    (haltWith s c t cause acause addr).mem = s.mem := by simp [haltWith]
@[simp] theorem takeTrapAt_mem (s : State) (c t cause addr : Nat) : (takeTrapAt s c t cause addr).mem = s.mem := by
  unfold takeTrapAt; (repeat' split) <;> simp
@[simp] theorem trapNow_mem (s : State) (cause : Nat) : (trapNow s cause).mem = s.mem := by simp [trapNow]

/-! ## Full flags -/

@[simp] theorem landFlags_mem (s : State) (flags : Nat) : (landFlags s flags).mem = s.mem := by simp [landFlags]
@[simp] theorem landFp_mem (s : State) (d lat : Nat) (f : Fmt) (r : Exact × Nat) :
    (landFp s d lat f r).mem = s.mem := rfl
@[simp] theorem landChosen_mem (s : State) (d : Nat) (f : Fmt) (r : Held × Nat) :
    (landChosen s d f r).mem = s.mem := rfl
@[simp] theorem landFl_mem (s : State) (d lat : Nat) (v : Word) (fl : Nat) : (landFl s d lat v fl).mem = s.mem := rfl
@[simp] theorem landBFl_mem (s : State) (d : Nat) (b : Bool) (fl : Nat) : (landBFl s d b fl).mem = s.mem := rfl
@[simp] theorem landVFl_mem (s : State) (d lat : Nat) (l : List (Nat × Lane)) (fl : Nat) :
    (landVFl s d lat l fl).mem = s.mem := rfl

/-! ## A thread's turn -/

@[simp] theorem endTurn_mem (s : State) (c t : Nat) : (endTurn s c t).mem = s.mem := rfl
@[simp] theorem checkDone_mem (s : State) (c : Nat) : (checkDone s c).mem = s.mem := by
  unfold checkDone; split <;> simp
@[simp] theorem postDelivery_mem (s : State) (c t : Nat) (f : FaultRec) (w1 : Nat) :
    (postDelivery s c t f w1).mem = s.mem := rfl
@[simp] theorem nextDoneFault_mem (s : State) (c t : Nat) : (nextDoneFault s c t).mem = s.mem := by
  simp only [nextDoneFault]; split <;> simp
@[simp] theorem doneReply_mem (s : State) (c t : Nat) : (doneReply s c t).mem = s.mem := by
  simp only [doneReply]; (repeat' split) <;> simp
@[simp] theorem noIssue_mem (s : State) : (noIssue s).mem = s.mem := rfl
@[simp] theorem fetchNext_mem (s : State) (c t : Nat) : (fetchNext s c t).mem = s.mem := by
  simp only [fetchNext]; (repeat' split) <;> simp
@[simp] theorem meetFaults_mem (s : State) (c t : Nat) : (meetFaults s c t).mem = s.mem := by
  simp only [meetFaults]; split <;> simp
@[simp] theorem replyValue_mem (s : State) (c t : Nat) : (replyValue s c t).mem = s.mem := by
  simp only [replyValue]; split <;> simp
@[simp] theorem replyAct_mem (s : State) (c t : Nat) : (replyAct s c t).mem = s.mem := by
  simp only [replyAct]; split <;> simp
@[simp] theorem stopTurn_mem (s : State) (c t : Nat) : (stopTurn s c t).mem = s.mem := by simp [stopTurn]
@[simp] theorem becomeDone_mem (s : State) (c t : Nat) : (becomeDone s c t).mem = s.mem := rfl
@[simp] theorem leaveHalt_mem (s : State) (c t a : Nat) : (leaveHalt s c t a).mem = s.mem := rfl

/-! ## Windows -/

@[simp] theorem modEdge_mem (s : State) (g : Nat) (f : EdgeGroup → EdgeGroup) : (modEdge s g f).mem = s.mem := rfl

/-! ## The home of an access -/

@[simp] theorem setFlight_mem (s : State) (id : Nat) (f : Flight) : (setFlight s id f).mem = s.mem := rfl
@[simp] theorem dropFlight_mem (s : State) (id : Nat) : (dropFlight s id).mem = s.mem := rfl
@[simp] theorem conduitPacket_mem (s : State) (a b vc src addr len : Nat) :
    (conduitPacket s a b vc src addr len).mem = s.mem := by
  unfold conduitPacket
  exact foldl_mem _ _ (fun _ _ => by rfl) s
@[simp] theorem tickHome_mem (s : State) (src key len : Nat) :
    (tickHome s src key len).mem = s.mem := by simp [tickHome]
@[simp] theorem noteRelease_mem (s : State) (c kind idx : Nat) : (noteRelease s c kind idx).mem = s.mem := by
  unfold noteRelease; split <;> simp
@[simp] theorem setWritten_mem (s : State) (f : Flight) (k n : Nat) :
    (setWritten s f k n).mem = s.mem := by simp [setWritten]
@[simp] theorem sendAck_mem (s : State) (id cause : Nat) : (sendAck s id cause).mem = s.mem := rfl
@[simp] theorem answer_mem (s : State) (id : Nat) (f : Flight) (cause value flags : Nat) :
    (answer s id f cause value flags).mem = s.mem := by simp [answer]
@[simp] theorem sendHome_mem (s : State) (n id : Nat) (f : Flight) : (sendHome s n id f).mem = s.mem := rfl
@[simp] theorem splitElems_mem (s : State) (f : Flight) : (splitElems s f).1.mem = s.mem := by
  unfold splitElems; split <;> simp
@[simp] theorem setRetry_mem (s : State) (home : Nat) (l : List Nat) : (setRetry s home l).mem = s.mem := rfl
@[simp] theorem sendCancel_mem (s : State) (id : Nat) : (sendCancel s id).mem = s.mem := by
  unfold sendCancel; split <;> simp
@[simp] theorem withdraw_mem (s : State) (id : Nat) (f : Flight) : (withdraw s id f).mem = s.mem := rfl
@[simp] theorem forsake_mem (s : State) (c : Nat) (mine : Flight → Bool) : (forsake s c mine).mem = s.mem := by
  unfold forsake
  exact foldl_mem _ _ (fun _ _ => by simp) _
@[simp] theorem cancelIfSaving_mem (s : State) (id : Nat) (f : Flight) :
    (cancelIfSaving s id f).mem = s.mem := by simp [cancelIfSaving]
@[simp] theorem holdBack_mem (s : State) (id : Nat) (f : Flight) : (holdBack s id f).mem = s.mem := by simp [holdBack]
@[simp] theorem sendBeyond_mem (s : State) (id : Nat) (f : Flight) (g : Nat) :
    (sendBeyond s id f g).mem = s.mem := by simp [sendBeyond]
@[simp] theorem issueFlight_mem (s : State) (f : Flight) : (issueFlight s f).mem = s.mem := by simp [issueFlight]
@[simp] theorem checkSaved_mem (s : State) (c t : Nat) : (checkSaved s c t).mem = s.mem := by simp [checkSaved]
@[simp] theorem ackKill_mem (c : Nat) (s : State) (w : Nat × WinOp) : (ackKill c s w).mem = s.mem := by simp [ackKill]
@[simp] theorem checkKills_mem (s : State) (c : Nat) : (checkKills s c).mem = s.mem := by
  unfold checkKills
  exact foldl_mem _ _ (fun _ _ => by simp) _
@[simp] theorem threadReply_mem (s : State) (f : Flight) : (threadReply s f).mem = s.mem := by simp [threadReply]
@[simp] theorem tephraReply_mem (s : State) (id : Nat) (f : Flight) : (tephraReply s id f).mem = s.mem := rfl
@[simp] theorem cancelAccess_mem (s : State) (id : Nat) (f : Flight) :
    (cancelAccess s id f).mem = s.mem := by simp [cancelAccess]
@[simp] theorem noteSeen_mem (s : State) (k n : Nat) : (noteSeen s k n).mem = s.mem := rfl
@[simp] theorem forgetSeen_mem (s : State) (k n : Nat) : (forgetSeen s k n).mem = s.mem := rfl
@[simp] theorem keepReply_mem (s : State) (f : Flight) : (keepReply s f).mem = s.mem := by simp [keepReply]
@[simp] theorem deliverReply_mem (s : State) (id : Nat) (f : Flight) :
    (deliverReply s id f).mem = s.mem := by simp [deliverReply]
@[simp] theorem postWhileSaving_mem (s : State) (c t : Nat) : (postWhileSaving s c t).mem = s.mem := by
  simp only [postWhileSaving]; split <;> simp
@[simp] theorem afterReply_mem (s : State) (f : Flight) : (afterReply s f).mem = s.mem := by simp [afterReply]

/-! ## Far accesses -/

@[simp] theorem releaseIf_mem (s : State) (ord : Bool) : (releaseIf s ord).mem = s.mem := by simp [releaseIf]
@[simp] theorem closePkt_mem (s : State) (p : Packet) : (closePkt s p).mem = s.mem := by simp [closePkt]
@[simp] theorem keepPkt_mem (s : State) (p : Packet) (e : Nat) : (keepPkt s p e).mem = s.mem := by simp [keepPkt]
@[simp] theorem preMbox_mem (w : XWord) (s : State) : (preMbox w s).mem = s.mem := by simp [preMbox]

/-! ## The core's own memory -/

@[simp] theorem tickPort_mem (s : State) (c n : Nat) : (tickPort s c n).mem = s.mem := rfl
@[simp] theorem setTag_mem (s : State) (n : Nat) (e : TagEntry) : (setTag s n e).mem = s.mem := rfl

/-! ## The matrix engine -/

@[simp] theorem modEngine_mem (s : State) (c : Nat) (f : Engine → Engine) : (modEngine s c f).mem = s.mem := rfl
@[simp] theorem kickEngine_mem (s : State) (c : Nat) : (kickEngine s c).mem = s.mem := by simp [kickEngine]
@[simp] theorem threadLess_mem (s : State) (o t : Nat) : (threadLess s o t).mem = s.mem := by simp [threadLess]
@[simp] theorem engineFault_mem (s : State) (c cause : Nat) : (engineFault s c cause).mem = s.mem := rfl
@[simp] theorem nextPart_mem (s : State) (c : Nat) (l : List (Nat × Nat)) :
    (nextPart s c l).mem = s.mem := by simp [nextPart]
@[simp] theorem tickPart_mem (s : State) (c : Nat) (q : EngCmd) (i : Nat) : (tickPart s c q i).mem = s.mem := by
  unfold tickPart; (repeat' split) <;> simp
@[simp] theorem enginePacket_mem (s : State) (c k len : Nat) :
    (enginePacket s c k len).mem = s.mem := by simp [enginePacket]
@[simp] theorem retireSync_mem (s : State) (c y : Nat) : (retireSync s c y).mem = s.mem := by simp [retireSync]
@[simp] theorem dequeue_mem (s : State) (c : Nat) (q : EngCmd) : (dequeue s c q).mem = s.mem := by simp [dequeue]
@[simp] theorem recordAccess_mem (s : State) (ofs : Nat) : (recordAccess s ofs).mem = s.mem := rfl
@[simp] theorem enqueue_mem (s : State) (q : EngCmd) : (enqueue s q).mem = s.mem := by simp [enqueue]
@[simp] theorem mcmdReply_mem (s : State) (l : List Nat) (cause : Nat) :
    (mcmdReply s l cause).mem = s.mem := by rw [mcmdReply, later_mem, conduitPacket_mem]

/-! ## The tephra core's base instructions -/

@[simp] theorem modTephra_mem (s : State) (c k : Nat) (f : Tephra → Tephra) : (modTephra s c k f).mem = s.mem := rfl
@[simp] theorem modTe_mem (s : State) (f : Tephra → Tephra) : (modTe s f).mem = s.mem := rfl
@[simp] theorem messagePc_mem (s : State) (te : Tephra) : (messagePc s te).2.mem = s.mem := by
  unfold messagePc; split <;> simp
@[simp] theorem postTephra_mem (s : State) (c k kind cause : Nat) (w : List Nat) :
    (postTephra s c k kind cause w).mem = s.mem := by simp [postTephra]
@[simp] theorem teFaultAt_mem (s : State) (c k cause ea word : Nat) :
    (teFaultAt s c k cause ea word).mem = s.mem := by simp [teFaultAt]
@[simp] theorem teFault_mem (s : State) (cause ea : Nat) : (teFault s cause ea).mem = s.mem := by simp [teFault]
@[simp] theorem teMiss_mem (s : State) (a : Addr) (aword : Nat) (t : Trans) :
    (teMiss s a aword t).mem = s.mem := by simp [teMiss]
@[simp] theorem withDmem_mem (s : State) (a n : Nat) (go : Tephra → Tephra) :
    (withDmem s a n go).mem = s.mem := by simp [withDmem]

/-! ## The tephra core -/

@[simp] theorem teDoneX_mem (s : State) (rd v : Nat) : (teDoneX s rd v).mem = s.mem := rfl
theorem teTranslate_mem (s : State) (a : Addr) (size align aword : Nat) (need : Need) (go : Trans → State)
    (hgo : ∀ t, (go t).mem = s.mem) : (teTranslate s a size align aword need go).mem = s.mem := by
  simp [teTranslate, hgo]
theorem teBlocking_mem (s : State) (a : Addr × Nat) (size f3 : Nat) (need : Need) (mk : Trans → Flight)
    (done : State → Nat → State) (hd : ∀ x v, (done x v).mem = x.mem) :
    (teBlocking s a size f3 need mk done).mem = s.mem := by
  simp only [teBlocking]
  split
  · simp [hd]
  · simp [teTranslate_mem]
@[simp] theorem tePosted_mem (s : State) (a : Addr × Nat) (size f3 : Nat) (need : Need) (mk : Trans → Flight) :
    (tePosted s a size f3 need mk).mem = s.mem := by simp [tePosted, teTranslate_mem]
theorem withBlock_mem (s : State) (d align : Nat) (go : State) (hgo : go.mem = s.mem) :
    (withBlock s d align go).mem = s.mem := by
  simp [withBlock, hgo]
@[simp] theorem teSignal_mem (s : State) (c k n v : Nat) : (teSignal s c k n v).mem = s.mem := by simp [teSignal]
theorem saveFlight_mem (s : State) (a b : Addr) (go : Flight → State) (hgo : ∀ f, (go f).mem = s.mem) :
    (saveFlight s a b go).mem = s.mem := by
  simp [saveFlight, hgo]
@[simp] theorem teStart_mem (s : State) (c k : Nat) (q : TeCmd) : (teStart s c k q).mem = s.mem := by simp [teStart]
@[simp] theorem shareEnd_mem (s : State) (token cause : Nat) : (shareEnd s token cause).mem = s.mem := by
  unfold shareEnd; split <;> simp
@[simp] theorem teGone_mem (s : State) (c : Nat) (q : TeCmd) (cause : Nat) :
    (teGone s c q cause).mem = s.mem := by simp [teGone]
@[simp] theorem teSync_mem (s : State) (c k y : Nat) : (teSync s c k y).mem = s.mem := by simp [teSync]
theorem teRetire_mem (s : State) (c k : Nat) (q : TeCmd) (go : State → State) (hgo : ∀ x, (go x).mem = x.mem) :
    (teRetire s c k q go).mem = s.mem := by
  simp [teRetire, hgo]
@[simp] theorem setStd_mem (s : State) (f : StdState → StdState) : (setStd s f).mem = s.mem := rfl
@[simp] theorem stdRead_mem (s : State) (d : List Nat) (i : Nat) :
    (stdRead s d i).mem = s.mem := by simp [stdRead, teTranslate_mem]
@[simp] theorem stdWrite_mem (s : State) (d : List Nat) (i v : Nat) :
    (stdWrite s d i v).mem = s.mem := by simp [stdWrite, teTranslate_mem]
@[simp] theorem stdPage_mem (s : State) (d : List Nat) (i : Nat) :
    (stdPage s d i).mem = s.mem := by simp [stdPage, saveFlight_mem]
@[simp] theorem stdCopy_mem (s : State) (d : List Nat) : (stdCopy s d).mem = s.mem := by
  unfold stdCopy; (repeat' split) <;> simp
@[simp] theorem stdScatter_mem (s : State) (d : List Nat) : (stdScatter s d).mem = s.mem := by
  simp only [stdScatter]; split <;> simp
@[simp] theorem stdStatus_mem (s : State) (ofs : Nat) : (stdStatus s ofs).mem = s.mem := by simp [stdStatus]
@[simp] theorem tePostFault_mem (s : State) (c k : Nat) (f : FaultRec) :
    (tePostFault s c k f).mem = s.mem := by simp [tePostFault]

/-! ## Saves and restores -/

@[simp] theorem moveFlights_mem (s : State) (src dst : Nat) : (moveFlights s src dst).mem = s.mem := rfl
@[simp] theorem viewGang_mem (s : State) (n c : Nat) : (viewGang s n c).mem = s.mem := rfl
@[simp] theorem viewImage_mem (s : State) (c : Nat) : (viewImage s c).mem = s.mem := by
  unfold viewImage; split <;> simp
@[simp] theorem freeThread_mem (s : State) (c t : Nat) : (freeThread s c t).mem = s.mem := rfl
@[simp] theorem cancelWaiting_mem (s : State) (c who : Nat) :
    (cancelWaiting s c who).mem = s.mem := by simp [cancelWaiting]
@[simp] theorem moveRequests_mem (s : State) (src dst : Nat) : (moveRequests s src dst).mem = s.mem := rfl
@[simp] theorem putScratchBits_mem (s : State) (a : Nat) (b : Tab Bool × Tab Bool) :
    (putScratchBits s a b).mem = s.mem := rfl
@[simp] theorem beginGangSave_mem (s : State) (n : Nat) (hold : Bool) :
    (beginGangSave s n hold).mem = s.mem := by simp [beginGangSave]
@[simp] theorem resumeThread_mem (s0 : State) (c t : Nat) :
    (resumeThread s0 c t).mem = s0.mem := by simp [resumeThread]
@[simp] theorem resendOne_mem (s : State) (id : Nat) : (resendOne s id).mem = s.mem := by
  unfold resendOne; split <;> simp
@[simp] theorem resendAll_mem (s : State) (c t : Nat) : (resendAll s c t).mem = s.mem := by
  unfold resendAll; split <;> simp
@[simp] theorem freeBlock_mem (s : State) (c : Nat) : (freeBlock s c).mem = s.mem := rfl
@[simp] theorem requeueShares_mem (s : State) (c : Nat) : (requeueShares s c).mem = s.mem := rfl

/-! ## Control -/

@[simp] theorem landStage_mem (s : State) (j : Nat) (v : Pred) : (landStage s j v).mem = s.mem := rfl

/-! ## Barriers and semaphores -/

@[simp] theorem arriveBar_mem (s : State) (n : Nat) (g : Gang) (b : Nat) :
    (arriveBar s n g b).mem = s.mem := by simp [arriveBar]
@[simp] theorem preBar_mem (w : XWord) (s : State) : (preBar w s).mem = s.mem := by
  unfold preBar; split <;> simp
@[simp] theorem signal_mem (s : State) (n v : Nat) : (signal s n v).mem = s.mem := by simp [signal]
@[simp] theorem takeSem_mem (s : State) (n v : Nat) : (takeSem s n v).mem = s.mem := by simp [takeSem]
@[simp] theorem semTry_mem (w : XWord) (s : State) (dec : Nat) : (semTry w s dec).mem = s.mem := by simp [semTry]

/-! ## The service cores -/

@[simp] theorem discard_mem (s : State) (origin : Nat) : (discard s origin).mem = s.mem := rfl
@[simp] theorem tephraReplied_mem (s : State) (origin c k ticket : Nat) (r : Reply) :
    (tephraReplied s origin c k ticket r).mem = s.mem := by simp [tephraReplied]
@[simp] theorem prePriv_mem (i : Instr) (s : State) : (prePriv i s).mem = s.mem := by
  unfold prePriv; split <;> simp
@[simp] theorem acknowledge_mem (s : State) (id st : Nat) : (acknowledge s id st).mem = s.mem := rfl
@[simp] theorem tretEngine_mem (s : State) (c : Nat) : (tretEngine s c).1.mem = s.mem := by
  unfold tretEngine; split <;> simp
@[simp] theorem skipEngine_mem (s : State) (c : Nat) : (skipEngine s c).1.mem = s.mem := by
  unfold skipEngine; (repeat' split) <;> simp
@[simp] theorem tretTephra_mem (s : State) (c k : Nat) (next : Bool) : (tretTephra s c k next).1.mem = s.mem := by
  unfold tretTephra; split <;> simp
@[simp] theorem dropRunning_mem (s : State) (c : Nat) : (dropRunning s c).mem = s.mem := rfl
@[simp] theorem resetEngine_mem (s0 : State) (c : Nat) : (resetEngine s0 c).mem = s0.mem := by simp [resetEngine]
@[simp] theorem resetTephra_mem (s : State) (c k : Nat) : (resetTephra s c k).mem = s.mem := by
  unfold resetTephra
  exact (foldl_mem _ _ (fun _ _ => by simp) _).trans (by simp)
@[simp] theorem stopThread_mem (s : State) (c t : Nat) : (stopThread s c t).1.mem = s.mem := by
  simp only [stopThread]; split <;> simp
@[simp] theorem beginWin_mem (s : State) (id : Nat) (w : WinOp) : (beginWin s id w).mem = s.mem := by
  simp only [beginWin]
  generalize (if w.kill = true then _ else _ : Nat) = st
  split
  · simp
  · exact foldl_mem _ _ (fun _ _ => by rfl) _
@[simp] theorem nextWin_mem (s : State) (t : Nat) : (nextWin s t).mem = s.mem := by
  simp only [nextWin]; (repeat' split) <;> simp
@[simp] theorem acceptWin_mem (s : State) (req t : Nat) (kill : Bool) (e : Nat) :
    (acceptWin s req t kill e).mem = s.mem := by simp [acceptWin]
@[simp] theorem finishWin_mem (s : State) (id : Nat) : (finishWin s id).mem = s.mem := by
  unfold finishWin; split <;> simp
@[simp] theorem grantAt_mem (s : State) (e route : Nat) : (grantAt s e route).1.mem = s.mem := by
  unfold grantAt; (repeat' split) <;> simp
@[simp] theorem beginSave_mem (s : State) (c t k : Nat) (hold : Bool) : (beginSave s c t k hold).1.mem = s.mem := by
  simp only [beginSave]; (repeat' split) <;> simp
@[simp] theorem beginLoad_mem (s : State) (c t k : Nat) : (beginLoad s c t k).1.mem = s.mem := by
  unfold beginLoad; (repeat' split) <;> simp

/-! ## Loading -/

@[simp] theorem fillScratch_mem (s : State) (c : Nat) : (fillScratch s c).mem = s.mem := rfl
@[simp] theorem holdCore_mem (n : Nat) (s : State) (c : Nat) : (holdCore n s c).mem = s.mem := rfl
@[simp] theorem startCore_mem (g : Gang) (s : State) (c : Nat) : (startCore g s c).mem = s.mem := rfl
@[simp] theorem emptyQueues_mem (s : State) (n : Nat) : (emptyQueues s n).mem = s.mem := rfl
@[simp] theorem completeGang_mem (s : State) (n : Nat) : (completeGang s n).mem = s.mem := rfl
@[simp] theorem freeCore_mem (s0 : State) (c : Nat) : (freeCore s0 c).mem = s0.mem := by simp [freeCore]
@[simp] theorem dropGang_mem (s : State) (n : Nat) : (dropGang s n).mem = s.mem := by simp [dropGang]
@[simp] theorem releaseServices_mem (s : State) : (releaseServices s).mem = s.mem := by
  unfold releaseServices
  exact foldl_mem _ _ (fun _ _ => by simp) s

/-! ## Links -/

@[simp] theorem retireCmd_mem (s : State) (q seq status cause detail value : Nat) (after : List Nat) :
    (retireCmd s q seq status cause detail value after).mem = s.mem := by
  unfold retireCmd; split <;> simp
@[simp] theorem setContext_mem (s : State) (ch tag src dst next : Nat) :
    (setContext s ch tag src dst next).mem = s.mem := rfl
@[simp] theorem cutWaiting_mem (s : State) (p : Nat × Flight) : (cutWaiting s p).mem = s.mem := by simp [cutWaiting]
@[simp] theorem holdStreams_mem (s0 s : State) : (holdStreams s0 s).mem = s.mem := by simp [holdStreams]
@[simp] theorem bindStreams_mem (g mask : Nat) (s : State) :
    (bindStreams g mask s).mem = s.mem := by simp [bindStreams]
@[simp] theorem dropEvents_mem (s : State) (g : Nat) : (dropEvents s g).mem = s.mem := rfl
@[simp] theorem dropInbound_mem (s : State) (g : Nat) : (dropInbound s g).mem = s.mem := by
  unfold dropInbound
  exact foldl_mem _ _ (fun _ _ => by simp) s
@[simp] theorem attempt_mem (s : State) (g : Nat) : (attempt s g).mem = s.mem := rfl
@[simp] theorem endSwitch_mem (s : State) (g status cause : Nat) :
    (endSwitch s g status cause).mem = s.mem := by simp [endSwitch]
@[simp] theorem tornFlight_mem (s : State) (f : Flight) : (tornFlight s f).1.mem = s.mem := by
  unfold tornFlight; split <;> simp
@[simp] theorem unserve_mem (s : State) (f : Flight) : (unserve s f).mem = s.mem := by simp [unserve]
@[simp] theorem markShares_mem (s : State) (g : Nat) : (markShares s g).mem = s.mem := rfl
@[simp] theorem joinSets_mem (g : Nat) (s : State) : (joinSets g s).mem = s.mem := rfl

/-! ## The front end -/

@[simp] theorem setPart_mem (s : State) (n : Nat) (p : Partition) : (setPart s n p).mem = s.mem := rfl
@[simp] theorem setGraph_mem (s : State) (k : Nat) (g : Graph) : (setGraph s k g).mem = s.mem := rfl
@[simp] theorem nodeDone_mem (s : State) (q seq i status cause : Nat) :
    (nodeDone s q seq i status cause).mem = s.mem := by
  unfold nodeDone; split <;> simp
@[simp] theorem nodeEnds_mem (s : State) (q seq i status cause : Nat) (after : List Nat) :
    (nodeEnds s q seq i status cause after).mem = s.mem := by
  unfold nodeEnds; split <;> simp
@[simp] theorem finish_mem (s : State) (q seq n status cause detail value : Nat) (after : List Nat) :
    (finish s q seq n status cause detail value after).mem = s.mem := by simp [finish]
@[simp] theorem testWait_mem (s : State) (q seq n : Nat) : (testWait s q seq n).mem = s.mem := by
  unfold testWait; split <;> simp
@[simp] theorem setCmdSt_mem (s : State) (q seq : Nat) (st : CmdSt) : (setCmdSt s q seq st).mem = s.mem := rfl
@[simp] theorem leftForLater_mem (s : State) (x : Node) : (leftForLater s x).2.mem = s.mem := by
  unfold leftForLater; split <;> simp
@[simp] theorem stepNode_mem (k : Nat) (s : State) (i : Nat) : (stepNode k s i).mem = s.mem := by
  simp only [stepNode]; (repeat' split) <;> simp
@[simp] theorem dropWait_mem (s : State) (w : Waiting) : (dropWait s w).mem = s.mem := rfl
@[simp] theorem keep_mem (s : State) (n why : Nat) : (keep s n why).mem = s.mem := rfl
@[simp] theorem preemptFor_mem (s : State) (n : Nat) (p : Partition) (w : Waiting) :
    (preemptFor s n p w).mem = s.mem := by
  simp only [preemptFor]; (repeat' split) <;> simp
@[simp] theorem restoreNow_mem (s : State) (n : Nat) : (restoreNow s n).mem = s.mem := rfl
@[simp] theorem resumeVictim_mem (n : Nat) (p : Partition) (s : State) (g : Nat × Gang) :
    (resumeVictim n p s g).mem = s.mem := by simp [resumeVictim]
@[simp] theorem lendWindows_mem (s : State) (p : Partition) (c : Nat) :
    (lendWindows s p c).mem = s.mem := by simp [lendWindows]
@[simp] theorem sendShare_mem (s : State) (x : Nat × Share) : (sendShare s x).mem = s.mem := by
  unfold sendShare; (repeat' split) <;> simp
@[simp] theorem addShare_mem (q seq n c k : Nat) (s : State) (d : List Nat) :
    (addShare q seq n c k s d).mem = s.mem := by simp [addShare]
@[simp] theorem faultShare_mem (s : State) (x : Nat × Share) : (faultShare s x).mem = s.mem := by
  simp only [faultShare]; split <;> simp
@[simp] theorem endShares_mem (s : State) (x : Nat × Share) : (endShares s x).mem = s.mem := by simp [endShares]
@[simp] theorem stepShares_mem (s : State) (q : Nat) : (stepShares s q).mem = s.mem := by simp [stepShares]
@[simp] theorem stepContext_mem (q : Nat) (s : State) (k : Command) : (stepContext q s k).mem = s.mem := by
  unfold stepContext; split <;> simp
@[simp] theorem applyDesc_mem (s : State) (q : Nat) (w : Nat → Nat) : (applyDesc s q w).mem = s.mem := rfl
@[simp] theorem stepAdmin_mem (s : State) : (stepAdmin s).mem = s.mem := by simp [stepAdmin]
@[simp] theorem dropShare_mem (s : State) (x : Nat × Share) : (dropShare s x).mem = s.mem := by simp [dropShare]
@[simp] theorem dropCmds_mem (s : State) (q : Nat) (hit : Nat → Bool) :
    (dropCmds s q hit).mem = s.mem := by simp [dropCmds]
@[simp] theorem abortQueue_mem (seq : Nat) (s : State) (q : Nat) :
    (abortQueue seq s q).mem = s.mem := by simp [abortQueue]
@[simp] theorem endUnreleased_mem (s : State) (n : Nat) (g : Gang) : (endUnreleased s n g).mem = s.mem :=
  foldl_mem _ (coresOf g) (fun _ _ => by rfl) s
@[simp] theorem deferred_mem (s : State) (f : Nat) : (deferred s f).2.mem = s.mem := by
  unfold deferred; split <;> simp
@[simp] theorem interrupt_mem (s : State) (q : Nat) : (interrupt s q).mem = s.mem := by simp [interrupt]
@[simp] theorem doom_mem (s : State) (k : Command) : (doom s k).mem = s.mem := by
  unfold doom
  split
  · rfl
  · split
    · rfl
    · exact foldl_mem _ _ (fun _ _ => by rfl) s
@[simp] theorem acceptOne_mem (s : State) (q : Nat) : (acceptOne s q).1.mem = s.mem := by
  simp only [acceptOne]; split <;> simp
@[simp] theorem poll_mem (s : State) (q : Nat) : (poll s q).mem = s.mem := by
  simp only [poll]
  split
  · rfl
  · exact foldl_fst_mem _ _ (fun p _ => by split <;> simp) _
@[simp] theorem startCmds_mem (n : Nat) (s : State) (q : Nat) : (startCmds n s q).mem = s.mem := by
  induction n generalizing s with
  | zero => rfl
  | succ n ih =>
    simp only [startCmds]
    split
    · rfl
    · next k _ =>
      have hs : (if k.born = s.front.frames then drawChoice s else (false, s)).2.mem = s.mem := by split <;> simp
      generalize (if k.born = s.front.frames then drawChoice s else (false, s)) = d at hs ⊢
      split
      · exact hs
      · rw [ih]
        split
        · rw [retireCmd_mem, setCmdSt_mem, hs]
        · split <;> simp only [retireCmd_mem, atEvent_mem, setCmdSt_mem, hs]
@[simp] theorem stepCmd_mem (q : Nat) (s : State) (k : Command) : (stepCmd q s k).mem = s.mem := by
  unfold stepCmd; (repeat' split) <;> simp
@[simp] theorem bill_mem (s : State) (g : Nat × Gang) : (bill s g).mem = s.mem := rfl
@[simp] theorem chargeFrame_mem (s : State) : (chargeFrame s).mem = s.mem := by
  simp only [chargeFrame]
  exact foldl_mem _ _ (fun _ _ => by simp) s
@[simp] theorem budgetSave_mem (old s : State) (g : Nat × Gang) :
    (budgetSave old s g).mem = s.mem := by simp [budgetSave]
@[simp] theorem budgetResume_mem (s : State) (g : Nat × Gang) :
    (budgetResume s g).mem = s.mem := by simp [budgetResume]
@[simp] theorem stepClock_mem (s : State) : (stepClock s).mem = s.mem := by
  have hsave (l : List (Nat × Gang)) (s : State) : (l.foldl (fun x g =>
      if g.2.pre && gangRuns x g then keep (beginGangSave x g.1 true) g.1 3 else x) s).mem = s.mem :=
    foldl_mem _ l (fun _ _ => by simp) s
  simp only [stepClock]
  split
  · rfl
  · split
    · exact (foldl_mem _ _ (fun _ _ => by simp) _).trans (hsave _ s)
    · exact hsave _ s
@[simp] theorem settleCharge_mem (s : State) (g : Nat × Gang) : (settleCharge s g).mem = s.mem := rfl
@[simp] theorem endCompleted_mem (s : State) (g : Nat × Gang) : (endCompleted s g).mem = s.mem := by
  unfold endCompleted; split <;> simp
@[simp] theorem modVent_mem (s : State) (v : Nat) (f : Vent → Vent) : (modVent s v f).mem = s.mem := rfl
@[simp] theorem orphan_mem (s : State) (u : Nat) : (orphan s u).mem = s.mem := by
  rw [orphan, report0_mem, modVent_mem]
  exact foldl_mem _ _ (fun _ _ => by rfl) s
@[simp] theorem watch_mem (v : Nat) (s : State) (u : Nat) : (watch v s u).mem = s.mem := by simp [watch]
@[simp] theorem heartbeat_mem (s : State) (v : Nat) : (heartbeat s v).mem = s.mem := by simp [heartbeat]
@[simp] theorem endHandOver_mem (s : State) (status rstat phase : Nat) :
    (endHandOver s status rstat phase).mem = s.mem := by
  unfold endHandOver; split <;> simp
@[simp] theorem moveQueue_mem (s : State) (q v : Nat) : (moveQueue s q v).mem = s.mem := rfl
@[simp] theorem beginReload_mem (s : State) (v : Nat) : (beginReload s v).mem = s.mem := by
  unfold beginReload; split <;> simp
@[simp] theorem stepHandOver_mem (s : State) : (stepHandOver s).mem = s.mem := by
  simp only [stepHandOver]; (repeat' split) <;> simp
@[simp] theorem frameStart_mem (s : State) : (frameStart s).mem = s.mem := by simp [frameStart]
@[simp] theorem nextSlot_mem (s : State) (v e : Nat) : (nextSlot s v e).mem = s.mem := by simp [nextSlot]
@[simp] theorem writeTail_mem (s : State) (q v : Nat) : (writeTail s q v).mem = s.mem := rfl
@[simp] theorem writeChead_mem (s : State) (q v : Nat) : (writeChead s q v).mem = s.mem := by simp [writeChead]
@[simp] theorem writeFrontPage_mem (s : State) (o : Nat) (l : List Nat) :
    (writeFrontPage s o l).mem = s.mem := by simp [writeFrontPage]
@[simp] theorem writeStatus_mem (s : State) (q o : Nat) (l : List Nat) :
    (writeStatus s q o l).mem = s.mem := by simp [writeStatus]
@[simp] theorem tickPage_mem (s : State) (a n : Nat) : (tickPage s a n).mem = s.mem := by
  unfold tickPage; split <;> simp

/-! ## Reset, supply and the management register -/

@[simp] theorem bringUp1_mem (s : State) : (bringUp1 s).mem = s.mem := rfl
@[simp] theorem i3cWrite_mem (s : State) (n v : Nat) : (i3cWrite s n v).mem = s.mem := by simp [i3cWrite]

/-! ## The issue of a bundle -/

@[simp] theorem commit_mem (s0 s : State) (l : List (Nat × Nat × Instr)) : (commit s0 s l).mem = s.mem := rfl
@[simp] theorem preEffect_mem (s : State) (i : Instr) : (preEffect s i).mem = s.mem := by
  unfold preEffect; split <;> simp
@[simp] theorem forgetMbox_mem (s : State) (cause : Nat) : (forgetMbox s cause).mem = s.mem := by simp [forgetMbox]
@[simp] theorem trapBundle_mem (s0 : State) (cause : Nat) : (trapBundle s0 cause).mem = s0.mem := by simp [trapBundle]
@[simp] theorem tickBundle_mem (s : State) (l : List (Nat × Nat × Instr)) : (tickBundle s l).mem = s.mem := rfl
end Sys2Proof.Machine

/-! # Writers of memory: threads, home, ports

The operations that change bytes keep the table canonical: accesses, the engine, the tephra core. -/

namespace Sys2Proof.Machine

/-! ## Loops and branches -/

theorem foldl_fst_wf {α β : Type} (f : State × β → α → State × β) (l : List α)
    (hf : ∀ p x, Memory.wf p.1.mem → Memory.wf (f p x).1.mem) (p : State × β) (h : Memory.wf p.1.mem) :
    Memory.wf (l.foldl f p).1.mem := by
  induction l generalizing p with
  | nil => exact h
  | cons x r ih => exact ih _ (hf p x h)

theorem ite_wf {p : Prop} [Decidable p] {s t : State} (hs : Memory.wf s.mem) (ht : Memory.wf t.mem) :
    Memory.wf (if p then s else t).mem := by
  split
  · exact hs
  · exact ht

theorem ite_fst_wf {β : Type} {p : Prop} [Decidable p] {x y : State × β} (hx : Memory.wf x.1.mem)
    (hy : Memory.wf y.1.mem) : Memory.wf (if p then x else y).1.mem := by
  split
  · exact hx
  · exact hy

/-! ## The service cores' inboxes and landings -/

theorem freeBytes_wf {s : State} (a n : Nat) (h : Memory.wf s.mem) : Memory.wf (freeBytes s a n).mem :=
  putBytes_wf _ a _ h

theorem takePub_wf {s : State} (c k v : Nat) (h : Memory.wf s.mem) : Memory.wf (takePub s c k v).mem := by
  unfold takePub
  split
  · exact h
  · simpa using putNat_wf s k 8 v h

theorem drainInbox_wf (n : Nat) {s : State} (c : Nat) (h : Memory.wf s.mem) : Memory.wf (drainInbox n s c).mem := by
  induction n generalizing s with
  | zero => exact h
  | succ n ih =>
    simp only [drainInbox]
    split
    · exact h
    · split
      · split
        · exact h
        · apply ih
          rw [modCore_mem, clearPoison_mem, setFulls_mem]
          exact foldl_wf _ (List.range 8) (fun x k hx => putNat_wf x _ 8 _ hx) s h
      · exact h

theorem applySvc_wf {s : State} (c t n : Nat) (v : Word) (h : Memory.wf s.mem) : Memory.wf (applySvc s c t n v).mem := by
  unfold applySvc
  split
  · exact drainInbox_wf 1024 c h
  · split
    · exact h
    · split
      · exact h
      · exact h

theorem applyLanding_wf (c t : Nat) {s : State} (l : Landing) (h : Memory.wf s.mem) :
    Memory.wf (applyLanding c t s l).mem := by
  simp only [applyLanding]
  have hs : Memory.wf (if l.acq then noteAcquire (modThread s c t fun th => applyAct th l) c 0 t
      else modThread s c t fun th => applyAct th l).mem := by simpa using h
  split
  · exact ite_wf (applySvc_wf _ _ _ _ hs) hs
  · exact hs

theorem applyLandings_wf {s : State} (c t ttc : Nat) (h : Memory.wf s.mem) : Memory.wf (applyLandings s c t ttc).mem :=
  foldl_wf _ _ (fun _ l hx => applyLanding_wf c t l hx) _ h

theorem doneTurn_wf {s : State} (c t : Nat) (h : Memory.wf s.mem) : Memory.wf (doneTurn s c t).mem := by
  unfold doneTurn
  extract_lets s1 s2
  have h2 : Memory.wf s2.mem := applyLandings_wf c t _ (by simpa [s1] using h)
  clear_value s2
  exact ite_wf (by simpa using h2) h2

/-! ## The home of an access -/

theorem putMem_wf {s : State} (k : Nat) (l : List Nat) (h : Memory.wf s.mem) : Memory.wf (putMem s k l).mem :=
  ite_wf (putBytes_wf s k l h) (putBytes_wf s k l h)

theorem expandPage_wf {s : State} (k : Nat) (h : Memory.wf s.mem) : Memory.wf (expandPage s k).mem := by
  simp only [expandPage]
  split
  · exact h
  · rw [clearPoison_mem, setFulls_mem]
    exact putBytes_wf s _ _ h

theorem expandRange_wf {s : State} (lo n : Nat) (h : Memory.wf s.mem) : Memory.wf (expandRange s lo n).mem :=
  foldl_wf _ _ (fun _ p hx => expandPage_wf (4096 * p.1) hx) s h

theorem raceLogWrite_wf {s : State} (g : Gang) (va first second kind n : Nat) (h : Memory.wf s.mem) :
    Memory.wf (raceLogWrite s g va first second kind n).mem := by
  have he (i j : Nat) : Memory.wf (expandPage (expandPage s i) j).mem := expandPage_wf j (expandPage_wf i h)
  exact ite_wf (putNat_wf _ _ _ _ (putNat_wf _ _ _ _ (he _ _))) (putNat_wf _ _ _ _ (he _ _))

theorem raceSector_wf (n agent va : Nat) (wr : Bool) (acc : State × Bool) (sec : Nat) (h : Memory.wf acc.1.mem) :
    Memory.wf (raceSector n agent va wr acc sec).1.mem := by
  have hr {s : State} (hs : Memory.wf s.mem) (p : Bool) (g : Gang) (f u k w : Nat) :
      Memory.wf (if p then raceLogWrite s g va f u k w else s).mem := ite_wf (raceLogWrite_wf g va f u k w hs) hs
  exact hr (hr h _ _ _ _ _ _) _ _ _ _ _ _

theorem raceCheck_wf {s : State} (c kind idx va : Nat) (ranges : List (Nat × Nat)) (wr : Bool) (h : Memory.wf s.mem) :
    Memory.wf (raceCheck s c kind idx va ranges wr).1.mem := by
  unfold raceCheck
  split
  · exact h
  · simp only
    split
    · exact h
    · exact foldl_fst_wf _ _ (fun p x hp => raceSector_wf _ _ _ _ p x hp) _ h

theorem vatElem_wf (f : Flight) (acc : State × Nat) (e : Nat × Held) (h : Memory.wf acc.1.mem) :
    Memory.wf (vatElem f acc e).1.mem := putMem_wf _ _ h

theorem writeSave_wf {s : State} (f : Flight) (h : Memory.wf s.mem) : Memory.wf (writeSave s f).mem := by
  simp only [writeSave]
  split
  · exact h
  · have hp := putMem_wf f.key f.data h
    split <;> split <;> simpa using hp

theorem performAccess_wf {s : State} (f : Flight) (h : Memory.wf s.mem) : Memory.wf (performAccess s f).1.mem := by
  simp only [performAccess]
  have he : Memory.wf (if (flightWrites f && f.op ≠ .save) || f.mode ≠ 0 then expandRange s f.key (flightLen f) else s).mem :=
    ite_wf (expandRange_wf _ _ h) h
  generalize (if (flightWrites f && f.op ≠ .save) || f.mode ≠ 0 then expandRange s f.key (flightLen f) else s) = u at he ⊢
  split
  · simpa using he
  · exact he
  · exact writeSave_wf f h
  · simpa using putMem_wf f.key _ he
  · simpa using foldl_fst_wf (vatElem f) f.elems (fun p e hp => vatElem_wf f p e hp) (u, 0) he
  · simpa using putMem_wf f.key f.data he

theorem perform_wf {s : State} (f : Flight) (h : Memory.wf s.mem) : Memory.wf (perform s f).1.mem := by
  simp only [perform]
  refine performAccess_wf f ?_
  rw [tickHome_mem]
  split
  · exact h
  · exact raceCheck_wf _ _ _ _ _ _ h

theorem sendSave_wf {s : State} (id : Nat) (f : Flight) (h : Memory.wf s.mem) : Memory.wf (sendSave s id f).mem := by
  simpa [sendSave] using raceCheck_wf f.core 2 (f.who % 8) f.addr.toNat [(0, 4096)] false h

theorem performFlight_wf {s : State} (id : Nat) (f : Flight) (h : Memory.wf s.mem) :
    Memory.wf (performFlight s id f).mem := by
  simp only [performFlight]
  split
  · exact sendSave_wf id f h
  · have hp : Memory.wf (perform (splitElems s f).1 { f with elems := (splitElems s f).2.1 }).1.mem :=
      perform_wf _ (by simpa using h)
    split <;> simpa using hp

theorem wake_wf (n : Nat) (rs : List (Nat × Nat)) {s : State} (home : Nat) (h : Memory.wf s.mem) :
    Memory.wf (wake n rs s home).mem := by
  induction n generalizing rs s with
  | zero => exact h
  | succ n ih =>
    simp only [wake]
    split
    · exact h
    · split
      · exact h
      · split
        · exact ih _ (by simpa using h)
        · exact ih _ (performFlight_wf _ _ h)

theorem wakeHome_wf {s : State} (home : Nat) (rs : List (Nat × Nat)) (h : Memory.wf s.mem) :
    Memory.wf (wakeHome s home rs).mem := ite_wf h (wake_wf _ rs home h)

theorem wakeAfter_wf {s : State} (f : Flight) (h : Memory.wf s.mem) : Memory.wf (wakeAfter s f).mem :=
  wakeHome_wf f.home _ h

theorem wakeCore_wf {s : State} (c : Nat) (h : Memory.wf s.mem) : Memory.wf (wakeCore s c).mem :=
  ite_wf h (wakeHome_wf _ _ h)

theorem serveHome_wf {s : State} (id : Nat) (f : Flight) (h : Memory.wf s.mem) : Memory.wf (serveHome s id f).mem := by
  have ha (n : Nat) : Memory.wf (answer s id f n 0 0).mem := by simpa using h
  have he : Memory.wf (if f.mode ≠ 0 then expandRange s f.key (flightLen f) else s).mem := ite_wf (expandRange_wf _ _ h) h
  exact ite_wf (ha _) (ite_wf h (ite_wf (ha _) (ite_wf (wakeAfter_wf f (performFlight_wf id f he))
    (ite_wf (by simpa using he) (by simpa using he)))))

theorem arrive_wf {s : State} (id : Nat) (f : Flight) (h : Memory.wf s.mem) : Memory.wf (arrive s id f).mem := by
  have ha (n : Nat) : Memory.wf (answer s id f n 0 0).mem := by simpa using h
  unfold arrive
  refine ite_wf (serveHome_wf id f h) (ite_wf (by simpa using h) (ite_wf (ite_wf (ha _) (serveHome_wf id f h))
    (ite_wf (ite_wf (ha _) (serveHome_wf id _ h)) (ite_wf (ha _) (ite_wf (ha _) (by simpa using h))))))

/-! ## A thread's local accesses, the engine and the tephra cores -/

theorem found_wf {s : State} (h : Memory.wf s.mem) : Memory.wf (found s).mem := settled_wf s _ h

theorem engWrite_wf {s t : State} (c ofs : Nat) (bytes : List Nat) (ht : engWrite s c ofs bytes = some t)
    (h : Memory.wf s.mem) : Memory.wf t.mem := by
  simp only [engWrite] at ht
  split at ht
  · cases ht
  · cases ht
    simpa using putBytes_wf s _ bytes h

theorem notifyWrite_wf {s : State} (c : Nat) (n : Nat × Nat) (h : Memory.wf s.mem) :
    Memory.wf (notifyWrite s c n).1.mem := by
  simp only [notifyWrite]
  generalize keyOf s _ = k
  have hp : Memory.wf (enginePacket s c k 4).mem := by rw [enginePacket_mem]; exact h
  generalize enginePacket s c k 4 = u at hp ⊢
  have hw : Memory.wf (setFull (putNat u k 4 n.2) k true).mem := putNat_wf u k 4 n.2 hp
  split
  · split
    · exact hp
    · exact hw
  · split
    · exact hp
    · split
      · exact hp
      · exact wakeCore_wf _ hw

/-- After its notification a command leaves the queue, or the engine faults. -/
theorem notified_wf (c : Nat) (q : EngCmd) {r : State × Nat} (h : Memory.wf r.1.mem) :
    Memory.wf (if r.2 ≠ 0 then engineFault r.1 c r.2 else dequeue r.1 c q).mem := by
  split <;> simpa using h

theorem retireCommand_wf {s : State} (c : Nat) (q : EngCmd) (h : Memory.wf s.mem) :
    Memory.wf (retireCommand s c q).mem := by
  simp only [retireCommand]
  generalize retireCause s c q.sync _ = e
  split
  · simpa using h
  · cases cmdRing q <;> cases q.notify
    · simpa using h
    · exact notified_wf c q (notifyWrite_wf c _ (by simpa using h))
    · simpa using h
    · exact notified_wf c q (notifyWrite_wf c _ (by simpa using h))

theorem collTake_wf (broken : Bool) (s0 : State) (ms : List Member) {s : State} (m : Member) (h : Memory.wf s.mem) :
    Memory.wf (collTake broken s0 ms s m).mem := by
  cases m with
  | away => exact h
  | here c k d =>
    rw [collTake, modTephra_mem, setFulls_mem]
    exact freeBytes_wf _ 8192 h

theorem collPerform_wf {s : State} (ms : List Member) (h : Memory.wf s.mem) : Memory.wf (collPerform s ms).mem :=
  foldl_wf _ ms (fun _ m hx => collTake_wf _ s ms m hx) s h

theorem stdGather_wf {s : State} (d : List Nat) (h : Memory.wf s.mem) : Memory.wf (stdGather s d).mem := by
  have hf (n ea : Nat) : Memory.wf (teFault s n ea).mem := by simpa using h
  simp only [stdGather]
  split
  · exact hf _ _
  · split
    · exact hf _ _
    · split
      · exact h
      · exact ite_wf (hf _ _) (ite_wf h (ite_wf h (collPerform_wf _ h)))

theorem stdStep_wf {s : State} (h : Memory.wf s.mem) : Memory.wf (stdStep s).mem := by
  simp only [stdStep]
  split
  · split
    · exact h
    · simpa using h
  · split
    · exact stdGather_wf _ h
    · simpa using h
    · simpa using h
    · simpa using h
    · rw [teRetire_mem _ _ _ _ _ (fun _ => rfl)]
      exact h
    · simpa using h

end Sys2Proof.Machine

/-! # Writers of memory: saves, services, links

The operations of saves, loading, services and links that change bytes keep the table canonical. -/

namespace Sys2Proof.Machine

/-! ## Saves and restores -/

theorem writePieces_wf {s : State} (base len : Nat) (l : List Piece) (h : Memory.wf s.mem) :
    Memory.wf (writePieces s base len l).mem := by
  simp only [writePieces, clearPoison_mem]
  exact foldl_wf _ l (fun x p hx => putNat_wf x _ _ _ hx) _ (twf_tclear _ _ _ _ (expandRange_wf base len h))

theorem onGang_wf {s : State} (n c : Nat) (f : State → State) (hf : ∀ x, Memory.wf x.mem → Memory.wf (f x).mem)
    (h : Memory.wf s.mem) : Memory.wf (onGang s n c f).mem := by
  simpa [onGang] using hf _ (by simpa using h)

theorem onImage_wf {s : State} (c : Nat) (f : State → State) (hf : ∀ x, Memory.wf x.mem → Memory.wf (f x).mem)
    (h : Memory.wf s.mem) : Memory.wf (onImage s c f).mem := by
  unfold onImage
  split
  · exact hf s h
  · exact onGang_wf _ c f hf h

theorem writeImage_wf {s : State} (c t : Nat) (q : Bool) (h : Memory.wf s.mem) : Memory.wf (writeImage s c t q).mem := by
  unfold writeImage
  split
  · exact h
  · exact writePieces_wf _ _ _ (writePieces_wf _ _ _ h)

theorem becomeSaved_wf {s : State} (c t : Nat) (h : Memory.wf s.mem) : Memory.wf (becomeSaved s c t).mem :=
  writeImage_wf (s := modThread s c t savedThread) c t false h

theorem moveScratch_wf {s : State} (src dst : Nat) (h : Memory.wf s.mem) : Memory.wf (moveScratch s src dst).mem :=
  twf_tmerge _ _ _ (twf_tclear _ _ _ _ (expandRange_wf dst _ h))

theorem saveCore_wf (n : Nat) {s : State} (c : Nat) (h : Memory.wf s.mem) : Memory.wf (saveCore n s c).mem := by
  simp only [saveCore]
  have hi (l : List Nat) {x : State} (hx : Memory.wf x.mem) : Memory.wf (l.foldl (fun x t => writeImage x c t true) x).mem :=
    foldl_wf _ l (fun y t hy => writeImage_wf c t true hy) x hx
  have hp := fun b k l => writePieces_wf b k l (hi (slotsOf (gang s n).slotm)
    (x := modCore s c (fun k => { k with tes := k.tes.map (fun p => (p.1, stallSaved p.2)) })) h)
  split
  · exact hp _ _ _
  · simpa using moveScratch_wf _ _ (hp _ _ _)

theorem finishGangSave_wf {s : State} (n : Nat) (h : Memory.wf s.mem) : Memory.wf (finishGangSave s n).mem := by
  unfold finishGangSave
  split
  · exact h
  · exact ite_wf h (ite_wf (foldl_wf (saveCore n) _ (fun x c hx => saveCore_wf n c hx) s h) h)

theorem writeCode_wf {s : State} (c : Nat) (code : Tab Byte) (n : Nat) (h : Memory.wf s.mem) :
    Memory.wf (writeCode s c code n).mem :=
  twf_tmerge _ _ _ (twf_tclear _ _ _ _ h)

theorem restoreCore_wf (n : Nat) {s : State} (c : Nat) (h : Memory.wf s.mem) : Memory.wf (restoreCore n s c).mem := by
  simp only [restoreCore, kickEngine_mem]
  rw [foldl_mem _ _ (fun x t => resumeThread_mem x c t), modCore_mem]
  refine ite_wf h ?_
  rw [moveRequests_mem, mem_ite, freeBlock_mem, ite_self, setCore_mem]
  refine writeCode_wf _ _ _ ?_
  rw [moveFlights_mem, putScratchBits_mem]
  exact moveScratch_wf _ _ (by simpa using h)

theorem acknowledgeParty_wf {s : State} (id : Nat) (f : Flight) (h : Memory.wf s.mem) :
    Memory.wf (acknowledgeParty s id f).mem := by
  have ht : Memory.wf (threadReply s f).mem := by simpa using h
  exact ite_wf h (ite_wf (by simpa using h) (ite_wf (writeImage_wf _ _ _ ht) ht))

/-! ## Requests of the service cores -/

theorem threadReplied_wf {s : State} (origin c t ticket : Nat) (r : Reply) (h : Memory.wf s.mem) :
    Memory.wf (threadReplied s origin c t ticket r).mem := by
  have hi {x : State} (hx : Memory.wf x.mem) :
      Memory.wf (if (thread s c t).st = .saved then writeImage x c t false else x).mem := ite_wf (writeImage_wf c t false hx) hx
  unfold threadReplied
  exact ite_wf (hi h) (ite_wf (ite_wf (hi h) (ite_wf (by simpa using h) (hi h))) (by simpa using h))

theorem tretThread_wf {s : State} (c t : Nat) (target : Option Nat) (hclr : Bool) (h : Memory.wf s.mem) :
    Memory.wf (tretThread s c t target hclr).1.mem := by
  simp only [tretThread]
  split
  · exact h
  · split
    · exact writeImage_wf c t false h
    · exact h

theorem endThread_wf {s : State} (c t : Nat) (h : Memory.wf s.mem) : Memory.wf (endThread s c t).1.mem := by
  simp only [endThread]
  split
  · exact h
  · cases (core s c).gang <;> split
    · exact writeImage_wf c t false h
    · exact h
    · exact writeImage_wf c t false h
    · exact h

theorem imaged_wf {s : State} (c : Nat) (f : State → State × Nat) (hf : ∀ x, Memory.wf x.mem → Memory.wf (f x).1.mem)
    (h : Memory.wf s.mem) : Memory.wf (imaged s c f).1.mem := onImage_wf c _ hf h

theorem takeRequest_wf {s : State} (id : Nat) (r : PrivReq) (h : Memory.wf s.mem) :
    Memory.wf (takeRequest s id r).1.mem := by
  have hret (c t : Nat) (a : Option Nat) (b : Bool) : Memory.wf (imaged s c (fun x => tretThread x c t a b)).1.mem :=
    imaged_wf c _ (fun x hx => tretThread_wf c t a b hx) h
  have hend (c t : Nat) : Memory.wf (imaged s c (fun x => endThread x c t)).1.mem :=
    imaged_wf c _ (fun x hx => endThread_wf c t hx) h
  unfold takeRequest
  extract_lets a b now gsel t te k
  have hnow {x : State × Nat} (hx : Memory.wf x.1.mem) : Memory.wf (now x).1.mem := hx
  clear_value now
  refine ite_fst_wf (ite_fst_wf h ?_) (ite_fst_wf (ite_fst_wf h (hnow (by simpa using h))) (ite_fst_wf h ?_))
  · split
    · exact h
    · exact ite_fst_wf (by simpa using h) (by simpa using h)
  · split
    · exact h
    · split
      -- TRET.retry
      · exact ite_fst_wf (hnow (by simpa using h)) (ite_fst_wf (hnow (ite_fst_wf h (by simpa using h))) (hnow (hret _ _ _ _)))
      -- TRET.at, TRET.next, TRET.skip
      · exact ite_fst_wf h (hnow (hret _ _ _ _))
      · exact ite_fst_wf (hnow (by simpa using h)) h
      · exact ite_fst_wf (hnow (by simpa using h)) h
      -- CTXSV, CTXLD
      · exact ite_fst_wf h (by simpa using h)
      · exact ite_fst_wf h (by simpa using h)
      -- HALT.stop, HALT.end, HALT.reset
      · exact ite_fst_wf h (hnow (by simpa using h))
      · exact ite_fst_wf h (hnow (hend _ _))
      · exact ite_fst_wf (by simpa using h) (ite_fst_wf (by simpa using h) h)

/-! ## Loading -/

theorem writeData_wf {s : State} (b : Nat → Nat) (c : Nat) (h : Memory.wf s.mem) : Memory.wf (writeData s b c).mem :=
  foldl_wf _ _ (fun _ _ hx => by simpa using putBytes_wf _ _ _ hx) s h

theorem writeCore_wf (b : Nat → Nat) (n : Nat) (ps : List Preload) {s : State} (c : Nat) (h : Memory.wf s.mem) :
    Memory.wf (writeCore b n ps s c).mem := by
  have hw := writeData_wf b c (writeCode_wf c (gang s n).code (gang s n).codeLen (s := fillScratch s c) (by simpa using h))
  simpa [writeCore] using hw

theorem placeGang_wf {s : State} (b : Nat → Nat) (ps : List Preload) (g : Gang) (h : Memory.wf s.mem) :
    Memory.wf (placeGang s b ps g).mem := by
  simp only [placeGang, atEvent_mem, drawLat_mem]
  refine ite_wf (putNat_wf _ _ _ _ (expandPage_wf _ ?_)) ?_
  all_goals
    refine ite_wf ?_ (foldl_wf _ _ (fun y c hy => writeCore_wf b _ ps c hy) _ h)
    exact foldl_wf _ _ (fun _ _ hy => by simpa using hy) _ h

theorem writeService_wf (b : Nat → Nat) {s : State} (c : Nat) (h : Memory.wf s.mem) :
    Memory.wf (writeService b s c).mem := by
  rw [writeService, setCore_mem]
  exact writeData_wf b c (writeCode_wf c _ _ (by simpa using h))

theorem writeServices_wf {s : State} (h : Memory.wf s.mem) : Memory.wf (writeServices s).mem :=
  ite_wf (foldl_wf _ serviceCores (fun _ c hx => writeService_wf _ c hx) s h) h

/-! ## Links -/

theorem writeBlock_wf {s : State} (ofs v : Nat) (h : Memory.wf s.mem) : Memory.wf (writeBlock s ofs v).mem :=
  foldl_wf _ serviceCores (fun _ c hx => by simpa using takePub_wf c _ v hx) s h

theorem publish_wf {s : State} (g : Nat) (h : Memory.wf s.mem) : Memory.wf (publish s g).mem := writeBlock_wf _ _ h

theorem publishAll_wf {s : State} (h : Memory.wf s.mem) : Memory.wf (publishAll s).mem :=
  writeBlock_wf _ _ (foldl_wf publish _ (fun _ g hx => publish_wf g hx) s h)

theorem enter_wf {s : State} (g : Nat) (f : EdgeGroup → EdgeGroup) (h : Memory.wf s.mem) : Memory.wf (enter s g f).mem :=
  publish_wf (s := modEdge s g f) g h

theorem leaveActive_wf {s : State} (g st : Nat) (h : Memory.wf s.mem) : Memory.wf (leaveActive s g st).mem := by
  have he := enter_wf g (fun e => { e with state := st }) h
  simp only [leaveActive]
  split
  · simpa using he
  · exact he

theorem goDown_wf {s : State} (g : Nat) (h : Memory.wf s.mem) : Memory.wf (goDown s g).mem := by
  simpa [goDown] using enter_wf (s := dropEvents s g) g (fun e => { e with state := 3, lanes := 0 }) h

theorem goTrain_wf {s : State} (g : Nat) (h : Memory.wf s.mem) : Memory.wf (goTrain s g).mem := by
  simpa [goTrain] using enter_wf g _ h

theorem failFlight_wf (g : Nat) {s : State} (p : Nat × Flight) (h : Memory.wf s.mem) : Memory.wf (failFlight g s p).mem := by
  simp only [failFlight]
  generalize hs : setRetry s p.2.home _ = u
  have hu : Memory.wf u.mem := by simpa [← hs] using h
  have hp (m : Bool) : Memory.wf (if m then (perform (tornFlight (drawChoice u).2 p.2).1 (tornFlight (drawChoice u).2 p.2).2).1
      else (drawChoice u).2).mem := ite_wf (perform_wf _ (by simpa using hu)) hu
  split
  · exact h
  · split
    · simp only [later_mem, setFlight_mem]
      exact hp _
    · simp only [later_mem, setFlight_mem, unserve_mem]
      exact hp _

theorem failFlights_wf {s : State} (g : Nat) (h : Memory.wf s.mem) : Memory.wf (failFlights s g).mem := by
  unfold failFlights
  extract_lets gone s1
  have hf : Memory.wf (s1.flights.foldl (failFlight g) s1).mem :=
    foldl_wf (failFlight g) _ (fun _ p hy => failFlight_wf g p hy) s1 h
  exact foldl_wf _ _ (fun _ p hy => wakeAfter_wf p.2 hy) _ hf

theorem configure_wf {s : State} (g seq a : Nat) (h : Memory.wf s.mem) : Memory.wf (configure s g seq a).mem := by
  simp only [configure]
  exact ite_wf (writeBlock_wf _ _ h) h

theorem linkDies_wf {s : State} (g : Nat) (h : Memory.wf s.mem) : Memory.wf (linkDies s g).mem :=
  ite_wf h (goDown_wf g (failFlights_wf (s := modEdge _ _ _) g (leaveActive_wf (s := markShares s g) g 3 (by simpa using h))))

theorem putSide_wf {s : State} (k b : Nat) (h : Memory.wf s.mem) : Memory.wf (putSide s k b).mem := by
  unfold putSide
  split
  · exact h
  · exact putByte_wf _ _ _ h

theorem serveSide_wf {s : State} (id : Nat) (f : Flight) (h : Memory.wf s.mem) : Memory.wf (serveSide s id f).mem := by
  have hp := foldl_wf (fun x p => putSide x (f.key + p.1) p.2) ((List.range f.size).zip f.data)
    (fun x p hx => putSide_wf _ _ hx) s h
  exact ite_wf (by simpa using h) (ite_wf (by simpa using h) (by simpa using hp))

end Sys2Proof.Machine

/-! # Writers of memory: the front end, reset, the next cycle

The front end, reset, the end of a bundle and the next cycle keep the table canonical. -/

namespace Sys2Proof.Machine

/-! ## The front end -/

theorem frontWrite_wf {s : State} (k : Nat) (b : List Nat) (h : Memory.wf s.mem) : Memory.wf (frontWrite s k b).mem := by
  have he := expandRange_wf k b.length h
  have hl (l : List (Nat × Nat)) : Memory.wf (l.foldl (fun x p => putMem x (k + p.1) [p.2]) (expandRange s k b.length)).mem :=
    foldl_wf _ l (fun _ p hx => putMem_wf _ _ hx) _ he
  exact ite_wf (by simpa using hl _) (by simpa using putMem_wf k b he)

theorem notifyNode_wf {s : State} (p : Partition) (k : Nat) (g : Graph) (i : Nat) (h : Memory.wf s.mem) :
    Memory.wf (notifyNode s p k g i).mem := by
  unfold notifyNode
  refine ite_wf h ?_
  rw [setGraph_mem, modQueue_mem]
  exact frontWrite_wf _ _ h

theorem startNode_wf (p : Partition) (k : Nat) {s : State} (i : Nat) (h : Memory.wf s.mem) :
    Memory.wf (startNode p k s i).mem := by
  unfold startNode
  split
  · exact h
  · next g _ =>
    have hl : Memory.wf (leftForLater s (node g i)).2.mem := by simpa using h
    simp only
    generalize leftForLater s (node g i) = d at hl ⊢
    refine ite_wf h (ite_wf hl (ite_wf hl ?_))
    split
    · exact ite_wf hl hl
    · exact hl
    · exact notifyNode_wf p k g i hl
    · exact hl
    · exact hl

theorem walkGraph_wf (starts : Bool) {s : State} (k : Nat) (h : Memory.wf s.mem) : Memory.wf (walkGraph starts s k).mem := by
  unfold walkGraph
  split
  · exact h
  · next g _ =>
    extract_lets ids s1 s2
    have h1 : Memory.wf s1.mem := by simpa [s1] using h
    have h2 : Memory.wf s2.mem := by
      simp only [s2]
      split
      · exact ite_wf (foldl_wf _ _ (fun _ i hx => startNode_wf _ k i hx) s1 h1) h1
      · exact h1
    clear_value s1 s2
    split
    · exact h2
    · next g2 _ =>
      extract_lets d s3
      have hd : Memory.wf d.2.mem := by
        simp only [d]
        split <;> simpa using h2
      refine ite_wf h2 (ite_wf hd ?_)
      split <;> simpa [s3] using hd

theorem placeLaunch_wf {s : State} (w : Waiting) (h : Memory.wf s.mem) : Memory.wf (placeLaunch s w).mem := by
  have hd : Memory.wf (dropWait s w).mem := by simpa using h
  have hf (st c d : Nat) : Memory.wf (finish (dropWait s w) w.queue w.seq w.node st c d 0 []).mem := by simpa using hd
  simp only [placeLaunch]
  split
  · exact h
  · refine ite_wf h (ite_wf (hf _ _ _) ?_)
    split
    · exact h
    · exact ite_wf (hf _ _ _) (ite_wf (hf _ _ _) (ite_wf (hf _ _ _) (placeGang_wf _ _ _ hd)))

theorem servePart_wf {s : State} (n : Nat) (h : Memory.wf s.mem) : Memory.wf (servePart s n).mem := by
  unfold servePart
  split
  · exact h
  · next p _ =>
    rw [foldl_mem _ _ (fun x g => resumeVictim_mem n p x g)]
    exact foldl_wf _ _ (fun _ w hx => by simpa using placeLaunch_wf w hx) s h

theorem serveLaunches_wf {s : State} (h : Memory.wf s.mem) : Memory.wf (serveLaunches s).mem :=
  ite_wf h (foldl_wf _ _ (fun _ n hx => servePart_wf n hx) s h)

theorem endSlot_wf {s : State} (c t : Nat) (h : Memory.wf s.mem) : Memory.wf (endSlot s c t).mem := by
  simp only [endSlot]
  split
  · exact h
  · split
    · rw [becomeDone_mem, modThread_mem]
      exact endThread_wf c t h
    · exact endThread_wf (s := modThread _ c t _) c t h

theorem endCore_wf {s : State} (c : Nat) (h : Memory.wf s.mem) : Memory.wf (endCore s c).mem := by
  simpa [endCore] using foldl_wf (fun x t => endSlot x c t) (List.range 8) (fun _ t hx => endSlot_wf c t hx) s h

theorem endGang_wf {s : State} (g : Nat × Gang) (h : Memory.wf s.mem) : Memory.wf (endGang s g).mem :=
  ite_wf (by simpa using h) (ite_wf (by simpa using h) (foldl_wf endCore _ (fun _ c hx => endCore_wf c hx) _ h))

theorem clearCore_wf {s : State} (c : Nat) (h : Memory.wf s.mem) : Memory.wf (clearCore s c).mem := twf_tclear _ _ _ _ h

theorem clearRange_wf {s : State} (p : Partition) (h : Memory.wf s.mem) : Memory.wf (clearRange s p).mem := twf_filter _ _ _ h

theorem wakePart_wf {s : State} (p : Partition) (clr : Bool) (h : Memory.wf s.mem) : Memory.wf (wakePart s p clr).mem := by
  have hc : Memory.wf (p.cores.foldl wakeCore s).mem := foldl_wf _ _ (fun _ c hx => wakeCore_wf c hx) s h
  exact ite_wf (foldl_wf _ _ (fun _ d hx => wakeHome_wf d _ hx) _ hc) hc

theorem stepPreset_wf {s : State} (n : Nat) (h : Memory.wf s.mem) : Memory.wf (stepPreset s n).mem := by
  unfold stepPreset
  split
  · exact h
  · next p _ =>
    split
    · exact h
    · have hc : Memory.wf (p.cores.foldl clearCore ((gangsIn s n).foldl (fun x g => dropGang x g.1) s)).mem :=
        foldl_wf _ _ (fun _ c hx => clearCore_wf c hx) _ (by simpa using h)
      refine ite_wf h ?_
      rw [retireCmd_mem]
      refine wakePart_wf p _ ?_
      rw [setPart_mem]
      exact ite_wf (clearRange_wf p hc) hc

theorem flush_wf (n : Nat) {s : State} (q : Nat) (h : Memory.wf s.mem) : Memory.wf (flush n s q).mem := by
  induction n generalizing s with
  | zero => exact h
  | succ n ih =>
    simp only [flush]
    split
    · exact h
    · next c r _ =>
      have hd : Memory.wf (deferred s c.frame).2.mem := by simpa using h
      generalize deferred s c.frame = d at hd ⊢
      refine ite_wf hd (ite_wf (ih hd) (ite_wf hd (ih ?_)))
      have hq (f : Queue → Queue) (k : Nat) (b : List Nat) : Memory.wf (modQueue (frontWrite d.2 k b) q f).mem := by
        rw [modQueue_mem]
        exact frontWrite_wf k b hd
      split
      · rw [nodeDone_mem]
        exact hq _ _ _
      · exact hq _ _ _

theorem queueWork_wf {s : State} (q : Nat) (h : Memory.wf s.mem) : Memory.wf (queueWork s q).mem :=
  foldl_wf _ _ (fun _ k hx => walkGraph_wf _ k hx) _ (by simpa using h)

theorem frameQueue_wf {s : State} (q : Nat) (h : Memory.wf s.mem) : Memory.wf (frameQueue s q).mem := by
  have h0 : Memory.wf (if q = 0 then stepAdmin s else s).mem := ite_wf (by simpa using h) h
  simp only [frameQueue]
  generalize (if q = 0 then stepAdmin s else s) = s0 at h0 ⊢
  have h1 : Memory.wf (if (queue s0 q).state ≤ 1 then flush ((queue s0 q).due.length) (interrupt s0 q) q else s0).mem :=
    ite_wf (flush_wf _ q (by simpa using h0)) h0
  generalize (if (queue s0 q).state ≤ 1 then flush ((queue s0 q).due.length) (interrupt s0 q) q else s0) = s1 at h1 ⊢
  exact ite_wf h1 (queueWork_wf q (ite_wf h1 (by simpa using h1)))

theorem slotQueue_wf {s : State} (q : Nat) (h : Memory.wf s.mem) : Memory.wf (slotQueue s q).mem :=
  ite_wf (queueWork_wf q (flush_wf _ q h)) h

theorem frameEnd_wf (old : State) {s : State} (h : Memory.wf s.mem) : Memory.wf (frameEnd old s).mem := by
  refine foldl_wf _ _ (fun _ n hx => stepPreset_wf n hx) _ ?_
  rw [stepClock_mem]
  refine foldl_wf _ _ (fun _ n hx => servePart_wf n hx) _ ?_
  simpa using h

theorem laterSlot_wf {s : State} (v e : Nat) (h : Memory.wf s.mem) : Memory.wf (laterSlot s v e).mem := by
  refine ite_wf h ?_
  rw [nextSlot_mem]
  refine foldl_wf _ _ (fun _ n hx => servePart_wf n hx) _ (foldl_wf _ _ (fun _ q hx => slotQueue_wf q hx) _ ?_)
  simpa using h

theorem hostByte_wf {s : State} (a b : Nat) (h : Memory.wf s.mem) : Memory.wf (hostByte s a b).mem := by
  have hp := putByte_wf s a (BitVec.ofNat 8 b) h
  unfold hostByte
  split
  · exact ite_wf h hp
  · exact ite_wf hp h

theorem hostBytes_wf {s : State} (a : Nat) (l : List Nat) (h : Memory.wf s.mem) : Memory.wf (hostBytes s a l).mem :=
  foldl_wf _ _ (fun _ _ hx => ite_wf hx (hostByte_wf _ _ hx)) s h

theorem apertureWrite_wf {s : State} (a : Nat) (l : List Nat) (h : Memory.wf s.mem) : Memory.wf (apertureWrite s a l).mem := by
  refine ite_wf (by simpa using h) (ite_wf (by simpa using h) ?_)
  rw [clearPoison_mem]
  exact hostBytes_wf a l (by simpa using h)

/-! ## Reset and bring-up -/

theorem heldInReset_wf {s : State} (supply : Bool) (h : Memory.wf s.mem) : Memory.wf (heldInReset s supply).mem :=
  twf_filter _ _ _ h

theorem bringUp2_wf {s : State} (h : Memory.wf s.mem) : Memory.wf (bringUp2 s).mem := by
  rw [bringUp2, foldl_mem _ _ (fun _ _ => atEvent_mem _ _ _ _), laterIn_mem]
  exact twf_filter _ _ _ h

theorem bringUp3_wf {s : State} (h : Memory.wf s.mem) : Memory.wf (bringUp3 s).mem := by
  unfold bringUp3
  refine ite_wf ?_ h
  rw [atEvent_mem, drawLat_mem]
  exact writeServices_wf h

theorem bringUp4_wf {s : State} (h : Memory.wf s.mem) : Memory.wf (bringUp4 s).mem := by
  rw [bringUp4, laterIn_mem, atEvent_mem, foldl_mem _ _ (fun _ _ => atEvent_mem _ _ _ _), foldl_mem _ _ (fun _ _ => modVent_mem _ _ _),
    releaseServices_mem]
  exact publishAll_wf h

theorem bringUp5_wf {s : State} (h : Memory.wf s.mem) : Memory.wf (bringUp5 s).mem := publish_wf _ h

/-! ## The end of a bundle and the next cycle -/

theorem blockBundle_wf {s0 : State} (s : State) (l : List (Nat × Nat × Instr)) (h : Memory.wf s0.mem) :
    Memory.wf (blockBundle s0 s l).mem := by
  simp only [blockBundle, endTurn_mem]
  split <;> simpa using h

theorem settleBundle_wf {s0 s : State} (l : List (Nat × Nat × Instr)) (h0 : Memory.wf s0.mem) (h : Memory.wf s.mem) :
    Memory.wf (settleBundle s0 s l).mem := by
  have ht (n : Nat) : Memory.wf (trapBundle s0 n).mem := by simpa using h0
  have hb := blockBundle_wf s l h0
  unfold settleBundle
  split
  · exact ht _
  · refine ite_wf (ht _) ?_
    split
    · exact ht _
    · split
      · exact ite_wf (ht _) hb
      · exact ite_wf hb (by simpa using h)

theorem stepPort_wf {s : State} (c : Nat) (h : Memory.wf s.mem) : Memory.wf (stepPort s c).mem := by
  have hp (l : List PortAccess) {x : State} (hx : Memory.wf x.mem) : Memory.wf (l.foldl performPort x).mem :=
    foldl_wf performPort l (fun _ a hy => performPort_wf _ a hy) x hx
  exact ite_wf (ite_wf (drainInbox_wf _ _ (hp _ h)) (hp _ h)) (wakeCore_wf _ (hp _ h))

theorem stepPorts_wf {s : State} (h : Memory.wf s.mem) : Memory.wf (stepPorts s).mem :=
  foldl_wf _ _ (fun _ p hx => stepPort_wf p.1 hx) s h

theorem nextCycle_wf {s : State} (h : Memory.wf s.mem) : Memory.wf (nextCycle s).mem := ite_wf h (stepPorts_wf h)

end Sys2Proof.Machine

/-! # The rows keep memory canonical

One lemma per row that is not among the simple ones: the state it answers has canonical memory if its own had. -/

namespace Sys2Proof.Machine

/-! ## Outcomes -/

/-- Whether the state that an outcome answers, if it answers one, has memory in its canonical form. -/
def OutCanonical : Out → Prop
  | .next t => Memory.wf t.mem
  | .fault _ => True
  | .refused _ => True

@[simp] theorem outCanonical_next (t : State) : OutCanonical (.next t) ↔ Memory.wf t.mem := Iff.rfl

theorem outCanonical_ite {p : Prop} [Decidable p] {a b : Out} (ha : OutCanonical a) (hb : OutCanonical b) :
    OutCanonical (if p then a else b) := by
  split
  · exact ha
  · exact hb

@[simp] theorem outCanonical_ite_iff (p : Prop) [Decidable p] (a b : Out) :
    OutCanonical (if p then a else b) ↔ if p then OutCanonical a else OutCanonical b := by split <;> rfl

/-! ## The shared operations -/

theorem trapNow_canonical {s : State} (n : Nat) (h : Memory.wf s.mem) : OutCanonical (.next (trapNow s n)) := by
  simpa using h

/-- A thread that does not issue ends its turn. -/
theorem issued_canonical {s : State} (c t : Nat) (h : Memory.wf s.mem) :
    OutCanonical (.next (if s.cur.issue then s else endTurn s c t)) := ite_wf h (by simpa using h)

/-! ## A thread's turn -/

theorem execTurnStart_canonical {s : State} (h : Memory.wf s.mem) : OutCanonical (execTurnStart s) := by
  unfold execTurnStart
  extract_lets c t u th u1 th1
  have hu : Memory.wf u.mem := h
  have h1 : Memory.wf u1.mem := by
    rw [modThread_mem]
    exact applyLandings_wf c t _ (by simpa using hu)
  clear_value u u1
  refine outCanonical_ite hu (outCanonical_ite (doneTurn_wf c t hu) (outCanonical_ite (doneTurn_wf c t (by simpa using hu))
    (outCanonical_ite (by simpa using h1) (outCanonical_ite (by simpa using h1) (outCanonical_ite ?_ ?_)))))
  · split
    · simpa using h1
    · exact issued_canonical c t (s := replyAct (leaveHalt u1 c t _) c t) (by simpa using h1)
  · exact issued_canonical c t (s := replyAct u1 c t) (by simpa using h1)

theorem execLanding_canonical {s : State} (h : Memory.wf s.mem) : OutCanonical (execLanding s) := applyLandings_wf _ _ _ h

theorem execWriteTrapc_canonical {s : State} (h : Memory.wf s.mem) : OutCanonical (execWriteTrapc s) := applyLanding_wf _ _ _ h

theorem execWriteLsd_canonical {s : State} (h : Memory.wf s.mem) : OutCanonical (execWriteLsd s) := applyLanding_wf _ _ _ h

theorem execWriteInqr_canonical {s : State} (h : Memory.wf s.mem) : OutCanonical (execWriteInqr s) := applyLanding_wf _ _ _ h

theorem execWriteDbgsel_canonical {s : State} (h : Memory.wf s.mem) : OutCanonical (execWriteDbgsel s) := applyLanding_wf _ _ _ h

/-! ## The home of an access -/

theorem execHomeServeAccess_canonical {s : State} (h : Memory.wf s.mem) : OutCanonical (execHomeServeAccess s) := by
  simp only [execHomeServeAccess, outCanonical_next]
  split
  · exact h
  · exact ite_wf (arrive_wf _ _ h) h

theorem execRetryRefusalResend_canonical {s : State} (h : Memory.wf s.mem) : OutCanonical (execRetryRefusalResend s) := by
  simp only [execRetryRefusalResend, outCanonical_next]
  split
  · exact h
  · exact ite_wf h (ite_wf (serveHome_wf _ _ h) (arrive_wf _ _ h))

theorem execFarReplyArrival_canonical {s : State} (h : Memory.wf s.mem) : OutCanonical (execFarReplyArrival s) := by
  unfold execFarReplyArrival; split <;> simpa using h

theorem execDeliveryFault_canonical {s : State} (h : Memory.wf s.mem) : OutCanonical (execDeliveryFault s) := by
  simp only [execDeliveryFault]; split <;> simpa using h

/-! ## Scalars -/

theorem divide_canonical {s : State} (w : SWord) (b r : Word) (h : Memory.wf s.mem) : OutCanonical (divide s w b r) := by
  simpa [divide] using h

theorem execLea_canonical {s : State} (w : SWord) (h : Memory.wf s.mem) : OutCanonical (execLea w s) := by
  simpa [execLea] using h

theorem execAdda_canonical {s : State} (w : SWord) (h : Memory.wf s.mem) : OutCanonical (execAdda w s) := by
  simpa [execAdda] using h

theorem execFcvt_canonical {s : State} (f : Fmt) (w : SWord) (h : Memory.wf s.mem) : OutCanonical (execFcvt f w s) := by
  simp only [execFcvt]; (repeat' split) <;> simpa using h

/-! ## Far accesses -/

theorem farAccess_canonical {s : State} (op : Nat) (w : XWord) (a : Addr) (size : Nat) (rx release : Bool) (need : Need)
    (go : Trans → State) (h : Memory.wf s.mem) (hgo : ∀ t, Memory.wf (go t).mem) :
    OutCanonical (farAccess s op w a size rx release need go) :=
  ite_wf (by simpa using h) (ite_wf h (ite_wf h (hgo _)))

theorem execFld_canonical {s : State} (w : XWord) (h : Memory.wf s.mem) : OutCanonical (execFld w s) := by
  unfold execFld
  exact farAccess_canonical _ _ _ _ _ _ _ _ h (fun t => by simpa using h)

theorem execFst_canonical {s : State} (w : XWord) (h : Memory.wf s.mem) : OutCanonical (execFst w s) := by
  unfold execFst
  refine farAccess_canonical _ _ _ _ _ _ _ _ h (fun t => ?_)
  dsimp only
  split <;> simpa using h

theorem execFstp_canonical {s : State} (w : XWord) (h : Memory.wf s.mem) : OutCanonical (execFstp w s) := by
  simp only [execFstp]
  split
  · exact outCanonical_ite (trapNow_canonical _ h) (outCanonical_ite (trapNow_canonical _ h)
      (outCanonical_ite (trapNow_canonical _ h) (by simpa using h)))
  · exact farAccess_canonical _ _ _ _ _ _ _ _ h (fun t => by simpa using h)

theorem execFatom_canonical {s : State} (w : XWord) (h : Memory.wf s.mem) : OutCanonical (execFatom w s) := by
  unfold execFatom
  exact farAccess_canonical _ _ _ _ _ _ _ _ h (fun t => by simpa using h)

theorem execFvatom_canonical {s : State} (w : XWord) (h : Memory.wf s.mem) : OutCanonical (execFvatom w s) := by
  unfold execFvatom
  exact farAccess_canonical _ _ _ _ _ _ _ _ h (fun t => by simpa using h)

theorem execFence_canonical {s : State} (w : XWord) (h : Memory.wf s.mem) : OutCanonical (execFence w s) := by
  simpa [execFence] using h

theorem execMbox_canonical {s : State} (w : XWord) (h : Memory.wf s.mem) : OutCanonical (execMbox w s) := by
  simp only [execMbox]; (repeat' split) <;> simpa using h

/-! ## The core's own memory -/

theorem withPlace_canonical {s : State} (ea : Int) (size align : Nat) (bad : Nat → Bool) (k : Nat → State)
    (h : Memory.wf s.mem) (hk : ∀ a, Memory.wf (k a).mem) : OutCanonical (withPlace s ea size align bad k) :=
  outCanonical_ite (trapNow_canonical _ h) (outCanonical_ite (trapNow_canonical _ h) (hk _))

theorem withRange_canonical {s : State} (ea : Int) (size align : Nat) (bad : Nat → Bool) (k : Nat → State)
    (h : Memory.wf s.mem) (hk : ∀ a, Memory.wf (k a).mem) : OutCanonical (withRange s ea size align bad k) :=
  withPlace_canonical ea size align bad _ h (fun a => by simpa using hk a)

theorem execLd_canonical {s : State} (w : LWord) (h : Memory.wf s.mem) : OutCanonical (execLd w s) :=
  withRange_canonical _ _ _ _ _ h (fun _ => by simpa using h)

theorem execSt_canonical {s : State} (w : LWord) (h : Memory.wf s.mem) : OutCanonical (execSt w s) :=
  withRange_canonical _ _ _ _ _ h (fun _ => by simpa using h)

theorem execLdv_canonical {s : State} (w : LWord) (h : Memory.wf s.mem) : OutCanonical (execLdv w s) :=
  outCanonical_ite h (withRange_canonical _ _ _ _ _ h (fun _ => h))

theorem storeImage_canonical {s : State} (w : LWord) (h : Memory.wf s.mem) : OutCanonical (storeImage s w) :=
  outCanonical_ite h (withRange_canonical _ _ _ _ _ h (fun _ => by simpa using h))

theorem storeNarrow_canonical {s : State} (w : LWord) (h : Memory.wf s.mem) : OutCanonical (storeNarrow s w) :=
  outCanonical_ite h (outCanonical_ite (withRange_canonical _ _ _ _ _ h (fun _ => by simpa using h))
    (withRange_canonical _ _ _ _ _ h (fun _ => by simpa using h)))

theorem execStv_canonical {s : State} (w : LWord) (h : Memory.wf s.mem) : OutCanonical (execStv w s) :=
  outCanonical_ite (storeNarrow_canonical w h) (storeImage_canonical w h)

theorem execLdx_canonical {s : State} (w : LWord) (h : Memory.wf s.mem) : OutCanonical (execLdx w s) := by
  simpa [execLdx] using h

theorem execStx_canonical {s : State} (w : LWord) (h : Memory.wf s.mem) : OutCanonical (execStx w s) := by
  simpa [execStx] using h

theorem execSpill_canonical {s : State} (w : LWord) (h : Memory.wf s.mem) : OutCanonical (execSpill w s) :=
  withRange_canonical _ _ _ _ _ h (fun _ => by simpa using h)

theorem execFill_canonical {s : State} (w : LWord) (h : Memory.wf s.mem) : OutCanonical (execFill w s) :=
  withRange_canonical _ _ _ _ _ h (fun _ => by
    rw [portAccess_mem]
    exact ite_wf h h)

theorem execAtom_canonical {s : State} (w : LWord) (h : Memory.wf s.mem) : OutCanonical (execAtom w s) :=
  withRange_canonical _ _ _ _ _ h (fun _ => by simpa using h)

theorem loadFull_canonical {s : State} (take : Bool) (w : LWord) (h : Memory.wf s.mem) : OutCanonical (loadFull take w s) := by
  unfold loadFull
  refine outCanonical_ite (withRange_canonical _ _ _ _ _ h (fun a => ?_))
    (outCanonical_ite h (withRange_canonical _ _ _ _ _ h (fun a => ?_)))
  all_goals exact ite_wf (by simpa using h) h

theorem storeEmpty_canonical {s : State} (fill : Bool) (w : LWord) (h : Memory.wf s.mem) :
    OutCanonical (storeEmpty fill w s) := by
  unfold storeEmpty
  refine outCanonical_ite (withRange_canonical _ _ _ _ _ h (fun a => ?_))
    (outCanonical_ite h (withRange_canonical _ _ _ _ _ h (fun a => ?_)))
  all_goals exact ite_wf (by simpa using h) h

theorem clearBits_canonical {s : State} (set : Bool) (w : LWord) (h : Memory.wf s.mem) : OutCanonical (clearBits set w s) :=
  outCanonical_ite (trapNow_canonical _ h) (outCanonical_ite (trapNow_canonical _ h) (withPlace_canonical _ _ _ _ _ h (fun _ => h)))

theorem tagLookup_canonical {s : State} (claim : Bool) (w : LWord) (h : Memory.wf s.mem) : OutCanonical (tagLookup claim w s) := by
  simp only [tagLookup]; split <;> simpa using h

theorem execTagw_canonical {s : State} (w : LWord) (h : Memory.wf s.mem) : OutCanonical (execTagw w s) := by
  simpa [execTagw] using h

theorem execTagx_canonical {s : State} (w : LWord) (h : Memory.wf s.mem) : OutCanonical (execTagx w s) := by
  simpa [execTagx] using h

theorem execTagxRd_canonical {s : State} (w : LWord) (h : Memory.wf s.mem) : OutCanonical (execTagxRd w s) := by
  simpa [execTagxRd] using h

/-! ## The matrix engine -/

@[simp] theorem mwldRow_mem (s : State) (c : Nat) (q : EngCmd) (k : Nat) : (mwldRow s c q k).1.mem = s.mem := by
  simp only [mwldRow]
  split
  · split <;> rfl
  · rfl

@[simp] theorem mstrmRow_mem (s : State) (c : Nat) (q : EngCmd) (m : Nat) : (mstrmRow s c q m).1.mem = s.mem := by
  simp only [mstrmRow]
  split
  · split <;> rfl
  · rfl

theorem mdrainRow_wf {s : State} (c : Nat) (q : EngCmd) (m : Nat) (h : Memory.wf s.mem) : Memory.wf (mdrainRow s c q m).1.mem := by
  simp only [mdrainRow]
  split
  · exact h
  · next s1 hs =>
    have h1 : Memory.wf s1.mem := engWrite_wf c _ _ hs h
    exact h1

theorem cmdPart_wf {s : State} (c : Nat) (q : EngCmd) (i : Nat) (h : Memory.wf s.mem) : Memory.wf (cmdPart s c q i).1.mem := by
  unfold cmdPart
  split
  · simpa using h
  · split
    · simpa using h
    · split
      · exact mdrainRow_wf c q i h
      · split
        · exact h
        · split
          · exact h
          · exact h

theorem execEngineCommandStart_canonical {s : State} (h : Memory.wf s.mem) : OutCanonical (execEngineCommandStart s) := by
  simp only [execEngineCommandStart]; (repeat' split) <;> simpa using h

theorem execEnginePortAccess_canonical {s : State} (h : Memory.wf s.mem) : OutCanonical (execEnginePortAccess s) := by
  simp only [execEnginePortAccess, outCanonical_next]
  split
  · exact h
  · next q _ _ =>
    have hp := cmdPart_wf (arg s 0) q (engine s (arg s 0)).row h
    generalize cmdPart s (arg s 0) q (engine s (arg s 0)).row = r at hp ⊢
    have hw (f : Engine → Engine) :
        Memory.wf (wakeCore (modEngine (tickPart r.1 (arg s 0) q (engine s (arg s 0)).row) (arg s 0) f) (arg s 0)).mem :=
      wakeCore_wf _ (by simpa using hp)
    refine ite_wf h (ite_wf h (ite_wf (by simpa using hp) (ite_wf ?_ ?_)))
    · rw [later_mem]
      exact hw _
    · rw [later_mem, nextPart_mem]
      exact hw _

theorem execEngineCommandRetire_canonical {s : State} (h : Memory.wf s.mem) : OutCanonical (execEngineCommandRetire s) := by
  simp only [execEngineCommandRetire, outCanonical_next]
  split
  · exact h
  · refine ite_wf ?_ h
    split
    · exact h
    · exact retireCommand_wf _ _ h

theorem execEngineHandoverEnd_canonical {s : State} (h : Memory.wf s.mem) : OutCanonical (execEngineHandoverEnd s) := by
  simp only [execEngineHandoverEnd, outCanonical_next]
  split
  · exact h
  · exact ite_wf h (retireCommand_wf _ _ (cmdPart_wf _ _ 0 h))

theorem submit_canonical {s : State} (q : EngCmd) (read : State → State) (h : Memory.wf s.mem)
    (hr : (read s).mem = s.mem) : OutCanonical (submit s q read) :=
  outCanonical_ite (trapNow_canonical _ h) (outCanonical_ite h (by simpa [hr] using h))

theorem execRingsetDef_canonical {s : State} (w : MWord) (h : Memory.wf s.mem) : OutCanonical (execRingsetDef w s) := by
  simpa [execRingsetDef] using h

theorem execRingsetTail_canonical {s : State} (w : MWord) (h : Memory.wf s.mem) : OutCanonical (execRingsetTail w s) := by
  simpa [execRingsetTail] using h

theorem execRingsetHead_canonical {s : State} (w : MWord) (h : Memory.wf s.mem) : OutCanonical (execRingsetHead w s) := by
  simpa [execRingsetHead] using h

theorem execMstrm_canonical {s : State} (w : MWord) (h : Memory.wf s.mem) : OutCanonical (execMstrm w s) :=
  outCanonical_ite (trapNow_canonical _ h) (submit_canonical _ _ h (by simp))

theorem handOver_canonical {s : State} (w : MWord) (q : EngCmd) (view : Nat) (after : State → State) (h : Memory.wf s.mem)
    (ha : ∀ x, (after x).mem = x.mem) : OutCanonical (handOver s w q view after) := by
  simpa [handOver, ha] using h

theorem execMwldv_canonical {s : State} (w : MWord) (h : Memory.wf s.mem) : OutCanonical (execMwldv w s) := by
  unfold execMwldv
  exact handOver_canonical _ _ _ _ h (fun _ => rfl)

theorem execMdrainv_canonical {s : State} (w : MWord) (h : Memory.wf s.mem) : OutCanonical (execMdrainv w s) := by
  unfold execMdrainv
  refine handOver_canonical _ _ _ _ h (fun x => ?_)
  rw [mem_ite, modEngine_mem, foldl_mem _ _ (fun _ _ => by simp), ite_self]

theorem execMcmd_canonical {s : State} (w : MWord) (h : Memory.wf s.mem) : OutCanonical (execMcmd w s) := by
  simpa [execMcmd] using h

theorem execMcmdRequestArrival_canonical {s : State} (h : Memory.wf s.mem) : OutCanonical (execMcmdRequestArrival s) := by
  simpa [execMcmdRequestArrival] using h

theorem execMcmdInboundAccept_canonical {s : State} (h : Memory.wf s.mem) : OutCanonical (execMcmdInboundAccept s) := by
  simp only [execMcmdInboundAccept]; split <;> simpa using h

theorem execMcmdReplyArrival_canonical {s : State} (h : Memory.wf s.mem) : OutCanonical (execMcmdReplyArrival s) := by
  simpa [execMcmdReplyArrival] using h

/-! ## The tephra core -/

theorem execTeRd_canonical {s : State} (w : TWord) (h : Memory.wf s.mem) : OutCanonical (execTeRd w s) := by
  rw [execTeRd, outCanonical_next, teBlocking_mem _ _ _ _ _ _ _ (fun _ _ => by rfl)]
  exact h

theorem execTeWr_canonical {s : State} (w : TWord) (h : Memory.wf s.mem) : OutCanonical (execTeWr w s) := by
  simpa [execTeWr] using h

theorem execTeRdw_canonical {s : State} (w : TWord) (h : Memory.wf s.mem) : OutCanonical (execTeRdw w s) := by
  rw [execTeRdw, outCanonical_next, withBlock_mem _ _ _ _ (by simp)]
  exact h

theorem execTeWrw_canonical {s : State} (w : TWord) (h : Memory.wf s.mem) : OutCanonical (execTeWrw w s) := by
  rw [execTeWrw, outCanonical_next, withBlock_mem _ _ _ _ (by simp)]
  exact h

theorem execTeAtom_canonical {s : State} (w : TWord) (h : Memory.wf s.mem) : OutCanonical (execTeAtom w s) := by
  rw [execTeAtom, outCanonical_next, teBlocking_mem _ _ _ _ _ _ _ (fun _ _ => by rfl)]
  exact h

theorem execTeVat_canonical {s : State} (w : TWord) (h : Memory.wf s.mem) : OutCanonical (execTeVat w s) := by
  rw [execTeVat, outCanonical_next, withBlock_mem _ _ _ _ (by simp)]
  exact h

theorem teFull_canonical {s : State} (mode : Nat) (w : TWord) (h : Memory.wf s.mem) : OutCanonical (teFull mode w s) := by
  rw [teFull, outCanonical_next, teBlocking_mem _ _ _ _ _ _ _ (fun _ _ => by rfl)]
  exact h

theorem execTeEmpty_canonical {s : State} (w : TWord) (h : Memory.wf s.mem) : OutCanonical (execTeEmpty w s) := by
  rw [execTeEmpty, outCanonical_next, teBlocking_mem _ _ _ _ _ _ _ (fun _ _ => by rfl)]
  exact h

theorem teSig_canonical {s : State} (w : TWord) (f : Nat → Nat → Int) (h : Memory.wf s.mem) : OutCanonical (teSig w s f) := by
  simpa [teSig] using h

theorem execTeSigAdd_canonical {s : State} (w : TWord) (h : Memory.wf s.mem) : OutCanonical (execTeSigAdd w s) := by
  unfold execTeSigAdd
  exact teSig_canonical w _ h

theorem execTeSigSub_canonical {s : State} (w : TWord) (h : Memory.wf s.mem) : OutCanonical (execTeSigSub w s) := by
  unfold execTeSigSub
  exact teSig_canonical w _ h

theorem execTeSigSet_canonical {s : State} (w : TWord) (h : Memory.wf s.mem) : OutCanonical (execTeSigSet w s) := by
  unfold execTeSigSet
  exact teSig_canonical w _ h

theorem execTePoll_canonical {s : State} (w : TWord) (h : Memory.wf s.mem) : OutCanonical (execTePoll w s) := by
  simpa [execTePoll] using h

theorem execTeWinProbe_canonical {s : State} (w : TWord) (h : Memory.wf s.mem) : OutCanonical (execTeWinProbe w s) := by
  simpa [execTeWinProbe] using h

theorem execTeMbox_canonical {s : State} (w : TWord) (h : Memory.wf s.mem) : OutCanonical (execTeMbox w s) := by
  simp only [execTeMbox]; split <;> simpa using h

theorem execTeGcyc_canonical {s : State} (w : TWord) (h : Memory.wf s.mem) : OutCanonical (execTeGcyc w s) := by
  simpa [execTeGcyc] using h

theorem execTeSave_canonical {s : State} (w : TWord) (h : Memory.wf s.mem) : OutCanonical (execTeSave w s) := by
  refine ite_wf (by simpa using h) (ite_wf (by simpa using h) ?_)
  rw [saveFlight_mem _ _ _ _ (fun _ => by simp)]
  exact h

theorem execTeCmd_canonical {s : State} (w : TWord) (h : Memory.wf s.mem) : OutCanonical (execTeCmd w s) := by
  simp only [execTeCmd]; (repeat' split) <;> simpa using h

theorem execTeDone_canonical {s : State} (w : TWord) (h : Memory.wf s.mem) : OutCanonical (execTeDone w s) := by
  simp only [execTeDone, outCanonical_next]
  split
  · simpa using h
  · refine ite_wf (by simpa using h) (ite_wf (by simpa using h) ?_)
    rw [teRetire_mem _ _ _ _ _ (fun _ => by rfl)]
    exact h

theorem tensor_canonical {s : State} (coll : Bool) (w : XWord) (h : Memory.wf s.mem) : OutCanonical (tensor coll w s) := by
  simpa [tensor] using h

theorem execTephraBaseInstruction_canonical {s : State} (h : Memory.wf s.mem) : OutCanonical (execTephraBaseInstruction s) := by
  simp only [execTephraBaseInstruction, outCanonical_next]
  cases s.cur.rv with
  | branch c rs1 rs2 off => exact ite_wf h h
  | load z rd rs1 off => simpa using h
  | store z rs1 rs2 off => simpa using h
  | illegal => simpa using h
  | stdImage => exact stdStep_wf h
  | _ => exact h

/-! ## Saves and restores -/

theorem execContextSaveTurn_canonical {s : State} (h : Memory.wf s.mem) : OutCanonical (execContextSaveTurn s) := by
  simpa [execContextSaveTurn] using h

theorem execContextSaveComplete_canonical {s : State} (h : Memory.wf s.mem) : OutCanonical (execContextSaveComplete s) :=
  ite_wf (finishGangSave_wf _ h) (ite_wf (becomeSaved_wf _ _ h) h)

theorem execContextRestoreComplete_canonical {s : State} (h : Memory.wf s.mem) : OutCanonical (execContextRestoreComplete s) := by
  simp only [execContextRestoreComplete, outCanonical_next]
  refine ite_wf ?_ (by simpa using h)
  split
  · exact h
  · refine ite_wf ?_ h
    rw [checkDone_mem, modGang_mem]
    exact foldl_wf _ _ (fun _ c hx => restoreCore_wf _ c hx) s h

theorem execEndToEndAcknowledgement_canonical {s : State} (h : Memory.wf s.mem) : OutCanonical (execEndToEndAcknowledgement s) := by
  simp only [execEndToEndAcknowledgement, outCanonical_next]
  split
  · exact h
  · next f _ =>
    have ha (n c id : Nat) (g : Flight) (p q : Prop) [Decidable p] [Decidable q] : Memory.wf (if p then s else if q then
        onGang s n c (fun x => acknowledgeParty x id g) else acknowledgeParty s id g).mem :=
      ite_wf h (ite_wf (onGang_wf n c _ (fun _ hx => acknowledgeParty_wf id g hx) h) (acknowledgeParty_wf id g h))
    exact ite_wf h (ite_wf (ha _ _ _ _ _ _) (ha _ _ _ _ _ _))

/-! ## Control -/

theorem execTrap_canonical {s : State} (w : SWord) (h : Memory.wf s.mem) : OutCanonical (execTrap w s) := by
  simpa [execTrap] using h

theorem loop_canonical {s : State} (n st : Nat) (h : Memory.wf s.mem) : OutCanonical (loop s n st) := by
  refine outCanonical_ite (trapNow_canonical _ h) (outCanonical_ite (trapNow_canonical _ h) (outCanonical_ite (trapNow_canonical _ h) ?_))
  rw [outCanonical_next, foldl_mem _ _ (fun _ _ => by simp)]
  exact h

theorem execLend_canonical {s : State} (h : Memory.wf s.mem) : OutCanonical (execLend s) := by
  refine outCanonical_ite (trapNow_canonical _ h) ?_
  rw [outCanonical_next, foldl_mem _ _ (fun _ _ => by simp)]
  simpa using h

theorem execLpin_canonical {s : State} (w : SWord) (h : Memory.wf s.mem) : OutCanonical (execLpin w s) := by
  simp only [execLpin]; split <;> simpa using h

theorem execRds_canonical {s : State} (w : SWord) (h : Memory.wf s.mem) : OutCanonical (execRds w s) := by
  simpa [execRds] using h

theorem execWrs_canonical {s : State} (w : SWord) (h : Memory.wf s.mem) : OutCanonical (execWrs w s) := by
  simpa [execWrs] using h

theorem execRotset_canonical {s : State} (w : SWord) (h : Memory.wf s.mem) : OutCanonical (execRotset w s) := by
  simpa [execRotset] using h

theorem waitc_canonical {s : State} (target : Nat) (h : Memory.wf s.mem) : OutCanonical (waitc s target) := by
  simpa [waitc] using h

/-! ## Barriers and semaphores -/

theorem execChsend_canonical {s : State} (w : XWord) (h : Memory.wf s.mem) : OutCanonical (execChsend w s) := by
  simp only [execChsend]; split <;> simpa using h

theorem execChrecv_canonical {s : State} (w : XWord) (h : Memory.wf s.mem) : OutCanonical (execChrecv w s) := by
  simp only [execChrecv]; (repeat' split) <;> simpa using h

theorem execChpeek_canonical {s : State} (w : XWord) (h : Memory.wf s.mem) : OutCanonical (execChpeek w s) := by
  unfold execChpeek; split <;> simpa using h

theorem execBara_canonical {s : State} (w : XWord) (h : Memory.wf s.mem) : OutCanonical (execBara w s) := by
  unfold execBara; split <;> simpa using h

theorem execBar_canonical {s : State} (w : XWord) (h : Memory.wf s.mem) : OutCanonical (execBar w s) := by
  unfold execBar; split <;> simpa using h

theorem execBarrierRelease_canonical {s : State} (h : Memory.wf s.mem) : OutCanonical (execBarrierRelease s) := by
  simp only [execBarrierRelease]; split <;> simpa using h

theorem execNxt_canonical {s : State} (w : XWord) (h : Memory.wf s.mem) : OutCanonical (execNxt w s) := by
  simp only [execNxt]; split <;> simpa using h

theorem execSemsigAdd_canonical {s : State} (w : XWord) (h : Memory.wf s.mem) : OutCanonical (execSemsigAdd w s) := by
  simpa [execSemsigAdd] using h

theorem execSemsigSub_canonical {s : State} (w : XWord) (h : Memory.wf s.mem) : OutCanonical (execSemsigSub w s) := by
  simpa [execSemsigSub] using h

theorem execSemsigSet_canonical {s : State} (w : XWord) (h : Memory.wf s.mem) : OutCanonical (execSemsigSet w s) := by
  simpa [execSemsigSet] using h

theorem execSemwait_canonical {s : State} (w : XWord) (h : Memory.wf s.mem) : OutCanonical (execSemwait w s) := by
  simpa [execSemwait] using h

theorem execSemwaitDec_canonical {s : State} (w : XWord) (h : Memory.wf s.mem) : OutCanonical (execSemwaitDec w s) := by
  simpa [execSemwaitDec] using h

theorem execSemtry_canonical {s : State} (w : XWord) (h : Memory.wf s.mem) : OutCanonical (execSemtry w s) := by
  simpa [execSemtry] using h

theorem execSemtryDec_canonical {s : State} (w : XWord) (h : Memory.wf s.mem) : OutCanonical (execSemtryDec w s) := by
  simpa [execSemtryDec] using h

/-! ## The service cores -/

theorem execInboundMessageWrite_canonical {s : State} (h : Memory.wf s.mem) : OutCanonical (execInboundMessageWrite s) :=
  drainInbox_wf 1024 _ h

theorem execServiceReplyArrival_canonical {s : State} (h : Memory.wf s.mem) : OutCanonical (execServiceReplyArrival s) := by
  simp only [execServiceReplyArrival, outCanonical_next]
  split
  · simpa using h
  · exact ite_wf h (ite_wf (by simpa using h) (ite_wf (onImage_wf _ _ (fun _ hx => threadReplied_wf _ _ _ _ _ hx) h)
      (by simpa using h)))

theorem privileged_canonical {s : State} (bad : Bool) (h : Memory.wf s.mem) : OutCanonical (privileged s bad) := by
  simp only [privileged]; (repeat' split) <;> simpa using h

theorem mbreply_canonical {s : State} (k : Nat) (w : SWord) (h : Memory.wf s.mem) : OutCanonical (mbreply k w s) := by
  simpa [mbreply] using h

theorem execWindowInstallApply_canonical {s : State} (h : Memory.wf s.mem) : OutCanonical (execWindowInstallApply s) := by
  unfold execWindowInstallApply; split <;> simpa using h

theorem execWindowInstallComplete_canonical {s : State} (h : Memory.wf s.mem) : OutCanonical (execWindowInstallComplete s) := by
  simpa [execWindowInstallComplete] using h

theorem execWindowKillInvalidate_canonical {s : State} (h : Memory.wf s.mem) : OutCanonical (execWindowKillInvalidate s) := by
  unfold execWindowKillInvalidate; split <;> simpa using h

theorem execKillAcknowledge_canonical {s : State} (h : Memory.wf s.mem) : OutCanonical (execKillAcknowledge s) := by
  unfold execKillAcknowledge; split <;> simpa using h

theorem execWindowKillComplete_canonical {s : State} (h : Memory.wf s.mem) : OutCanonical (execWindowKillComplete s) := by
  simpa [execWindowKillComplete] using h

theorem execPrivilegedRequestArrival_canonical {s : State} (h : Memory.wf s.mem) : OutCanonical (execPrivilegedRequestArrival s) := by
  simp only [execPrivilegedRequestArrival, outCanonical_next]
  split
  · exact h
  · next r _ =>
    have hr := takeRequest_wf (arg s 0) r h
    generalize takeRequest s (arg s 0) r = x at hr ⊢
    refine ite_wf ?_ ?_
    · split
      · simpa using hr
      · exact ite_wf hr (by simpa using hr)
    · split
      · simpa using h
      · simpa using h

theorem execPrivilegedAcknowledgement_canonical {s : State} (h : Memory.wf s.mem) : OutCanonical (execPrivilegedAcknowledgement s) := by
  unfold execPrivilegedAcknowledgement; split <;> simpa using h

theorem execDebugReadComplete_canonical {s : State} (h : Memory.wf s.mem) : OutCanonical (execDebugReadComplete s) := by
  simpa [execDebugReadComplete] using h

/-! ## Loading -/

theorem execGangRelease_canonical {s : State} (h : Memory.wf s.mem) : OutCanonical (execGangRelease s) := by
  simp only [execGangRelease, outCanonical_next]
  split
  · exact h
  · refine ite_wf h (ite_wf (by simpa using h) ?_)
    rw [foldl_mem _ _ (fun _ _ => by simp)]
    exact h

theorem execGangCompletion_canonical {s : State} (h : Memory.wf s.mem) : OutCanonical (execGangCompletion s) := by
  simp only [execGangCompletion]; split <;> simpa using h

/-! ## Links -/

theorem execContPacket_canonical {s : State} (h : Memory.wf s.mem) : OutCanonical (execContPacket s) := by
  simpa [execContPacket] using h

theorem execConduitFailure_canonical {s : State} (h : Memory.wf s.mem) : OutCanonical (execConduitFailure s) := by
  simpa [execConduitFailure] using h

theorem execTimeSyncExchange_canonical {s : State} (h : Memory.wf s.mem) : OutCanonical (execTimeSyncExchange s) := by
  simp only [execTimeSyncExchange, outCanonical_next, atEvent_mem]
  refine ite_wf h (writeBlock_wf _ _ ?_)
  exact foldl_fst_wf _ _ (fun _ _ hp => by simpa using hp) (s, 0) h

theorem execStreamResume_canonical {s : State} (h : Memory.wf s.mem) : OutCanonical (execStreamResume s) := by
  simpa [execStreamResume] using h

theorem execQuiesceAcknowledged_canonical {s : State} (h : Memory.wf s.mem) : OutCanonical (execQuiesceAcknowledged s) := by
  refine outCanonical_ite h ?_
  rw [outCanonical_next, atEvent_mem, atEvent_mem]
  exact enter_wf _ _ h

theorem execDrainComplete_canonical {s : State} (h : Memory.wf s.mem) : OutCanonical (execDrainComplete s) :=
  ite_wf h (ite_wf (by simpa using h) (goDown_wf _ h))

theorem execDrainTimeout_canonical {s : State} (h : Memory.wf s.mem) : OutCanonical (execDrainTimeout s) :=
  ite_wf h (goDown_wf _ (failFlights_wf _ h))

theorem execLanesReconfigured_canonical {s : State} (h : Memory.wf s.mem) : OutCanonical (execLanesReconfigured s) :=
  ite_wf (goTrain_wf _ h) h

theorem execLinkTrained_canonical {s : State} (h : Memory.wf s.mem) : OutCanonical (execLinkTrained s) := by
  refine outCanonical_ite h ?_
  rw [outCanonical_next, later_mem]
  exact enter_wf _ _ h

theorem execTrainingFailed_canonical {s : State} (h : Memory.wf s.mem) : OutCanonical (execTrainingFailed s) := by
  refine outCanonical_ite h (outCanonical_ite ?_ ?_)
  · rw [outCanonical_next, endSwitch_mem]
    exact enter_wf _ _ h
  · rw [outCanonical_next, attempt_mem]
    exact enter_wf _ _ h

theorem execEnumerationDone_canonical {s : State} (h : Memory.wf s.mem) : OutCanonical (execEnumerationDone s) := by
  refine outCanonical_ite h ?_
  rw [outCanonical_next, later_mem]
  exact enter_wf _ _ h

theorem execMapDone_canonical {s : State} (h : Memory.wf s.mem) : OutCanonical (execMapDone s) := by
  refine outCanonical_ite h ?_
  rw [outCanonical_next, endSwitch_mem, holdStreams_mem, joinSets_mem]
  exact enter_wf _ _ h

theorem execSwitch_canonical {s : State} (h : Memory.wf s.mem) : OutCanonical (execSwitch s) := by
  simp only [execSwitch]
  split
  · exact h
  · have hc (g seq a : Nat) : Memory.wf (configure s g seq a).mem := configure_wf g seq a h
    refine ite_wf (by simpa using h) (ite_wf ?_ (goTrain_wf _ (hc _ _ _)))
    rw [laterIn_mem, modEdge_mem]
    exact leaveActive_wf _ 1 (hc _ _ _)

theorem execLinkDeath_canonical {s : State} (h : Memory.wf s.mem) : OutCanonical (execLinkDeath s) := linkDies_wf _ h

theorem execAcknowledgementTimeout_canonical {s : State} (h : Memory.wf s.mem) : OutCanonical (execAcknowledgementTimeout s) := linkDies_wf _ h

theorem execInboundPeerRequest_canonical {s : State} (h : Memory.wf s.mem) : OutCanonical (execInboundPeerRequest s) := by
  simp only [execInboundPeerRequest, outCanonical_next]
  refine ite_wf h ?_
  split
  · exact h
  · simpa using h
  · generalize hs : (if (peerFlight s (arg s 0)).issued = 0 then _ else _ : State) = x
    have hx : Memory.wf x.mem := by
      rw [← hs]
      exact ite_wf h (by simpa using h)
    have he (c id : Nat) (f g : Flight) (a b n v l k : Nat) :
        Memory.wf (answer (conduitPacket (setFlight x id f) a b n v l k) id g c 0 0).mem := by simpa using hx
    exact ite_wf (he _ _ _ _ _ _ _ _ _ _) (ite_wf (he _ _ _ _ _ _ _ _ _ _) (ite_wf (he _ _ _ _ _ _ _ _ _ _)
      (ite_wf (serveSide_wf _ _ (by simpa using hx)) (serveHome_wf _ _ (by simpa using hx)))))

/-! ## The front end -/

theorem execGraph_canonical {s : State} (h : Memory.wf s.mem) : OutCanonical (execGraph s) := by
  simp only [execGraph]; split <;> simpa using h

theorem execWait_canonical {s : State} (h : Memory.wf s.mem) : OutCanonical (execWait s) := by
  simp only [execWait]; split <;> simpa using h

theorem execLaunch_canonical {s : State} (h : Memory.wf s.mem) : OutCanonical (execLaunch s) := by
  refine serveLaunches_wf ?_
  split
  · exact h
  · simpa using h
  · exact ite_wf (by simpa using h) (by simpa using h)

theorem execCopy_canonical {s : State} (h : Memory.wf s.mem) : OutCanonical (execCopy s) := by
  simp only [execCopy]; (repeat' split) <;> simpa using h

theorem execCkpt_canonical {s : State} (h : Memory.wf s.mem) : OutCanonical (execCkpt s) := by
  simp only [execCkpt]; split <;> simpa using h

theorem execPreempt_canonical {s : State} (h : Memory.wf s.mem) : OutCanonical (execPreempt s) := by
  simp only [execPreempt]; (repeat' split) <;> simpa using h

theorem execResume_canonical {s : State} (h : Memory.wf s.mem) : OutCanonical (execResume s) := by
  simp only [execResume]; (repeat' split) <;> simpa using h

theorem execQconf_canonical {s : State} (h : Memory.wf s.mem) : OutCanonical (execQconf s) := by
  simp only [execQconf]; split <;> simpa using h

theorem execPconf_canonical {s : State} (h : Memory.wf s.mem) : OutCanonical (execPconf s) := by
  simp only [execPconf]; split <;> simpa using h

theorem execPwin_canonical {s : State} (h : Memory.wf s.mem) : OutCanonical (execPwin s) := by
  simp only [execPwin]; (repeat' split) <;> simpa using h

theorem execPreset_canonical {s : State} (h : Memory.wf s.mem) : OutCanonical (execPreset s) := by
  simp only [execPreset, outCanonical_next]
  split
  · exact h
  · refine ite_wf (by simpa using h) ?_
    split
    · simpa using h
    · refine ite_wf (by simpa using h) ?_
      refine foldl_wf _ _ (fun _ c hx => endCore_wf _ hx) _ (foldl_wf _ _ (fun _ g hx => endGang_wf g hx) _ ?_)
      rw [setPart_mem, setCmdSt_mem, foldl_mem _ _ (fun _ _ => by simp)]
      exact h

theorem execNopCommand_canonical {s : State} (h : Memory.wf s.mem) : OutCanonical (execNopCommand s) := by
  simpa [execNopCommand] using h

theorem execBudgetPeriodBoundary_canonical {s : State} (h : Memory.wf s.mem) : OutCanonical (execBudgetPeriodBoundary s) := by
  simpa [execBudgetPeriodBoundary] using h

theorem execClockChange_canonical {s : State} (h : Memory.wf s.mem) : OutCanonical (execClockChange s) := by
  simpa [execClockChange] using h

theorem execWriteReload_canonical {s : State} (h : Memory.wf s.mem) : OutCanonical (execWriteReload s) := by
  simpa [execWriteReload] using h

theorem execVentReloadComplete_canonical {s : State} (h : Memory.wf s.mem) : OutCanonical (execVentReloadComplete s) := by
  simp only [execVentReloadComplete, outCanonical_next]
  refine ite_wf h (ite_wf (ite_wf ?_ h) (ite_wf h (by simpa using h)))
  exact foldl_wf _ _ (fun _ _ hx => by simpa using hx) _ (by simpa using h)

theorem execFwload_canonical {s : State} (h : Memory.wf s.mem) : OutCanonical (execFwload s) := by
  simp only [execFwload]; split <;> simpa using h

theorem execAttest_canonical {s : State} (h : Memory.wf s.mem) : OutCanonical (execAttest s) := by
  simp only [execAttest, outCanonical_next]
  split
  · exact h
  · refine ite_wf (by simpa using h) (ite_wf (by simpa using h) ?_)
    rw [retireCmd_mem]
    exact frontWrite_wf _ _ h

theorem execQueueTableError_canonical {s : State} (h : Memory.wf s.mem) : OutCanonical (execQueueTableError s) := by
  refine ite_wf h ?_
  rw [report0_mem]
  refine foldl_wf _ _ (fun _ g hx => endGang_wf g hx) _ ?_
  rw [modQueue_mem, dropCmds_mem]
  exact h

theorem execExecutiveFrame_canonical {s : State} (h : Memory.wf s.mem) : OutCanonical (execExecutiveFrame s) := by
  refine ite_wf (laterSlot_wf _ _ h) (ite_wf h ?_)
  extract_lets s1 s2 s3
  have h1 : Memory.wf s1.mem := ite_wf h (by simpa using h)
  have h2 : Memory.wf s2.mem := foldl_wf frameQueue _ (fun _ q hx => frameQueue_wf q hx) _ (by simpa using h1)
  rw [nextSlot_mem]
  exact ite_wf (frameEnd_wf s h2) h2

theorem execWriteTail_canonical {s : State} (h : Memory.wf s.mem) : OutCanonical (execWriteTail s) := by
  simpa [execWriteTail] using h

theorem execWriteChead_canonical {s : State} (h : Memory.wf s.mem) : OutCanonical (execWriteChead s) := by
  simpa [execWriteChead] using h

theorem execWriteAdmingo_canonical {s : State} (h : Memory.wf s.mem) : OutCanonical (execWriteAdmingo s) := by
  simpa [execWriteAdmingo] using h

theorem execHostApertureAccess_canonical {s : State} (h : Memory.wf s.mem) : OutCanonical (execHostApertureAccess s) := by
  simp only [execHostApertureAccess, outCanonical_next]
  refine ite_wf (takePub_wf _ _ _ h) (ite_wf h ?_)
  split
  · exact h
  · refine ite_wf ?_ (apertureWrite_wf _ _ h)
    simpa using h

/-! ## Reset, supply and the management register -/

theorem execUncorrectableError_canonical {s : State} (h : Memory.wf s.mem) : OutCanonical (execUncorrectableError s) := by
  simp only [execUncorrectableError]; (repeat' split) <;> simpa using h

theorem execStackTemperatureRead_canonical {s : State} (h : Memory.wf s.mem) : OutCanonical (execStackTemperatureRead s) := by
  simpa [execStackTemperatureRead] using h

theorem execResetAssert_canonical {s : State} (h : Memory.wf s.mem) : OutCanonical (execResetAssert s) := heldInReset_wf _ h

theorem execMainSupplyRemoval_canonical {s : State} (h : Memory.wf s.mem) : OutCanonical (execMainSupplyRemoval s) :=
  heldInReset_wf false h

theorem execResetDeassert_canonical {s : State} (h : Memory.wf s.mem) : OutCanonical (execResetDeassert s) := by
  simp only [execResetDeassert, outCanonical_next]
  split
  · refine ite_wf h ?_
    split
    · simpa using h
    · exact bringUp2_wf h
    · exact bringUp3_wf h
    · exact bringUp4_wf h
    · exact bringUp5_wf h
  · exact ite_wf (by simpa using h) h

theorem execI3cStatWrite_canonical {s : State} (h : Memory.wf s.mem) : OutCanonical (execI3cStatWrite s) := by
  simpa [execI3cStatWrite] using h

/-! ## Vectors -/

theorem execVmovsToScalar_canonical {s : State} (w : VWord) (h : Memory.wf s.mem) : OutCanonical (execVmovsToScalar w s) := by
  simpa [execVmovsToScalar] using h

end Sys2Proof.Machine

/-! # Every step keeps memory canonical

exec arm by arm, then slots, bundles, turns and the step. -/

namespace Sys2Proof.Machine
theorem exec_canonical (i : Instr) {s : State} (h : Memory.wf s.mem) : OutCanonical (exec i s) := by
  cases i with
  | segmentExpansionComplete | channelWordArrival | openPacket | closePacket | nop | add _ | sub _ | addi _ | mul _ | mulh _ | mulhn _
  | and _ | or _ | xor _ | andn _ | shl _ | shr _ | sar _ | rol _ | clz _ | popc _ | min _ | max _ | minn _ | maxn _ | sel _ | ext _
  | ins _ | mov _ | moviShort _ | moviImm32 _ | moviLong _ | cmpeq _ | cmpne _ | cmplt _ | cmple _ | cmpltn _ | cmplen _ | movaAS _
  | movaSA _ | movaHiSA _ | movaAA _ | movaHiAS _ | faddF64 _ | fsubF64 _ | fmulF64 _ | fmaF64 _ | fdivF64 _ | fsqrtF64 _ | fminF64 _
  | fmaxF64 _ | fcmpeqF64 _ | fcmpltF64 _ | fcmpleF64 _ | setlF64 _ | fclassF64 _ | faddF32 _ | fsubF32 _ | fmulF32 _ | fmaF32 _
  | fdivF32 _ | fsqrtF32 _ | fminF32 _ | fmaxF32 _ | fcmpeqF32 _ | fcmpltF32 _ | fcmpleF32 _ | setlF32 _ | fclassF32 _ | pand _ | por _
  | pxor _ | pnot _ | pmov _ | pall _ | pany _ | br _ | callLabel _ | callRegister _ | ret | endThread | bri _ | vnop | vadd _ | vsub _
  | vmul _ | vmulh _ | vmad _ | vand _ | vor _ | vxor _ | vshl _ | vshr _ | vsar _ | vmin _ | vmax _ | vabs _ | vclz _ | vpopc _ | vdot4 _
  | vsel _ | vcmp _ | vfadd _ | vfsub _ | vfmul _ | vfma _ | vfmin _ | vfmax _ | vfminn _ | vfmaxn _ | vfabs _ | vfneg _ | vfcmp _
  | vfcmps _ | vcvt _ | vsetl _ | vfclass _ | vexp2 _ | vlog2 _ | vrcp _ | vrsq _ | vsqrt _ | vsin _ | vcos _ | vshuf _ | vbcast _ | vred _
  | vscan _ | vcmprs _ | viota _ | vrng _ | vmovsToVector _ | vmovlToVector _ | vmovlToPredicate _ | vmov _ | xcl _ | vpack _ | vunpk _
  | lnop | mnop | mrep _ | mstat _ | xnop | teWinLo _ | teWinMid _ | teWinHi _ | discardNoticeReturn => exact h
  | turnStart => exact execTurnStart_canonical h
  | landing => exact execLanding_canonical h
  | gangRelease => exact execGangRelease_canonical h
  | gangCompletion => exact execGangCompletion_canonical h
  | barrierRelease => exact execBarrierRelease_canonical h
  | windowInstallApply => exact execWindowInstallApply_canonical h
  | windowInstallComplete => exact execWindowInstallComplete_canonical h
  | windowKillInvalidate => exact execWindowKillInvalidate_canonical h
  | killAcknowledge => exact execKillAcknowledge_canonical h
  | windowKillComplete => exact execWindowKillComplete_canonical h
  | inboundMessageWrite => exact execInboundMessageWrite_canonical h
  | homeServeAccess => exact execHomeServeAccess_canonical h
  | retryRefusalResend => exact execRetryRefusalResend_canonical h
  | farReplyArrival => exact execFarReplyArrival_canonical h
  | deliveryFault => exact execDeliveryFault_canonical h
  | serviceReplyArrival => exact execServiceReplyArrival_canonical h
  | endToEndAcknowledgement => exact execEndToEndAcknowledgement_canonical h
  | engineCommandStart => exact execEngineCommandStart_canonical h
  | engineCommandRetire => exact execEngineCommandRetire_canonical h
  | engineHandoverEnd => exact execEngineHandoverEnd_canonical h
  | mcmdRequestArrival => exact execMcmdRequestArrival_canonical h
  | mcmdInboundAccept => exact execMcmdInboundAccept_canonical h
  | mcmdReplyArrival => exact execMcmdReplyArrival_canonical h
  | tephraBaseInstruction => exact execTephraBaseInstruction_canonical h
  | contextSaveTurn => exact execContextSaveTurn_canonical h
  | contextSaveComplete => exact execContextSaveComplete_canonical h
  | contextRestoreComplete => exact execContextRestoreComplete_canonical h
  | privilegedRequestArrival => exact execPrivilegedRequestArrival_canonical h
  | privilegedAcknowledgement => exact execPrivilegedAcknowledgement_canonical h
  | writeDbgsel => exact execWriteDbgsel_canonical h
  | debugReadComplete => exact execDebugReadComplete_canonical h
  | writeTrapc => exact execWriteTrapc_canonical h
  | writeLsd => exact execWriteLsd_canonical h
  | writeInqr => exact execWriteInqr_canonical h
  | executiveFrame => exact execExecutiveFrame_canonical h
  | budgetPeriodBoundary => exact execBudgetPeriodBoundary_canonical h
  | nopCommand => exact execNopCommand_canonical h
  | launch => exact execLaunch_canonical h
  | copy => exact execCopy_canonical h
  | graph => exact execGraph_canonical h
  | wait => exact execWait_canonical h
  | ckpt => exact execCkpt_canonical h
  | preempt => exact execPreempt_canonical h
  | resume => exact execResume_canonical h
  | pconf => exact execPconf_canonical h
  | qconf => exact execQconf_canonical h
  | preset => exact execPreset_canonical h
  | pwin => exact execPwin_canonical h
  | fwload => exact execFwload_canonical h
  | attest => exact execAttest_canonical h
  | switch => exact execSwitch_canonical h
  | writeTail => exact execWriteTail_canonical h
  | writeChead => exact execWriteChead_canonical h
  | writeAdmingo => exact execWriteAdmingo_canonical h
  | writeReload => exact execWriteReload_canonical h
  | ventReloadComplete => exact execVentReloadComplete_canonical h
  | queueTableError => exact execQueueTableError_canonical h
  | clockChange => exact execClockChange_canonical h
  | hostApertureAccess => exact execHostApertureAccess_canonical h
  | contPacket => exact execContPacket_canonical h
  | conduitFailure => exact execConduitFailure_canonical h
  | timeSyncExchange => exact execTimeSyncExchange_canonical h
  | streamResume => exact execStreamResume_canonical h
  | quiesceAcknowledged => exact execQuiesceAcknowledged_canonical h
  | drainComplete => exact execDrainComplete_canonical h
  | drainTimeout => exact execDrainTimeout_canonical h
  | lanesReconfigured => exact execLanesReconfigured_canonical h
  | linkTrained => exact execLinkTrained_canonical h
  | trainingFailed => exact execTrainingFailed_canonical h
  | enumerationDone => exact execEnumerationDone_canonical h
  | mapDone => exact execMapDone_canonical h
  | linkDeath => exact execLinkDeath_canonical h
  | acknowledgementTimeout => exact execAcknowledgementTimeout_canonical h
  | inboundPeerRequest => exact execInboundPeerRequest_canonical h
  | stackTemperatureRead => exact execStackTemperatureRead_canonical h
  | resetAssert => exact execResetAssert_canonical h
  | resetDeassert => exact execResetDeassert_canonical h
  | i3cStatWrite => exact execI3cStatWrite_canonical h
  | div _ | divn _ | rem _ | remn _ => exact divide_canonical _ _ _ h
  | lea _ => exact execLea_canonical _ h
  | adda _ => exact execAdda_canonical _ h
  | fcvtF64 _ | fcvtF32 _ => exact execFcvt_canonical _ _ h
  | loopRegister _ | loopImmediate _ => exact loop_canonical _ _ h
  | lend => exact execLend_canonical h
  | lpin _ => exact execLpin_canonical _ h
  | trap _ => exact execTrap_canonical _ h
  | rds _ => exact execRds_canonical _ h
  | wrs _ => exact execWrs_canonical _ h
  | rotset _ => exact execRotset_canonical _ h
  | waitcRegister _ | waitcImmediate _ => exact waitc_canonical _ h
  | tretRetry _ | tretAt _ | tretNext _ | tretSkip _ | winset _ | winkill _ | grant _ | ctxsvThr _ | ctxsvGang _ | ctxldThr _ | ctxldGang _
  | haltStop _ | haltEnd _ | haltReset _ => exact privileged_canonical _ h
  | mbreplyRetry _ | mbreplyResume _ | mbreplyResumev _ | mbreplyError _ | mbreplyMbok _ | mbreplyMberr _ => exact mbreply_canonical _ _ h
  | vmovsToScalar _ => exact execVmovsToScalar_canonical _ h
  | ld _ => exact execLd_canonical _ h
  | st _ => exact execSt_canonical _ h
  | ldv _ => exact execLdv_canonical _ h
  | stv _ => exact execStv_canonical _ h
  | ldx _ => exact execLdx_canonical _ h
  | stx _ => exact execStx_canonical _ h
  | spill _ => exact execSpill_canonical _ h
  | fill _ => exact execFill_canonical _ h
  | atom _ => exact execAtom_canonical _ h
  | ldf _ | ldfTake _ => exact loadFull_canonical _ _ h
  | ste _ | steFill _ => exact storeEmpty_canonical _ _ h
  | clrf _ | clrfSet _ => exact clearBits_canonical _ _ h
  | tagq _ | tagqClaim _ => exact tagLookup_canonical _ _ h
  | tagw _ => exact execTagw_canonical _ h
  | tagx _ => exact execTagx_canonical _ h
  | tagxRd _ => exact execTagxRd_canonical _ h
  | ringsetDef _ => exact execRingsetDef_canonical _ h
  | ringsetTail _ => exact execRingsetTail_canonical _ h
  | ringsetHead _ => exact execRingsetHead_canonical _ h
  | mwld _ | mdrain _ | mzero _ => exact submit_canonical _ (fun x => x) h rfl
  | mwldv _ => exact execMwldv_canonical _ h
  | mstrm _ => exact execMstrm_canonical _ h
  | mdrainv _ => exact execMdrainv_canonical _ h
  | mcmd _ => exact execMcmd_canonical _ h
  | fld _ => exact execFld_canonical _ h
  | fst _ => exact execFst_canonical _ h
  | fstp _ => exact execFstp_canonical _ h
  | fatom _ => exact execFatom_canonical _ h
  | fvatom _ => exact execFvatom_canonical _ h
  | fence _ => exact execFence_canonical _ h
  | chsend _ => exact execChsend_canonical _ h
  | chrecv _ => exact execChrecv_canonical _ h
  | chpeek _ => exact execChpeek_canonical _ h
  | bar _ => exact execBar_canonical _ h
  | bara _ => exact execBara_canonical _ h
  | nxt _ => exact execNxt_canonical _ h
  | semsigAdd _ => exact execSemsigAdd_canonical _ h
  | semsigSub _ => exact execSemsigSub_canonical _ h
  | semsigSet _ => exact execSemsigSet_canonical _ h
  | semwait _ => exact execSemwait_canonical _ h
  | semwaitDec _ => exact execSemwaitDec_canonical _ h
  | semtry _ => exact execSemtry_canonical _ h
  | semtryDec _ => exact execSemtryDec_canonical _ h
  | mbox _ => exact execMbox_canonical _ h
  | tcopy _ | tcoll _ => exact tensor_canonical _ _ h
  | teRd _ => exact execTeRd_canonical _ h
  | teWr _ => exact execTeWr_canonical _ h
  | teRdw _ => exact execTeRdw_canonical _ h
  | teWrw _ => exact execTeWrw_canonical _ h
  | teAtom _ => exact execTeAtom_canonical _ h
  | teVat _ => exact execTeVat_canonical _ h
  | teFullWf _ | teFullWfe _ => exact teFull_canonical _ _ h
  | teEmpty _ => exact execTeEmpty_canonical _ h
  | teSigAdd _ => exact execTeSigAdd_canonical _ h
  | teSigSub _ => exact execTeSigSub_canonical _ h
  | teSigSet _ => exact execTeSigSet_canonical _ h
  | tePoll _ => exact execTePoll_canonical _ h
  | teWinProbe _ => exact execTeWinProbe_canonical _ h
  | teMbox _ => exact execTeMbox_canonical _ h
  | teCmd _ => exact execTeCmd_canonical _ h
  | teDone _ => exact execTeDone_canonical _ h
  | teGcyc _ => exact execTeGcyc_canonical _ h
  | teSave _ => exact execTeSave_canonical _ h
  | enginePortAccess => exact execEnginePortAccess_canonical h
  | uncorrectableError => exact execUncorrectableError_canonical h
  | mainSupplyRemoval => exact execMainSupplyRemoval_canonical h

/-! ## A turn and a step -/

section
variable {ex : Instr → State → Out} (hex : ∀ i s, Memory.wf s.mem → OutCanonical (ex i s))
include hex

theorem runSlots_canonical (opened : Bool) (l : List (Nat × Nat × Instr)) {s : State} (h : Memory.wf s.mem) :
    OutCanonical (runSlots ex opened l s) := by
  induction l generalizing s with
  | nil => exact h
  | cons p r ih =>
    refine outCanonical_ite (ih h) ?_
    extract_lets rep
    have hp := hex p.2.2 { s with cur := { s.cur with pos := landingPos p, g := p.2.1, rep := rep } } h
    split
    · next s1 h1 =>
      rw [h1] at hp
      exact outCanonical_ite hp (outCanonical_ite hp (ih hp))
    · exact hp

theorem issueBundle_canonical {s : State} (h : Memory.wf s.mem) : OutCanonical (issueBundle ex s) := by
  have ht {x : State} (hx : Memory.wf x.mem) (n : Nat) : OutCanonical (.next (trapBundle x n)) := by simpa using hx
  unfold issueBundle
  extract_lets th
  split
  · exact ht h _
  · split
    · exact ht h _
    · extract_lets s0 n l s1
      refine outCanonical_ite (ht (x := s0) h n) ?_
      have h1 : Memory.wf s1.mem := by simpa [s1] using h
      have hr := runSlots_canonical hex th.packet.isSome l h1
      split
      · next s2 h2 =>
        rw [h2] at hr
        exact settleBundle_wf l h1 hr
      · exact hr

theorem threadTurn_canonical {s : State} (c t : Nat) (h : Memory.wf s.mem) : OutCanonical (threadTurn ex s c t) := by
  unfold threadTurn
  extract_lets u s0
  have h0 : Memory.wf s0.mem := by simpa [s0, u] using h
  have ht := hex .turnStart s0 h0
  refine outCanonical_ite (hex _ _ h0) ?_
  split
  · next s1 h1 =>
    rw [h1] at ht
    exact outCanonical_ite (issueBundle_canonical hex ht) ht
  · exact ht

theorem teFetch_canonical {s : State} (te : Tephra) (h : Memory.wf s.mem) : OutCanonical (teFetch ex s te) := by
  have ht (n : Nat) : OutCanonical (.next (teFault s n 0)) := by simpa using h
  refine outCanonical_ite (ht _) (outCanonical_ite (hex _ _ h) (outCanonical_ite (ht _) (outCanonical_ite ?_ (hex _ _ h))))
  split
  · exact hex _ s h
  · exact ht _

theorem tephraTurn_canonical {s : State} (c k : Nat) (h : Memory.wf s.mem) : OutCanonical (tephraTurn ex s c k) := by
  refine outCanonical_ite h (outCanonical_ite ?_ (outCanonical_ite h (outCanonical_ite ?_ (teFetch_canonical hex _ h))))
  · split
    · exact h
    · exact h
  · split
    · simpa using h
    · exact h

omit hex in
theorem clearLatch_canonical {o : Out} (ho : OutCanonical o) : OutCanonical (clearLatch o) := by
  cases o <;> exact ho

theorem runTurn_canonical {s : State} (h : Memory.wf s.mem) : OutCanonical (runTurn ex s) := by
  unfold runTurn
  split
  · exact clearLatch_canonical (threadTurn_canonical hex _ _ h)
  · exact clearLatch_canonical (tephraTurn_canonical hex _ _ h)
  · exact nextCycle_wf h

theorem runNext_canonical {s : State} (h : Memory.wf s.mem) : OutCanonical (runNext ex s) := by
  refine outCanonical_ite trivial ?_
  split
  · exact outCanonical_ite (clearLatch_canonical (hex _ _ h)) (runTurn_canonical hex h)
  · exact runTurn_canonical hex h

end

theorem step_canonical {s : State} (h : Memory.wf s.mem) : OutCanonical (step s) :=
  runNext_canonical (fun i _ hx => exec_canonical i hx) h

end Sys2Proof.Machine

namespace Sys2Proof
open Machine

/-- Settles O58: only the writers of bytes touch memory, and each of them writes into a canonical table or takes entries out of one. -/
theorem memoryStaysCanonical : Obligations.MemoryStaysCanonical := by
  intro s t ht h
  have hs := step_canonical h
  rw [ht] at hs
  exact hs

end Sys2Proof

/-! # A step runs what comes next

What `step` does with an event, with a turn of a thread or of a tephra core, and with the next cycle. -/

namespace Sys2Proof.Machine
open Sys2Proof.Claim

/-! ## The choice of what runs -/

theorem clearLatch_eq_leaves (o : Out) : clearLatch o = leaves o := by cases o <;> rfl

theorem step_of_due {s : State} {e : Event} {r : List Event} (ha : s.agenda = e :: r) (hd : e.due ≤ s.gcyc) :
    step s = leaves (exec e.instr { s with agenda := r, cur := { args := e.args } }) := by
  simp [step, runNext, ha, hd, clearLatch_eq_leaves]

theorem step_of_nothingDue {s : State} (h : NothingDue s) : step s = runTurn exec s := by
  obtain ⟨hsup, hdue⟩ := h
  unfold step runNext
  split
  · simp_all
  · split
    · next e r he => exact if_neg (Nat.not_le.2 (hdue e r he))
    · rfl

theorem step_of_no_turns {s : State} (h : NothingDue s) (ht : s.turns = []) : step s = .next (nextCycle s) := by
  rw [step_of_nothingDue h, runTurn, ht]

theorem step_of_thread {s : State} {c k : Nat} {q : List Agent} (h : NothingDue s) (ht : s.turns = .thread c k :: q) :
    step s = clearLatch (threadTurn exec { s with turns := q } c k) := by
  rw [step_of_nothingDue h, runTurn, ht]

theorem step_of_tephra {s : State} {c k : Nat} {q : List Agent} (h : NothingDue s) (ht : s.turns = .tephra c k :: q) :
    step s = clearLatch (tephraTurn exec { s with turns := q } c k) := by
  rw [step_of_nothingDue h, runTurn, ht]

theorem step_of_no_supply {s : State} (h : s.board.supply = false) (ha : s.agenda = []) : step s = .fault .poweredOff := by
  simp [step, runNext, h, ha]

/-! ## The next cycle -/

theorem nextCycle_of_running {s : State} (hs : s.board.supply = true) (hr : s.board.rst = false) :
    nextCycle s = stepPorts { s with gcyc := s.gcyc + 1, turns := turnsAt s (s.gcyc + 1) } := by
  simp [nextCycle, hs, hr]

theorem nextCycle_of_reset {s : State} (hr : s.board.rst = true) :
    nextCycle s = { s with agenda := s.agenda.map (fun e => { e with due := e.due - 1 }), turns := [] } := by
  simp [nextCycle, hr]

/-- Where no thread port has work, the ports leave the state as it is. -/
theorem stepPorts_of_idle {s : State} (h : ∀ p ∈ s.cores, p.2.port = [] ∧ p.2.waits = [] ∧ p.2.svc.inbox = []) :
    stepPorts s = s := by
  have hn : s.cores.filter (fun p => p.2.port ≠ [] || p.2.waits ≠ [] || p.2.svc.inbox ≠ []) = [] := by
    rw [List.filter_eq_nil_iff]
    intro p hp
    obtain ⟨hport, hwaits, hinbox⟩ := h p hp
    simp [hport, hwaits, hinbox]
  rw [stepPorts, hn, List.foldl_nil]

/-! ## A trap reads nothing of the latch but whose bundle is at work -/

theorem haltWith_cur (s : State) (x : Latch) (c t cause acause addr : Nat) :
    haltWith { s with cur := x } c t cause acause addr = { haltWith s c t cause acause addr with cur := x } := by
  simp only [haltWith]
  split <;> rfl

theorem takeTrapAt_cur (s : State) (x : Latch) (c t cause addr : Nat) :
    takeTrapAt { s with cur := x } c t cause addr = { takeTrapAt s c t cause addr with cur := x } := by
  have hw (th : Thread) (a b : Nat) :
      haltWith (setThread { s with cur := x } c t th) c t a b addr
        = { haltWith (setThread s c t th) c t a b addr with cur := x } :=
    haltWith_cur (setThread s c t th) x c t a b addr
  have hth : thread { s with cur := x } c t = thread s c t := rfl
  have hco : core { s with cur := x } c = core s c := rfl
  simp only [takeTrapAt, hth, hco, hw]
  split
  · rfl
  · split
    · rfl
    · split <;> rfl

theorem forgetMbox_cur (s : State) (x : Latch) (cause : Nat) (hc : x.core = s.cur.core) (ht : x.slot = s.cur.slot) :
    forgetMbox { s with cur := x } cause = { forgetMbox s cause with cur := x } := by
  unfold forgetMbox modMe
  rw [hc, ht]
  split <;> rfl

theorem endTurn_cur (s : State) (x : Latch) (c t : Nat) :
    endTurn { s with cur := x } c t = { endTurn s c t with cur := x } := rfl

theorem trapBundle_cur (s : State) (x : Latch) (n : Nat) (hc : x.core = s.cur.core) (ht : x.slot = s.cur.slot)
    (ha : x.addr = s.cur.addr) : trapBundle { s with cur := x } n = { trapBundle s n with cur := x } := by
  have hf := forgetMbox_cur s x n hc ht
  have hk := takeTrapAt_cur (forgetMbox s n) x s.cur.core s.cur.slot n s.cur.addr
  simp only [trapBundle, hf, hc, ht, ha]
  rw [hk]
  exact endTurn_cur (takeTrapAt (forgetMbox s n) s.cur.core s.cur.slot n s.cur.addr) x s.cur.core s.cur.slot

/-! ## One bundle -/

theorem runSlots_single {ex : Instr → State → Out} {s : State} (p : Nat × Nat × Instr) (hm : (me s).mrep = none) :
    runSlots ex false [p] s = if runs s p then
      ex p.2.2 { s with cur := { s.cur with pos := landingPos p, g := p.2.1, rep := none } } else .next s := by
  have hrep : repOperands (me s) = none := by rw [repOperands, hm]
  by_cases hr : runs s p = true
  · simp only [runSlots, hr, hrep, ite_self, Bool.not_true, Bool.false_eq_true, if_false, if_true, false_and]
    split
    · next t ht => rw [ht]
    · rfl
  · simp [runSlots, hr]

theorem threadTurn_of_issue {ex : Instr → State → Out} {s s1 : State} {c k : Nat}
    (hs : savesNow (thread s c k) = false)
    (ht : ex .turnStart { resendAll s c k with cur := { core := c, slot := k, args := [c, k] } } = .next s1)
    (hi : s1.cur.issue = true) : threadTurn ex s c k = issueBundle ex s1 := by
  unfold threadTurn
  simp only [hs, ht, hi, if_true, Bool.false_eq_true, if_false]

theorem thread_tick (s : State) (c kind n d u : Nat) : thread (tick s c kind n) d u = thread s d u := by
  simp only [thread, tick, core_modCore]
  split
  · next h => rw [h]
  · rfl

@[simp] theorem me_tickBundle (s : State) (l : List (Nat × Nat × Instr)) : me (tickBundle s l) = me s :=
  (thread_tick ..).trans (thread_tick ..)

/-- The next step is the turn of slot `k` of core `c`, which comes to issue the bundle `b` in the state `s1`. -/
structure Issues (s s1 : State) (c k : Nat) (q : List Agent) (b : Bundle) : Prop where
  nothingDue : NothingDue s
  turns : s.turns = .thread c k :: q
  noSave : savesNow (thread s c k) = false
  start : exec .turnStart { resendAll { s with turns := q } c k with cur := { core := c, slot := k, args := [c, k] } } = .next s1
  issue : s1.cur.issue = true
  bundle : ∃ h bs, halfOf (me s1) (me s1).curHalf = some h ∧ h.bundles = some bs ∧ bs[s1.cur.addr % 32]? = some b

/-- The state in which the checks of a bundle are made: its CVP stands in the latch. -/
def withPrefix (s : State) (b : Bundle) : State := { s with cur := { s.cur with cvp := Cvp.of b.cvp } }

section
variable {s s1 : State} {c k : Nat} {q : List Agent} {b : Bundle}

theorem step_of_issues (h : Issues s s1 c k q b) : step s = clearLatch (issueBundle exec s1) := by
  rw [step_of_thread h.nothingDue h.turns]
  exact congrArg clearLatch (threadTurn_of_issue (s := { s with turns := q }) h.noSave h.start h.issue)

theorem issueBundle_of_issues {ex : Instr → State → Out} (h : Issues s s1 c k q b) :
    issueBundle ex s1 =
      let s2 := withPrefix s1 b
      if encodingCause s2 b ≠ 0 then .next (trapBundle s2 (encodingCause s2 b))
      else
        let l := withRepeat (me s1).mrep (slotsIn (svc s1) b)
        match runSlots ex (me s1).packet.isSome l (tickBundle s2 l) with
        | .next t => .next (settleBundle (tickBundle s2 l) t l)
        | o => o := by
  obtain ⟨f, bs, hf, hbs, hb⟩ := h.bundle
  unfold issueBundle
  simp only [hf, hbs, Option.getD_some, hb] <;> rfl

/-- A bundle that fails an encoding check traps (R90). -/
theorem step_of_bad_bundle (h : Issues s s1 c k q b) (hc : encodingCause (withPrefix s1 b) b ≠ 0) :
    step s = .next { trapBundle s1 (encodingCause (withPrefix s1 b) b) with cur := {} } := by
  have ht := trapBundle_cur s1 (withPrefix s1 b).cur (encodingCause (withPrefix s1 b) b) rfl rfl rfl
  rw [step_of_issues h, issueBundle_of_issues h]
  simp only [hc, ne_eq, not_false_eq_true, if_true]
  exact congrArg (fun x : State => Host.Outcome.next { x with cur := {} }) ht

/-- A bundle of one instruction, outside a repeat and a packet, runs that one slot. -/
theorem issueBundle_of_one {ex : Instr → State → Out} {p : Nat × Nat × Instr} (h : Issues s s1 c k q b)
    (hc : encodingCause (withPrefix s1 b) b = 0) (hm : (me s1).mrep = none) (hp : (me s1).packet = none)
    (hl : slotsIn (svc s1) b = [p]) :
    issueBundle ex s1 = match runSlots ex false [p] (tickBundle (withPrefix s1 b) [p]) with
      | .next t => .next (settleBundle (tickBundle (withPrefix s1 b) [p]) t [p])
      | o => o := by
  rw [issueBundle_of_issues h]
  simp only [hc, hm, hp, hl, withRepeat, ne_eq, not_true_eq_false, if_false, Option.isSome_none]

/-- The step settles what the one slot leaves. -/
theorem step_of_one {p : Nat × Nat × Instr} {t : State} (h : Issues s s1 c k q b)
    (hc : encodingCause (withPrefix s1 b) b = 0) (hm : (me s1).mrep = none) (hp : (me s1).packet = none)
    (hl : slotsIn (svc s1) b = [p]) (hr : runSlots exec false [p] (tickBundle (withPrefix s1 b) [p]) = .next t) :
    step s = .next { settleBundle (tickBundle (withPrefix s1 b) [p]) t [p] with cur := {} } := by
  rw [step_of_issues h, issueBundle_of_one h hc hm hp hl, hr]
  rfl

end

/-! ## What a bundle leaves -/

theorem enabledCause_no_flags (ften : Nat) : enabledCause ften 0 = none := by
  simp [enabledCause, bitsAt]

theorem settleBundle_eq_commit {s t : State} {l : List (Nat × Nat × Instr)} (htrap : t.cur.trap = none)
    (hmiss : t.cur.miss = none) (hblock : t.cur.block = false) (hflags : t.cur.flags = 0) (hp : (me s).packet = none) :
    settleBundle s t l = commit s t l := by
  simp [settleBundle, htrap, hmiss, hblock, hflags, hp, enabledCause_no_flags, lastBundle]

theorem commit_of_plain {s t : State} {l : List (Nat × Nat × Instr)} (hp : (me s).packet = none) (hm : (me s).mrep = none) :
    commit s t l = endTurn (modMe t (fun th => { th with next := t.cur.jump.getD (following (me s) s.cur.addr) }))
      s.cur.core s.cur.slot := by
  simp [commit, hp, hm]

/-! ## The code store -/

theorem expand_bundles_of_good {s : State} {c seg : Nat} (hseg : seg < 0x40000) (hbad : (core s c).codeBad = [])
    (hh : segHeaderBad seg (getNat s (codeStore c + seg) 8) = false) :
    (expand s c seg).bundles = readBundles (segLen (getNat s (codeStore c + seg) 8))
      (getBytes s (codeStore c + seg + 8) (segBytes (getNat s (codeStore c + seg) 8))) := by
  have hin : inStore seg = true := decide_eq_true hseg
  simp only [expand, hin, hbad, hh, List.any_nil, Bool.not_true, Bool.or_false, Bool.false_eq_true, if_false]
  split
  · next h => rw [h]
  · next h => rw [h]

theorem leNat_word {w : Nat} (h : w < 2 ^ 32) :
    leNat [w % 256, w / 256 % 256, w / 65536 % 256, w / 16777216 % 256] = w := by
  simp only [leNat, List.foldr]
  omega

/-- The bundle of FORM 16 whose S0 word is `w`. -/
def soleS0 (w : Nat) : Bundle := ⟨16 * 2 ^ 27, [w, 0, 0, 0, 0, 0, 0]⟩

theorem readBundles_form16 (a b c d : Nat) :
    readBundles 1 ([0, 0, 0, 128] ++ [a, b, c, d]) = some [soleS0 (leNat [a, b, c, d])] := by
  have hn : leNat [0, 0, 0, 128] = 16 * 2 ^ 27 := by decide
  have hf : bitsAt (16 * 2 ^ 27) 27 5 = 16 := by decide
  have h8 : formBytes 16 = 8 := by decide
  simp only [readBundles, List.cons_append, List.nil_append, List.take, hn, hf, h8]
  rfl

theorem readBundles_soleS0 {w : Nat} (h : w < 2 ^ 32) :
    readBundles 1 (leBytes 4 (16 * 2 ^ 27) ++ leBytes 4 w) = some [soleS0 w] := by
  have hh : leBytes 4 (16 * 2 ^ 27) = [0, 0, 0, 128] := by decide
  have hb : leBytes 4 w = [w % 256, w / 256 % 256, w / 65536 % 256, w / 16777216 % 256] := by
    simp [leBytes, List.range_succ]
  rw [hh, hb, readBundles_form16, leNat_word h]

theorem soleS0_form (w : Nat) : (soleS0 w).form = 16 := by
  change bitsAt (16 * 2 ^ 27) 27 5 = 16
  decide

theorem soleS0_slots {sv : Bool} {w : Nat} {i : Instr} (h : decodeS sv none w = .ok i) :
    (soleS0 w).slots sv = [some (.ok i), none, none, none, none, none, none] := by
  have h0 : (soleS0 w).slot sv 0 = some (decodeS sv none w) := by
    simp only [Bundle.slot, Bundle.immOf, soleS0_form]
    rfl
  have hr (n : Nat) (h1 : 1 ≤ n) (h7 : n < 7) : (soleS0 w).slot sv n = none := by
    simp only [Bundle.slot, soleS0_form, template]
    interval_cases n <;> rfl
  rw [h] at h0
  simp [Bundle.slots, List.range_succ, h0, hr]

theorem slotsIn_soleS0 {sv : Bool} {w : Nat} {i : Instr} (h : decodeS sv none w = .ok i) :
    slotsIn sv (soleS0 w) = [(0, guardOf w, i)] := by
  rw [slotsIn, soleS0_slots h]
  rfl

/-! ## The turn of a tephra core -/

theorem tephraTurn_of_quiet {ex : Instr → State → Out} {s : State} {c k : Nat} (hsave : (tephra s c k).saveWait = false)
    (hw : (tephra s c k).wait = .none) (hf : (tephra s c k).fault = 0) (hq : (tephra s c k).faults = []) :
    tephraTurn ex s c k = teFetch ex { s with cur := { core := c, slot := 8 + k } } (tephra s c k) := by
  simp [tephraTurn, hsave, hw, hf, hq]

theorem teFetch_of_instruction {ex : Instr → State → Out} {s : State} {te : Tephra} (hs : te.std = false)
    (hb : te.imemBad = false) (hl : te.pc + insLen te ≤ 0x8000) :
    teFetch ex s te = if insWord te % 128 = 0x0B ∨ insWord te % 128 = 0x2B then
        match decodeT (insWord te) with
        | .ok i => ex i s
        | .bad c => .next (teFault s c 0)
      else ex .tephraBaseInstruction { s with cur := { s.cur with rv := rvDecode (insWord te), rvLen := insLen te } } := by
  simp [teFetch, hs, hb, Nat.not_lt.2 hl] <;> rfl

end Sys2Proof.Machine

namespace Sys2Proof
open Machine Claim

/-- Settles O55, clause by clause: each is what `step` does at one branch of the choice of what runs. -/
theorem stepsRunWhatComesNext : Obligations.StepsRunWhatComesNext := by
  refine ⟨fun s e r => step_of_due, fun s hn ht => ?_, fun s => step_of_no_supply, ?_, ?_, ?_, ?_, ?_⟩
  -- the next cycle (R158, R300)
  · intro l m
    have hstep := step_of_no_turns hn ht
    refine ⟨fun hr => ?_, fun hr hi => ?_, fun hr => ?_⟩
    · rw [hstep, nextCycle_of_running hn.1 hr]
      rfl
    · rw [hstep, nextCycle_of_running hn.1 hr, stepPorts_of_idle (s := { s with gcyc := s.gcyc + 1, turns := _ }) hi]
      rfl
    · rw [hstep, nextCycle_of_reset hr]
  -- the turn of a thread (R85, R90, R102)
  · intro s s1 c k p g q h bs b i hn ht hs hstart hi hh hbs hb s2
    have hiss : Issues s s1 c k q b := ⟨hn, ht, hs, hstart, hi, h, bs, hh, hbs, hb⟩
    refine ⟨fun n hc h0 => ?_, ?_⟩
    · subst hc
      exact step_of_bad_bundle hiss h0
    · intro hc hm hp hl s3
      have hslots := runSlots_single (ex := exec) (s := s3) (p, g, i) ((congrArg Thread.mrep (me_tickBundle s2 _)).trans hm)
      refine ⟨fun hr => ?_, fun t hr hex => ?_⟩
      · exact step_of_one hiss hc hm hp hl (hslots.trans (if_neg (by rw [hr]; decide)))
      · exact step_of_one hiss hc hm hp hl ((hslots.trans (if_pos hr)).trans hex)
  -- the bundles of a half (R92, R93)
  · exact fun s c seg hseg hbad hw => expand_bundles_of_good hseg hbad hw
  -- the bytes of a bundle of one S0 word (R92)
  · exact fun w sv i hw hd => ⟨soleS0 w, readBundles_soleS0 hw, slotsIn_soleS0 hd⟩
  -- a bundle that neither traps nor blocks (R21)
  · intro s t l hcur htrap hmiss hblock hflags hp hm
    rw [settleBundle_eq_commit (by rw [hcur]; exact htrap) (by rw [hcur]; exact hmiss) (by rw [hcur]; exact hblock)
      (by rw [hcur]; exact hflags) hp, commit_of_plain hp hm]
  -- the turn of a tephra core (R300)
  · intro s c k q hn ht te s1 hsave hw hf hq hs hb hl
    have hstep : step s = clearLatch (teFetch exec s1 te) := by
      rw [step_of_tephra hn ht]
      exact congrArg clearLatch (tephraTurn_of_quiet (s := { s with turns := q }) hsave hw hf hq)
    rw [hstep, clearLatch_eq_leaves, teFetch_of_instruction hs hb hl]
    refine ⟨fun i hx hd => ?_, fun hx => ?_⟩
    · rw [if_pos hx, hd]
    · rw [if_neg hx]

end Sys2Proof

/-! # The zero registers

What reads of s0 and p0 return, and why no write reaches them (R12). -/

namespace Sys2Proof.Machine
open Sys2Proof.Claim

/-! ## The zero registers (R12) -/

@[simp] theorem getS_zero (th : Thread) : getS th 0 = sZero := rfl
@[simp] theorem getP_zero (th : Thread) : getP th 0 = BitVec.allOnes 128 := rfl
@[simp] theorem putSreg_zero (t : Tab SReg) (v : SReg) : putSreg t 0 v = t := rfl
@[simp] theorem putPreg_zero (t : Tab Pred) (v m : Pred) : putPreg t 0 v m = t := rfl

/-- The rotation of R15 keeps the lower half of the names and maps the upper half into itself. -/
theorem physS_eq_zero_iff (th : Thread) (n : Nat) : physS th n = 0 ↔ n = 0 := by
  unfold physS
  split <;> omega

theorem physP_eq_zero_iff (th : Thread) (n : Nat) : physP th n = 0 ↔ n = 0 := by
  unfold physP
  split <;> omega

/-- A landing writes s0 through `putSreg` alone. -/
theorem applyAct_sregs_of_writesS_zero {th : Thread} {l : Landing} (h : writesS 0 l = true) :
    (applyAct th l).sregs = th.sregs := by
  cases ha : l.act <;> simp_all [writesS, applyAct]

theorem applyAct_pregs_of_preg_zero {th : Thread} {l : Landing} {v m : Pred} (h : l.act = .preg 0 v m) :
    (applyAct th l).pregs = th.pregs := by
  simp [applyAct, h]

/-- What becomes of one write of a shape: none of s0 or p0 is left, and no target turns into one. -/
theorem target_ne_zero_of_mem_writesOf {lsd nv : Nat} {i : Instr} {w : Write} (h : w ∈ Sys2Proof.writesOf lsd nv i) :
    w.target ≠ .s 0 ∧ w.target ≠ .p 0 := by
  obtain ⟨x, -, hx⟩ := List.mem_filterMap.1 h
  split at hx
  case h_1 => cases hx
  case h_2 => cases hx
  case h_3 =>
    split at hx
    · cases hx; simp
    · cases hx
  case h_4 =>
    split at hx
    · cases hx; simp
    · cases hx
  case h_5 =>
    split at hx
    · cases hx; simp
    · cases hx
  case h_6 hs hp _ _ _ =>
    cases hx
    exact ⟨hs, hp⟩

end Sys2Proof.Machine

namespace Sys2Proof
open Machine Claim

/-- Settles O9: reads and writes of s0 and p0 are the first branch of each accessor, and the rotation maps no other name to them. -/
theorem zeroRegistersReadConstantAndDiscardWrites : Obligations.ZeroRegistersReadConstantAndDiscardWrites :=
  ⟨getS_zero, fun th k hk => (congrArg (·.getLsbD k) (getP_zero th)).trans (by rw [BitVec.getLsbD_allOnes]; exact decide_eq_true hk),
    fun th n _ => physS_eq_zero_iff th n, fun th n _ => physP_eq_zero_iff th n,
    fun _ _ => applyAct_sregs_of_writesS_zero, fun _ _ _ _ => applyAct_pregs_of_preg_zero, fun _ _ _ _ => target_ne_zero_of_mem_writesOf⟩

end Sys2Proof

/-! # Landings

What the landings that are due make of their thread, and that they touch nothing else (R22, R25 to R27). -/

namespace Sys2Proof.Machine
open Sys2Proof.Claim

/-! ## Threads through operations on cores and memory -/

theorem thread_of_cores {s t : State} (h : t.cores = s.cores) (c k : Nat) : thread t c k = thread s c k := by
  simp [thread, core, h]

theorem thread_modCore_of_threads {s : State} {c : Nat} {f : Core → Core} (h : (f (core s c)).threads = (core s c).threads)
    (d u : Nat) : thread (modCore s c f) d u = thread s d u := by
  unfold thread
  rw [core_modCore]
  split
  next hc => rw [h, hc]
  next => rfl

/-- A loop keeps what each round keeps. -/
theorem foldl_keeps {α β γ : Type} (g : γ → β) (f : γ → α → γ) (l : List α) (hf : ∀ s, ∀ x ∈ l, g (f s x) = g s) (s : γ) :
    g (l.foldl f s) = g s := by
  induction l generalizing s with
  | nil => rfl
  | cons x r ih =>
    rw [List.foldl_cons, ih (fun s y hy => hf s y (List.mem_cons_of_mem x hy)), hf s x List.mem_cons_self]

@[simp] theorem putNat_cores (s : State) (a n v : Nat) : (putNat s a n v).cores = s.cores := by
  induction n generalizing s a v with
  | zero => rfl
  | succ n ih => exact ih _ _ _

@[simp] theorem setFulls_cores (s : State) (b : Bool) (ws : List Nat) : (setFulls s b ws).cores = s.cores :=
  foldl_keeps State.cores (fun x a => setFull x a b) ws (fun _ _ _ => rfl) s

@[simp] theorem clearPoison_cores (s : State) (a n : Nat) : (clearPoison s a n).cores = s.cores :=
  foldl_keeps State.cores (fun x u => setPoison x u false) _ (fun _ _ _ => rfl) s

/-! ## One landing (R27) -/

/-- Messages that are let in touch the service registers of their core alone. -/
theorem thread_drainInbox (n : Nat) (s : State) (c d u : Nat) : thread (drainInbox n s c) d u = thread s d u := by
  induction n generalizing s with
  | zero => rfl
  | succ n ih =>
    unfold drainInbox
    dsimp only
    split
    · rfl
    · split
      · split
        · rfl
        · rw [ih, thread_modCore_of_threads (by rfl), thread_of_cores (clearPoison_cores _ _ _),
            thread_of_cores (setFulls_cores _ _ _)]
          exact thread_of_cores (foldl_keeps State.cores _ _ (fun _ _ _ => putNat_cores _ _ _ _) s) d u
      · rfl

theorem thread_applySvc (s : State) (c t n : Nat) (v : Word) (d u : Nat) :
    thread (applySvc s c t n v) d u = thread s d u := by
  unfold applySvc
  split
  · rw [thread_drainInbox, thread_modCore_of_threads (by rfl)]
  · split
    · exact thread_modCore_of_threads (by rfl) d u
    · split
      · rw [thread_later, thread_modCore_of_threads (by rfl)]
      · rfl

@[simp] theorem noteAcquire_cores (s : State) (c kind idx : Nat) : (noteAcquire s c kind idx).cores = s.cores := by
  unfold noteAcquire
  split
  · rfl
  · dsimp only
    split <;> rfl

/-- A landing does to its thread what `applyAct` does, and nothing to another. -/
theorem thread_applyLanding (c t : Nat) (s : State) (l : Landing) (d u : Nat) :
    thread (applyLanding c t s l) d u = if c = d ∧ t = u then applyAct (thread s c t) l else thread s d u := by
  have hacq : ∀ x : State, thread (if l.acq then noteAcquire x c 0 t else x) d u = thread x d u := fun x => by
    split
    · exact thread_of_cores (noteAcquire_cores x c 0 t) d u
    · rfl
  rw [← thread_modThread s c t d u (applyAct · l)]
  refine Eq.trans ?_ (hacq _)
  unfold applyLanding
  cases l.act
  case sys n v =>
    dsimp only
    by_cases hc : isSvc c = true
    · rw [if_pos hc, thread_applySvc]
    · rw [if_neg hc]
  all_goals rfl

theorem thread_applyLanding_same (c t : Nat) (s : State) (l : Landing) :
    thread (applyLanding c t s l) c t = applyAct (thread s c t) l := by
  rw [thread_applyLanding, if_pos ⟨rfl, rfl⟩]

/-- A landing that writes no system register of a service core leaves memory. -/
theorem applyLanding_mem {c : Nat} {l : Landing} (h : isSvc c = false ∨ isSys l = false) (t : Nat) (s : State) :
    (applyLanding c t s l).mem = s.mem := by
  unfold applyLanding
  cases ha : l.act
  case sys n v =>
    have hc : isSvc c = false := h.resolve_right (by simp [isSys, ha])
    simp [hc]
  all_goals simp

/-! ## All landings that are due -/

/-- What the landings due at count `ttc` make of a thread. -/
def landed (th : Thread) (ttc : Nat) : Thread :=
  (th.lands.filter (fun l => l.due ≤ ttc)).foldl applyAct { th with lands := th.lands.filter (fun l => ttc < l.due) }

theorem thread_foldl_applyLanding (c t : Nat) (ls : List Landing) (s : State) (d u : Nat) :
    thread (ls.foldl (applyLanding c t) s) d u = if c = d ∧ t = u then ls.foldl applyAct (thread s c t) else thread s d u := by
  induction ls generalizing s with
  | nil => split <;> simp_all
  | cons l r ih =>
    rw [List.foldl_cons, ih, List.foldl_cons, thread_applyLanding_same, thread_applyLanding]
    split <;> rfl

theorem thread_applyLandings (s : State) (c t ttc d u : Nat) :
    thread (applyLandings s c t ttc) d u = if c = d ∧ t = u then landed (thread s c t) ttc else thread s d u := by
  unfold applyLandings
  rw [thread_foldl_applyLanding, thread_modThread_same, thread_modThread]
  split <;> rfl

@[simp] theorem thread_applyLandings_same (s : State) (c t ttc : Nat) :
    thread (applyLandings s c t ttc) c t = landed (thread s c t) ttc := by
  rw [thread_applyLandings, if_pos ⟨rfl, rfl⟩]

theorem applyLandings_mem {s : State} {c t ttc : Nat}
    (h : ∀ l ∈ (thread s c t).lands.filter (fun l => l.due ≤ ttc), isSvc c = false ∨ isSys l = false) :
    (applyLandings s c t ttc).mem = s.mem :=
  foldl_keeps State.mem _ _ (fun x l hl => applyLanding_mem (h l hl) t x) _

/-! ## What one landing does to a register (R12, R16, R27) -/

/-- A landing on a system register leaves the register files and the pending landings. -/
theorem applyAct_of_sys (th : Thread) {l : Landing} {n : Nat} {v : Word} (h : l.act = .sys n v) :
    (applyAct th l).sregs = th.sregs ∧ (applyAct th l).aregs = th.aregs ∧ (applyAct th l).pregs = th.pregs
      ∧ (applyAct th l).vregs = th.vregs ∧ (applyAct th l).lands = th.lands := by
  unfold applyAct
  rw [h]
  dsimp only
  split
  case h_10 => split <;> exact ⟨rfl, rfl, rfl, rfl, rfl⟩
  all_goals exact ⟨rfl, rfl, rfl, rfl, rfl⟩

@[simp] theorem applyAct_lands (th : Thread) (l : Landing) : (applyAct th l).lands = th.lands := by
  cases h : l.act
  case sys n v => exact (applyAct_of_sys th h).2.2.2.2
  all_goals simp [applyAct, h]

theorem tget_putSreg (t : Tab SReg) (m n : Nat) (v : SReg) :
    tget sZero (putSreg t m v) n = if m = n ∧ m ≠ 0 then v else tget sZero t n := by
  unfold putSreg
  split
  next h => simp [h]
  next h => simp [tget_tput, h]

/-- The bits under the mask are written, the others stay (R16). -/
theorem getLsbD_tget_putPreg (t : Tab Pred) (m n b : Nat) (v k : Pred) :
    (tget 0 (putPreg t m v k) n).getLsbD b = if m = n ∧ m ≠ 0 ∧ k.getLsbD b then v.getLsbD b else (tget 0 t n).getLsbD b := by
  unfold putPreg
  by_cases h0 : m = 0
  · simp [h0]
  by_cases h : m = n
  · subst h
    by_cases hb : b < 128
    · cases hk : k.getLsbD b <;> simp_all
    · have hge : 128 ≤ b := Nat.not_lt.1 hb
      simp [h0, BitVec.getLsbD_of_ge _ b hge]
  · simp [h0, h, tget_tput]

theorem tget_putLanes_of_not_mem (v : Tab Lane) (n a : Nat) {ls : List (Nat × Lane)} (h : ∀ p ∈ ls, 128 * n + p.1 ≠ a) :
    tget laneZero (putLanes v n ls) a = tget laneZero v a :=
  foldl_keeps (tget laneZero · a) _ ls (fun t p hp => by rw [tget_tput, if_neg (h p hp)]) v

theorem tget_putLanes_of_mem (v : Tab Lane) (n i : Nat) (x : Lane) {ls : List (Nat × Lane)} (hd : (ls.map Prod.fst).Nodup)
    (h : (i, x) ∈ ls) : tget laneZero (putLanes v n ls) (128 * n + i) = x := by
  induction ls generalizing v with
  | nil => cases h
  | cons p r ih =>
    obtain ⟨hp, hr⟩ := List.nodup_cons.1 hd
    rcases List.mem_cons.1 h with rfl | h
    · have hne : ∀ q ∈ r, 128 * n + q.1 ≠ 128 * n + i := fun q hq he =>
        hp (List.mem_map.2 ⟨q, hq, by omega⟩)
      exact (tget_putLanes_of_not_mem _ n _ hne).trans (by simp)
    · exact ih (tput laneZero v (128 * n + p.1) p.2) hr h

theorem applyAct_pregs_of_preg (th : Thread) {l : Landing} {n : Nat} {v k : Pred} (h : l.act = .preg n v k) :
    (applyAct th l).pregs = putPreg th.pregs n v k := by
  simp [applyAct, h]

/-- A scalar register that the landing does not write stays. -/
theorem tget_applyAct_sregs {n : Nat} {l : Landing} (h : writesS n l = false) (th : Thread) :
    tget sZero (applyAct th l).sregs n = tget sZero th.sregs n := by
  cases ha : l.act
  case sys m v => rw [(applyAct_of_sys th ha).1]
  all_goals simp_all [writesS, applyAct, tget_putSreg]

theorem tget_applyAct_aregs {n : Nat} {l : Landing} (h : writesA n l = false) (th : Thread) :
    tget 0 (applyAct th l).aregs n = tget 0 th.aregs n := by
  cases ha : l.act
  case sys m v => rw [(applyAct_of_sys th ha).2.1]
  all_goals simp_all [writesA, applyAct, tget_tput]

theorem getLsbD_tget_applyAct_pregs {n b : Nat} {l : Landing} (h : writesP n b l = false) (th : Thread) :
    (tget 0 (applyAct th l).pregs n).getLsbD b = (tget 0 th.pregs n).getLsbD b := by
  cases ha : l.act
  case sys m v => rw [(applyAct_of_sys th ha).2.2.1]
  case preg m v k =>
    have hm : ¬ (m = n ∧ m ≠ 0 ∧ k.getLsbD b = true) := fun hc => by simp [writesP, ha, hc.1, hc.2.2] at h
    rw [applyAct_pregs_of_preg th ha, getLsbD_tget_putPreg, if_neg hm]
  all_goals simp [applyAct, ha]

theorem tget_applyAct_vregs {n i : Nat} {l : Landing} (h : writesV n i l = false) (th : Thread) :
    tget laneZero (applyAct th l).vregs (128 * n + i) = tget laneZero th.vregs (128 * n + i) := by
  cases ha : l.act
  case sys m v => rw [(applyAct_of_sys th ha).2.2.2.1]
  case lanes m ls =>
    have hm : ∀ p ∈ ls, 128 * m + p.1 ≠ 128 * n + i := fun p hp he => by
      simp only [writesV, ha, List.any_eq_false] at h
      exact h p hp (decide_eq_true he)
    simp [applyAct, ha, tget_putLanes_of_not_mem _ _ _ hm]
  all_goals simp [applyAct, ha]

/-! ## Landings in their order -/

/-- Of a sequence of landings the last that writes a place decides it: the later ones leave it. -/
theorem foldl_applyAct_last {β : Type} (g : Thread → β) {v : β} {l : Landing} (early : List Landing) {late : List Landing}
    (hl : ∀ th, g (applyAct th l) = v) (hlate : ∀ x ∈ late, ∀ th, g (applyAct th x) = g th) (th : Thread) :
    g ((early ++ l :: late).foldl applyAct th) = v := by
  rw [List.foldl_append, List.foldl_cons, foldl_keeps g _ late (fun th x hx => hlate x hx th), hl]

theorem all_not_iff {α : Type} {p : α → Bool} {l : List α} : l.all (fun x => !p x) = true ↔ ∀ x ∈ l, p x = false := by
  simp [List.all_eq_true]

@[simp] theorem landed_lands (th : Thread) (ttc : Nat) : (landed th ttc).lands = th.lands.filter (fun l => ttc < l.due) :=
  foldl_keeps Thread.lands _ _ (fun th l _ => applyAct_lands th l) _

/-- A place that the last landing but some others writes. -/
theorem landed_last {β : Type} (g : Thread → β) {v : β} {th : Thread} {ttc : Nat} {early late : List Landing} {l : Landing}
    (hdue : th.lands.filter (fun l => l.due ≤ ttc) = early ++ l :: late) (hl : ∀ th, g (applyAct th l) = v)
    (hlate : ∀ x ∈ late, ∀ th, g (applyAct th x) = g th) : g (landed th ttc) = v := by
  unfold landed
  rw [hdue]
  exact foldl_applyAct_last g early hl hlate _

/-- A thread with one pending landing: until it is due nothing changes, then it applies. -/
theorem landed_single_before {th : Thread} {l : Landing} (h : th.lands = [l]) {ttc : Nat} (ht : ttc < l.due) :
    landed th ttc = th := by
  have h1 : th.lands.filter (fun l => l.due ≤ ttc) = [] := by simp [h, ht]
  have h2 : th.lands.filter (fun l => ttc < l.due) = th.lands := by simp [h, ht]
  unfold landed
  rw [h1, h2]
  rfl

theorem landed_single_due {th : Thread} {l : Landing} (h : th.lands = [l]) {ttc : Nat} (ht : l.due ≤ ttc) :
    landed th ttc = applyAct { th with lands := [] } l := by
  have h1 : th.lands.filter (fun l => l.due ≤ ttc) = [l] := by simp [h, ht]
  have h2 : th.lands.filter (fun l => ttc < l.due) = [] := by simp [h, Nat.not_lt.2 ht]
  unfold landed
  rw [h1, h2]
  rfl

/-- The landing that the instruction at work schedules (R26). -/
def landingOf (s : State) (lat : Nat) (a : LandAct) (n : Nat) : Landing :=
  { due := (me s).ttc + lat, issued := (me s).ttc, pos := s.cur.pos, act := a, flags := n }

theorem me_land (s : State) (lat : Nat) (a : LandAct) (n : Nat) :
    me (land s lat a n) = { me s with lands := insLanding (landingOf s lat a n) (me s).lands } := by
  unfold land
  rw [me_modMe]
  rfl

/-- With nothing else pending, what an instruction schedules is not seen before its latency. -/
theorem landed_me_land_before {s : State} (h : (me s).lands = []) {j lat : Nat} (hj : j < lat) (a : LandAct) (n : Nat) :
    landed (me (land s lat a n)) ((me s).ttc + j) = { me s with lands := [landingOf s lat a n] } := by
  rw [me_land, h]
  exact landed_single_before rfl (Nat.add_lt_add_left hj _)

/-- And it is seen from then on. -/
theorem landed_me_land_due {s : State} (h : (me s).lands = []) (lat : Nat) (a : LandAct) (n : Nat) :
    landed (me (land s lat a n)) ((me s).ttc + lat) = applyAct (me s) (landingOf s lat a n) := by
  rw [me_land, h]
  refine (landed_single_due (l := landingOf s lat a n) rfl (Nat.le_refl _)).trans ?_
  rw [← h]

end Sys2Proof.Machine

namespace Sys2Proof
open Machine Claim

/-- Settles O11: the thread after its landings is the fold of `applyAct` over those due, and each place keeps what the last of
them that writes it left. -/
theorem landingsArriveInOrderAfterTheirLatency : Obligations.LandingsArriveInOrderAfterTheirLatency := by
  refine ⟨fun s c t ttc => ?_, fun s d lat v hd hd64 hlat hlands => ?_⟩
  · dsimp only
    rw [thread_applyLandings_same]
    refine ⟨landed_lands _ _, fun k hk => ?_, fun h => ?_, ?_, ?_, ?_, ?_, ?_, ?_, ?_, ?_⟩
    · rw [thread_applyLandings, if_neg (fun h => hk (by rw [h.2]))]
    · refine applyLandings_mem fun l hl => h.imp_right fun h => all_not_iff.1 h l hl
    -- scalar registers
    · intro n v early late l hn hdue hact hlate
      exact landed_last (fun th => tget sZero th.sregs n) hdue (fun th => by simp [applyAct, hact, tget_putSreg, hn])
        (fun x hx => tget_applyAct_sregs (all_not_iff.1 hlate x hx))
    · exact fun n h => foldl_keeps (fun th => tget sZero th.sregs n) _ _ (fun th x hx => tget_applyAct_sregs (all_not_iff.1 h x hx) th) _
    -- address registers
    · intro n v early late l hdue hact hlate
      exact landed_last (fun th => tget 0 th.aregs n) hdue (fun th => by simp [applyAct, hact])
        (fun x hx => tget_applyAct_aregs (all_not_iff.1 hlate x hx))
    · exact fun n h => foldl_keeps (fun th => tget 0 th.aregs n) _ _ (fun th x hx => tget_applyAct_aregs (all_not_iff.1 h x hx) th) _
    -- predicate registers
    · intro n b v m early late l hn hdue hact hm hlate
      exact landed_last (fun th => (tget 0 th.pregs n).getLsbD b) hdue
        (fun th => by rw [applyAct_pregs_of_preg th hact, getLsbD_tget_putPreg, if_pos ⟨rfl, hn, hm⟩])
        (fun x hx => getLsbD_tget_applyAct_pregs (all_not_iff.1 hlate x hx))
    · exact fun n b h => foldl_keeps (fun th => (tget 0 th.pregs n).getLsbD b) _ _
        (fun th x hx => getLsbD_tget_applyAct_pregs (all_not_iff.1 h x hx) th) _
    -- vector registers
    · intro n i x early late l ls _ hdue hact hd hx hlate
      exact landed_last (fun th => tget laneZero th.vregs (128 * n + i)) hdue
        (fun th => by simp [applyAct, hact, tget_putLanes_of_mem _ n i x hd hx])
        (fun y hy => tget_applyAct_vregs (all_not_iff.1 hlate y hy))
    · exact fun n i _ h => foldl_keeps (fun th => tget laneZero th.vregs (128 * n + i)) _ _
        (fun th x hx => tget_applyAct_vregs (all_not_iff.1 h x hx) th) _
  · have hd0 : d ≠ 0 := by omega
    have hp : physS (me s) d ≠ 0 := fun h => hd0 ((physS_eq_zero_iff _ _).1 h)
    dsimp only
    refine ⟨fun j hj => ?_, ?_⟩
    · rw [thread_applyLandings_same]
      exact (congrArg (getS · d) (landed_me_land_before hlands hj _ 0)).trans rfl
    · rw [thread_applyLandings_same]
      refine (congrArg (getS · d) (landed_me_land_due hlands lat _ 0)).trans ?_
      simpa [landingOf, getS, hd0, applyAct, tget_putSreg, physS] using fun h => (hp h).elim

end Sys2Proof

/-! # Loops

LOOP and LEND as sequences of landings on the loop stack, the bases and the stage predicates (R31 to R33, R120). -/

namespace Sys2Proof.Machine
open Sys2Proof.Claim

/-! ## Several landings of one bundle -/

/-- What lands after everything pending joins the end. -/
theorem insLanding_of_last {l : Landing} {ls : List Landing}
    (h : ∀ x ∈ ls, x.issued < l.issued ∨ x.issued = l.issued ∧ x.pos ≤ l.pos) : insLanding l ls = ls ++ [l] := by
  induction ls with
  | nil => rfl
  | cons x r ih =>
    rw [insLanding, if_pos (h x List.mem_cons_self), ih (fun y hy => h y (List.mem_cons_of_mem x hy))]
    rfl

/-- Results with latency 1 and without a flag, scheduled in turn. -/
def landAll (s : State) (as : List LandAct) : State := as.foldl (fun x a => land x 1 a 0) s

/-- What one of them does to a register. -/
def doAct (th : Thread) (a : LandAct) : Thread := applyAct th { due := 0, issued := 0, pos := 0, act := a, flags := 0 }

@[simp] theorem landAll_cur (s : State) (as : List LandAct) : (landAll s as).cur = s.cur :=
  foldl_keeps State.cur (fun x a => land x 1 a 0) as (fun _ _ _ => rfl) s

theorem landAll_append (s : State) (as bs : List LandAct) : landAll s (as ++ bs) = landAll (landAll s as) bs :=
  List.foldl_append

theorem landAll_jumpTo (s : State) (a : Nat) (as : List LandAct) : landAll (jumpTo s a) as = jumpTo (landAll s as) a := by
  induction as generalizing s with
  | nil => rfl
  | cons x r ih => exact ih (land s 1 x 0)

/-- With nothing else pending, they stand in the order in which they were scheduled. -/
theorem me_landAll {s : State} (h : (me s).lands = []) (as : List LandAct) :
    me (landAll s as) = { me s with lands := as.map (landingOf s 1 · 0) } := by
  induction as using List.reverseRecOn with
  | nil => rw [List.map_nil, ← h]; rfl
  | append_singleton as a ih =>
    have hl : landingOf (landAll s as) 1 a 0 = landingOf s 1 a 0 := by simp [landingOf, ih]
    rw [landAll_append]
    refine (me_land (landAll s as) 1 a 0).trans ?_
    rw [hl, ih, List.map_append]
    refine congrArg (fun ls => ({ me s with lands := ls } : Thread)) (insLanding_of_last fun x hx => ?_)
    obtain ⟨b, -, rfl⟩ := List.mem_map.1 hx
    exact .inr ⟨rfl, Nat.le_refl _⟩

/-- And in the next turn they have applied in that order. -/
theorem landed_landAll {s : State} (h : (me s).lands = []) (as : List LandAct) :
    landed (me (landAll s as)) ((me s).ttc + 1) = as.foldl doAct (me s) := by
  have hdue : (as.map (landingOf s 1 · 0)).filter (fun l => l.due ≤ (me s).ttc + 1) = as.map (landingOf s 1 · 0) :=
    List.filter_eq_self.2 fun l hl => by
      obtain ⟨b, -, rfl⟩ := List.mem_map.1 hl
      simp [landingOf]
  have hrest : (as.map (landingOf s 1 · 0)).filter (fun l => (me s).ttc + 1 < l.due) = [] :=
    List.filter_eq_nil_iff.2 fun l hl => by
      obtain ⟨b, -, rfl⟩ := List.mem_map.1 hl
      simp [landingOf]
  rw [me_landAll h]
  unfold landed
  dsimp only
  rw [hdue, hrest, List.foldl_map, ← h]
  rfl

/-! ## The landings of LOOP and LEND -/

@[simp] theorem doAct_srb (th : Thread) (v : Word) : doAct th (.sys 0x016 v) = { th with srb := v.toNat } := by
  simp [doAct, applyAct, flagOr]
@[simp] theorem doAct_vrb (th : Thread) (v : Word) : doAct th (.sys 0x017 v) = { th with vrb := v.toNat } := by
  simp [doAct, applyAct, flagOr]
@[simp] theorem doAct_prb (th : Thread) (v : Word) : doAct th (.sys 0x018 v) = { th with prb := v.toNat } := by
  simp [doAct, applyAct, flagOr]
@[simp] theorem doAct_lsd (th : Thread) (v : Word) : doAct th (.sys 0x019 v) = { th with lsd := v.toNat } := by
  simp [doAct, applyAct, flagOr]
@[simp] theorem doAct_lce (th : Thread) (n : Nat) (e : LoopEntry) :
    doAct th (.lce n e) = { th with lces := tset th.lces n e } := by
  simp [doAct, applyAct, flagOr]

theorem putPreg_allOnes (t : Tab Pred) {n : Nat} (h : n ≠ 0) (v : Pred) :
    putPreg t n v (BitVec.allOnes 128) = tput 0 t n v := by
  rw [putPreg, if_neg h, BitVec.and_allOnes, BitVec.not_allOnes, BitVec.and_zero, BitVec.or_zero]

theorem doAct_preg (th : Thread) {n : Nat} (h : n ≠ 0) (v : Pred) :
    doAct th (.preg n v (BitVec.allOnes 128)) = { th with pregs := tput 0 th.pregs n v } := by
  simp only [doAct, applyAct, flagOr, Nat.or_zero, putPreg_allOnes th.pregs h v]

/-- Predicate registers `k` to `k + n − 1` written whole. -/
def pregActs (k n : Nat) (v : Nat → Pred) : List LandAct :=
  (List.range n).map (fun j => .preg (k + j) (v j) (BitVec.allOnes 128))

/-- They change predicate registers alone, -/
theorem foldl_pregActs {k : Nat} (hk : k ≠ 0) (n : Nat) (v : Nat → Pred) (th : Thread) :
    ∃ t, (pregActs k n v).foldl doAct th = { th with pregs := t }
      ∧ ∀ m, tget 0 t m = if k ≤ m ∧ m < k + n then v (m - k) else tget 0 th.pregs m := by
  induction n with
  | zero => exact ⟨th.pregs, rfl, fun m => by rw [if_neg (by omega)]⟩
  | succ n ih =>
    obtain ⟨t, ht, hg⟩ := ih
    refine ⟨tput 0 t (k + n) (v n), ?_, fun m => ?_⟩
    · rw [pregActs, List.range_succ, List.map_append, List.foldl_append, ← pregActs, ht]
      exact doAct_preg _ (by omega) (v n)
    · rw [tget_tput, hg]
      by_cases hm : k + n = m
      · rw [if_pos hm, if_pos (by omega), ← hm, Nat.add_sub_cancel_left]
      · rw [if_neg hm]
        exact if_congr (by omega) rfl rfl

/-- Stages scheduled one after the other. -/
theorem foldl_landStage (n : Nat) (f : Nat → Nat) (k : Nat) (v : Nat → Pred) (s : State) (hf : ∀ j, 32 + f j = k + j) :
    (List.range n).foldl (fun x j => landStage x (f j) (v j)) s = landAll s (pregActs k n v) := by
  unfold landAll pregActs landStage
  rw [List.foldl_map]
  simp only [hf]

theorem getLsbD_stage {b : Nat} (h : b < 128) (p : Bool) : (stage p).getLsbD b = p := by
  cases p
  · simp [stage]
  · rw [stage, if_pos rfl, BitVec.getLsbD_allOnes]
    exact decide_eq_true h

/-! ## LOOP (R32) -/

/-- The entry that LOOP pushes. -/
def loopEntry (s : State) (n st : Nat) : LoopEntry :=
  { lstart := BitVec.ofNat 29 (following (me s) s.cur.addr), lepi := if n = 0 then 0 else BitVec.ofNat 4 (st - 1),
    lcnt := BitVec.ofNat 29 (n - 1) }

/-- What LOOP schedules: the entry, the new depth and the stage predicates. -/
def loopActs (s : State) (n st : Nat) : List LandAct :=
  [.lce (me s).lsd (loopEntry s n st), .sys 0x019 (BitVec.ofNat 64 ((me s).lsd + 1))]
    ++ pregActs 32 st (fun j => stage (j = 0 && n != 0))

theorem loop_of_good {s : State} {n st : Nat} (h0 : 0 < st) (h16 : st ≤ 16) (hl : (me s).lsd ≠ 6) (hn : n ≤ 2 ^ 29) :
    loop s n st = .next (landAll s (loopActs s n st)) := by
  rw [loop, if_neg (by omega), if_neg hl, if_neg (by omega), loopActs, landAll_append]
  exact congrArg Host.Outcome.next (foldl_landStage st id 32 _ _ (fun _ => rfl))

/-- The thread in its next turn after LOOP. -/
theorem foldl_loopActs (s : State) (n st : Nat) (hl : (me s).lsd < 6) : ∃ t,
    (loopActs s n st).foldl doAct (me s)
        = { me s with lces := tset (me s).lces (me s).lsd (loopEntry s n st), lsd := (me s).lsd + 1, pregs := t }
      ∧ ∀ m, tget 0 t m = if 32 ≤ m ∧ m < 32 + st then stage (m - 32 = 0 && n != 0) else tget 0 (me s).pregs m := by
  have hlsd : (BitVec.ofNat 64 ((me s).lsd + 1)).toNat = (me s).lsd + 1 := by
    rw [BitVec.toNat_ofNat]
    omega
  obtain ⟨t, ht, hg⟩ := foldl_pregActs (k := 32) (by decide) st (fun j => stage (j = 0 && n != 0))
    { me s with lces := tset (me s).lces (me s).lsd (loopEntry s n st), lsd := (me s).lsd + 1 }
  refine ⟨t, ?_, hg⟩
  rw [loopActs, List.foldl_append, ← ht]
  simp [hlsd]

/-! ## LEND (R33) -/

/-- The entry on top of the loop stack, and what is left of it after a trip. -/
def topEntry (s : State) : LoopEntry := tget lceZero (me s).lces ((me s).lsd - 1)

def nextEntry (e : LoopEntry) : LoopEntry :=
  if e.lcnt ≠ 0 then { e with lcnt := e.lcnt - 1 } else if e.lepi ≠ 0 then { e with lepi := e.lepi - 1 } else e

theorem nextEntry_of_again {e : LoopEntry} (h : e.lcnt ≠ 0 ∨ e.lepi ≠ 0) :
    nextEntry e = if e.lcnt ≠ 0 then { e with lcnt := e.lcnt - 1 } else { e with lepi := e.lepi - 1 } := by
  unfold nextEntry
  split
  · rfl
  next hc => rw [if_pos (h.resolve_left hc)]

/-- What LEND schedules: the bases, the loop stack, and the stage predicates moved on by one. -/
def lendActs (s : State) : List LandAct :=
  [.sys 0x016 (BitVec.ofNat 64 (((me s).srb + 1) % 32)), .sys 0x018 (BitVec.ofNat 64 (((me s).prb + 1) % 16))]
    ++ (if 16 < (me s).nv then [.sys 0x017 (BitVec.ofNat 64 (((me s).vrb + 1) % ((me s).nv - 16)))] else [])
    ++ [if (topEntry s).lcnt ≠ 0 ∨ (topEntry s).lepi ≠ 0 then .lce ((me s).lsd - 1) (nextEntry (topEntry s))
        else .sys 0x019 (BitVec.ofNat 64 ((me s).lsd - 1))]
    ++ (pregActs 32 1 (fun _ => stage ((topEntry s).lcnt ≠ 0)) ++ pregActs 33 15 (fun j => tget 0 (me s).pregs (32 + j)))

theorem execLend_of_loop {s : State} (h : (me s).lsd ≠ 0) :
    execLend s = .next (if (topEntry s).lcnt ≠ 0 ∨ (topEntry s).lepi ≠ 0 then jumpTo (landAll s (lendActs s)) (topEntry s).lstart.toNat
      else landAll s (lendActs s)) := by
  have htop : tget lceZero (me s).lces ((me s).lsd - 1) = topEntry s := rfl
  rw [execLend, if_neg h]
  dsimp only
  rw [htop, foldl_landStage 15 (· + 1) 33 (fun j => tget 0 (me s).pregs (32 + j)) _ (fun j => by omega)]
  simp only [Bool.or_eq_true, decide_eq_true_eq]
  unfold lendActs
  by_cases ha : (topEntry s).lcnt ≠ 0 ∨ (topEntry s).lepi ≠ 0
  · simp only [if_pos ha, landAll_append]
    rw [← landAll_jumpTo, ← landAll_jumpTo]
    by_cases hv : 16 < (me s).nv
    · simp only [if_pos hv]; rfl
    · simp only [if_neg hv]; rfl
  · simp only [if_neg ha, landAll_append]
    by_cases hv : 16 < (me s).nv
    · simp only [if_pos hv]; rfl
    · simp only [if_neg hv]; rfl

/-- The thread in its next turn after LEND: its registers, -/
def afterLend (s : State) : Thread :=
  { me s with
    srb := ((me s).srb + 1) % 32
    prb := ((me s).prb + 1) % 16
    vrb := if 16 < (me s).nv then ((me s).vrb + 1) % ((me s).nv - 16) else (me s).vrb
    lsd := if (topEntry s).lcnt ≠ 0 ∨ (topEntry s).lepi ≠ 0 then (me s).lsd else (me s).lsd - 1
    lces := if (topEntry s).lcnt ≠ 0 ∨ (topEntry s).lepi ≠ 0 then tset (me s).lces ((me s).lsd - 1) (nextEntry (topEntry s))
      else (me s).lces }

/-- and its stage predicates. -/
theorem foldl_lendActs (s : State) (hl : (me s).lsd ≤ 6) (hv : (me s).nv ≤ 48) : ∃ t,
    (lendActs s).foldl doAct (me s) = { afterLend s with pregs := t }
      ∧ ∀ m, tget 0 t m = if m = 32 then stage ((topEntry s).lcnt ≠ 0)
          else if 33 ≤ m ∧ m < 48 then tget 0 (me s).pregs (m - 1) else tget 0 (me s).pregs m := by
  have hsmall : ∀ x m : Nat, 0 < m → m ≤ 64 → (BitVec.ofNat 64 (x % m)).toNat = x % m := fun x m h0 hm => by
    rw [BitVec.toNat_ofNat]
    exact Nat.mod_eq_of_lt (by have := Nat.mod_lt x h0; omega)
  have hlsd : (BitVec.ofNat 64 ((me s).lsd - 1)).toNat = (me s).lsd - 1 := by
    rw [BitVec.toNat_ofNat]
    omega
  have hvrb : 16 < (me s).nv → (BitVec.ofNat 64 (((me s).vrb + 1) % ((me s).nv - 16))).toNat = ((me s).vrb + 1) % ((me s).nv - 16) :=
    fun h => hsmall _ _ (by omega) (by omega)
  obtain ⟨t1, h1, hg1⟩ := foldl_pregActs (k := 32) (by decide) 1 (fun _ => stage ((topEntry s).lcnt ≠ 0)) (afterLend s)
  obtain ⟨t, h, hg⟩ := foldl_pregActs (k := 33) (by decide) 15 (fun j => tget 0 (me s).pregs (32 + j)) { afterLend s with pregs := t1 }
  refine ⟨t, ?_, fun m => ?_⟩
  · rw [lendActs, List.foldl_append, List.foldl_append, ← h, ← h1]
    refine congrArg (List.foldl doAct · _) (congrArg (List.foldl doAct · _) ?_)
    simp only [List.foldl_append, List.foldl_cons, List.foldl_nil, doAct_srb, doAct_prb, afterLend, hsmall _ 32 (by decide) (by decide),
      hsmall _ 16 (by decide) (by decide)]
    by_cases h16 : 16 < (me s).nv <;> by_cases ha : (topEntry s).lcnt ≠ 0 ∨ (topEntry s).lepi ≠ 0 <;>
      simp only [h16, ha, hvrb, hlsd, if_true, if_false, List.foldl_cons, List.foldl_nil, doAct_vrb, doAct_lce, doAct_lsd]
  · rw [hg m]
    by_cases h33 : 33 ≤ m ∧ m < 48
    · rw [if_pos h33, if_neg (by omega), if_pos h33, show 32 + (m - 33) = m - 1 by omega]
    · rw [if_neg h33, if_neg h33]
      refine (hg1 m).trans ?_
      by_cases h32 : m = 32
      · rw [if_pos h32, if_pos (by omega)]
      · rw [if_neg h32, if_neg (by omega)]
        rfl

/-- The thread in its next turn, after a list of landings and whatever jump. -/
theorem thread_applyLandings_landAll {s : State} (h : (me s).lands = []) (as : List LandAct) :
    thread (applyLandings (landAll s as) s.cur.core s.cur.slot ((me s).ttc + 1)) s.cur.core s.cur.slot = as.foldl doAct (me s) := by
  rw [thread_applyLandings_same, ← landed_landAll h as]
  unfold me
  rw [landAll_cur]

theorem thread_applyLandings_jumpTo (s : State) (a c t ttc : Nat) :
    thread (applyLandings (jumpTo s a) c t ttc) c t = thread (applyLandings s c t ttc) c t := by
  rw [thread_applyLandings_same, thread_applyLandings_same, thread_jumpTo]

end Sys2Proof.Machine

namespace Sys2Proof
open Machine Claim

/-- Settles O14: LOOP and LEND are lists of landings of latency 1, so their next turn is the fold of what each of them does. -/
theorem loopsPushAndPopTheLoopStack : Obligations.LoopsPushAndPopTheLoopStack := by
  intro s w _ hlands hlsd hnv
  dsimp only
  refine ⟨fun i n hi => ?_, fun h0 => ?_, fun h0 => ?_⟩
  · have hex : exec i s = loop s n w.d := by
      rcases hi with ⟨rfl, rfl⟩ | ⟨rfl, hn⟩
      · rfl
      · exact congrArg (loop s · w.d) (by rw [hn]; rfl)
    unfold Traps
    rw [hex]
    refine ⟨fun hd => by rw [loop, if_pos (by omega)], fun h1 h16 hl => by rw [loop, if_neg (by omega), if_pos hl],
      fun h1 h16 hl hn => by rw [loop, if_neg (by omega), if_neg (by omega), if_pos hn], fun h1 h16 hl hn => ?_⟩
    obtain ⟨t, ht, hg⟩ := foldl_loopActs s n w.d hl
    refine ⟨_, loop_of_good h1 h16 (by omega) hn, landAll_cur _ _, ?_⟩
    rw [thread_applyLandings_landAll hlands, ht]
    refine ⟨rfl, tget_tset_same _ _ _ _, fun j hj b hb => ?_⟩
    dsimp only
    rw [hg, Nat.add_sub_cancel_left]
    by_cases hjd : j < w.d
    · rw [if_pos (by omega), if_pos hjd, getLsbD_stage hb]
      simp [bne]
      rfl
    · rw [if_neg (by omega), if_neg hjd]
  · exact if_pos h0
  · obtain ⟨t, ht, hg⟩ := foldl_lendActs s hlsd hnv
    have hstages : (∀ b < 128, (tget 0 t 32).getLsbD b = decide ((topEntry s).lcnt ≠ 0))
        ∧ ∀ j < 15, tget 0 t (33 + j) = tget 0 (me s).pregs (32 + j) := by
      refine ⟨fun b hb => by rw [hg, if_pos rfl, getLsbD_stage hb], fun j hj => ?_⟩
      rw [hg, if_neg (by omega), if_pos (by omega), show 33 + j - 1 = 32 + j by omega]
    refine ⟨_, execLend_of_loop (by omega), ?_⟩
    by_cases ha : (topEntry s).lcnt ≠ 0 ∨ (topEntry s).lepi ≠ 0
    · have hne : ¬ ((tget lceZero (me s).lces ((me s).lsd - 1)).lcnt = 0 ∧ (tget lceZero (me s).lces ((me s).lsd - 1)).lepi = 0) :=
        fun h => ha.elim (· h.1) (· h.2)
      rw [if_pos ha, thread_applyLandings_jumpTo, thread_applyLandings_landAll hlands, ht]
      refine ⟨rfl, rfl, rfl, ?_, hstages⟩
      rw [if_neg hne]
      refine ⟨rfl, if_pos ha, ?_⟩
      dsimp only [afterLend]
      rw [if_pos ha, tget_tset_same]
      exact nextEntry_of_again ha
    · have heq : (tget lceZero (me s).lces ((me s).lsd - 1)).lcnt = 0 ∧ (tget lceZero (me s).lces ((me s).lsd - 1)).lepi = 0 :=
        ⟨not_not.1 fun h => ha (.inl h), not_not.1 fun h => ha (.inr h)⟩
      rw [if_neg ha, thread_applyLandings_landAll hlands, ht]
      refine ⟨rfl, rfl, rfl, ?_, hstages⟩
      rw [if_pos heq]
      exact ⟨congrArg Latch.jump (landAll_cur _ _), if_neg ha⟩

end Sys2Proof

/-! # System registers and gates

LPIN, RDS, WRS and what the landing of an accepted write leaves (R38, R121, R122, R330). -/

namespace Sys2Proof.Machine
open Sys2Proof.Claim

/-! ## LPIN (R38) -/

/-- What LPIN asks to pin. -/
def pinOf (s : State) (w : SWord) (h : Half) : Pin :=
  { seg := h.seg, idx := s.cur.addr % 32 + 1, len := h.len, n := w.b + 1, succ := h.next }

/-- The bundles of the successor of a half. -/
def succLen (s : State) (h : Half) : Nat := min ((getByte s (codeStore s.cur.core + h.next)).toNat % 64) 32

theorem execLpin_of_half {s : State} {h : Half} (w : SWord) (hh : halfOf (me s) (me s).curHalf = some h) :
    execLpin w s = if h.len < s.cur.addr % 32 + 1 + (w.b + 1)
        ∧ (!inStore h.next ∨ succLen s h < w.b + 1 - (h.len - (s.cur.addr % 32 + 1))) then .next (trapNow s 0x0B)
      else .next (modMe s (fun th => { th with pin := some (pinOf s w h) })) := by
  unfold execLpin
  dsimp only
  rw [hh]
  rfl

/-- An LPIN that is accepted sets the pin of its thread alone. -/
theorem lpin_frame (s : State) (p : Pin) : me (modMe s (fun th => { th with pin := some p })) = { me s with pin := some p }
    ∧ SameOutside s (modMe s (fun th => { th with pin := some p })) :=
  ⟨me_modMe _ _, rfl⟩

/-! ## RDS (R121, R193, Tables 1.2 and 14.3) -/

theorem ofGang_eq_match (s : State) (c : Nat) (f : Gang → Nat) :
    ofGang s c f = match gangOf s c with | some g => f g | none => 0 := by
  unfold ofGang
  cases gangOf s c <;> rfl

theorem sysReg_of_mem_sysValues (s : State) : ∀ p ∈ sysValues s,
    sysReg s s.cur.core s.cur.slot p.1 s.cur.addr % 2 ^ 64 = p.2 % 2 ^ 64 := by
  have hgang := fun f => congrArg (· % 2 ^ 64) (ofGang_eq_match s s.cur.core f)
  simp only [sysValues, List.forall_mem_cons, List.not_mem_nil, IsEmpty.forall_iff, implies_true, and_true]
  exact ⟨rfl, hgang _, hgang _, rfl, rfl, hgang gshape, hgang _, rfl, rfl, rfl, Nat.mod_mod _ _, rfl, rfl, rfl, rfl, rfl, rfl, rfl, rfl, rfl,
    rfl, rfl, rfl, rfl, rfl, rfl, rfl⟩

theorem sysReg_lce (s : State) (c t addr : Nat) {i : Nat} (hi : i < 6) :
    sysReg s c t (0x020 + i) addr = lceNat (tget lceZero (thread s c t).lces i) := by
  interval_cases i <;> rfl

/-- The fields of a loop entry as RDS shows it (Table 1.5). -/
theorem field_lceNat (e : LoopEntry) :
    let v := (BitVec.ofNat 64 (lceNat e)).toNat
    field v 33 29 = e.lstart.toNat ∧ field v 29 4 = e.lepi.toNat ∧ field v 0 29 = e.lcnt.toNat ∧ field v 62 2 = 0 := by
  have h1 := e.lstart.isLt
  have h2 := e.lepi.isLt
  have h3 := e.lcnt.isLt
  simp only [field, lceNat, BitVec.toNat_ofNat]
  omega

theorem execRds_of_ready {s : State} {w : SWord} (h : 64 * w.a + w.b ≠ 0x806 ∨ (myCore s).svc.dbgBusy = false) :
    execRds w s = .next (landW s w.d 1 (BitVec.ofNat 64 (sysReg s s.cur.core s.cur.slot (64 * w.a + w.b) s.cur.addr))) := by
  unfold execRds
  rw [Nat.mul_comm w.a]
  refine if_neg fun hb => h.elim (· hb.1) fun hf => ?_
  rw [hf] at hb
  exact Bool.false_ne_true hb.2

/-! ## WRS (R121, Table 14.3) -/

theorem wrsOk_of_mem_sysAccepts (s : State) (x : Nat) : ∀ p ∈ sysAccepts s x, (wrsOk s p.1 x = true ↔ p.2) := by
  have hvrb : wrsOk s 0x017 x = true ↔ x < 32 ∧ (x + 16 < (me s).nv ∨ x = 0 ∧ (me s).nv = 16) := by
    simp only [wrsOk, Bool.and_eq_true, Bool.or_eq_true, decide_eq_true_eq]
    omega
  have hinqr : wrsOk s 0x801 x = true ↔ x < 2 ^ 16 ∧ (x + 2 ^ 16 - (myCore s).svc.inqr) % 2 ^ 16
      ≤ ((myCore s).svc.inqw + 2 ^ 16 - (myCore s).svc.inqr) % 2 ^ 16 := by
    simp only [wrsOk, Bool.and_eq_true, decide_eq_true_eq]
    rfl
  have hlt : ∀ m, decide (x < m) = true ↔ x < m := fun m => decide_eq_true_iff
  simp only [sysAccepts, List.forall_mem_cons, List.not_mem_nil, IsEmpty.forall_iff, implies_true, and_true]
  exact ⟨hlt _, hlt _, hlt _, hlt _, hlt _, hvrb, hlt _, decide_eq_true_iff, hlt _, hlt _, hlt _, hlt _, hlt _, hlt _, hinqr, hlt _, hlt _⟩

/-- The landing of a write of LCE0 to LCE5. -/
theorem tget_doAct_lce (th : Thread) (v : Word) {i : Nat} (hi : i < 6) :
    tget lceZero (doAct th (.sys (0x020 + i) v)).lces i = { lstart := BitVec.ofNat 29 (field v.toNat 33 29),
                                                            lepi := BitVec.ofNat 4 (field v.toNat 29 4),
                                                            lcnt := BitVec.ofNat 29 (field v.toNat 0 29) } := by
  have hmod : ∀ n y : Nat, BitVec.ofNat n (y % 2 ^ n) = BitVec.ofNat n y := fun n y => by
    apply BitVec.eq_of_toNat_eq
    simp
  have hlces : (doAct th (.sys (0x020 + i) v)).lces = tset th.lces i
      { lstart := BitVec.ofNat 29 (v.toNat / 2 ^ 33), lepi := BitVec.ofNat 4 (v.toNat / 2 ^ 29), lcnt := BitVec.ofNat 29 v.toNat } := by
    interval_cases i <;> rfl
  rw [hlces, tget_tset_same]
  simp only [field, hmod, Nat.pow_zero, Nat.div_one]

@[simp] theorem svc_core_modThread (s : State) (c t d : Nat) (f : Thread → Thread) :
    (core (modThread s c t f) d).svc = (core s d).svc := by
  rw [core_modThread]
  split
  next h => rw [h]
  next => rfl

/-- What stands before a service core's own registers are written: the thread's landing has applied. -/
def beforeSvc (s : State) (n : Nat) (v : Word) : State :=
  let s1 := modThread (landSys s n v) s.cur.core s.cur.slot (fun th => { th with lands := th.lands.filter (fun l => (me s).ttc + 1 < l.due) })
  modThread s1 s.cur.core s.cur.slot (fun th => applyAct th (landingOf s 1 (.sys n v) 0))

theorem svc_beforeSvc (s : State) (n : Nat) (v : Word) : (core (beforeSvc s n v) s.cur.core).svc = (myCore s).svc := by
  simp [beforeSvc, landSys, land, modMe, myCore]

theorem applyLandings_landSys_svc {s : State} (hc : isSvc s.cur.core = true) (h : (me s).lands = []) (n : Nat) (v : Word) :
    applyLandings (landSys s n v) s.cur.core s.cur.slot ((me s).ttc + 1) = applySvc (beforeSvc s n v) s.cur.core s.cur.slot n v := by
  have hl : (thread (landSys s n v) s.cur.core s.cur.slot).lands = [landingOf s 1 (.sys n v) 0] :=
    (congrArg Thread.lands (me_land s 1 (.sys n v) 0)).trans (by rw [h]; rfl)
  have hdue : [landingOf s 1 (.sys n v) 0].filter (fun l => l.due ≤ (me s).ttc + 1) = [landingOf s 1 (.sys n v) 0] := by
    simp [landingOf]
  unfold applyLandings
  dsimp only
  rw [hl, hdue]
  exact if_pos hc

theorem drainInbox_of_empty {s : State} {c : Nat} (h : (core s c).svc.inbox = []) (n : Nat) : drainInbox n s c = s := by
  cases n with
  | zero => rfl
  | succ n => rw [drainInbox, h]

/-- What the landing of an accepted write leaves in a service core's registers (Table 14.3). -/
theorem svc_applyLandings_landSys {s : State} (hc : isSvc s.cur.core = true) (h : (me s).lands = []) (v : Word) :
    let t := fun n => applyLandings (landSys s n v) s.cur.core s.cur.slot ((me s).ttc + 1)
    let k := fun n => (core (t n) s.cur.core).svc
    ((myCore s).svc.inbox = [] → (k 0x801).inqr = v.toNat) ∧ (k 0x804).gsel = v.toNat
      ∧ (k 0x805).dbgsel = v ∧ (k 0x805).dbgBusy = true
      ∧ ∃ e ∈ (t 0x805).agenda, e.instr = .debugReadComplete ∧ e.args = [s.cur.core, s.cur.slot, v.toNat] ∧ s.gcyc < e.due := by
  dsimp only
  simp only [applyLandings_landSys_svc hc h]
  refine ⟨fun hin => ?_, ?_, ?_, ?_, ?_⟩
  · have hbox : (core (modCore (beforeSvc s 0x801 v) s.cur.core (fun k => { k with svc := { k.svc with inqr := v.toNat } }))
        s.cur.core).svc.inbox = [] := by
      rw [core_modCore_same, svc_beforeSvc]
      exact hin
    rw [applySvc, if_pos rfl]
    dsimp only
    rw [drainInbox_of_empty hbox, core_modCore_same]
  · rw [applySvc, if_neg (by decide), if_pos rfl, core_modCore_same]
  · rw [applySvc, if_neg (by decide), if_neg (by decide), if_pos rfl]
    dsimp only
    rw [core_later, core_modCore_same]
  · rw [applySvc, if_neg (by decide), if_neg (by decide), if_pos rfl]
    dsimp only
    rw [core_later, core_modCore_same]
  · rw [applySvc, if_neg (by decide), if_neg (by decide), if_pos rfl]
    obtain ⟨due, hdue, hag⟩ := later_agenda (modCore (beforeSvc s 0x805 v) s.cur.core
      (fun k => { k with svc := { k.svc with dbgsel := v, dbgBusy := true } })) [] .debugReadComplete [s.cur.core, s.cur.slot, v.toNat]
    refine ⟨_, by rw [hag]; exact (mem_insEvent _ _ _).2 (.inl rfl), rfl, rfl, ?_⟩
    exact hdue

/-- And what it leaves in the registers of its thread. -/
theorem thread_applyLandings_landSys {s : State} (h : (me s).lands = []) (n : Nat) (v : Word) :
    thread (applyLandings (landSys s n v) s.cur.core s.cur.slot ((me s).ttc + 1)) s.cur.core s.cur.slot = doAct (me s) (.sys n v) :=
  thread_applyLandings_landAll h [.sys n v]

/-! ## ROTSET and WAITC (R122, R187) -/

theorem execRotset_of_all {s : State} {w : SWord} (hb : w.b = 7) (hv : (body s w.a).toNat / 256 % 32 < (me s).nv - 16) :
    execRotset w s = .next (landAll s [.sys 0x016 (BitVec.ofNat 64 ((body s w.a).toNat % 32)),
      .sys 0x017 (BitVec.ofNat 64 ((body s w.a).toNat / 256 % 32)), .sys 0x018 (BitVec.ofNat 64 ((body s w.a).toNat / 65536 % 16))]) := by
  have hok : ¬ (w.b / 2 % 2 = 1 ∧ (!(decide (bitsAt (nat s w.a) 8 5 < (me s).nv - 16) || decide (bitsAt (nat s w.a) 8 5 = 0)
      && decide ((me s).nv = 16))) = true) := by
    rw [show bitsAt (nat s w.a) 8 5 = (body s w.a).toNat / 256 % 32 from rfl, decide_eq_true hv]
    simp
  unfold execRotset
  dsimp only
  rw [if_neg hok, hb]
  exact congrArg (fun n => Host.Outcome.next (landAll s [.sys 0x016 (BitVec.ofNat 64 n), .sys 0x017 _, .sys 0x018 _]))
    (congrArg (· % 32) (Nat.div_one _))

theorem waitc_spec (s : State) (n : Nat) :
    (n ≤ s.gcyc → waitc s n = .next s) ∧ (s.gcyc < n → waitc s n = .next (blockNow s)) :=
  ⟨fun h => if_pos h, fun h => if_neg (Nat.not_le.2 h)⟩

end Sys2Proof.Machine

namespace Sys2Proof
open Machine Claim

/-- Settles O15, instruction by instruction. -/
theorem pinsSystemRegistersAndGates : Obligations.PinsSystemRegistersAndGates := by
  intro s w
  refine ⟨?_, ?_, ?_, ?_, ?_, ?_, ?_, ?_, ?_, ?_, rfl, rfl, rfl, rfl, rfl⟩
  -- LPIN (R38)
  · intro h hh hin
    exact ⟨_, (execLpin_of_half w hh).trans (if_neg (by omega)), by rw [(lpin_frame _ _).1]; rfl, by rw [(lpin_frame _ _).1], rfl⟩
  · intro h hh hout hnext
    refine (execLpin_of_half w hh).trans (if_pos ⟨by omega, .inl ?_⟩)
    simp [inStore, Nat.not_lt.2 hnext]
  · intro h hh hidx hout hnext
    have hstore : ¬ ((!inStore h.next) = true) := by simp [inStore, hnext]
    have hlen : min ((getByte s (codeStore s.cur.core + h.next)).toNat % 64) 32 = succLen s h := rfl
    dsimp only
    rw [hlen]
    constructor
    · intro hlt
      exact (execLpin_of_half w hh).trans (if_pos ⟨by omega, .inr (by omega)⟩)
    · intro hle
      refine ⟨_, (execLpin_of_half w hh).trans (if_neg fun hc => hc.2.elim hstore fun hs => by omega), ?_⟩
      exact ⟨by rw [(lpin_frame _ _).1]; rfl, by rw [(lpin_frame _ _).1], rfl⟩
  -- RDS
  · intro hn
    refine ⟨_, fun x hx => ?_, execRds_of_ready (.inl hn)⟩
    rw [BitVec.toNat_ofNat]
    exact sysReg_of_mem_sysValues s _ hx
  · intro i hi hn
    refine ⟨_, ?_, execRds_of_ready (.inl (by omega))⟩
    rw [hn, sysReg_lce _ _ _ _ hi]
    exact field_lceNat _
  · intro hn hb
    exact if_pos ⟨by omega, hb⟩
  · intro hn hb
    refine ⟨_, rfl, (execRds_of_ready (.inr hb)).trans ?_⟩
    rw [hn]
    exact congrArg (fun v => Host.Outcome.next (landW s w.d 1 v)) (BitVec.ofNat_toNat _ _)
  -- WRS
  · dsimp only
    rw [show 64 * w.d + w.b = w.d * 64 + w.b by omega]
    refine ⟨fun p hp => ?_, fun hl => ?_⟩
    · have hok := wrsOk_of_mem_sysAccepts s _ _ hp
      exact ⟨fun h => if_pos (hok.2 h), fun h => if_neg fun hw => h (hok.1 hw)⟩
    · rw [thread_applyLandings_landSys hl]
      generalize w.d * 64 + w.b = n
      refine ⟨?_, ?_, ?_, ?_, ?_, ?_, ?_, ?_, ?_, ?_, ?_, ?_⟩
      · rintro rfl; rfl
      · rintro rfl; rfl
      · rintro rfl; exact ⟨rfl, rfl⟩
      · rintro rfl; rfl
      · rintro rfl; rfl
      · rintro rfl; rfl
      · rintro rfl; rfl
      · rintro rfl; rfl
      · rintro i hi rfl
        exact tget_doAct_lce _ _ hi
      · rintro hc rfl hin
        exact (svc_applyLandings_landSys hc hl _).1 hin
      · rintro hc rfl
        exact (svc_applyLandings_landSys hc hl _).2.1
      · rintro hc rfl
        exact (svc_applyLandings_landSys hc hl _).2.2
  -- ROTSET
  · intro hb hnv hv _ hl
    refine ⟨_, execRotset_of_all hb hv, ?_⟩
    dsimp only
    rw [thread_applyLandings_landAll hl]
    have hsmall : ∀ x m : Nat, 0 < m → m ≤ 32 → (BitVec.ofNat 64 (x % m)).toNat = x % m := fun x m h0 hm => by
      rw [BitVec.toNat_ofNat]
      exact Nat.mod_eq_of_lt (by have := Nat.mod_lt x h0; omega)
    simp only [List.foldl_cons, List.foldl_nil, doAct_srb, doAct_vrb, doAct_prb]
    exact ⟨hsmall _ 32 (by decide) (by decide), hsmall _ 32 (by decide) (by decide), hsmall _ 16 (by decide) (by decide)⟩
  -- WAITC
  · rintro i n (⟨rfl, rfl⟩ | ⟨rfl, hn⟩)
    · exact waitc_spec s _
    · have hex : exec (.waitcImmediate w) s = waitc s n := congrArg (waitc s) (by rw [hn]; rfl)
      rw [hex]
      exact waitc_spec s n

end Sys2Proof

/-! # The frame of the instructions that write registers

An outcome that only adds landings, kept by every shared operation of the S, V and L slots (R22, R26, R27). -/

namespace Sys2Proof.Machine
open Sys2Proof.Claim

/-! ## Pending landings in issue order (R27) -/

@[simp] theorem mem_insLanding (l x : Landing) (ls : List Landing) : x ∈ insLanding l ls ↔ x = l ∨ x ∈ ls := by
  induction ls with
  | nil => simp [insLanding]
  | cons y r ih =>
    simp only [insLanding]
    split <;> simp [ih]
    tauto

/-- A landing is placed behind those it follows, so the order stays. -/
theorem insLanding_inIssueOrder {ls : List Landing} (h : InIssueOrder ls) (l : Landing) : InIssueOrder (insLanding l ls) := by
  unfold InIssueOrder at h ⊢
  induction ls with
  | nil => simp [insLanding]
  | cons x r ih =>
    obtain ⟨hx, hr⟩ := List.pairwise_cons.1 h
    rw [insLanding]
    split
    next hle =>
      refine List.pairwise_cons.2 ⟨fun y hy => ?_, ih hr⟩
      rcases (mem_insLanding l y r).1 hy with rfl | hy
      · exact hle
      · exact hx y hy
    next hlt =>
      refine List.pairwise_cons.2 ⟨fun y hy => ?_, h⟩
      rcases List.mem_cons.1 hy with rfl | hy
      · omega
      · have := hx y hy
        omega

/-! ## What only adds landings -/

theorem onlyLandings_refl (s : State) : OnlyLandings s s :=
  ⟨rfl, fun _ => rfl, fun _ _ => rfl, ⟨[], by simp⟩, fun _ _ => rfl, fun _ _ _ => rfl⟩

theorem onlyLandings_trans {s t u : State} (hc : t.cur.core = s.cur.core) (hk : t.cur.slot = s.cur.slot) (h1 : OnlyLandings s t)
    (h2 : OnlyLandings t u) : OnlyLandings s u := by
  obtain ⟨ho1, hco1, hp1, ⟨l1, hl1⟩, ht1, hn1⟩ := h1
  obtain ⟨ho2, hco2, hp2, ⟨l2, hl2⟩, ht2, hn2⟩ := h2
  rw [hc] at hp2 hl2
  rw [hc, hk] at hn2
  refine ⟨?_, fun c => ?_, fun c h => (hp2 c h).trans (hp1 c h), ⟨l1 ++ l2, by rw [hl2, hl1, List.append_assoc]⟩, fun c k => ?_,
    fun c k h => (hn2 c k h).trans (hn1 c k h)⟩
  · unfold SameOutside at ho1 ho2 ⊢
    exact (congrArg (fun x : State => { x with cores := s.cores, cur := s.cur }) ho2).trans ho1
  · exact (congrArg (fun x : Core => { x with threads := (core s c).threads, activity := (core s c).activity, port := (core s c).port })
      (hco2 c)).trans (hco1 c)
  · exact (congrArg (fun x : Thread => { x with lands := (thread s c k).lands }) (ht2 c k)).trans (ht1 c k)

/-- A landing of the bundle at work, of a latency of the register-writing rows. -/
def IsOwn (s : State) (l : Landing) : Prop :=
  l.issued = (me s).ttc ∧ l.pos = s.cur.pos ∧ ∃ lat ∈ [1, 2, 3, 4], l.due = (me s).ttc + lat

/-- Nothing has changed but that landings of the bundle at work were added in issue order. -/
structure AddsLandings (s t : State) : Prop where
  core : t.cur.core = s.cur.core
  slot : t.cur.slot = s.cur.slot
  pos : t.cur.pos = s.cur.pos
  only : OnlyLandings s t
  kept : ∀ l ∈ (me s).lands, l ∈ (me t).lands
  added : ∀ l ∈ (me t).lands, l ∈ (me s).lands ∨ IsOwn s l
  order : InIssueOrder (me s).lands → InIssueOrder (me t).lands

theorem AddsLandings.ttc {s t : State} (h : AddsLandings s t) : (me t).ttc = (me s).ttc := by
  obtain ⟨_, _, _, _, ht, _⟩ := h.only
  unfold me
  rw [h.core, h.slot]
  have h := congrArg Thread.ttc (ht s.cur.core s.cur.slot)
  exact h

theorem AddsLandings.refl (s : State) : AddsLandings s s :=
  ⟨rfl, rfl, rfl, onlyLandings_refl s, fun _ h => h, fun _ h => .inl h, fun h => h⟩

theorem AddsLandings.trans {s t u : State} (h1 : AddsLandings s t) (h2 : AddsLandings t u) : AddsLandings s u where
  core := h2.core.trans h1.core
  slot := h2.slot.trans h1.slot
  pos := h2.pos.trans h1.pos
  only := onlyLandings_trans h1.core h1.slot h1.only h2.only
  kept := fun l hl => h2.kept l (h1.kept l hl)
  added := fun l hl => by
    rcases h2.added l hl with hl | ⟨hi, hp, hd⟩
    · exact h1.added l hl
    · rw [h1.ttc] at hi hd
      exact .inr ⟨hi, hp.trans h1.pos, hd⟩
  order := fun h => h2.order (h1.order h)

/-- A change of the latch that keeps the thread and the slot at work. -/
theorem AddsLandings.of_cur {s : State} {l : Latch} (hc : l.core = s.cur.core) (hk : l.slot = s.cur.slot) (hp : l.pos = s.cur.pos) :
    AddsLandings s { s with cur := l } := by
  have hme : me { s with cur := l } = me s := by
    unfold me
    rw [← hc, ← hk]
    rfl
  refine ⟨hc, hk, hp, onlyLandings_refl s, ?_, ?_, ?_⟩ <;> rw [hme]
  · exact fun _ h => h
  · exact fun _ h => .inl h
  · exact fun h => h

theorem AddsLandings.note (s : State) (n : Nat) : AddsLandings s (note s n) := .of_cur rfl rfl rfl

theorem AddsLandings.blockNow (s : State) : AddsLandings s (blockNow s) := .of_cur rfl rfl rfl

theorem AddsLandings.land (s : State) {lat : Nat} (h : lat ∈ [1, 2, 3, 4]) (a : LandAct) (n : Nat) : AddsLandings s (land s lat a n) where
  core := rfl
  slot := rfl
  pos := rfl
  only := by
    have hc : ∀ c, c ≠ s.cur.core → Machine.core (Machine.land s lat a n) c = Machine.core s c := fun c h => by
      unfold Machine.land modMe
      rw [core_modThread, if_neg fun he => h he.symm]
    have hs : ∃ t, Machine.core (Machine.land s lat a n) s.cur.core = { Machine.core s s.cur.core with threads := t } :=
      ⟨_, by unfold Machine.land modMe; rw [core_modThread, if_pos rfl]⟩
    obtain ⟨t, ht⟩ := hs
    refine ⟨rfl, fun c => ?_, fun c h => by rw [hc c h], ⟨[], by rw [ht, List.append_nil]⟩, fun c k => ?_, fun c k h => ?_⟩
    · by_cases h : c = s.cur.core
      · rw [h, ht]
      · rw [hc c h]
    · rw [thread_land]
      split
      next h => rw [← h.1, ← h.2]; rfl
      next => rfl
    · rw [thread_land, if_neg fun he => h (by rw [he.1, he.2])]
  kept := fun l hl => by rw [me_land]; exact (mem_insLanding _ _ _).2 (.inr hl)
  added := fun l hl => by
    rw [me_land] at hl
    rcases (mem_insLanding _ _ _).1 hl with rfl | hl
    · exact .inr ⟨rfl, rfl, lat, h, rfl⟩
    · exact .inl hl
  order := fun ho => by
    rw [me_land]
    exact insLanding_inIssueOrder ho _

/-- A change of the activity count and of the accesses under way of the core at work. -/
theorem AddsLandings.of_core {s : State} {f : Core → Core} (l : List PortAccess)
    (hf : ∀ k, f k = { k with activity := (f k).activity, port := k.port ++ l }) : AddsLandings s (modCore s s.cur.core f) := by
  have hthreads : (f (Machine.core s s.cur.core)).threads = (Machine.core s s.cur.core).threads := by rw [hf]
  have ht : ∀ c k, thread (modCore s s.cur.core f) c k = thread s c k := thread_modCore_of_threads hthreads
  have hme : me (modCore s s.cur.core f) = me s := ht s.cur.core s.cur.slot
  have hc : ∀ c, c ≠ s.cur.core → Machine.core (modCore s s.cur.core f) c = Machine.core s c := fun c h => by
    rw [core_modCore, if_neg fun he => h he.symm]
  refine ⟨rfl, rfl, rfl, ⟨rfl, fun c => ?_, fun c h => by rw [hc c h], ⟨l, by rw [core_modCore_same, hf]⟩, fun c k => by rw [ht],
    fun c k _ => ht c k⟩, ?_, ?_, ?_⟩
  · by_cases h : c = s.cur.core
    · rw [h, core_modCore_same, hf]
    · rw [hc c h]
  · rw [hme]; exact fun _ h => h
  · rw [hme]; exact fun _ h => .inl h
  · rw [hme]; exact fun h => h

theorem AddsLandings.tick (s : State) (kind n : Nat) : AddsLandings s (tick s s.cur.core kind n) :=
  .of_core [] fun k => by rw [List.append_nil]

theorem AddsLandings.portAccess (s : State) (touch : Pieces) (full : Option Bool) : AddsLandings s (portAccess s touch [] full) :=
  .of_core (f := fun k => { k with port := k.port ++ [{ due := s.gcyc + 4, touch := touch, writes := [], full := full }] }) _
    fun _ => rfl

theorem AddsLandings.landAll (s : State) (as : List LandAct) : AddsLandings s (landAll s as) := by
  induction as generalizing s with
  | nil => exact .refl s
  | cons a r ih => exact (AddsLandings.land s (by decide) a 0).trans (ih _)

/-! ## Outcomes that only add landings -/

/-- An outcome that adds landings, if it is a next state without a trap. -/
def Adds (s : State) (o : Out) : Prop := ∀ t, o = .next t → t.cur.trap = none → AddsLandings s t

theorem adds_next {s t : State} (h : AddsLandings s t) : Adds s (.next t) := fun _ ht _ => by cases ht; exact h

theorem adds_trap (s : State) (cause : Nat) : Adds s (.next (trapNow s cause)) := fun _ ht hn => by
  cases ht
  cases hn

theorem adds_ite {s : State} {p : Prop} [Decidable p] {a b : Out} (ha : Adds s a) (hb : Adds s b) : Adds s (if p then a else b) := by
  split
  · exact ha
  · exact hb

/-- The form of most instructions: one landing. -/
theorem adds_land {s : State} {lat : Nat} {a : LandAct} {n : Nat} (h : lat ∈ [1, 2, 3, 4]) : Adds s (.next (land s lat a n)) :=
  adds_next (.land s h a n)

/-- And that of the floating ones: their flags are noted for the bundle as well. -/
theorem adds_noteLand {s : State} {m lat : Nat} {a : LandAct} {n : Nat} (h : lat ∈ [1, 2, 3, 4]) :
    Adds s (.next (land (note s m) lat a n)) :=
  adds_next ((AddsLandings.note s m).trans (.land _ h a n))

/-! ## The S slot -/

theorem adds_divide (s : State) (w : SWord) (b r : Word) : Adds s (divide s w b r) := adds_ite (adds_trap s _) (adds_land (by decide))

theorem adds_execLea (w : SWord) (s : State) : Adds s (execLea w s) :=
  adds_ite (adds_trap s _) (adds_ite (adds_trap s _) (adds_land (by decide)))

theorem adds_execAdda (w : SWord) (s : State) : Adds s (execAdda w s) := adds_ite (adds_trap s _) (adds_land (by decide))

theorem adds_execFcvt (f : Fmt) (w : SWord) (s : State) : Adds s (execFcvt f w s) := by
  refine adds_ite ?_ ?_
  · split
    · exact adds_noteLand (by decide)
    · exact adds_noteLand (by decide)
    · exact adds_trap s _
  · split
    · exact adds_noteLand (by decide)
    · exact adds_noteLand (by decide)
    · exact adds_trap s _

theorem adds_loop (s : State) (n st : Nat) : Adds s (loop s n st) := by
  by_cases h0 : st = 0 ∨ 16 < st
  · rw [loop, if_pos h0]
    exact adds_trap s _
  · by_cases hl : (me s).lsd = 6
    · rw [loop, if_neg h0, if_pos hl]
      exact adds_trap s _
    · by_cases hn : 2 ^ 29 < n
      · rw [loop, if_neg h0, if_neg hl, if_pos hn]
        exact adds_trap s _
      · rw [loop_of_good (by omega) (by omega) hl (by omega)]
        exact adds_next (.landAll s _)

theorem adds_execRds (w : SWord) (s : State) : Adds s (execRds w s) := adds_ite (adds_next (.blockNow s)) (adds_land (by decide))

theorem adds_execWrs (w : SWord) (s : State) : Adds s (execWrs w s) := adds_ite (adds_land (by decide)) (adds_trap s _)

theorem AddsLandings.landSys_if (s : State) (p : Prop) [Decidable p] (n : Nat) (v : Word) :
    AddsLandings s (if p then landSys s n v else s) := by
  split
  · exact .land s (by decide) _ _
  · exact .refl s

theorem adds_execRotset (w : SWord) (s : State) : Adds s (execRotset w s) :=
  adds_ite (adds_trap s _) (adds_next
    (((AddsLandings.landSys_if s _ 0x016 _).trans (.landSys_if _ _ 0x017 _)).trans (.landSys_if _ _ 0x018 _)))

theorem adds_waitc (s : State) (n : Nat) : Adds s (waitc s n) := adds_ite (adds_next (.refl s)) (adds_next (.blockNow s))

/-! ## The V, L and X slots -/

theorem adds_execVmovsToScalar (w : VWord) (s : State) : Adds s (execVmovsToScalar w s) :=
  adds_ite (adds_land (by decide)) (adds_next (.refl s))

/-- A load: its landing, its place at the port, and its bank words counted. -/
theorem adds_withRange {s : State} (ea : Int) (size al : Nat) (bad : Nat → Bool) {k : Nat → State}
    (hk : ∀ a, AddsLandings s (k a)) : Adds s (withRange s ea size al bad k) := by
  refine adds_ite (adds_trap s _) (adds_ite (adds_trap s _) (adds_next ?_))
  have ha := hk (here s + ea.toNat)
  refine ha.trans ?_
  dsimp only [tickPort]
  rw [← ha.core]
  exact .tick _ _ _

theorem adds_execLd (w : LWord) (s : State) : Adds s (execLd w s) :=
  adds_withRange _ _ _ _ fun _ => (AddsLandings.land s (by decide) _ _).trans (.portAccess _ _ _)

theorem adds_execLdv (w : LWord) (s : State) : Adds s (execLdv w s) :=
  adds_ite (adds_next (.refl s)) (adds_withRange _ _ _ _ fun _ => (AddsLandings.land s (by decide) _ _).trans (.portAccess _ _ _))

theorem adds_execLdx (w : LWord) (s : State) : Adds s (execLdx w s) :=
  adds_ite (adds_trap s _) (adds_ite (adds_trap s _) (adds_ite (adds_next (.refl s))
    (adds_next (((AddsLandings.land s (by decide) _ _).trans (.portAccess _ _ _)).trans (.tick _ _ _)))))

theorem adds_execFill (w : LWord) (s : State) : Adds s (execFill w s) := by
  refine adds_withRange _ _ _ _ fun a => AddsLandings.trans ?_ (.portAccess _ _ _)
  split
  · exact .land s (by decide) _ _
  · exact .land s (by decide) _ _

theorem adds_execChpeek (w : XWord) (s : State) : Adds s (execChpeek w s) := by
  unfold execChpeek
  split
  · exact adds_trap s _
  · exact adds_land (by decide)

/-! ## Every instruction of the frame -/

theorem le_word {op : Nat} (h : 0x60 ≤ op) (w : SWord) : 0x60000000 ≤ w.word op := by
  unfold SWord.word
  omega

/-- The S words from opcode 0x60 on are control transfers, loops, system registers and requests: of them only those that
`landsOnly` names are in the frame. -/
theorem not_landsOnly_of_word {word : Nat} {nop : Bool} (h : 0x60000000 ≤ word) :
    ¬ (decide (Kind.s = .s) && decide (0x01000000 ≤ word) && decide (word < 0x60000000) || decide (Kind.s = .w)
      || decide (Kind.s = .v) && !nop) = true := by
  simp [Nat.not_lt.2 h]

theorem adds_exec_of_landsOnly (i : Instr) (s : State) (h : landsOnly i = true) : Adds s (exec i s) := by
  cases i with
  | nop | vnop | lnop | mnop | xnop => exact adds_next (.refl s)
  -- one landing
  | add _ | sub _ | addi _ | mul _ | mulh _ | mulhn _ | and _ | or _ | xor _ | andn _ | shl _ | shr _ | sar _ | rol _ | clz _ | popc _
  | min _ | max _ | minn _ | maxn _ | sel _ | ext _ | ins _ | mov _ | moviShort _ | moviImm32 _ | moviLong _ | cmpeq _ | cmpne _ | cmplt _
  | cmple _ | cmpltn _ | cmplen _ | movaAS _ | movaSA _ | movaHiSA _ | movaAA _ | movaHiAS _ | fclassF64 _ | fclassF32 _ | pand _ | por _
  | pxor _ | pnot _ | pmov _ | pall _ | pany _ | vadd _ | vsub _ | vmul _ | vmulh _ | vmad _ | vand _ | vor _ | vxor _ | vshl _ | vshr _
  | vsar _ | vmin _ | vmax _ | vabs _ | vclz _ | vpopc _ | vdot4 _ | vsel _ | vshuf _ | vbcast _ | vcmprs _ | viota _ | vrng _
  | vmovsToVector _ | vmovlToVector _ | vmov _ | xcl _ => exact adds_land (by decide)
  -- one landing whose flags the bundle notes
  | faddF64 _ | fsubF64 _ | fmulF64 _ | fmaF64 _ | fdivF64 _ | fsqrtF64 _ | fminF64 _ | fmaxF64 _ | fcmpeqF64 _ | fcmpltF64 _ | fcmpleF64 _
  | setlF64 _ | faddF32 _ | fsubF32 _ | fmulF32 _ | fmaF32 _ | fdivF32 _ | fsqrtF32 _ | fminF32 _ | fmaxF32 _ | fcmpeqF32 _ | fcmpltF32 _
  | fcmpleF32 _ | setlF32 _ | vcmp _ | vfadd _ | vfsub _ | vfmul _ | vfma _ | vfmin _ | vfmax _ | vfminn _ | vfmaxn _ | vfabs _ | vfneg _
  | vfcmp _ | vfcmps _ | vcvt _ | vsetl _ | vfclass _ | vexp2 _ | vlog2 _ | vrcp _ | vrsq _ | vsqrt _ | vsin _ | vcos _ | vred _ | vscan _
  | vmovlToPredicate _ | vpack _ | vunpk _ => exact adds_noteLand (by decide)
  | div _ | divn _ | rem _ | remn _ => exact adds_divide _ _ _ _
  | lea _ => exact adds_execLea _ s
  | adda _ => exact adds_execAdda _ s
  | fcvtF64 _ | fcvtF32 _ => exact adds_execFcvt _ _ s
  | loopRegister _ | loopImmediate _ => exact adds_loop s _ _
  | rds _ => exact adds_execRds _ s
  | wrs _ => exact adds_execWrs _ s
  | rotset _ => exact adds_execRotset _ s
  | waitcRegister _ | waitcImmediate _ => exact adds_waitc s _
  | vmovsToScalar _ => exact adds_execVmovsToScalar _ s
  | ld _ => exact adds_execLd _ s
  | ldv _ => exact adds_execLdv _ s
  | ldx _ => exact adds_execLdx _ s
  | fill _ => exact adds_execFill _ s
  | chpeek _ => exact adds_execChpeek _ s
  -- the S words that are not in the frame
  | br w | callLabel w | callRegister w | lpin w | trap w | bri w | tretRetry w | tretAt w | tretNext w | tretSkip w | winset w | winkill w
  | grant w | mbreplyRetry w | mbreplyResume w | mbreplyResumev w | mbreplyError w | mbreplyMbok w | mbreplyMberr w | ctxsvThr w
  | ctxsvGang w | ctxldThr w | ctxldGang w | haltStop w | haltEnd w | haltReset w =>
    exact absurd h (not_landsOnly_of_word (le_word (by decide) w))
  | ret | lend | endThread => exact absurd h (by decide)
  -- the other slots and the events
  | _ => exact absurd h Bool.false_ne_true

end Sys2Proof.Machine

namespace Sys2Proof
open Machine Claim

/-- Settles O10: every row of the frame is built of landings, notes of flags, activity counts and port accesses, each of which
only adds landings. -/
theorem registerInstructionsOnlyAddLandings : Obligations.RegisterInstructionsOnlyAddLandings := by
  intro i s t hi ht htrap
  have h := adds_exec_of_landsOnly i s hi t ht htrap
  exact ⟨h.only, h.kept, h.added, h.order⟩

end Sys2Proof

/-! # Turns, homes and replies

The start of a turn, an access at its home, its reply and its end-to-end acknowledgement (R34, R225 to R239, R405). -/

namespace Sys2Proof.Machine
open Sys2Proof.Claim

/-! ## A state in which one thread is replaced -/

/-- Thread (c, k) has become `y`; memory, the agenda and every other thread are as before. -/
structure SetsThread (s t : State) (c k : Nat) (y : Thread) : Prop where
  mine : thread t c k = y
  mem : t.mem = s.mem
  agenda : t.agenda = s.agenda
  others : ∀ d j, (d, j) ≠ (c, k) → thread t d j = thread s d j

theorem SetsThread.refl (s : State) (c k : Nat) : SetsThread s s c k (thread s c k) := ⟨rfl, rfl, rfl, fun _ _ _ => rfl⟩

theorem SetsThread.setThread {s t : State} {c k : Nat} {y : Thread} (h : SetsThread s t c k y) (z : Thread) :
    SetsThread s (setThread t c k z) c k z :=
  ⟨thread_setThread_same _ _ _ _, h.mem, h.agenda, fun d j hd => by
    rw [thread_setThread, if_neg fun he => hd (by rw [he.1, he.2]), h.others d j hd]⟩

theorem SetsThread.modThread {s t : State} {c k : Nat} {y : Thread} (h : SetsThread s t c k y) (f : Thread → Thread) :
    SetsThread s (modThread t c k f) c k (f y) := by
  have hm := h.setThread (f y)
  rw [← h.mine] at hm ⊢
  exact hm

theorem SetsThread.of_cur {s t : State} {c k : Nat} {y : Thread} (h : SetsThread s t c k y) (l : Latch) :
    SetsThread s { t with cur := l } c k y := ⟨h.mine, h.mem, h.agenda, h.others⟩

theorem SetsThread.noIssue {s t : State} {c k : Nat} {y : Thread} (h : SetsThread s t c k y) :
    SetsThread s (noIssue t) c k y := h.of_cur _

/-- The end of a turn. -/
theorem SetsThread.endTurn {s t : State} {c k : Nat} {y : Thread} (h : SetsThread s t c k y) :
    SetsThread s (endTurn t c k) c k (turnPast y) := by
  have hm := h.modThread (fun th => { th with half0 := tickHalf th.half0, half1 := tickHalf th.half1, ttc := (th.ttc + 1) % 2 ^ 64 })
  unfold Machine.endTurn
  exact ⟨(thread_tick _ _ _ _ _ _).trans hm.mine, hm.mem, hm.agenda, fun d j hd => (thread_tick _ _ _ _ _ _).trans (hm.others d j hd)⟩

theorem applyLandings_of_nil {s : State} {c k : Nat} (h : (thread s c k).lands = []) (ttc : Nat) :
    applyLandings s c k ttc = modThread s c k (fun th => { th with lands := th.lands.filter (fun l => ttc < l.due) }) := by
  unfold applyLandings
  dsimp only
  rw [h]
  rfl

/-- With nothing pending, the landings of a turn change nothing. -/
theorem SetsThread.applyLandings {s t : State} {c k : Nat} {y : Thread} (h : SetsThread s t c k y) (hy : y.lands = []) (ttc : Nat) :
    SetsThread s (applyLandings t c k ttc) c k y := by
  rw [applyLandings_of_nil (by rw [h.mine, hy])]
  have hyy : { y with lands := y.lands.filter (fun l => ttc < l.due) } = y := by
    cases y
    subst hy
    rfl
  have hm := h.modThread (fun th => { th with lands := th.lands.filter (fun l => ttc < l.due) })
  rw [hyy] at hm
  exact hm

/-! ## The start of a turn (R34, R160) -/

/-- A thread with its count and its next bundle kept for a debug read (R336). -/
def marked (th : Thread) : Thread := { th with turnTtc := th.ttc, turnBa := th.next }

/-- The state in which a turn begins. -/
def turnState (s : State) (c k : Nat) : State := noIssue (modThread s c k marked)

theorem setsThread_turnState (s : State) (c k : Nat) : SetsThread s (turnState s c k) c k (marked (thread s c k)) :=
  ((SetsThread.refl s c k).modThread marked).noIssue

/-- What a turn does behind its landings. -/
def turnRest (s : State) (c k : Nat) : Out :=
  let th := thread s c k
  if isOut th then .next (endTurn (setThread s c k { th with st := .out }) c k)
  else if th.stopReq && th.packet.isNone && th.st ≠ .halt then .next (endTurn (stopTurn s c k) c k)
  else if th.st = .halt then
    match th.resume with
    | none => .next (endTurn s c k)
    | some a =>
      let s2 := replyAct (leaveHalt s c k a) c k
      .next (if s2.cur.issue then s2 else endTurn s2 c k)
  else
    let s2 := replyAct s c k
    .next (if s2.cur.issue then s2 else endTurn s2 c k)

/-- What a turn does, from its first moment on. -/
def turnFrom (s : State) (c k : Nat) : Out :=
  let th := thread s c k
  if th.st = .vacant || th.st = .saved || th.saving then .next s
  else if th.st = .done then .next (doneTurn s c k)
  else if th.ending || (th.endReq && !isOut th) then .next (doneTurn (becomeDone s c k) c k)
  else turnRest (modThread (applyLandings (replyValue s c k) c k th.ttc) c k (stepPrefetch s c)) c k

theorem execTurnStart_eq {s : State} {c k : Nat} (hargs : s.cur.args = [c, k]) :
    execTurnStart s = turnFrom (turnState s c k) c k := by
  unfold execTurnStart
  simp only [arg, hargs, List.getD_cons_zero, List.getD_cons_succ]
  rfl

section
variable {s : State} {c k : Nat}

/-- A turn of a thread that is not there. -/
theorem turnFrom_of_absent (h : (thread s c k).st = .vacant ∨ (thread s c k).st = .saved ∨ (thread s c k).saving = true) :
    turnFrom s c k = .next s := by
  refine if_pos ?_
  simp only [Bool.or_eq_true, decide_eq_true_eq]
  tauto

/-- A turn of a thread that is DONE. -/
theorem turnFrom_of_done (h : (thread s c k).st = .done) (hs : (thread s c k).saving = false) :
    turnFrom s c k = .next (doneTurn s c k) := by
  unfold turnFrom
  dsimp only
  rw [if_neg (by simp [h, hs]), if_pos h]

/-- A turn of a thread that is there, is not ending and awaits nothing. -/
theorem turnFrom_of_calm (hc : Calm (thread s c k)) (hv : (thread s c k).st ≠ .vacant) (hs : (thread s c k).st ≠ .saved)
    (hd : (thread s c k).st ≠ .done) :
    turnFrom s c k = turnRest (modThread (applyLandings s c k (thread s c k).ttc) c k (stepPrefetch s c)) c k := by
  obtain ⟨-, -, hwait, -, hending, hreq, -, hsaving, -, -⟩ := hc
  have hreply : replyValue s c k = s := by
    unfold replyValue
    dsimp only
    rw [hwait]
  unfold turnFrom
  dsimp only
  rw [if_neg (by simp [hv, hs, hsaving]), if_neg hd, if_neg (by simp [hending, hreq]), hreply]

end

theorem calm_marked {th : Thread} (h : Calm th) : Calm (marked th) := h

theorem landed_stepPrefetch_of_calm {s t : State} {c k : Nat} {y : Thread} (h : SetsThread s t c k y) (hc : Calm y) :
    SetsThread s (modThread (applyLandings t c k y.ttc) c k (stepPrefetch t c)) c k y := by
  obtain ⟨hlands, -, -, -, -, -, -, -, -, hpre⟩ := hc
  have hm := (h.applyLandings hlands y.ttc).modThread (stepPrefetch t c)
  have hidle : stepPrefetch t c y = y := by
    unfold stepPrefetch
    rw [hpre]
  rw [hidle] at hm
  exact hm

/-- The turn of a calm thread: what it does behind its landings, which change nothing. -/
theorem execTurnStart_of_calm {s : State} {c k : Nat} (hargs : s.cur.args = [c, k]) (hc : Calm (thread s c k))
    (hv : (thread s c k).st ≠ .vacant) (hs : (thread s c k).st ≠ .saved) (hd : (thread s c k).st ≠ .done) :
    ∃ t, execTurnStart s = turnRest t c k ∧ SetsThread s t c k (marked (thread s c k)) ∧ t.cur.issue = false := by
  have h := setsThread_turnState s c k
  have hm := h.mine
  have hl := landed_stepPrefetch_of_calm h (calm_marked hc)
  have hlands : (thread (turnState s c k) c k).lands = [] := by
    rw [hm]
    obtain ⟨hlands, -⟩ := hc
    exact hlands
  refine ⟨_, (execTurnStart_eq hargs).trans (turnFrom_of_calm ?_ ?_ ?_ ?_), by rw [hm]; exact hl, by rw [applyLandings_of_nil hlands]; rfl⟩
  all_goals rw [hm]
  · exact hc
  · exact hv
  · exact hs
  · exact hd

/-! ## The rest of a turn, without an issue and with one (R34, R39, R160) -/

section
variable {s t : State} {c k : Nat} {y : Thread}

theorem turnRest_of_out (h : SetsThread s t c k y) (ho : isOut y = true) :
    turnRest t c k = .next (endTurn (setThread t c k { y with st := .out }) c k) := by
  unfold turnRest
  dsimp only
  rw [h.mine, if_pos ho]

theorem turnRest_of_halt (h : SetsThread s t c k y) (hst : y.st = .halt) (hr : y.resume = none) :
    turnRest t c k = .next (endTurn t c k) := by
  unfold turnRest
  dsimp only
  rw [h.mine, if_neg (by simp [isOut, hst]), if_neg (by simp [hst]), if_pos hst, hr]

/-- A thread that awaits nothing and has met no fault fetches its next bundle. -/
theorem turnRest_of_fetch (h : SetsThread s t c k y) (hc : Calm y) (ho : isOut y = false) (hst : y.st ≠ .halt) :
    turnRest t c k = .next (if (fetchNext t c k).cur.issue then fetchNext t c k else endTurn (fetchNext t c k) c k) := by
  obtain ⟨-, hfaults, hwait, -, -, -, hstop, -, -, -⟩ := hc
  have hact : replyAct t c k = fetchNext t c k := by
    unfold replyAct meetFaults
    dsimp only
    rw [h.mine, hwait, hfaults]
  unfold turnRest
  dsimp only
  rw [h.mine, if_neg (by simp [ho]), if_neg (by simp [hstop]), if_neg hst, hact]

theorem findHalf_of_current {x : Half} (hx : halfOf y y.curHalf = some x) : findHalf y x.seg = some y.curHalf := by
  unfold findHalf
  rw [hx]
  simp [holds]

/-- The next bundle stands in the current half, whose expansion is not over. -/
theorem fetchNext_of_waiting (h : SetsThread s t c k y) {x : Half} {bs : List Bundle} (hx : halfOf y y.curHalf = some x)
    (hseg : x.seg = y.next / 32) (hb : x.bundles = some bs) (hleft : x.left ≠ 0) :
    fetchNext t c k = noIssue (setThread (setThread t c k y) c k { y with st := .fetch }) := by
  have hfind : findHalf y (y.next / 32) = some y.curHalf := hseg ▸ findHalf_of_current hx
  unfold fetchNext
  dsimp only
  simp only [h.mine, hfind, Option.isSome_some, Bool.true_or, if_true, hx, hb, hleft, ne_eq, not_false_iff]

/-- It stands there ready. -/
theorem fetchNext_of_ready (h : SetsThread s t c k y) {x : Half} {bs : List Bundle} (hx : halfOf y y.curHalf = some x)
    (hseg : x.seg = y.next / 32) (hb : x.bundles = some bs) (hleft : x.left = 0) (hlen : y.next % 32 < bs.length) (hpin : y.pin = none)
    (hcur : y.curSeg = some (y.next / 32)) :
    ∃ l : Latch, l.issue = true ∧ l.addr = y.next
      ∧ fetchNext t c k = { setThread (setThread t c k y) c k { y with st := .run } with cur := l } := by
  have hfind : findHalf y (y.next / 32) = some y.curHalf := hseg ▸ findHalf_of_current hx
  refine ⟨{ t.cur with addr := y.next, issue := true }, rfl, rfl, ?_⟩
  unfold fetchNext
  dsimp only
  simp only [h.mine, hfind, Option.isSome_some, Bool.true_or, if_true, hx, hb, hleft, ne_eq, not_true, if_false, Nat.not_le.2 hlen, hpin,
    hcur, Bool.false_eq_true, Bool.false_and]
  rfl

/-- A finished thread whose accesses are still under way counts its turns. -/
theorem doneTurn_of_busy (h : SetsThread s t c k y) (hc : Calm y) (hb : y.busy ≠ 0) :
    SetsThread s (doneTurn t c k) c k { y with ttc := (y.ttc + 1) % 2 ^ 64 } ∧ (doneTurn t c k).cur = t.cur := by
  obtain ⟨hlands, hfaults, hwait, -, -, -, -, -, -, -⟩ := hc
  have hreply : doneReply t c k = t := by
    unfold doneReply
    dsimp only
    rw [h.mine, hwait]
  have hnext : nextDoneFault t c k = t := by
    unfold nextDoneFault
    dsimp only
    rw [h.mine, hwait, hfaults]
  have hl := h.applyLandings hlands y.ttc
  have hlane : laneDone (applyLandings t c k y.ttc) c k = false := by
    unfold laneDone
    dsimp only
    rw [hl.mine]
    simp [hb]
  unfold doneTurn
  dsimp only
  rw [hreply, hnext, h.mine, if_neg (by simp [hlane])]
  exact ⟨hl.modThread _, by rw [applyLandings_of_nil (by rw [h.mine, hlands])]; rfl⟩

end

/-! ## A delivery fault that is met (R228) -/

theorem coord_lt {s : State} (hn : s.node < 1024) {c : Nat} (hc : c < 512) : coord s c < 2 ^ 24 := by
  have hsvc : isSvc c = false := by simp [isSvc]; omega
  simp only [coord, endptOf, dieOf, colOf, rowOf, hsvc, Bool.false_eq_true, if_false]
  omega

/-- The fields of word 0 of a message (Table 14.4). -/
theorem field_msgWord0 {cause kind src slot acause ticket : Nat} (hc : cause < 256) (hk : kind < 16) (hsrc : src < 2 ^ 24)
    (hslot : slot < 8) (ha : acause < 256) (ht : ticket < 65536) :
    field (msgWord0 cause kind src slot acause ticket) 56 8 = cause ∧ field (msgWord0 cause kind src slot acause ticket) 52 4 = kind := by
  simp only [field, msgWord0]
  omega

theorem execDeliveryFault_spec {s : State} {c k : Nat} (hargs : s.cur.args = [c, k]) (hc : c < 512) {f : FaultRec} {r : List FaultRec}
    (hf : (thread s c k).faults = f :: r) (hn : s.node < 1024) (hk : k < 8) (hcause : f.cause < 256) :
    let th := thread s c k
    ∃ t, execDeliveryFault s = .next t ∧ t.mem = s.mem
      ∧ { thread t c k with ticket := th.ticket } = { th with st := .block, wait := .delivery, serving := some f, faults := r }
      ∧ ∃ e ∈ t.agenda, e.instr = .inboundMessageWrite ∧ e.args.getD 0 0 = svcFor c ∧ field (e.args.getD 1 0) 56 8 = f.cause
        ∧ field (e.args.getD 1 0) 52 4 = 1 ∧ e.args.getD 2 0 = th.next ∧ e.args.getD 3 0 = f.addr.toNat % 2 ^ 64
        ∧ e.args.getD 4 0 = f.aword := by
  dsimp only
  obtain ⟨tk, due, dr, htk, -, hpost⟩ := postThread_spec (modThread s c k (fun x => { x with st := .block })) c k f.cause 1 0
    [(thread s c k).next, f.addr.toNat % 2 ^ 64, f.aword]
  have hw := field_msgWord0 (slot := k) (acause := 0) hcause (show 1 < 16 by decide)
    (coord_lt (s := modThread s c k (fun x => { x with st := .block })) hn hc) hk (by decide) htk
  refine ⟨postDelivery (modThread s c k (fun x => { x with st := .block })) c k f (thread s c k).next, ?_, postDelivery_mem _ _ _ _ _, ?_, ?_⟩
  · unfold execDeliveryFault
    simp only [arg, hargs, List.getD_cons_zero, List.getD_cons_succ]
    rw [hf]
  · unfold postDelivery
    rw [hpost]
    refine (congrArg (fun x : Thread => { x with ticket := (thread s c k).ticket }) (thread_modThread_same _ c k _)).trans ?_
    have hth := thread_setThread_same (modThread s c k (fun x => { x with st := .block })) c k
      { thread (modThread s c k (fun x => { x with st := .block })) c k with ticket := tk }
    refine (congrArg (fun x : Thread => { x with
      ticket := (thread s c k).ticket, wait := .delivery, serving := some f, faults := x.faults.drop 1 }) hth).trans ?_
    rw [thread_modThread_same, hf]
    rfl
  · unfold postDelivery
    rw [hpost]
    exact ⟨_, (mem_insEvent _ _ _).2 (.inl rfl), rfl, rfl, hw.1, hw.2, rfl, rfl, rfl⟩

theorem execDeliveryFault_of_none {s : State} {c k : Nat} (hargs : s.cur.args = [c, k]) (hf : (thread s c k).faults = []) :
    execDeliveryFault s = .next s := by
  unfold execDeliveryFault
  simp only [arg, hargs, List.getD_cons_zero, List.getD_cons_succ]
  rw [hf]

/-! ## The last turn of an expansion (R34) -/

theorem halfOf_setHalf_same (th : Thread) (h : Nat) (x : Half) : halfOf (setHalf th h x) h = some x := by
  unfold halfOf setHalf
  split <;> rfl

theorem execSegmentExpansionComplete_spec {s : State} {c k h : Nat} (hargs : s.cur.args = [c, k, h]) :
    ∃ t, execSegmentExpansionComplete s = .next t ∧ t.mem = s.mem
      ∧ (∀ x, halfOf (thread s c k) h = some x → halfOf (thread t c k) h = some { x with left := if x.left = 1 then 0 else x.left })
      ∧ ∀ d j, (d, j) ≠ (c, k) → thread t d j = thread s d j := by
  unfold execSegmentExpansionComplete
  simp only [arg, hargs, List.getD_cons_zero, List.getD_cons_succ]
  refine ⟨_, rfl, rfl, fun x hx => ?_, fun d j hd => ?_⟩
  · rw [thread_modThread_same, hx]
    dsimp only
    split
    next h1 => rw [halfOf_setHalf_same]
    next h1 => rw [hx]
  · rw [thread_modThread, if_neg fun he => hd (by rw [he.1, he.2])]

/-! ## Turns (R5, R34, R160) -/

theorem turnOf_of {s t : State} {c k : Nat} {issue : Bool} {y z : Thread} (hex : execTurnStart s = .next t) (h : SetsThread s t c k z)
    (hz : z = { y with turnTtc := (thread s c k).ttc, turnBa := (thread s c k).next }) (hi : t.cur.issue = issue) :
    TurnOf s t c k issue y :=
  ⟨hex, h.mine.trans hz, hi, h.mem, h.agenda, h.others⟩

section
variable {s : State} {c k : Nat} (hargs : s.cur.args = [c, k])
include hargs

theorem turnOf_absent (h : (thread s c k).st = .vacant ∨ (thread s c k).st = .saved ∨ (thread s c k).saving = true) :
    ∃ t, TurnOf s t c k false (thread s c k) := by
  have hs := setsThread_turnState s c k
  refine ⟨_, turnOf_of ((execTurnStart_eq hargs).trans (turnFrom_of_absent ?_)) hs rfl rfl⟩
  rw [hs.mine]
  exact h

theorem turnOf_halt (h : (thread s c k).st = .halt) (hc : Calm (thread s c k)) (hr : (thread s c k).resume = none) :
    ∃ t, TurnOf s t c k false (turnPast (thread s c k)) := by
  obtain ⟨t, hex, hs, hi⟩ := execTurnStart_of_calm hargs hc (by simp [h]) (by simp [h]) (by simp [h])
  exact ⟨_, turnOf_of (hex.trans (turnRest_of_halt hs h hr)) hs.endTurn rfl hi⟩

theorem turnOf_out (h : (thread s c k).st = .run ∨ (thread s c k).st = .out) (hc : Calm (thread s c k))
    (ho : (thread s c k).ttc < (thread s c k).outUntil) : ∃ t, TurnOf s t c k false (turnPast { thread s c k with st := .out }) := by
  have hne : ∀ x, x ≠ .run → x ≠ .out → (thread s c k).st ≠ x := fun x h1 h2 he => h.elim (fun h => h1 (he ▸ h)) (fun h => h2 (he ▸ h))
  obtain ⟨t, hex, hs, hi⟩ := execTurnStart_of_calm hargs hc (hne _ (by decide) (by decide)) (hne _ (by decide) (by decide))
    (hne _ (by decide) (by decide))
  have hout : isOut (marked (thread s c k)) = true := by
    rcases h with h | h
    · simp [isOut, marked, h, ho]
    · simp [isOut, marked, h, ho]
  exact ⟨_, turnOf_of (hex.trans (turnRest_of_out hs hout)) (hs.setThread _).endTurn rfl hi⟩

theorem turnOf_done (h : (thread s c k).st = .done) (hc : Calm (thread s c k)) (hb : (thread s c k).busy ≠ 0) :
    ∃ t, TurnOf s t c k false { thread s c k with ttc := ((thread s c k).ttc + 1) % 2 ^ 64 } := by
  have hs := setsThread_turnState s c k
  obtain ⟨-, -, -, -, -, -, -, hsaving, -, -⟩ := id hc
  obtain ⟨hdone, hcur⟩ := doneTurn_of_busy hs hc hb
  have hex := (execTurnStart_eq hargs).trans (turnFrom_of_done (by rw [hs.mine]; exact h) (by rw [hs.mine]; exact hsaving))
  exact ⟨_, turnOf_of hex hdone rfl (congrArg Latch.issue hcur)⟩

/-- The next bundle stands in the current half: its expansion is still under way, or it issues. -/
theorem turnOf_fetch {x : Half} {bs : List Bundle} (h : (thread s c k).st = .run ∨ (thread s c k).st = .fetch ∨ (thread s c k).st = .block)
    (hc : Calm (thread s c k)) (ho : (thread s c k).outUntil ≤ (thread s c k).ttc)
    (hx : halfOf (thread s c k) (thread s c k).curHalf = some x) (hseg : x.seg = (thread s c k).next / 32) (hb : x.bundles = some bs)
    (hcur : (thread s c k).curSeg = some ((thread s c k).next / 32)) :
    (x.left ≠ 0 → ∃ t, TurnOf s t c k false (turnPast { thread s c k with st := .fetch }))
      ∧ (x.left = 0 → (thread s c k).next % 32 < bs.length →
        ∃ t, TurnOf s t c k true { thread s c k with st := .run } ∧ t.cur.addr = (thread s c k).next) := by
  have hne : ∀ z, z ≠ .run → z ≠ .fetch → z ≠ .block → (thread s c k).st ≠ z := fun z h1 h2 h3 he => by
    rcases h with h | h | h
    · exact h1 (he ▸ h)
    · exact h2 (he ▸ h)
    · exact h3 (he ▸ h)
  obtain ⟨-, -, -, -, -, -, -, -, hpin, -⟩ := id hc
  obtain ⟨t, hex, hs, hi⟩ := execTurnStart_of_calm hargs hc (hne _ (by decide) (by decide) (by decide))
    (hne _ (by decide) (by decide) (by decide)) (hne _ (by decide) (by decide) (by decide))
  have hout : isOut (marked (thread s c k)) = false := by simp [isOut, marked, Nat.not_lt.2 ho]
  have hrest := turnRest_of_fetch hs hc hout (hne _ (by decide) (by decide) (by decide))
  refine ⟨fun hleft => ?_, fun hleft hlen => ?_⟩
  · rw [fetchNext_of_waiting hs hx hseg hb hleft] at hrest
    exact ⟨_, turnOf_of (hex.trans hrest) ((hs.setThread _).setThread _).noIssue.endTurn rfl rfl⟩
  · obtain ⟨l, hl, haddr, hfetch⟩ := fetchNext_of_ready hs hx hseg hb hleft hlen hpin hcur
    rw [hfetch, if_pos hl] at hrest
    exact ⟨_, turnOf_of (hex.trans hrest) (((hs.setThread _).setThread _).of_cur l) rfl hl, haddr⟩

end

end Sys2Proof.Machine

namespace Sys2Proof.Machine
open Sys2Proof.Claim

/-! ## Plain memory (R217, R268) -/

/-- No page of `n` bytes from `k` on is compressed, and none of them is a race detector's. -/
def PlainAt (s : State) (k n : Nat) : Prop :=
  ∀ x, k ≤ x → x < k + n → tget plainPage s.pages (x / 4096) = plainPage ∧ ∀ p ∈ s.gangs, raceByte s x p.2 = none

/-- The same of another state with the same pages, gangs and node. -/
theorem PlainAt.of_cores {s : State} {k n : Nat} (h : PlainAt s k n) (cs : Tab Core) : PlainAt { s with cores := cs } k n := h

theorem pageRec_of_plain {s : State} {a : Nat} (h : tget plainPage s.pages (a / 4096) = plainPage) : pageRec s a = plainPage := by
  unfold pageRec
  rw [h, ite_self]

theorem recForm_plainPage : recForm plainPage = 0 := by decide

section
variable {s : State} {k n : Nat} (hp : PlainAt s k n)
include hp

theorem PlainAt.memByte {x : Nat} (h1 : k ≤ x) (h2 : x < k + n) : memByte s x = (getByte s x).toNat := by
  have hnone : s.gangs.filterMap (fun g => raceByte s x g.2) = [] := List.filterMap_eq_nil_iff.2 (hp x h1 h2).2
  unfold Machine.memByte
  rw [hnone]
  rfl

theorem PlainAt.readByte {x : Nat} (h1 : k ≤ x) (h2 : x < k + n) (raw : Bool) : readByte s raw x = (getByte s x).toNat := by
  unfold Machine.readByte
  dsimp only
  rw [pageRec_of_plain (hp x h1 h2).1, if_pos recForm_plainPage, hp.memByte h1 h2]

/-- Nothing of the range has to be expanded. -/
theorem PlainAt.expandRange (hn : 0 < n) : expandRange s k n = s := by
  have hfix : ∀ (l : List (Nat × Nat)), (∀ p ∈ l, expandPage s (4096 * p.1) = s) → l.foldl (fun x p => expandPage x (4096 * p.1)) s = s := by
    intro l
    induction l with
    | nil => exact fun _ => rfl
    | cons p r ih =>
      intro h
      rw [List.foldl_cons, h p List.mem_cons_self]
      exact ih fun q hq => h q (List.mem_cons_of_mem p hq)
  refine hfix _ fun p hm => ?_
  have hpage : tget plainPage s.pages (4096 * p.1 / 4096) = plainPage := by
    have hm2 := (List.mem_filter.1 hm).2
    simp only [Bool.and_eq_true, decide_eq_true_eq] at hm2
    have hx := (hp (max k (4096 * p.1)) (by omega) (by omega)).1
    rwa [show max k (4096 * p.1) / 4096 = 4096 * p.1 / 4096 by omega] at hx
  unfold expandPage
  dsimp only
  rw [pageRec_of_plain hpage, if_pos (.inl recForm_plainPage)]

end

/-! ## Numbers of bytes (R3) -/

theorem leNat_map_range (n : Nat) (g : Nat → Nat) (hg : ∀ i, g i < 256) :
    leNat ((List.range n).map g) = ((List.range n).map (fun i => g i * 256 ^ i)).sum := by
  induction n generalizing g with
  | zero => rfl
  | succ n ih =>
    have hrest : ((List.range n).map ((fun i => g i * 256 ^ i) ∘ Nat.succ)).sum = 256 * leNat ((List.range n).map (g ∘ Nat.succ)) := by
      rw [ih (g ∘ Nat.succ) fun i => hg _, ← List.sum_map_mul_left]
      refine congrArg List.sum (List.map_congr_left fun i _ => ?_)
      simp only [Function.comp, Nat.succ_eq_add_one, Nat.pow_succ]
      ring
    have hcons : leNat (g 0 :: (List.range n).map (g ∘ Nat.succ)) = g 0 % 256 + 256 * leNat ((List.range n).map (g ∘ Nat.succ)) := rfl
    rw [List.range_succ_eq_map, List.map_cons, List.map_cons, List.map_map, List.map_map, hcons, List.sum_cons, hrest,
      Nat.mod_eq_of_lt (hg 0), Nat.pow_zero, Nat.mul_one]

/-- What stands in memory after the bytes of a number have been written is the number, modulo its width. -/
theorem sum_leBytes (n x : Nat) : ((List.range n).map (fun i => x / 256 ^ i % 256 * 256 ^ i)).sum = x % 256 ^ n := by
  induction n with
  | zero => simp [Nat.mod_one]
  | succ n ih =>
    rw [List.range_succ, List.map_append, List.sum_append, ih, Nat.pow_succ, Nat.mod_mul]
    simp [Nat.mul_comm]

/-! ## A home that turns nothing away (R206, R216) -/

theorem eccUnit_of_dram {a : Nat} (h : a < 2 ^ 48) : eccUnit a = 64 := by
  unfold eccUnit localOf
  rw [if_neg (show ¬ (2 ^ 60 ≤ a ∧ a < 2 ^ 62) by omega), if_neg (by omega)]

/-- A line of a clean plain range lies in a plain page and is not poisoned: it begins in the range, or is the first byte's. -/
theorem line_of_clean {s : State} {k n : Nat} (hp : PlainAt s k n) (hn : 0 < n) (hk : k < 2 ^ 48) (hc : Clean s k n) {u : Nat}
    (hu : u ∈ unitsOf k n) : recForm (pageRec s u) = 0 ∧ isPoison s u = false := by
  obtain ⟨j, hj, rfl⟩ := List.mem_map.1 hu
  have hjl := List.mem_range.1 hj
  rw [eccUnit_of_dram hk] at hjl ⊢
  by_cases hlow : k ≤ 64 * (k / 64 + j)
  · have hhigh : 64 * (k / 64 + j) < k + n := by omega
    refine ⟨?_, hc _ hlow hhigh⟩
    rw [pageRec_of_plain (hp _ hlow hhigh).1]
    exact recForm_plainPage
  · have hu : 64 * (k / 64 + j) = 64 * (k / 64) := by omega
    rw [hu]
    refine ⟨?_, ?_⟩
    · have hpage := (hp k (Nat.le_refl k) (by omega)).1
      rw [show k / 4096 = 64 * (k / 64) / 4096 by omega] at hpage
      rw [pageRec_of_plain hpage]
      exact recForm_plainPage
    · have hkc := hc k (Nat.le_refl k) (by omega)
      unfold isPoison at hkc ⊢
      rw [eccUnit_of_dram hk] at hkc
      rw [eccUnit_of_dram (show 64 * (k / 64) < 2 ^ 48 by omega), show 64 * (k / 64) / 64 * 64 = k / 64 * 64 by omega]
      exact hkc

theorem poisonCause_of_clean {s : State} {f : Flight} (hp : PlainAt s f.key (flightLen f)) (hn : 0 < flightLen f) (hk : f.key < 2 ^ 48)
    (hc : Clean s f.key (flightLen f)) : poisonCause s f = 0 := by
  unfold poisonCause
  dsimp only
  rw [if_neg]
  simp only [List.any_eq_true, not_exists, not_and]
  intro u hu
  obtain ⟨hform, hpoison⟩ := line_of_clean hp hn hk hc hu
  have hunit : unitPoison s u = false := by
    unfold unitPoison
    rw [hform]
    exact hpoison
  simp [hunit]

theorem isBeyond_of_dram {k : Nat} (h : k < 2 ^ 48) : isBeyond k = false := by
  simp only [isBeyond, Bool.or_eq_false_iff, Bool.and_eq_false_iff, decide_eq_false_iff_not]
  omega

theorem hasFe_of_dram {f : Flight} (h : f.key < 2 ^ 48) (s : State) : hasFe s f = true := by
  unfold hasFe
  rw [isBeyond_of_dram h]
  rfl

theorem grantCause_of_dram {f : Flight} (hk : f.key < 2 ^ 48) (hh : f.home < 4) (s : State) : grantCause s f = 0 := by
  unfold grantCause
  dsimp only
  rw [if_neg (by omega), hasFe_of_dram hk, if_neg (by simp)]

/-! ## An access on its way to a plain page -/

theorem isPeer_of_core {f : Flight} (h : f.core < 528) : isPeer f = false := by
  simp only [isPeer, Bool.and_eq_false_iff, decide_eq_false_iff_not]
  omega

theorem conduitDown_of_none {s : State} (h : s.links.failed = []) (a b : Nat) : conduitDown s a b = false := by
  unfold conduitDown
  rw [h]
  simp

section
variable {s : State} {id : Nat} {f : Flight} (ha : Arrives s id f)
include ha

theorem Arrives.plain : PlainAt s f.key f.size := by
  obtain ⟨-, -, -, hplain, -⟩ := ha
  exact hplain

/-- It reaches its home, as it left its core or sent once more. -/
theorem arrive_of_arrives : arrive s id { f with st := .sent } = serveHome s id { f with st := .sent } := by
  obtain ⟨-, -, hheld, -, hfailed, -, hkey, -, -, -, -, hgroup, -, harr, hparted, -, -, -⟩ := ha
  have hheld' : heldBack s id { f with st := .sent } = false := hheld
  have hstream : streamHeld s { f with st := .sent } = false := by
    simp only [streamHeld, Bool.and_eq_false_iff, decide_eq_false_iff_not]
    omega
  unfold arrive
  dsimp only
  rw [if_neg (by simp [hparted]), hheld', hstream, isBeyond_of_dram hkey, conduitDown_of_none hfailed]
  simp

theorem exec_of_arrives {i : Instr} (hi : i = .homeServeAccess ∧ f.st = .sent ∨ i = .retryRefusalResend ∧ f.st = .refused) :
    exec i s = .next (serveHome s id { f with st := .sent }) := by
  rw [← arrive_of_arrives ha]
  obtain ⟨hargs, hf, -, -, -, -, -, -, hcore, -⟩ := ha
  have hflight : flight s (arg s 0) = some f := by
    unfold flight arg
    rw [hargs]
    exact hf
  have harg : arg s 0 = id := by
    unfold arg
    rw [hargs]
    rfl
  rcases hi with ⟨rfl, hst⟩ | ⟨rfl, hst⟩
  · have hsame : { f with st := .sent } = f := by rw [← hst]
    change execHomeServeAccess s = _
    unfold execHomeServeAccess
    rw [hflight, harg, hsame]
    exact congrArg Host.Outcome.next (if_pos hst)
  · change execRetryRefusalResend s = _
    unfold execRetryRefusalResend
    rw [hflight, harg]
    dsimp only
    rw [hst, isPeer_of_core hcore]
    rfl

end

/-- Its home serves it as it performs, if it needs no condition or its words meet it. -/
theorem serveHome_of_good {s : State} {id : Nat} {f : Flight} (hp : PlainAt s f.key (flightLen f)) (hn : 0 < flightLen f)
    (hk : f.key < 2 ^ 48) (hh : f.home < 4) (hc : Clean s f.key (flightLen f)) :
    serveHome s id f = if conditionHolds s f then wakeAfter (performFlight s id f) f
      else if (retryOf s f.home).length < retryLimit f.home then
        cancelIfSaving (setRetry (setFlight s id { f with st := .waiting }) f.home (retryOf s f.home ++ [id])) id f
      else holdBack s id f := by
  have hexp : (if f.mode ≠ 0 then expandRange s f.key (flightLen f) else s) = s := by rw [hp.expandRange hn, ite_self]
  unfold serveHome
  dsimp only
  rw [hexp, grantCause_of_dram hk hh, poisonCause_of_clean hp hn hk hc, ite_self, ite_self, if_neg (by simp), if_neg (by omega), if_neg (by simp)]

/-! ## Performing -/

/-- What an access that has come to its home finds there: plain memory without poison, and a source whose gang does not detect
races. -/
structure AtHome (s : State) (f : Flight) : Prop where
  plain : PlainAt s f.key f.size
  size : 0 < f.size
  key : f.key < 2 ^ 48
  home : f.home < 4
  clean : Clean s f.key f.size
  race : ∀ g, gangOf s f.core = some g → g.raceMode = 0
  core : f.core < 528
  who : f.who < 8
  raw : f.raw = false
  group : f.group = none
  early : f.early = false
  arrived : f.arrived = false
  gone : f.gone = false
  cause : f.cause = 0
  oflags : f.oflags = 0

theorem atHome_of_arrives {s : State} {id : Nat} {f : Flight} (ha : Arrives s id f) (hn : 0 < f.size) (hc : Clean s f.key f.size) :
    AtHome s { f with st := .sent } := by
  obtain ⟨-, -, -, hplain, -, hhome, hkey, hrace, hcore, hwho, hraw, hgroup, hearly, harr, -, hgone, hcause, hoflags⟩ := ha
  exact ⟨hplain, hn, hkey, hhome, hc, hrace, hcore, hwho, hraw, hgroup, hearly, harr, hgone, hcause, hoflags⟩

/-- The count of what an access costs is the core's. -/
theorem tickHome_eq (s : State) (src key len : Nat) : ∃ cs, tickHome s src key len = { s with cores := cs } := by
  unfold tickHome
  split
  · split
    · exact ⟨s.cores, rfl⟩
    · exact ⟨_, rfl⟩
  · split
    · exact ⟨_, rfl⟩
    · exact ⟨s.cores, rfl⟩

theorem raceCheck_of_off {s : State} {c : Nat} (h : ∀ g, gangOf s c = some g → g.raceMode = 0) (kind idx va : Nat)
    (ranges : List (Nat × Nat)) (wr : Bool) : raceCheck s c kind idx va ranges wr = (s, false) := by
  unfold raceCheck
  cases hg : (Machine.core s c).gang with
  | none => rfl
  | some n =>
    have hmode : (gang s n).raceMode = 0 := by
      unfold gang
      rw [tget_eq_tfind]
      cases hf : tfind s.gangs n with
      | none => rfl
      | some g => exact h g (by unfold gangOf; rw [hg]; exact hf)
    exact if_pos (.inl hmode)

@[simp] theorem conduitPacket_flights (s : State) (a b vc src addr len : Nat) :
    (conduitPacket s a b vc src addr len).flights = s.flights := by
  unfold conduitPacket
  exact foldl_keeps State.flights _ _ (fun _ _ _ => by rfl) s

@[simp] theorem conduitPacket_empty (s : State) (a b vc src addr len : Nat) :
    (conduitPacket s a b vc src addr len).empty = s.empty := by
  unfold conduitPacket
  exact foldl_keeps State.empty _ _ (fun _ _ _ => by rfl) s

/-- An answer of a home in the package: the outcome stands in the access and its reply is on its way. -/
theorem answer_of_home {s : State} {id : Nat} {f : Flight} (he : f.early = false) (hg : f.group = none) (cause value flags : Nat) :
    tfind (answer s id f cause value flags).flights id = some { f with st := .served, cause := cause, value := value, oflags := flags }
      ∧ (∃ e ∈ (answer s id f cause value flags).agenda, e.instr = .farReplyArrival ∧ e.args = [id])
      ∧ (answer s id f cause value flags).empty = s.empty := by
  unfold answer
  rw [if_neg (by simp [he])]
  dsimp only
  rw [if_neg (by simp [hg]), later_flights, later_empty, conduitPacket_flights, conduitPacket_empty]
  refine ⟨tfind_tset_same _ _ _, ?_, rfl⟩
  obtain ⟨due, -, hag⟩ := later_agenda (conduitPacket (setFlight s id { f with st := .served, cause := cause, value := value, oflags := flags })
      (servedDie f) (srcDie f) 1 (homeEndpt s f.home) f.key (flightLen f)) [] .farReplyArrival [id]
  rw [hag]
  exact ⟨_, (mem_insEvent _ _ _).2 (.inl rfl), rfl, rfl⟩

/-! ## Bytes that an agent writes (R268) -/

@[simp] theorem putMem_mem (s : State) (k : Nat) (l : List Nat) : (putMem s k l).mem = (putBytes s k l).mem := by
  unfold putMem
  dsimp only
  split <;> rfl

theorem putBytes_empty (s : State) (k : Nat) (l : List Nat) : (putBytes s k l).empty = s.empty := by
  induction l generalizing s k with
  | nil => rfl
  | cons b r ih => exact ih _ _

@[simp] theorem putMem_empty (s : State) (k : Nat) (l : List Nat) : (putMem s k l).empty = s.empty := by
  unfold putMem
  dsimp only
  split
  · exact putBytes_empty s k l
  · exact putBytes_empty s k l

theorem putBytes_mem_of_cores (s : State) (cs : Tab Core) (k : Nat) (l : List Nat) :
    (putBytes { s with cores := cs } k l).mem = (putBytes s k l).mem := by
  induction l generalizing s k with
  | nil => rfl
  | cons b r ih => exact ih (putByte s k (BitVec.ofNat 8 b)) (k + 1)

section
variable {s : State} {f : Flight} (h : AtHome s f)
include h

theorem AtHome.fromTephra : fromTephra f = false := by
  unfold Machine.fromTephra
  rw [isPeer_of_core h.core]
  have := h.who
  simp
  omega

/-- It performs at once and is answered. -/
theorem AtHome.serveHome_performs (hlen : flightLen f = f.size) (hm : f.mode = 0) (hs : f.op ≠ .save) (hv : f.op ≠ .vat) (id : Nat) :
    ∃ cs, serveHome s id f = answer (performAccess { s with cores := cs } f).1 id f (performAccess { s with cores := cs } f).2.1
      (performAccess { s with cores := cs } f).2.2.1 (performAccess { s with cores := cs } f).2.2.2 := by
  have hcond : conditionHolds s f = true := by
    unfold conditionHolds
    rw [hasFe_of_dram h.key, hm]
    rfl
  have hwake : ∀ x, wakeAfter x f = x := fun x => by
    unfold wakeAfter changedWords
    rw [hm, h.fromTephra]
    rfl
  obtain ⟨cs, hcs⟩ := tickHome_eq s f.core f.key (flightLen f)
  refine ⟨cs, ?_⟩
  rw [serveHome_of_good (by rw [hlen]; exact h.plain) (by rw [hlen]; exact h.size) h.key h.home (by rw [hlen]; exact h.clean),
    if_pos hcond, hwake]
  have hsplit : splitElems s f = (s, f.elems, []) := by
    unfold splitElems
    rw [decide_eq_false hv]
    rfl
  have hperf : perform s f = ((performAccess { s with cores := cs } f).1,
      (if (performAccess { s with cores := cs } f).2.1 ≠ 0 then (performAccess { s with cores := cs } f).2.1 else 0),
      (performAccess { s with cores := cs } f).2.2.1, (performAccess { s with cores := cs } f).2.2.2) := by
    unfold perform
    rw [isPeer_of_core h.core]
    simp only [Bool.false_eq_true, if_false, raceCheck_of_off h.race, hcs]
  have hcause : ∀ n : Nat, (if n ≠ 0 then n else 0) = n := fun n => by split <;> omega
  unfold performFlight
  rw [decide_eq_false hs, hsplit]
  simp only [Bool.false_and, Bool.false_eq_true, if_false]
  rw [hperf, h.cause, h.oflags]
  simp only [ne_eq, not_true, if_false, if_true, flagOr, Nat.zero_or]
  generalize performAccess { s with cores := cs } f = p
  exact congrArg (fun c => answer p.1 id f c p.2.2.1 p.2.2.2) (hcause p.2.1)

/-- Nothing has to be expanded for it. -/
theorem AtHome.expand (hlen : flightLen f = f.size) (cs : Tab Core) (p : Prop) [Decidable p] :
    (if p then expandRange { s with cores := cs } f.key (flightLen f) else { s with cores := cs }) = { s with cores := cs } := by
  rw [hlen, (h.plain.of_cores cs).expandRange h.size, ite_self]

theorem AtHome.setWritten (s' : State) (k n : Nat) : setWritten s' f k n = s' := by
  unfold Machine.setWritten
  rw [h.fromTephra]
  rfl

/-- A load returns the bytes. -/
theorem AtHome.performAccess_ld (hop : f.op = .ld) (hm : f.mode = 0) (cs : Tab Core) :
    performAccess { s with cores := cs } f = ({ s with cores := cs }, 0, numberAt s f.key f.size, 0) := by
  have hvalue : leNat (readPlain { s with cores := cs } f.raw f.key f.size) = numberAt s f.key f.size := by
    have hbytes : readPlain { s with cores := cs } f.raw f.key f.size = (List.range f.size).map (fun i => (getByte s (f.key + i)).toNat) :=
      List.map_congr_left fun i hi => (h.plain.of_cores cs).readByte (by omega) (by have := List.mem_range.1 hi; omega) f.raw
    rw [hbytes, leNat_map_range _ _ fun i => (getByte s (f.key + i)).isLt]
    rfl
  unfold performAccess
  dsimp only
  rw [h.expand (by unfold flightLen; rw [hop])]
  simp only [hop, hm, hvalue, hasFe_of_dram h.key]
  rfl

/-- A store writes its bytes. -/
theorem AtHome.performAccess_st (hop : f.op = .st) (hm : f.mode = 0) (cs : Tab Core) :
    ∃ t, performAccess { s with cores := cs } f = (t, 0, 0, 0) ∧ t.mem = (putBytes s f.key f.data).mem ∧ t.empty = s.empty := by
  have hpoison : ∀ (x : State) (a n : Nat), (clearPoison x a n).empty = x.empty := fun x a n => by
    unfold clearPoison
    exact foldl_keeps State.empty _ _ (fun _ _ _ => by rfl) x
  refine ⟨clearPoison (putMem { s with cores := cs } f.key f.data) f.key (flightLen f), ?_, ?_, ?_⟩
  · unfold performAccess
    dsimp only
    rw [h.expand (by unfold flightLen; rw [hop])]
    simp only [hop, hm, hasFe_of_dram h.key, h.setWritten]
    rfl
  · rw [clearPoison_mem, putMem_mem, putBytes_mem_of_cores]
  · rw [hpoison, putMem_empty]

/-- An atomic sum writes the sum and returns what stood there. -/
theorem AtHome.performAccess_atom (hop : f.op = .atom) (hcode : f.code ≤ 1) (haop : f.aop = 0)
    (hsize : f.size = if f.code = 0 then 4 else 8) (cs : Tab Core) :
    ∃ t, performAccess { s with cores := cs } f = (t, 0, numberAt s f.key f.size, 0)
      ∧ t.mem = (putBytes s f.key (leBytes f.size ((numberAt s f.key f.size + f.operand.body) % 2 ^ (8 * f.size)))).mem := by
  have hbytes : tyBytes f.code = f.size := by
    rw [hsize]
    unfold tyBytes
    split <;> split <;> omega
  have hfmt : tyFmt f.code = none := by
    unfold tyFmt
    interval_cases f.code <;> rfl
  have hold : memNat { s with cores := cs } f.key f.size = numberAt s f.key f.size :=
    congrArg List.sum (List.map_congr_left fun i hi => by
      rw [(h.plain.of_cores cs).memByte (by omega) (by have := List.mem_range.1 hi; omega)]
      rfl)
  have hstep : ∀ (w old : Nat) (p : Cvp) (x : Held), atomStep p 0 w none old x = ((old + x.body) % 2 ^ w, 0) := fun w old p x => by
    simp [atomStep]
  refine ⟨putMem { s with cores := cs } f.key (leBytes f.size ((numberAt s f.key f.size + f.operand.body) % 2 ^ (8 * f.size))), ?_, ?_⟩
  · unfold performAccess
    dsimp only
    rw [h.expand (by unfold flightLen; rw [hop])]
    simp only [hop, haop, hbytes, hfmt, hold, hstep, h.setWritten]
    rfl
  · rw [putMem_mem, putBytes_mem_of_cores]

/-! ## Waiting for a full/empty bit (R238, R239) -/

/-- A word of the range that is empty is found by the walk over its words. -/
theorem AtHome.conditionHolds_of_empty (hm : f.mode = 1 ∨ f.mode = 2) {x : Nat} (h1 : f.key ≤ x) (h2 : x < f.key + f.size)
    (hx : isFull s x = false) : conditionHolds s f = false := by
  have hmem : 4 * (x / 4) ∈ wordsOf f.key f.size :=
    List.mem_map.2 ⟨x / 4 - f.key / 4, List.mem_range.2 (by omega), by omega⟩
  have hpage : tget plainPage s.pages (4 * (x / 4) / 4096) = plainPage := by
    have hx := (h.plain x h1 h2).1
    rwa [show x / 4096 = 4 * (x / 4) / 4096 by omega] at hx
  have hword : wordFull s (4 * (x / 4)) = false := by
    unfold wordFull
    dsimp only
    rw [pageRec_of_plain hpage, if_pos (.inl recForm_plainPage)]
    unfold isFull at hx ⊢
    rwa [show 4 * (x / 4) / 4 = x / 4 by omega]
  have hall : (wordsOf f.key f.size).all (wordFull s) = false :=
    List.all_eq_false.2 ⟨_, hmem, by rw [hword]; decide⟩
  unfold conditionHolds
  rw [hasFe_of_dram h.key]
  rcases hm with hm | hm
  · rw [hm]; exact hall
  · rw [hm]; exact hall

/-- No save cancels it as it begins to wait. -/
theorem AtHome.cancelIfSaving {t : State} (ht : thread t f.core f.who = thread s f.core f.who)
    (hs : (thread s f.core f.who).saving = false) (hd : (thread s f.core f.who).st ≠ .done) (id : Nat) :
    cancelIfSaving t id f = t := by
  unfold Machine.cancelIfSaving
  rw [isPeer_of_core h.core, h.gone, if_neg (by decide), if_neg (by decide), if_pos h.who]
  dsimp only
  rw [ht, hs]
  simp [hd]

theorem AtHome.serveHome_waits (hop : f.op = .ld) (hm : f.mode = 1 ∨ f.mode = 2) {x : Nat} (h1 : f.key ≤ x) (h2 : x < f.key + f.size)
    (hx : isFull s x = false) (hs : (thread s f.core f.who).saving = false) (hd : (thread s f.core f.who).st ≠ .done) (id : Nat) :
    serveHome s id f = if (tget [] s.retry f.home).length < 4096 then
        setRetry (setFlight s id { f with st := .waiting }) f.home (tget [] s.retry f.home ++ [id])
      else later (setFlight s id { f with st := .refused }) [] .retryRefusalResend [id] := by
  have hlen : flightLen f = f.size := by unfold flightLen; rw [hop]
  have hlimit : retryLimit f.home = 4096 := by
    have := h.home
    unfold retryLimit
    rw [if_neg (by omega)]
  have hst : ({ f with st := .refused, arrived := false } : Flight) = { f with st := .refused } := by rw [← h.arrived]
  rw [serveHome_of_good (by rw [hlen]; exact h.plain) (by rw [hlen]; exact h.size) h.key h.home (by rw [hlen]; exact h.clean),
    h.conditionHolds_of_empty hm h1 h2 hx, if_neg (by decide), hlimit]
  unfold holdBack
  rw [hst, h.cancelIfSaving (by rfl) hs hd, h.cancelIfSaving (by rfl) hs hd]
  rfl

end

/-! ## What a home does with an access that arrives -/

theorem stores_of_mem {s t : State} {k : Nat} {l : List Nat} (h : t.mem = (putBytes s k l).mem) : Stores s t k l := by
  intro x
  rw [getByte_of_mem h, getByte_putBytes]
  split
  · exact fun _ => rfl
  · rfl

/-- A number that has been written is read back. -/
theorem numberAt_putBytes {s t : State} {k n v : Nat} (h : t.mem = (putBytes s k (leBytes n v)).mem) : numberAt t k n = v % 256 ^ n := by
  have hlen : (leBytes n v).length = n := by simp [leBytes]
  rw [← sum_leBytes]
  refine congrArg List.sum (List.map_congr_left fun i hi => ?_)
  have hi := List.mem_range.1 hi
  have hget : (leBytes n v).getD i 0 = v / 256 ^ i % 256 := by
    rw [List.getD_eq_getElem _ _ (by omega)]
    simp [leBytes]
  rw [getByte_of_mem h, getByte_putBytes, if_pos (by omega), Nat.add_sub_cancel_left, hget, BitVec.toNat_ofNat, Nat.mod_mod]

section
variable {s : State} {id : Nat} {f : Flight} (ha : Arrives s id f) (hn : 0 < f.size) (hc : Clean s f.key f.size) {i : Instr}
  (hi : i = .homeServeAccess ∧ f.st = .sent ∨ i = .retryRefusalResend ∧ f.st = .refused)
include ha hn hc hi

theorem home_ld (hop : f.op = .ld) (hm : f.mode = 0) :
    ∃ t, exec i s = .next t ∧ t.mem = s.mem ∧ t.empty = s.empty ∧ Answers t id f (numberAt s f.key f.size) := by
  have h := atHome_of_arrives ha hn hc
  obtain ⟨cs, hserve⟩ := h.serveHome_performs (by simp only [flightLen, hop]) hm (by simp [hop]) (by simp [hop]) id
  rw [h.performAccess_ld hop hm cs] at hserve
  obtain ⟨hf, hag, hempty⟩ := answer_of_home (s := { s with cores := cs }) (id := id) h.early h.group 0 (numberAt s f.key f.size) 0
  exact ⟨_, (exec_of_arrives ha hi).trans (congrArg Host.Outcome.next hserve), answer_mem _ _ _ _ _ _, hempty, hf, hag⟩

theorem home_st (hop : f.op = .st) (hm : f.mode = 0) :
    ∃ t, exec i s = .next t ∧ Stores s t f.key f.data ∧ t.empty = s.empty ∧ Answers t id f 0 := by
  have h := atHome_of_arrives ha hn hc
  obtain ⟨cs, hserve⟩ := h.serveHome_performs (by simp only [flightLen, hop]) hm (by simp [hop]) (by simp [hop]) id
  obtain ⟨t, ht, hmem, he⟩ := h.performAccess_st hop hm cs
  rw [ht] at hserve
  obtain ⟨hf, hag, hempty⟩ := answer_of_home (s := t) (id := id) h.early h.group 0 0 0
  exact ⟨_, (exec_of_arrives ha hi).trans (congrArg Host.Outcome.next hserve), stores_of_mem ((answer_mem _ _ _ _ _ _).trans hmem),
    hempty.trans he, hf, hag⟩

theorem home_atom (hop : f.op = .atom) (hm : f.mode = 0) (hcode : f.code ≤ 1) (haop : f.aop = 0)
    (hsize : f.size = if f.code = 0 then 4 else 8) :
    ∃ t, exec i s = .next t ∧ numberAt t f.key f.size = (numberAt s f.key f.size + f.operand.body) % 2 ^ (8 * f.size)
      ∧ (∀ x, ¬ (f.key ≤ x ∧ x < f.key + f.size) → getByte t x = getByte s x) ∧ Answers t id f (numberAt s f.key f.size) := by
  have h := atHome_of_arrives ha hn hc
  obtain ⟨cs, hserve⟩ := h.serveHome_performs (by simp only [flightLen, hop]) hm (by simp [hop]) (by simp [hop]) id
  obtain ⟨t, ht, hmem⟩ := h.performAccess_atom hop hcode haop hsize cs
  rw [ht] at hserve
  have hm2 := (answer_mem t id { f with st := .sent } 0 (numberAt s f.key f.size) 0).trans hmem
  obtain ⟨hf, hag, -⟩ := answer_of_home (s := t) (id := id) h.early h.group 0 (numberAt s f.key f.size) 0
  refine ⟨_, (exec_of_arrives ha hi).trans (congrArg Host.Outcome.next hserve), ?_, fun x hx => ?_, hf, hag⟩
  · refine (numberAt_putBytes hm2).trans ?_
    rw [show (256 : Nat) = 2 ^ 8 from rfl, ← Nat.pow_mul, Nat.mod_mod]
  · have hlen : ∀ v, (leBytes f.size v).length = f.size := fun v => by simp [leBytes]
    rw [getByte_of_mem hm2, getByte_putBytes, if_neg (by rw [hlen]; exact hx)]

theorem home_waits (hop : f.op = .ld) (hm : f.mode = 1 ∨ f.mode = 2) (hx : ∃ x, f.key ≤ x ∧ x < f.key + f.size ∧ isFull s x = false)
    (hroom : (tget [] s.retry f.home).length < 4096) (hs : (thread s f.core f.who).saving = false)
    (hd : (thread s f.core f.who).st ≠ .done) :
    ∃ t, exec i s = .next t ∧ tfind t.flights id = some { f with st := .waiting }
      ∧ tget [] t.retry f.home = tget [] s.retry f.home ++ [id] ∧ t.mem = s.mem := by
  have h := atHome_of_arrives ha hn hc
  obtain ⟨x, h1, h2, hx⟩ := hx
  have hserve := (h.serveHome_waits hop hm h1 h2 hx hs hd id).trans (if_pos hroom)
  exact ⟨_, (exec_of_arrives ha hi).trans (congrArg Host.Outcome.next hserve), tfind_tset_same _ _ _, tget_tput_same _ _ _ _, rfl⟩

theorem home_refuses (hop : f.op = .ld) (hm : f.mode = 1 ∨ f.mode = 2) (hx : ∃ x, f.key ≤ x ∧ x < f.key + f.size ∧ isFull s x = false)
    (hfull : 4096 ≤ (tget [] s.retry f.home).length) (hs : (thread s f.core f.who).saving = false)
    (hd : (thread s f.core f.who).st ≠ .done) :
    ∃ t, exec i s = .next t ∧ tfind t.flights id = some { f with st := .refused } ∧ t.retry = s.retry ∧ t.mem = s.mem
      ∧ Coming s t .retryRefusalResend [id] := by
  have h := atHome_of_arrives ha hn hc
  obtain ⟨x, h1, h2, hx⟩ := hx
  have hserve := (h.serveHome_waits hop hm h1 h2 hx hs hd id).trans (if_neg (Nat.not_lt.2 hfull))
  obtain ⟨due, hdue, hag⟩ := later_agenda (setFlight s id { f with st := .refused }) [] .retryRefusalResend [id]
  refine ⟨_, (exec_of_arrives ha hi).trans (congrArg Host.Outcome.next hserve), tfind_tset_same _ _ _, rfl, rfl, _,
    by rw [hag]; exact (mem_insEvent _ _ _).2 (.inl rfl), rfl, rfl, ?_⟩
  exact hdue

end

end Sys2Proof.Machine

namespace Sys2Proof.Machine
open Sys2Proof.Claim

/-! ## The end of a far access (R225, R227, R228) -/

section
variable {β : Type} (g : State → β) (hlater : ∀ s ch i l, g (later s ch i l) = g s) (hat : ∀ s n i l, g (at' s n i l) = g s)

include hlater in
theorem checkKills_keeps (s : State) (c : Nat) : g (checkKills s c) = g s := by
  refine foldl_keeps g (ackKill c) _ (fun x w _ => ?_) s
  unfold ackKill
  split
  · exact hlater _ _ _ _
  · rfl

include hlater in
theorem checkSaved_keeps (s : State) (c k : Nat) : g (checkSaved s c k) = g s := by
  unfold checkSaved
  dsimp only
  split
  · exact hlater _ _ _ _
  · rfl

include hat in
theorem checkDone_keeps (s : State) (c : Nat) : g (checkDone s c) = g s := by
  unfold checkDone
  split
  · split
    · exact hat _ _ _ _
    · rfl
  · rfl

/-- A thread that is not being saved meets its delivery faults in its turns. -/
theorem postWhileSaving_of_not_saving {s : State} {c k : Nat} (h : (thread s c k).saving = false) : postWhileSaving s c k = s := by
  unfold postWhileSaving
  dsimp only
  rw [h]
  split
  · rfl
  · rfl

include hlater hat in
/-- What follows a reply makes new events at most. -/
theorem afterReply_keeps {s : State} {f : Flight} (h : (thread s f.core f.who).saving = false) : g (afterReply s f) = g s := by
  have hs : (thread (checkKills s f.core) f.core f.who).saving = false := by
    rw [checkKills_keeps (fun x => thread x f.core f.who) (fun _ _ _ _ => rfl), h]
  unfold afterReply
  dsimp only
  rw [postWhileSaving_of_not_saving hs]
  split
  · rw [checkDone_keeps g hat, checkSaved_keeps g hlater, checkKills_keeps g hlater]
  · exact checkKills_keeps g hlater s f.core

end

/-! ### What a reply brings its thread -/

theorem threadReply_fault {s : State} {f : Flight} (h : f.cause ≠ 0) :
    ∃ x : FaultRec, thread (threadReply s f) f.core f.who = { thread s f.core f.who with faults := (thread s f.core f.who).faults ++ [x] }
      ∧ x.cause = f.cause ∧ x.addr = f.addr ∧ x.dest = f.dest ∧ x.issued = f.issued ∧ x.pos = f.pos ∧ x.aword = f.aword := by
  unfold threadReply
  rw [if_pos h]
  exact ⟨_, thread_modThread_same _ _ _ _, rfl, rfl, rfl, rfl, rfl, rfl⟩

/-- The value of a load lands. -/
theorem threadReply_ld {s : State} {f : Flight} (h : f.cause = 0) (hop : f.op = .ld) {d : Nat} (hd : f.dest = some d) :
    thread (threadReply s f) f.core f.who = { thread s f.core f.who with
      lands := insLanding { due := (thread s f.core f.who).ttc, issued := f.issued, pos := f.pos
                            act := .sreg d { body := loadExt f.code f.value, tail := 0 }, flags := f.oflags, acq := f.ord
                            far := some (f.aword, f.addr, f.rx) } (thread s f.core f.who).lands } := by
  unfold threadReply replyAct'
  rw [if_neg (by simp [h]), if_neg (by simp [hd]), hd, hop, decide_eq_true rfl, Bool.true_or, Bool.and_true]
  exact thread_modThread_same _ _ _ _

/-- The flags of an access without a destination land alone. -/
theorem threadReply_flags {s : State} {f : Flight} (h : f.cause = 0) (hop : f.op = .vat) (hd : f.dest = none) (hfl : f.oflags ≠ 0) :
    thread (threadReply s f) f.core f.who = { thread s f.core f.who with
      lands := insLanding { due := (thread s f.core f.who).ttc, issued := f.issued, pos := f.pos, act := .nothing, flags := f.oflags }
        (thread s f.core f.who).lands } := by
  unfold threadReply replyAct'
  rw [if_neg (by simp [h]), if_neg (by simp [hfl]), hd, hop, decide_eq_false (by decide), decide_eq_false (by decide), Bool.or_false,
    Bool.and_false]
  exact thread_modThread_same _ _ _ _

theorem thread_threadReply_ne (s : State) (f : Flight) {d j : Nat} (h : (d, j) ≠ (f.core, f.who)) :
    thread (threadReply s f) d j = thread s d j := by
  have hm : ∀ g, thread (modThread s f.core f.who g) d j = thread s d j := fun g => by
    rw [thread_modThread, if_neg fun he => h (by rw [he.1, he.2])]
  unfold threadReply
  split
  · exact hm _
  · split
    · rfl
    · exact hm _

/-- It never begins a save. -/
theorem threadReply_saving (s : State) (f : Flight) :
    (thread (threadReply s f) f.core f.who).saving = (thread s f.core f.who).saving := by
  unfold threadReply
  split
  · rw [thread_modThread_same]
  · split
    · rfl
    · dsimp only
      rw [thread_modThread_same]

/-- A reply within the device ends its access: its thread has what it brings. -/
theorem execFarReplyArrival_spec {s : State} {id : Nat} {f : Flight} (hargs : s.cur.args = [id]) (hf : tfind s.flights id = some f)
    (hr : f.replied = false) (hw : f.who < 8) (hcore : f.core < 528) (hs : (thread s f.core f.who).saving = false)
    (hgroup : f.group = none) (hearly : f.early = false) (hgone : f.gone = false) :
    ∃ t, execFarReplyArrival s = .next t ∧ t.mem = s.mem ∧ tfind t.flights id = none
      ∧ thread t f.core f.who = thread (threadReply s f) f.core f.who := by
  have hflight : flight s (arg s 0) = some f := by
    unfold flight arg
    rw [hargs]
    exact hf
  have harg : arg s 1 = 0 := by
    unfold arg
    rw [hargs]
    rfl
  have hid : arg s 0 = id := by
    unfold arg
    rw [hargs]
    rfl
  have hdeliver : deliverReply s id f = dropFlight (threadReply s f) id := by
    unfold deliverReply
    dsimp only
    rw [isPeer_of_core hcore, hgone, hearly, hgroup, if_pos hw]
    rfl
  have hsaving : (thread (dropFlight (threadReply s f) id) f.core f.who).saving = false := (threadReply_saving s f).trans hs
  refine ⟨afterReply (dropFlight (threadReply s f) id) f, ?_, ?_, ?_, ?_⟩
  · unfold execFarReplyArrival
    rw [hflight, harg, hid, ← hdeliver]
    dsimp only
    rw [hr]
    rfl
  · rw [afterReply_mem, dropFlight_mem, threadReply_mem]
  · rw [afterReply_keeps (fun x => tfind x.flights id) (fun _ _ _ _ => rfl) (fun _ _ _ _ => rfl) hsaving]
    exact (tfind_tdel _ _ _).trans (if_pos rfl)
  · rw [afterReply_keeps (fun x => thread x f.core f.who) (fun _ _ _ _ => rfl) (fun _ _ _ _ => rfl) hsaving]
    rfl

/-! ## The end-to-end acknowledgement (R405) -/

/-! ### An image that is written leaves the cores as they are -/

theorem putBytes_cores (s : State) (k : Nat) (l : List Nat) : (putBytes s k l).cores = s.cores := by
  induction l generalizing s k with
  | nil => rfl
  | cons b r ih => exact ih _ _

theorem expandPage_cores (s : State) (k : Nat) : (expandPage s k).cores = s.cores := by
  unfold expandPage
  dsimp only
  split
  · rfl
  · rw [clearPoison_cores, setFulls_cores, putBytes_cores]

theorem writePieces_cores (s : State) (base len : Nat) (l : List Piece) : (writePieces s base len l).cores = s.cores := by
  unfold writePieces expandRange
  dsimp only
  rw [clearPoison_cores, foldl_keeps State.cores _ _ (fun _ _ _ => putNat_cores _ _ _ _)]
  exact foldl_keeps State.cores _ _ (fun _ _ _ => expandPage_cores _ _) s

theorem writeImage_cores (s : State) (c k : Nat) (q : Bool) : (writeImage s c k q).cores = s.cores := by
  unfold writeImage
  split
  · rfl
  · exact (writePieces_cores _ _ _ _).trans (writePieces_cores _ _ _ _)

/-! ### What it brings its party -/

section
variable (s : State) (id : Nat) (f : Flight)

/-- Only its own thread sees anything of it. -/
theorem thread_acknowledgeParty_ne {d j : Nat} (h : (d, j) ≠ (f.core, f.who)) : thread (acknowledgeParty s id f) d j = thread s d j := by
  unfold acknowledgeParty
  split
  · rfl
  · split
    · exact thread_modCore_of_threads rfl d j
    · split
      · rw [thread_of_cores (writeImage_cores _ _ _ _), thread_threadReply_ne s f h]
      · exact thread_threadReply_ne s f h

/-- It brings nothing but poison and the flags that an early answer left out. -/
theorem acknowledgeParty_of_nothing (hc : f.cause = 0) (h : 8 ≤ f.who ∨ f.early = false ∨ f.oflags = 0) : acknowledgeParty s id f = s := by
  refine if_pos ?_
  have hneg : ¬ (f.who < 8 ∧ f.early = true ∧ f.oflags ≠ 0) := fun ⟨h1, h2, h3⟩ => by
    rcases h with h | h | h
    · omega
    · rw [h] at h2; cases h2
    · exact h3 h
  simp only [Bool.and_eq_true, decide_eq_true_eq, Bool.not_eq_true', hc, true_and]
  simpa [and_assoc] using hneg

/-- What it does bring reaches a thread that runs as a reply does. -/
theorem acknowledgeParty_of_thread (hw : f.who < 8) (hs : (thread s f.core f.who).st ≠ .saved)
    (h : f.cause ≠ 0 ∨ f.early = true ∧ f.oflags ≠ 0) : acknowledgeParty s id f = threadReply s f := by
  have hneg : (f.cause = 0 && !(f.who < 8 && f.early && f.oflags ≠ 0)) = false := by
    rcases h with h | ⟨h1, h2⟩
    · simp [h]
    · simp [hw, h1, h2]
  unfold acknowledgeParty
  rw [hneg, if_neg (by decide), if_neg (Nat.not_le.2 hw), if_neg (by simp [hs])]

end

/-- What is done to the image of a core of a saved gang changes no thread, if it changes none of another core. -/
theorem thread_onGang {s : State} {n c : Nat} {f : State → State} (hf : ∀ x d j, d ≠ c → thread (f x) d j = thread x d j) (d j : Nat) :
    thread (onGang s n c f) d j = thread s d j := by
  by_cases h : d = c
  · subst h
    have hcore : core (onGang s n d f) d = core s d := core_setCore_same _ _ _
    unfold thread
    rw [hcore]
  · have hne : ∀ (x : State) (k : Core), thread (setCore x c k) d j = thread x d j := fun x k => by
      unfold thread
      rw [core_setCore, if_neg fun he => h he.symm]
    have hout : thread (onGang s n c f) d j = thread (f (viewGang s n c)) d j := hne _ _
    have hview : thread (viewGang s n c) d j = thread s d j := hne _ _
    rw [hout, hf _ _ _ h, hview]

theorem onGang_mem (s : State) (n c : Nat) (f : State → State) : (onGang s n c f).mem = (f (viewGang s n c)).mem := by
  simp [onGang]

/-- An access with its acknowledgement, as its party takes it. -/
def ackFlight (f : Flight) (n : Nat) : Flight := { f with acked := true, cause := n, core := srcCore f }

/-- What the acknowledgement makes of the state, but for the access itself. -/
def ackState (s : State) (id n : Nat) (f : Flight) : State :=
  if f.gone then s
  else if 2 ^ 32 ≤ f.core then onGang s (f.core / 2 ^ 32 - 1) (srcCore f) (fun x => acknowledgeParty x id (ackFlight f n))
  else acknowledgeParty s id (ackFlight f n)

theorem execEndToEndAcknowledgement_spec {s : State} {id n : Nat} {f : Flight} (hargs : s.cur.args = [id, n])
    (hf : tfind s.flights id = some f) (ha : f.acked = false) :
    ∃ t, execEndToEndAcknowledgement s = .next t ∧ tfind t.flights id = (if f.replied then none else some { f with acked := true })
      ∧ t.mem = (ackState s id n f).mem ∧ ∀ d j, thread t d j = thread (ackState s id n f) d j := by
  have hex : execEndToEndAcknowledgement s = .next (if f.replied then dropFlight (ackState s id n f) id
      else setFlight (ackState s id n f) id { f with acked := true }) := by
    unfold execEndToEndAcknowledgement flight
    simp only [arg, hargs, List.getD_cons_zero, List.getD_cons_succ]
    rw [hf]
    dsimp only
    rw [ha]
    rfl
  refine ⟨_, hex, ?_⟩
  split
  · exact ⟨(tfind_tdel _ _ _).trans (if_pos rfl), rfl, fun _ _ => rfl⟩
  · exact ⟨tfind_tset_same _ _ _, rfl, fun _ _ => rfl⟩

section
variable (s : State) (id n : Nat) {f : Flight}

theorem thread_ackState_ne {d j : Nat} (h : (d, j) ≠ (f.core, f.who)) : thread (ackState s id n f) d j = thread s d j := by
  unfold ackState
  split
  · rfl
  · split
    · exact thread_onGang (fun x d j hd => thread_acknowledgeParty_ne x id _ fun he => hd (Prod.mk.inj he).1) d j
    next hcore =>
      have hsrc : (ackFlight f n).core = f.core := Nat.mod_eq_of_lt (Nat.not_le.1 hcore)
      exact thread_acknowledgeParty_ne s id _ (by rw [hsrc]; exact h)

/-- An acknowledgement that brings nothing changes no memory and no thread. -/
theorem ackState_of_nothing (h : 8 ≤ f.who ∨ f.early = false ∨ f.oflags = 0 ∨ f.gone = true) :
    (ackState s id 0 f).mem = s.mem ∧ ∀ d j, thread (ackState s id 0 f) d j = thread s d j := by
  unfold ackState
  split
  · exact ⟨rfl, fun _ _ => rfl⟩
  next hgone =>
    have hid : ∀ x, acknowledgeParty x id (ackFlight f 0) = x := fun x => by
      refine acknowledgeParty_of_nothing x id _ rfl ?_
      rcases h with h | h | h | h
      · exact .inl h
      · exact .inr (.inl h)
      · exact .inr (.inr h)
      · exact absurd h hgone
    simp only [hid]
    split
    · exact ⟨by simp [onGang_mem], fun d j => thread_onGang (fun _ _ _ _ => rfl) d j⟩
    · exact ⟨rfl, fun _ _ => rfl⟩

/-- What it brings a thread that is on its core reaches it as a reply does. -/
theorem ackState_of_thread (hw : f.who < 8) (hgone : f.gone = false) (hcore : f.core < 2 ^ 32) (hs : (thread s f.core f.who).st ≠ .saved)
    (h : n ≠ 0 ∨ f.early = true ∧ f.oflags ≠ 0) :
    ackState s id n f = threadReply s (ackFlight f n) ∧ (ackFlight f n).core = f.core := by
  have hsrc : (ackFlight f n).core = f.core := Nat.mod_eq_of_lt hcore
  refine ⟨?_, hsrc⟩
  unfold ackState
  rw [hgone, if_neg (by decide), if_neg (Nat.not_le.2 hcore)]
  exact acknowledgeParty_of_thread s id _ hw (by rw [hsrc]; exact hs) h

end

/-! ## The clauses of the statement -/

/-- The landings of a turn. -/
theorem execLanding_spec {s : State} {c k : Nat} (hargs : s.cur.args = [c, k]) (hc : c < 512) :
    ∃ t, execLanding s = .next t ∧ (thread t c k).lands = (thread s c k).lands.filter (fun l => (thread s c k).ttc < l.due)
      ∧ t.mem = s.mem := by
  unfold execLanding
  simp only [arg, hargs, List.getD_cons_zero, List.getD_cons_succ]
  refine ⟨_, rfl, by rw [thread_applyLandings_same, landed_lands], applyLandings_mem fun _ _ => .inl ?_⟩
  simp [isSvc]
  omega

theorem farReply_lands {s : State} {id : Nat} {f : Flight} (hargs : s.cur.args = [id]) (hf : tfind s.flights id = some f)
    (hr : f.replied = false) (hw : f.who < 8) (hcore : f.core < 528) (hs : (thread s f.core f.who).saving = false)
    (hgroup : f.group = none) (hearly : f.early = false) (hgone : f.gone = false) :
    let th := thread s f.core f.who
    ∃ t, exec .farReplyArrival s = .next t ∧ t.mem = s.mem ∧ tfind t.flights id = none
      ∧ (f.cause = 0 → f.op = .ld → ∀ d, f.dest = some d →
        let l : Landing := { due := th.ttc, issued := f.issued, pos := f.pos, act := .sreg d { body := loadExt f.code f.value, tail := 0 },
                             flags := f.oflags, acq := f.ord, far := some (f.aword, f.addr, f.rx) }
        thread t f.core f.who = { th with lands := insLanding l th.lands })
      ∧ (f.cause ≠ 0 → ∃ x, thread t f.core f.who = { th with faults := th.faults ++ [x] } ∧ x.cause = f.cause ∧ x.addr = f.addr
          ∧ x.dest = f.dest ∧ x.issued = f.issued ∧ x.pos = f.pos ∧ x.aword = f.aword) := by
  obtain ⟨t, hex, hmem, hflight, hth⟩ := execFarReplyArrival_spec hargs hf hr hw hcore hs hgroup hearly hgone
  refine ⟨t, hex, hmem, hflight, fun h hop d hd => hth.trans (threadReply_ld h hop hd), fun h => ?_⟩
  obtain ⟨x, hx, hrest⟩ := threadReply_fault (s := s) h
  exact ⟨x, hth.trans hx, hrest⟩

theorem acknowledgement_completes {s : State} {id : Nat} {f : Flight} (hargs : s.cur.args = [id, 0])
    (hf : tfind s.flights id = some f) (ha : f.acked = false) :
    ∃ t, exec .endToEndAcknowledgement s = .next t
      ∧ tfind t.flights id = (if f.replied then none else some { f with acked := true })
      ∧ (∀ d j, (d, j) ≠ (f.core, f.who) → thread t d j = thread s d j)
      ∧ (8 ≤ f.who ∨ f.early = false ∨ f.oflags = 0 ∨ f.gone = true → t.mem = s.mem ∧ thread t f.core f.who = thread s f.core f.who)
      ∧ (f.who < 8 → f.early = true → f.oflags ≠ 0 → f.op = .vat → f.dest = none → f.gone = false → f.core < 2 ^ 32 →
          let th := thread s f.core f.who
          th.st ≠ .saved → t.mem = s.mem ∧ thread t f.core f.who =
            { th with lands := insLanding { due := th.ttc, issued := f.issued, pos := f.pos, act := .nothing, flags := f.oflags } th.lands }) := by
  obtain ⟨t, hex, hflight, hmem, hth⟩ := execEndToEndAcknowledgement_spec hargs hf ha
  refine ⟨t, hex, hflight, fun d j h => (hth d j).trans (thread_ackState_ne s id 0 h), fun h => ?_, ?_⟩
  · obtain ⟨hm, hall⟩ := ackState_of_nothing s id h
    exact ⟨hmem.trans hm, (hth _ _).trans (hall _ _)⟩
  · intro hw hearly hfl hop hd hgone hcore th hs
    obtain ⟨hack, hsrc⟩ := ackState_of_thread s id 0 hw hgone hcore hs (.inr ⟨hearly, hfl⟩)
    have hland := threadReply_flags (s := s) (f := ackFlight f 0) rfl hop hd hfl
    rw [hsrc] at hland
    refine ⟨hmem.trans (by rw [hack, threadReply_mem]), (hth _ _).trans ?_⟩
    rw [hack]
    exact hland

theorem acknowledgement_poison {s : State} {id n : Nat} {f : Flight} (hargs : s.cur.args = [id, n]) (hn : n ≠ 0)
    (hf : tfind s.flights id = some f) (ha : f.acked = false) (hw : f.who < 8) (hgone : f.gone = false) (hcore : f.core < 2 ^ 32)
    (hs : (thread s f.core f.who).st ≠ .saved) :
    ∃ t x, exec .endToEndAcknowledgement s = .next t ∧ t.mem = s.mem ∧ x.cause = n ∧ x.addr = f.addr
      ∧ thread t f.core f.who = { thread s f.core f.who with faults := (thread s f.core f.who).faults ++ [x] } := by
  obtain ⟨t, hex, -, hmem, hth⟩ := execEndToEndAcknowledgement_spec hargs hf ha
  obtain ⟨hack, hsrc⟩ := ackState_of_thread s id n hw hgone hcore hs (.inl hn)
  obtain ⟨x, hx, hcause, haddr, -⟩ := threadReply_fault (s := s) (f := ackFlight f n) hn
  rw [hsrc] at hx
  exact ⟨t, x, hex, hmem.trans (by rw [hack, threadReply_mem]), hcause, haddr, (hth _ _).trans (by rw [hack]; exact hx)⟩

end Sys2Proof.Machine

namespace Sys2Proof
open Machine Claim

/-- Settles O49, clause by clause: the start of a turn, an access at its home, its reply and its end-to-end acknowledgement. -/
theorem turnsBeginAndFarAccessesEnd : Obligations.TurnsBeginAndFarAccessesEnd := by
  unfold Obligations.TurnsBeginAndFarAccessesEnd
  refine ⟨fun s c k hargs hc => ⟨turnOf_absent hargs, turnOf_halt hargs, turnOf_out hargs, turnOf_done hargs, ?_, execLanding_spec hargs hc,
      fun f r hf hn hk hcause => execDeliveryFault_spec hargs hc hf hn hk hcause, execDeliveryFault_of_none hargs⟩,
    fun s c k h hargs => execSegmentExpansionComplete_spec hargs,
    fun s id f ha hn hc i hi => ⟨home_ld ha hn hc hi, fun hop hm _ _ => home_st ha hn hc hi hop hm, home_atom ha hn hc hi,
      home_waits ha hn hc hi, home_refuses ha hn hc hi⟩,
    fun s id f hargs hf hr hw hcore hs hgroup hearly hgone => farReply_lands hargs hf hr hw hcore hs hgroup hearly hgone,
    fun s id f hargs hf ha => acknowledgement_completes hargs hf ha,
    fun s id n f hargs hn hf ha hw hgone hcore hs => acknowledgement_poison hargs hn hf ha hw hgone hcore hs⟩
  exact fun x bs h hc ho _ hx hseg hb hcur => turnOf_fetch hargs h hc ho hx hseg hb hcur

end Sys2Proof

/-! # Held numbers

A code is a binade `j` and a significand `k`: the number `k * 2 ^ gridExp f j` on the held grid of R50. Reading a code gives its
point of the grid, and `roCode` gives the code of the point that a number rounds to. -/

namespace Sys2Proof.Machine
open Claim

/-! ## Bodies (R42, R44) -/

theorem maxBody_lt (f : Fmt) : f.maxBody < 2 ^ (f.width - 1) := by cases f <;> decide

theorem two_pow_width (f : Fmt) : 2 ^ f.width = 2 * 2 ^ (f.width - 1) := by cases f <;> rfl

theorem magOf_lt (f : Fmt) (b : Nat) : f.magOf b < 2 ^ (f.width - 1) := Nat.mod_lt _ (by positivity)

theorem magOf_signed {f : Fmt} {m : Nat} (neg : Bool) (h : m < 2 ^ (f.width - 1)) : f.magOf (f.signed neg m) = m := by
  cases neg
  · exact Nat.mod_eq_of_lt h
  · exact (Nat.add_mod_left _ _).trans (Nat.mod_eq_of_lt h)

theorem signOf_signed {f : Fmt} {m : Nat} (neg : Bool) (h : m < 2 ^ (f.width - 1)) : f.signOf (f.signed neg m) = neg := by
  have hpos : 0 < 2 ^ (f.width - 1) := by positivity
  cases neg
  · simp [Fmt.signOf, Fmt.signed, Nat.div_eq_of_lt h]
  · simp [Fmt.signOf, Fmt.signed, Nat.add_div_left _ hpos, Nat.div_eq_of_lt h]

/-- A body is its sign and its magnitude. -/
theorem signed_signOf_magOf {f : Fmt} {b : Nat} (h : b < 2 ^ f.width) : f.signed (f.signOf b) (f.magOf b) = b := by
  rw [two_pow_width] at h
  have hq : b / 2 ^ (f.width - 1) < 2 := Nat.div_lt_of_lt_mul (by rwa [mul_comm])
  have hb : 2 ^ (f.width - 1) * (b / 2 ^ (f.width - 1)) + f.magOf b = b := Nat.div_add_mod _ _
  obtain h0 | h1 : b / 2 ^ (f.width - 1) = 0 ∨ b / 2 ^ (f.width - 1) = 1 := Nat.le_one_iff_eq_zero_or_eq_one.1 (Nat.lt_succ_iff.1 hq)
  · rw [h0] at hb
    simp only [Fmt.signed, Fmt.signOf, h0]
    simpa using hb
  · rw [h1] at hb
    simp only [Fmt.signed, Fmt.signOf, h1]
    simpa using hb

/-- The finite bodies are those whose magnitude is at most the maximum finite value's. -/
theorem finite_iff_magOf_le (f : Fmt) (b : Nat) : (f.isNan b = false ∧ f.isInf b = false) ↔ f.magOf b ≤ f.maxBody := by
  have hlt := magOf_lt f b
  have hpos : 0 < f.infBody := by cases f <;> decide
  cases f
  case e4m3 =>
    simp only [Fmt.isNan, Fmt.isInf, Fmt.hasInf, Fmt.maxBody, Fmt.width, Bool.false_and, decide_eq_false_iff_not, and_true] at hlt ⊢
    omega
  case e2m1 =>
    simp only [Fmt.isNan, Fmt.isInf, Fmt.hasInf, Fmt.maxBody, Fmt.width, Bool.false_and, and_true, true_iff] at hlt ⊢
    omega
  all_goals
    simp only [Fmt.isNan, Fmt.isInf, Fmt.hasInf, Fmt.maxBody, Bool.true_and, decide_eq_false_iff_not]
    omega

/-! ## Codes (R51) -/

section
variable {f : Fmt} {c : Nat}

theorem div_four_le_maxBody (h : c ≤ f.ovfCode) : c / 4 ≤ f.maxBody := by
  unfold Fmt.ovfCode at h
  omega

theorem magOf_ofCode (neg : Bool) (h : c ≤ f.ovfCode) : f.magOf (Held.ofCode f neg c).body = c / 4 :=
  magOf_signed neg ((div_four_le_maxBody h).trans_lt (maxBody_lt f))

theorem code_ofCode (neg : Bool) (h : c ≤ f.ovfCode) : (Held.ofCode f neg c).code f = c := by
  rw [Held.code, magOf_ofCode neg h, Held.ofCode, Nat.mod_mod, Nat.div_add_mod]

theorem signOf_ofCode (neg : Bool) (h : c ≤ f.ovfCode) : f.signOf (Held.ofCode f neg c).body = neg :=
  signOf_signed neg ((div_four_le_maxBody h).trans_lt (maxBody_lt f))

theorem finite_ofCode (neg : Bool) (h : c ≤ f.ovfCode) :
    f.isNan (Held.ofCode f neg c).body = false ∧ f.isInf (Held.ofCode f neg c).body = false :=
  (finite_iff_magOf_le f _).2 ((magOf_ofCode neg h).trans_le (div_four_le_maxBody h))

theorem ofCode_code {h : Held} (hb : h.body < 2 ^ f.width) (ht : h.tail < 4) :
    Held.ofCode f (f.signOf h.body) (h.code f) = h := by
  have hdiv : h.code f / 4 = f.magOf h.body := by unfold Held.code; omega
  have hmod : h.code f % 4 = h.tail := by unfold Held.code; omega
  rw [Held.ofCode, hdiv, hmod, signed_signOf_magOf hb]

/-- A finite held value has a code up to the overflow form's. -/
theorem code_le_ovfCode {h : Held} (hn : f.isNan h.body = false) (hi : f.isInf h.body = false) : h.code f ≤ f.ovfCode := by
  have hmag := (finite_iff_magOf_le f h.body).1 ⟨hn, hi⟩
  unfold Held.code Fmt.ovfCode
  omega

end

/-! ## The held grid (R50) -/

/-- The least significand of a normal number on the held grid. -/
def Fmt.lead (f : Fmt) : Nat := 2 ^ (f.fb + 2)

/-- The exponent of the grid's spacing in binade `j`, the subnormals' being 0. -/
def gridExp (f : Fmt) (j : Nat) : Int := j + 1 - f.bias - f.fb - 2

/-- The code of significand `k` in binade `j`. -/
def gridCode (f : Fmt) (k j : Nat) : Nat := k + j * f.lead

/-- Significand `k` stands in binade `j`. -/
structure OnGrid (f : Fmt) (k j : Nat) : Prop where
  normal : j = 0 ∨ f.lead ≤ k
  lt : k < 2 * f.lead

section
variable {f : Fmt} {k j : Nat}

theorem lead_eq (f : Fmt) : f.lead = 4 * 2 ^ f.fb := by rw [Fmt.lead, pow_add, mul_comm]; rfl

theorem lead_pos (f : Fmt) : 0 < f.lead := Nat.two_pow_pos _

theorem four_dvd_lead (f : Fmt) : 4 ∣ f.lead := ⟨_, lead_eq f⟩

theorem two_mul_lead (f : Fmt) : 2 * f.lead = 2 ^ (f.fb + 2 + 1) := by rw [Fmt.lead, pow_succ _ (f.fb + 2), mul_comm]

theorem exists_onGrid (f : Fmt) (c : Nat) : ∃ k j, OnGrid f k j ∧ c = gridCode f k j := by
  have hc := Nat.mod_add_div' c f.lead
  have hlt := Nat.mod_lt c (lead_pos f)
  cases hj : c / f.lead with
  | zero => exact ⟨c, 0, ⟨.inl rfl, by rw [hj] at hc; omega⟩, by simp [gridCode]⟩
  | succ j =>
    rw [hj, add_mul, one_mul] at hc
    exact ⟨c % f.lead + f.lead, j, ⟨.inr (by omega), by omega⟩, by unfold gridCode; omega⟩

theorem gridCode_mod_four (f : Fmt) (k j : Nat) : gridCode f k j % 4 = k % 4 := by
  have h := (four_dvd_lead f).mul_left j
  unfold gridCode
  omega

theorem OnGrid.div_lead (h : OnGrid f k j) : gridCode f k j / f.lead = if k < f.lead then 0 else j + 1 := by
  have hpos := lead_pos f
  rw [gridCode, Nat.add_mul_div_right _ _ hpos]
  split
  · next hk => rw [Nat.div_eq_of_lt hk, h.normal.resolve_right (by omega)]
  · next hk => rw [Nat.div_eq_of_lt_le (m := k) (k := 1) (by omega) (by have := h.lt; omega), add_comm]

theorem OnGrid.mod_lead (h : OnGrid f k j) : gridCode f k j % f.lead = if k < f.lead then k else k - f.lead := by
  have hlt := h.lt
  rw [gridCode, Nat.add_mul_mod_self_right]
  split
  · next hk => exact Nat.mod_eq_of_lt hk
  · next hk => rw [Nat.mod_eq_sub_mod (by omega), Nat.mod_eq_of_lt (by omega)]

/-- The value of a finite held value by its code: the exponent field is the quotient by `lead`, the rest the remainder. -/
theorem val_of_finite {h : Held} (hn : f.isNan h.body = false) (hi : f.isInf h.body = false) :
    h.val f = .fin (f.signOf h.body) ((if h.code f / f.lead = 0 then 0 else f.lead) + h.code f % f.lead)
      (gridExp f (max (h.code f / f.lead) 1 - 1)) := by
  have hdiv : h.code f / 4 = f.magOf h.body := by unfold Held.code; omega
  have hmod : h.code f % 4 = h.tail % 4 := by unfold Held.code; omega
  have hquot : h.code f / f.lead = f.magOf h.body / 2 ^ f.fb := by rw [lead_eq, ← Nat.div_div_eq_div_mul, hdiv]
  have hrem : h.code f % f.lead = h.tail % 4 + 4 * (f.magOf h.body % 2 ^ f.fb) := by rw [lead_eq, Nat.mod_mul, hmod, hdiv]
  simp only [Held.val, hn, hi, Bool.false_eq_true, if_false, hquot, hrem, gridExp, Val.fin.injEq, true_and]
  constructor
  · rw [lead_eq]
    split <;> omega
  · omega

/-- Reading a code gives its point of the grid. -/
theorem OnGrid.val_ofCode (h : OnGrid f k j) (neg : Bool) (hc : gridCode f k j ≤ f.ovfCode) :
    (Held.ofCode f neg (gridCode f k j)).val f = .fin neg k (gridExp f j) := by
  obtain ⟨hn, hi⟩ := finite_ofCode neg hc
  rw [val_of_finite hn hi, signOf_ofCode neg hc, code_ofCode neg hc, h.div_lead, h.mod_lead]
  split
  · next hk => simp [h.normal.resolve_right (by omega)]
  · next hk =>
    rw [if_neg j.succ_ne_zero, Nat.add_sub_cancel' (by omega), max_eq_left (by omega), Nat.add_sub_cancel]

/-- The last significand's successor is the first number of the next binade. -/
theorem ratOf_ofCode (neg : Bool) (hj : j = 0 ∨ f.lead ≤ k) (hk : k ≤ 2 * f.lead) (hc : gridCode f k j ≤ f.ovfCode) :
    ratOf ((Held.ofCode f neg (gridCode f k j)).val f) = ratOf (.fin neg k (gridExp f j)) := by
  obtain hlt | rfl := hk.lt_or_eq
  · rw [OnGrid.val_ofCode ⟨hj, hlt⟩ neg hc]
  · have hcode : gridCode f (2 * f.lead) j = gridCode f f.lead (j + 1) := by unfold gridCode; ring
    have hexp : gridExp f (j + 1) = 1 + gridExp f j := by unfold gridExp; push_cast; ring
    have hpos := lead_pos f
    rw [hcode] at hc ⊢
    rw [OnGrid.val_ofCode ⟨.inr le_rfl, by omega⟩ neg hc]
    simp only [ratOf, hexp, zpow_one_add₀ (two_ne_zero' ℚ)]
    push_cast
    ring

end

/-! ## Rounding to odd (R50) -/

/-- `n / 2 ^ s` rounded to odd. -/
def toOdd (n s : Nat) : Nat := if n % 2 ^ s ≠ 0 ∧ n / 2 ^ s % 2 = 0 then n / 2 ^ s + 1 else n / 2 ^ s

/-- The binade in which `m * 2 ^ e` stands. -/
def binadeOf (f : Fmt) (m : Nat) (e : Int) : Nat := ((m.log2 : Int) + e - (1 - f.bias)).toNat

/-- The significand of `m * 2 ^ e` in its binade, rounded to odd. -/
def significandOf (f : Fmt) (m : Nat) (e : Int) : Nat :=
  toOdd (m * 2 ^ (e - gridExp f (binadeOf f m e)).toNat) (gridExp f (binadeOf f m e) - e).toNat

theorem toOdd_zero_right (n : Nat) : toOdd n 0 = n := by simp [toOdd, Nat.mod_one]

theorem le_toOdd {n s P : Nat} (h : P * 2 ^ s ≤ n) : P ≤ toOdd n s := by
  have hdiv := (Nat.le_div_iff_mul_le (Nat.two_pow_pos s)).2 h
  unfold toOdd
  split <;> omega

/-- Rounding to odd does not reach an even bound. -/
theorem toOdd_lt {n s P : Nat} (h : n < 2 * P * 2 ^ s) : toOdd n s < 2 * P := by
  have hdiv := (Nat.div_lt_iff_lt_mul (Nat.two_pow_pos s)).2 h
  unfold toOdd
  split <;> omega

/-- A number that is no integer rounds to the odd one of its neighbours. -/
theorem toOdd_spec (n s : Nat) :
    (toOdd n s : ℚ) = n / 2 ^ s ∨ toOdd n s % 2 = 1 ∧ (toOdd n s : ℚ) - 1 < n / 2 ^ s ∧ (n / 2 ^ s : ℚ) < toOdd n s + 1 := by
  have hpos : (0 : ℚ) < 2 ^ s := by positivity
  have hdm : (2 : ℚ) ^ s * (n / 2 ^ s : Nat) + (n % 2 ^ s : Nat) = n := by exact_mod_cast Nat.div_add_mod n (2 ^ s)
  have hlt : ((n % 2 ^ s : Nat) : ℚ) < 2 ^ s := by exact_mod_cast Nat.mod_lt n (Nat.two_pow_pos s)
  obtain h0 | h0 := Nat.eq_zero_or_pos (n % 2 ^ s)
  · left
    rw [toOdd, if_neg (by omega), eq_div_iff hpos.ne', ← hdm, h0]
    push_cast
    ring
  · right
    have hrem : (0 : ℚ) < (n % 2 ^ s : Nat) := by exact_mod_cast h0
    rw [lt_div_iff₀ hpos, div_lt_iff₀ hpos]
    unfold toOdd
    split
    · exact ⟨by omega, by push_cast; linarith, by push_cast; linarith⟩
    · exact ⟨by omega, by linarith, by linarith⟩

section
variable {f : Fmt} {m : Nat} {e : Int}

/-- `roCode` rounds `m * 2 ^ e` to odd in the spacing of its binade. -/
theorem roCode_eq (hm : m ≠ 0) : roCode f m e false = gridCode f (significandOf f m e) (binadeOf f m e) := by
  have hbin : (max ((m.log2 : Int) + e) (1 - f.bias) - (1 - f.bias)).toNat = binadeOf f m e := by unfold binadeOf; omega
  have hexp : max ((m.log2 : Int) + e) (1 - f.bias) - f.fb - 2 = gridExp f (binadeOf f m e) := by
    unfold gridExp binadeOf
    omega
  simp only [roCode, if_neg hm, hbin, hexp, significandOf, gridCode, Fmt.lead, Bool.false_or]
  by_cases hle : gridExp f (binadeOf f m e) ≤ e
  · have hs : (gridExp f (binadeOf f m e) - e).toNat = 0 := by omega
    simp [hle, hs, toOdd_zero_right, not_lt.2 hle]
  · have hs : (e - gridExp f (binadeOf f m e)).toNat = 0 := by omega
    simp [hle, hs, not_le.1 hle, toOdd]

theorem onGrid_significandOf (hm : m ≠ 0) : OnGrid f (significandOf f m e) (binadeOf f m e) := by
  unfold significandOf
  generalize ha : (e - gridExp f (binadeOf f m e)).toNat = a
  generalize hb : (gridExp f (binadeOf f m e) - e).toNat = b
  have hlo : 2 ^ (m.log2 + a) ≤ m * 2 ^ a := by rw [pow_add]; gcongr; exact Nat.log2_self_le hm
  have hhi : m * 2 ^ a < 2 ^ (m.log2 + 1 + a) := by rw [pow_add]; gcongr; exact Nat.lt_log2_self
  unfold gridExp binadeOf at ha hb
  constructor
  · by_cases h0 : binadeOf f m e = 0
    · exact .inl h0
    · refine .inr (le_toOdd ?_)
      unfold binadeOf at h0
      rw [Fmt.lead, ← pow_add, show f.fb + 2 + b = m.log2 + a by omega]
      exact hlo
  · refine toOdd_lt (hhi.trans_le ?_)
    rw [two_mul_lead, ← pow_add]
    exact Nat.pow_le_pow_right two_pos (by omega)

/-- The number in units of its binade's spacing. -/
theorem ratOf_scale (m : Nat) (e g : Int) :
    ratOf (.fin false m e) = ((m * 2 ^ (e - g).toNat : Nat) : ℚ) / 2 ^ (g - e).toNat * 2 ^ g := by
  have he : e = (e - g).toNat + g - (g - e).toNat := by omega
  have hz : (2 : ℚ) ^ e = 2 ^ (e - g).toNat * 2 ^ g / 2 ^ (g - e).toNat := by
    conv_lhs => rw [he]
    rw [zpow_sub₀ two_ne_zero, zpow_add₀ two_ne_zero, zpow_natCast, zpow_natCast]
  rw [ratOf, hz]
  push_cast
  ring

/-- R50: the point of the grid is the number itself, or has an odd significand and lies within one step of it. -/
theorem significandOf_near (f : Fmt) (m : Nat) (e : Int) :
    let k := significandOf f m e
    let q := (2 : ℚ) ^ gridExp f (binadeOf f m e)
    ratOf (.fin false k (gridExp f (binadeOf f m e))) = ratOf (.fin false m e)
      ∨ k % 2 = 1 ∧ ((k : ℚ) - 1) * q < ratOf (.fin false m e) ∧ ratOf (.fin false m e) < ((k : ℚ) + 1) * q := by
  intro k q
  have hpos : 0 < q := by positivity
  rw [ratOf_scale m e (gridExp f (binadeOf f m e))]
  obtain h | ⟨hodd, hlo, hhi⟩ := toOdd_spec (m * 2 ^ (e - gridExp f (binadeOf f m e)).toNat) (gridExp f (binadeOf f m e) - e).toNat
  · exact .inl (by simp [ratOf, k, significandOf, h])
  · exact .inr ⟨hodd, mul_lt_mul_of_pos_right hlo hpos, mul_lt_mul_of_pos_right hhi hpos⟩

/-- A number whose exponent is no less than its binade's spacing is not rounded. -/
theorem ratOf_significandOf (he : gridExp f (binadeOf f m e) ≤ e) :
    ratOf (.fin false (significandOf f m e) (gridExp f (binadeOf f m e))) = ratOf (.fin false m e) := by
  have hs : (gridExp f (binadeOf f m e) - e).toNat = 0 := by omega
  rw [ratOf_scale m e (gridExp f (binadeOf f m e)), significandOf, hs, toOdd_zero_right]
  simp [ratOf]

end

/-- A point of the grid rounds to itself. -/
theorem roCode_of_onGrid {f : Fmt} {k j : Nat} (h : OnGrid f k j) : roCode f k (gridExp f j) false = gridCode f k j := by
  by_cases hk : k = 0
  · have hj : j = 0 := h.normal.resolve_right (by have := lead_pos f; omega)
    simp [roCode, gridCode, hk, hj]
  · have hlog : k.log2 < f.fb + 2 + 1 := (Nat.log2_lt hk).2 (by rw [← two_mul_lead]; exact h.lt)
    have hbin : binadeOf f k (gridExp f j) = j := by
      obtain rfl | hlead := h.normal
      · unfold binadeOf gridExp; omega
      · have hge : f.fb + 2 ≤ k.log2 := (Nat.le_log2 hk).2 hlead
        unfold binadeOf gridExp; omega
    rw [roCode_eq hk, significandOf, hbin]
    simp [toOdd_zero_right]

/-! ## hold (R52) -/

theorem ratOf_eq_sign_mul (neg : Bool) (m : Nat) (e : Int) : ratOf (.fin neg m e) = (if neg then -1 else 1) * ratOf (.fin false m e) := by
  simp [ratOf]

theorem hold_fin_of_le {f : Fmt} {neg : Bool} {m : Nat} {e : Int} (h : roCode f m e false ≤ f.ovfCode) :
    hold f (.fin neg m e false) = Held.ofCode f neg (roCode f m e false) := by
  rw [hold, min_eq_left h]

theorem hold_val_of_finite {f : Fmt} {h : Held} (hb : h.body < 2 ^ f.width) (ht : h.tail < 4) (hn : f.isNan h.body = false)
    (hi : f.isInf h.body = false) : hold f (h.val f).exact = h := by
  obtain ⟨k, j, hg, hc⟩ := exists_onGrid f (h.code f)
  have hle : gridCode f k j ≤ f.ovfCode := hc ▸ code_le_ovfCode hn hi
  have hh : Held.ofCode f (f.signOf h.body) (gridCode f k j) = h := hc ▸ ofCode_code hb ht
  calc hold f (h.val f).exact
      = hold f (.fin (f.signOf h.body) k (gridExp f j) false) := by rw [← hh, hg.val_ofCode _ hle, signOf_ofCode _ hle]; rfl
    _ = h := by rw [hold_fin_of_le ((roCode_of_onGrid hg).trans_le hle), roCode_of_onGrid hg, hh]

theorem val_of_isInf {f : Fmt} {h : Held} (hi : f.isInf h.body = true) : h.val f = .inf (f.signOf h.body) := by
  have hn : f.isNan h.body = false := by
    cases f <;> simp_all [Fmt.isInf, Fmt.isNan, Fmt.hasInf]
  simp [Held.val, hn, hi]

theorem hold_val_of_isInf {f : Fmt} {h : Held} (hb : h.body < 2 ^ f.width) (hi : f.isInf h.body = true) (ht : h.tail = 0) :
    hold f (h.val f).exact = h := by
  obtain ⟨hinf, hmag⟩ : f.hasInf = true ∧ f.magOf h.body = f.infBody := by simpa [Fmt.isInf] using hi
  rw [val_of_isInf hi, Val.exact, hold, if_pos hinf, ← hmag, signed_signOf_magOf hb, ← ht]

theorem val_of_isNan {f : Fmt} {h : Held} (hn : f.isNan h.body = true) : h.val f = .nan (f.isSnan h.body) := by
  simp [Held.val, hn]

theorem hold_val_of_isNan {f : Fmt} {h : Held} (hn : f.isNan h.body = true) : hold f (h.val f).exact = ⟨f.canonNan, 0⟩ := by
  rw [val_of_isNan hn, Val.exact, hold]

/-- A number that rounds to no more than the overflow form is held as a finite value of its sign. -/
theorem hold_finite {f : Fmt} (neg : Bool) {m : Nat} {e : Int} (h : roCode f m e false ≤ f.ovfCode) :
    f.isNan (hold f (.fin neg m e false)).body = false ∧ f.isInf (hold f (.fin neg m e false)).body = false
      ∧ isNegative ((hold f (.fin neg m e false)).val f) = neg := by
  rw [hold_fin_of_le h]
  obtain ⟨hn, hi⟩ := finite_ofCode neg h
  exact ⟨hn, hi, by rw [val_of_finite hn hi, signOf_ofCode neg h]; rfl⟩

/-- R50, R51: what is held is the number itself or has its sticky bit set and lies within one code of it. -/
theorem hold_near {f : Fmt} (neg : Bool) {m : Nat} {e : Int} (hm : m ≠ 0) (hle : roCode f m e false ≤ f.ovfCode) :
    let h := hold f (.fin neg m e false)
    ratOf (h.val f) = ratOf (.fin neg m e)
      ∨ (h.tail % 2 = 1
        ∧ ratOf (Held.val f (Held.ofCode f false (h.code f - 1))) < ratOf (.fin false m e)
        ∧ (h.code f + 1 ≤ f.ovfCode →
            ratOf (.fin false m e) < ratOf (Held.val f (Held.ofCode f false (h.code f + 1))))) := by
  intro h
  have hh : h = Held.ofCode f neg (roCode f m e false) := hold_fin_of_le hle
  have hg := onGrid_significandOf (f := f) (e := e) hm
  have hnear := significandOf_near f m e
  rw [roCode_eq hm] at hh hle
  generalize significandOf f m e = k at *
  generalize binadeOf f m e = j at *
  rw [hh, code_ofCode neg hle]
  obtain hexact | ⟨hodd, hlo, hhi⟩ := hnear
  · exact .inl (by rw [hg.val_ofCode neg hle, ratOf_eq_sign_mul, hexact, ← ratOf_eq_sign_mul])
  · have hlead := four_dvd_lead f
    have hnormal := hg.normal
    have hlt := hg.lt
    have hpred : gridCode f k j - 1 = gridCode f (k - 1) j := by unfold gridCode; omega
    have hsucc : gridCode f k j + 1 = gridCode f (k + 1) j := by unfold gridCode; omega
    refine .inr ⟨?_, ?_, fun hc => ?_⟩
    · show gridCode f k j % 4 % 2 = 1
      rw [gridCode_mod_four]
      omega
    · rw [hpred, ratOf_ofCode false (by omega) (by omega) (by omega)]
      simpa [ratOf, Nat.cast_sub (show 1 ≤ k by omega)] using hlo
    · rw [hsucc] at hc ⊢
      rw [ratOf_ofCode false (by omega) (by omega) hc]
      simpa [ratOf] using hhi

/-! ## The FP32 immediate in an FP64 row (R99) -/

/-- A finite FP32 number has at most 26 significant bits, and its exponent lies well inside those of FP64. -/
theorem val_f32_bounds {n : Nat} (hf : Finite (Held.val .f32 ⟨n, 0⟩)) :
    ∃ neg m e, Held.val .f32 ⟨n, 0⟩ = .fin neg m e ∧ m < 2 ^ 26 ∧ -151 ≤ e ∧ e ≤ 102 := by
  have hn : Fmt.f32.isNan n = false := by
    by_contra h
    obtain ⟨_, _, _, hv⟩ := hf
    rw [val_of_isNan (by simpa using h)] at hv
    cases hv
  have hi : Fmt.f32.isInf n = false := by
    by_contra h
    obtain ⟨_, _, _, hv⟩ := hf
    rw [val_of_isInf (by simpa using h)] at hv
    cases hv
  have hc := code_le_ovfCode (h := ⟨n, 0⟩) hn hi
  refine ⟨_, _, _, val_of_finite hn hi, ?_⟩
  generalize Held.code .f32 ⟨n, 0⟩ = c at hc
  rw [show Fmt.f32.ovfCode = 2 ^ 25 * 255 - 1 from rfl] at hc
  rw [show Fmt.f32.lead = 2 ^ 25 from rfl]
  simp only [gridExp, Fmt.bias, Fmt.fb]
  refine ⟨?_, by omega, by omega⟩
  split <;> omega

theorem ratOf_hold_f64 {neg : Bool} {m : Nat} {e : Int} (hm : m < 2 ^ 26) (h1 : -151 ≤ e) (h2 : e ≤ 102) :
    ratOf ((hold .f64 (.fin neg m e false)).val .f64) = ratOf (.fin neg m e) := by
  by_cases h0 : m = 0
  · have hro : roCode .f64 m e false = gridCode .f64 0 0 := by simp [roCode, gridCode, h0]
    have hle : gridCode .f64 0 0 ≤ Fmt.f64.ovfCode := by decide
    have hg : OnGrid .f64 0 0 := ⟨.inl rfl, by decide⟩
    rw [hold_fin_of_le (hro.trans_le hle), hro, hg.val_ofCode neg hle]
    simp [ratOf, h0]
  · have hlog : m.log2 < 26 := (Nat.log2_lt h0).2 hm
    have hg := onGrid_significandOf (f := .f64) (e := e) h0
    have hval := ratOf_significandOf (f := .f64) (m := m) (e := e) (by simp only [gridExp, binadeOf, Fmt.bias, Fmt.fb]; omega)
    have hj : binadeOf .f64 m e ≤ 1149 := by simp only [binadeOf, Fmt.bias]; omega
    have hle : gridCode .f64 (significandOf .f64 m e) (binadeOf .f64 m e) ≤ Fmt.f64.ovfCode := by
      have hlt := hg.lt
      rw [show Fmt.f64.lead = 2 ^ 54 from rfl] at hlt
      rw [show Fmt.f64.ovfCode = 2 ^ 54 * 2047 - 1 from rfl, gridCode, show Fmt.f64.lead = 2 ^ 54 from rfl]
      omega
    rw [hold_fin_of_le ((roCode_eq h0).trans_le hle), roCode_eq h0, hg.val_ofCode neg hle, ratOf_eq_sign_mul, hval, ← ratOf_eq_sign_mul]

theorem ratOf_immHeld {n : Nat} (hf : Finite (Held.val .f32 ⟨n, 0⟩)) :
    ratOf ((immHeld .f64 n).val .f64) = ratOf (Held.val .f32 ⟨n, 0⟩) := by
  obtain ⟨neg, m, e, hv, hm, h1, h2⟩ := val_f32_bounds hf
  rw [immHeld, hv]
  exact ratOf_hold_f64 hm h1 h2

end Sys2Proof.Machine

namespace Sys2Proof
open Machine Claim

/-- Settles O8: a held value stands on the grid, where `roCode` moves nothing, and any other number rounds to the odd one of the two
codes beside it. -/
theorem heldValuesRoundToOdd : Obligations.HeldValuesRoundToOdd :=
  ⟨fun _ _ hb ht => ⟨fun hn hi _ => hold_val_of_finite hb ht hn hi, hold_val_of_isInf hb, hold_val_of_isNan,
      fun _ _ hf => ratOf_immHeld hf⟩,
    fun _ neg _ _ hm hle => by
      obtain ⟨hn, hi, hneg⟩ := hold_finite neg hle
      exact ⟨hn, hi, hneg, hold_near neg hm.ne' hle⟩⟩

end Sys2Proof

/-! # Encoding and decoding

A slot word is its opcode and fields above its guard (Tables 3.3 to 3.7, 3.9), an Xtephra word the R-type layout of R303. What `encode`
writes, the decoders read back. -/

namespace Sys2Proof

/-! ## Fields below their widths -/

theorem SWord.inRange_iff {w : SWord} {n : Nat} :
    w.inRange n = true ↔ w.d < 64 ∧ w.a < 64 ∧ w.b < 64 ∧ w.imm.getD 0 < 2 ^ n := by
  simp [SWord.inRange, and_assoc]

theorem VWord.inRange_iff {w : VWord} :
    w.inRange = true ↔ w.ty < 16 ∧ w.d < 64 ∧ w.a < 64 ∧ w.b < 64 ∧ w.c < 64 ∧ w.cm < 256 ∧ w.md < 32 ∧ w.k.getD 0 < 2 ^ 32 := by
  simp [VWord.inRange, and_assoc]

theorem LWord.inRange_iff {w : LWord} :
    w.inRange = true ↔ w.data < 64 ∧ w.base < 64 ∧ w.ofs < 65536 ∧ w.sz < 16 ∧ w.md2 < 2 ∧ w.md1 < 2 ∧ w.md0 < 2 := by
  simp [LWord.inRange, and_assoc]

theorem MWord.inRange_iff {w : MWord} : w.inRange = true ↔ w.a < 64 ∧ w.b < 64 ∧ w.imm < 256 := by
  simp [MWord.inRange, and_assoc]

theorem XWord.inRange_iff {w : XWord} : w.inRange = true ↔ w.da < 64 ∧ w.b < 64 ∧ w.ci < 64 ∧ w.e < 2 := by
  simp [XWord.inRange, and_assoc]

theorem TWord.inRange_iff {w : TWord} : w.inRange = true ↔ w.f7 < 128 ∧ w.rs2 < 32 ∧ w.rs1 < 32 ∧ w.rd < 32 := by
  simp [TWord.inRange, and_assoc]

/-! ## What the fields of a word give back

The fields stand side by side above the guard, each below its width, so the bits of a word divide into them again. -/

section
variable {op g : Nat} (hg : g < 64)
include hg

theorem SWord.fields_of_word {w : SWord} {n : Nat} (hw : w.inRange n = true) :
    (w.word op + g) / 2 ^ 24 = op ∧ SWord.of w.imm (w.word op + g) = w ∧ guardOf (w.word op + g) = g := by
  obtain ⟨hd, ha, hb, -⟩ := inRange_iff.1 hw
  cases w
  simp only [word, of, guardOf, bitsAt, SWord.mk.injEq, and_true] at *
  omega

theorem VWord.fields_of_word {w : VWord} (hw : w.inRange = true) :
    (w.word op + g) / 2 ^ 47 = op ∧ VWord.of w.k (w.word op + g) = w ∧ guardOf (w.word op + g) = g := by
  obtain ⟨ht, hd, ha, hb, hc, hm, hn, -⟩ := inRange_iff.1 hw
  cases w
  simp only [word, of, guardOf, bitsAt, VWord.mk.injEq, and_true] at *
  omega

theorem LWord.fields_of_word {w : LWord} (hw : w.inRange = true) :
    (w.word op + g) / 2 ^ 41 = op ∧ LWord.of (w.word op + g) = w ∧ guardOf (w.word op + g) = g := by
  obtain ⟨hd, hb, ho, hs, h2, h1, h0⟩ := inRange_iff.1 hw
  cases w
  simp only [word, of, guardOf, bitsAt, LWord.mk.injEq] at *
  omega

theorem MWord.fields_of_word {w : MWord} (hw : w.inRange = true) :
    (w.word op + g) / 2 ^ 26 = op ∧ MWord.of (w.word op + g) = w ∧ guardOf (w.word op + g) = g := by
  obtain ⟨ha, hb, hi⟩ := inRange_iff.1 hw
  cases w
  simp only [word, of, guardOf, bitsAt, MWord.mk.injEq] at *
  omega

theorem XWord.fields_of_word {w : XWord} (hw : w.inRange = true) :
    (w.word op + g) / 2 ^ 25 = op ∧ XWord.of (w.word op + g) = w ∧ guardOf (w.word op + g) = g := by
  obtain ⟨hd, hb, hc, he⟩ := inRange_iff.1 hw
  cases w
  simp only [word, of, guardOf, bitsAt, XWord.mk.injEq] at *
  omega

end

theorem TWord.fields_of_word {space f3 : Nat} (hs : space < 128) (hf : f3 < 8) {w : TWord} (hw : w.inRange = true) :
    w.word space f3 % 128 = space ∧ bitsAt (w.word space f3) 12 3 = f3 ∧ TWord.of (w.word space f3) = w := by
  obtain ⟨h7, h2, h1, hd⟩ := inRange_iff.1 hw
  cases w
  simp only [word, of, bitsAt, TWord.mk.injEq] at *
  omega

/-! ## What a well-formed word passes -/

theorem wellFormed_iff {sv : Bool} {i : Instr} :
    WellFormed sv i = true ↔
      (shape i).kind ≠ .event ∧ (shape i).range = true ∧ fieldCause sv (shape i) = 0 ∧ (shape i).bad5 = false := by
  simp [WellFormed, and_assoc]

theorem fieldCause_eq_zero_iff {sv : Bool} {h : Shape} :
    fieldCause sv h = 0 ↔
      (h.bad1 = false ∧ (sv = true → h.svc1 = false) ∧ (sv = false → h.priv = false ∧ h.cmp1 = false))
      ∧ (h.bad2 = false ∧ h.bimm = false ∧ (sv = true → h.svc2 = false)) := by
  cases sv <;> simp [fieldCause, ite_eq_iff, and_assoc]

theorem checked_ok {sv : Bool} {i : Instr} (hc : fieldCause sv (shape i) = 0) : checked sv (.ok i) = .ok i := if_pos hc

/-! ### The conditions on fields inside `bad2`

`vShape` and `xShape` put a row's own condition `ok` among the checks of the classes, `lShape` and `tShape` have it alone, and a
privileged row asks for its sub-operation first. -/

theorem ok_of_checks {p ok q : Bool} (h : (p || !ok || q) = false) : ok = true := by
  obtain ⟨hp, -⟩ := Bool.or_eq_false_iff.1 h
  exact (Bool.not_eq_false' ok).mp (Bool.or_eq_false_iff.1 hp).2

theorem ok_of_check {ok : Bool} (h : (!ok) = false) : ok = true := (Bool.not_eq_false' ok).mp h

theorem eq_of_check {n k : Nat} {p : Bool} (h : (n != k || p) = false) : n = k :=
  bne_eq_false_iff_eq.1 (Bool.or_eq_false_iff.1 h).1

/-! ## The row that an instruction stands in

The shape of an instruction names the opcode and the fields of its word; the tables give the instruction back for that opcode and
those fields. Where several instructions share an opcode, a field check of R76 or the form of the immediate (R83) tells which. -/

/-- The word of `i` has opcode `op` and fields `w` of Table 3.3, and Table 3.17 reads them as `i`. -/
structure InRowS (i : Instr) (op : Nat) (w : SWord) : Prop where
  word : (shape i).word = w.word op
  imm : (shape i).imm = w.imm
  range : (shape i).range = w.inRange 32
  priv : (shape i).priv = (0x70 ≤ op && op ≤ 0x77)
  op_ne : op ≠ 0
  row : rowS op w = .ok i

/-- The word of `i` has opcode `op` and fields `w` of Table 3.4, and Table 3.18 reads them as `i`. -/
structure InRowV (i : Instr) (op : Nat) (w : VWord) : Prop where
  word : (shape i).word = w.word op
  imm : (shape i).imm = w.k
  range : (shape i).range = w.inRange
  op_ne : op ≠ 0
  row : rowV op w = .ok i

/-- The word of `i` has opcode `op` and fields `w` of Table 3.5, and Table 3.19 reads them as `i`. -/
structure InRowL (i : Instr) (op : Nat) (w : LWord) : Prop where
  word : (shape i).word = w.word op
  range : (shape i).range = w.inRange
  op_ne : op ≠ 0
  row : rowL op w = .ok i

/-- The word of `i` has opcode `op` and fields `w` of Table 3.6, and Table 3.20 reads them as `i`; no service core takes it (R89). -/
structure InRowM (i : Instr) (op : Nat) (w : MWord) : Prop where
  word : (shape i).word = w.word op
  range : (shape i).range = w.inRange
  svc1 : (shape i).svc1 = true
  op_ne : op ≠ 0
  row : rowM op w = .ok i

/-- The word of `i` has opcode `op` and fields `w` of Table 3.7, and Table 3.21 reads them as `i`; a service core refuses those of
the barriers and the semaphores (R89). -/
structure InRowX (i : Instr) (op : Nat) (w : XWord) : Prop where
  word : (shape i).word = w.word op
  range : (shape i).range = w.inRange
  svc1 : (shape i).svc1 = (op = 0x0A || op = 0x0B || (0x0D ≤ op && op ≤ 0x0F))
  op_ne : op ≠ 0
  row : rowX op w = .ok i

/-- The Xtephra word of `i` has the fields `w` of R303, and Table 12.2 reads them as `i`. -/
structure InRowT (i : Instr) (space f3 : Nat) (w : TWord) : Prop where
  word : (shape i).word = w.word space f3
  range : (shape i).range = w.inRange
  space_lt : space < 128
  f3_lt : f3 < 8
  row : rowT space f3 w = .ok i

theorem inRowS_of_kind {i : Instr} (hk : (shape i).kind = .s) (h2 : (shape i).bad2 = false) (h5 : (shape i).bad5 = false) :
    i = .nop ∨ ∃ op w, InRowS i op w := by
  cases i with
  | nop => exact .inl rfl
  -- the opcode alone names the instruction
  | add w | sub w | addi w | mul w | mulh w | mulhn w | div w | divn w | rem w | remn w | and w | or w | xor w | andn w | shl w | shr w
  | sar w | rol w | clz w | popc w | min w | max w | minn w | maxn w | sel w | ext w | ins w | mov w | cmpeq w | cmpne w | cmplt w
  | cmple w | cmpltn w | cmplen w | lea w | adda w | faddF64 w | fsubF64 w | fmulF64 w | fmaF64 w | fdivF64 w | fsqrtF64 w | fminF64 w
  | fmaxF64 w | fcmpeqF64 w | fcmpltF64 w | fcmpleF64 w | fcvtF64 w | setlF64 w | fclassF64 w | faddF32 w | fsubF32 w | fmulF32 w
  | fmaF32 w | fdivF32 w | fsqrtF32 w | fminF32 w | fmaxF32 w | fcmpeqF32 w | fcmpltF32 w | fcmpleF32 w | fcvtF32 w | setlF32 w
  | fclassF32 w | pand w | por w | pxor w | pnot w | pmov w | pall w | pany w | br w | lpin w | trap w | rds w | wrs w | rotset w | bri w =>
    exact .inr ⟨_, w, rfl, rfl, rfl, rfl, by decide, rfl⟩
  -- D, A and B are zero
  | ret => exact .inr ⟨0x62, ⟨0, 0, 0, none⟩, rfl, rfl, rfl, rfl, by decide, rfl⟩
  | lend => exact .inr ⟨0x64, ⟨0, 0, 0, none⟩, rfl, rfl, rfl, rfl, by decide, rfl⟩
  | endThread => exact .inr ⟨0x66, ⟨0, 0, 0, none⟩, rfl, rfl, rfl, rfl, by decide, rfl⟩
  -- the form without and the form with an immediate share an opcode
  | moviShort w | loopRegister w | waitcRegister w =>
    obtain ⟨d, a, b, imm⟩ := w
    obtain rfl : imm = none := by simpa using of_decide_eq_false h5
    exact .inr ⟨_, _, rfl, rfl, rfl, rfl, by decide, rfl⟩
  | callRegister w =>
    obtain ⟨d, a, b, imm⟩ := w
    obtain rfl : imm = none := by simpa using (Bool.or_eq_false_iff.1 h5).1
    exact .inr ⟨_, _, rfl, rfl, rfl, rfl, by decide, rfl⟩
  | moviImm32 w | callLabel w | loopImmediate w | waitcImmediate w =>
    obtain ⟨d, a, b, imm⟩ := w
    obtain ⟨n, rfl⟩ : ∃ n, imm = some n := by simpa [Option.ne_none_iff_exists'] using of_decide_eq_false h5
    exact .inr ⟨_, _, rfl, rfl, rfl, rfl, by decide, rfl⟩
  -- B names the direction of MOVA, D the sub-operation of a privileged opcode
  | movaAS w | movaSA w | movaHiSA w | movaAA w | movaHiAS w =>
    obtain ⟨d, a, b, imm⟩ := w
    obtain rfl := bne_eq_false_iff_eq.1 h2
    exact .inr ⟨_, _, rfl, rfl, rfl, rfl, by decide, rfl⟩
  | tretRetry w | tretAt w | tretNext w | tretSkip w | winset w | winkill w | grant w | mbreplyRetry w | mbreplyResume w
  | mbreplyResumev w | mbreplyError w | mbreplyMbok w | mbreplyMberr w | ctxsvThr w | ctxsvGang w | ctxldThr w | ctxldGang w
  | haltStop w | haltEnd w | haltReset w =>
    obtain ⟨d, a, b, imm⟩ := w
    obtain rfl := eq_of_check h2
    exact .inr ⟨_, _, rfl, rfl, rfl, rfl, by decide, rfl⟩
  | _ => cases hk

theorem eq_moviLong_of_kind {i : Instr} (hk : (shape i).kind = .w) : ∃ w, i = .moviLong w := by
  cases i with
  | moviLong w => exact ⟨w, rfl⟩
  | _ => cases hk

theorem inRowV_of_kind {i : Instr} (hk : (shape i).kind = .v) (h2 : (shape i).bad2 = false) :
    i = .vnop ∨ ∃ op w, InRowV i op w := by
  cases i with
  | vnop => exact .inl rfl
  | vadd w | vsub w | vmul w | vmulh w | vmad w | vand w | vor w | vxor w | vshl w | vshr w | vsar w | vmin w | vmax w | vabs w | vclz w
  | vpopc w | vdot4 w | vsel w | vcmp w | vfadd w | vfsub w | vfmul w | vfma w | vfmin w | vfmax w | vfminn w | vfmaxn w | vfabs w
  | vfneg w | vfcmp w | vfcmps w | vcvt w | vsetl w | vfclass w | vexp2 w | vlog2 w | vrcp w | vrsq w | vsqrt w | vsin w | vcos w
  | vshuf w | vbcast w | vred w | vscan w | vcmprs w | viota w | vrng w | vmov w | xcl w | vpack w | vunpk w =>
    exact .inr ⟨_, w, rfl, rfl, rfl, by decide, rfl⟩
  | vmovsToVector w | vmovsToScalar w | vmovlToVector w | vmovlToPredicate w =>
    have hmd := ok_of_checks h2
    simp only [Bool.and_eq_true, decide_eq_true_eq] at hmd
    exact .inr ⟨_, w, rfl, rfl, rfl, by decide, by simp [rowV, hmd]⟩
  | _ => cases hk

theorem inRowL_of_kind {i : Instr} (hk : (shape i).kind = .l) (h2 : (shape i).bad2 = false) :
    i = .lnop ∨ ∃ op w, InRowL i op w := by
  cases i with
  | lnop => exact .inl rfl
  | ld w | st w | ldv w | stv w | ldx w | stx w | spill w | fill w | atom w | tagw w =>
    exact .inr ⟨_, w, rfl, rfl, by decide, rfl⟩
  | ldf w | ldfTake w | ste w | steFill w | clrf w | clrfSet w | tagq w | tagqClaim w | tagx w | tagxRd w =>
    have hmd := ok_of_check h2
    simp only [Bool.and_eq_true, decide_eq_true_eq] at hmd
    exact .inr ⟨_, w, rfl, rfl, by decide, by simp [rowL, hmd]⟩
  | _ => cases hk

theorem inRowM_of_kind {i : Instr} (hk : (shape i).kind = .m) (h2 : (shape i).bad2 = false) :
    i = .mnop ∨ ∃ op w, InRowM i op w := by
  cases i with
  | mnop => exact .inl rfl
  | mwld w | mwldv w | mstrm w | mrep w | mdrain w | mdrainv w | mzero w | mcmd w | mstat w =>
    exact .inr ⟨_, w, rfl, rfl, rfl, by decide, rfl⟩
  | ringsetDef w | ringsetTail w | ringsetHead w =>
    have himm := of_decide_eq_true (ok_of_check (Bool.or_eq_false_iff.1 h2).2)
    exact .inr ⟨_, w, rfl, rfl, rfl, by decide, by simp [rowM, himm]⟩
  | _ => cases hk

theorem inRowX_of_kind {i : Instr} (hk : (shape i).kind = .x) (h2 : (shape i).bad2 = false) :
    i = .xnop ∨ ∃ op w, InRowX i op w := by
  cases i with
  | xnop => exact .inl rfl
  | fld w | fst w | fstp w | fatom w | fvatom w | fence w | chsend w | chrecv w | chpeek w | bar w | bara w | nxt w | mbox w | tcopy w
  | tcoll w =>
    exact .inr ⟨_, w, rfl, rfl, rfl, by decide, rfl⟩
  | semsigAdd w | semsigSub w | semsigSet w | semwait w | semwaitDec w | semtry w | semtryDec w =>
    have hci := of_decide_eq_true (ok_of_checks h2)
    exact .inr ⟨_, w, rfl, rfl, rfl, by decide, by simp [rowX, hci]⟩
  | _ => cases hk

theorem inRowT_of_kind {i : Instr} (hk : (shape i).kind = .t) (h2 : (shape i).bad2 = false) : ∃ space f3 w, InRowT i space f3 w := by
  cases i with
  | teRd w | teWr w | teRdw w | teWrw w | teAtom w | teVat w | teEmpty w | tePoll w | teMbox w | teCmd w | teDone w | teGcyc w
  | teSave w =>
    exact ⟨_, _, w, rfl, rfl, by decide, by decide, rfl⟩
  | teFullWf w | teFullWfe w | teSigAdd w | teSigSub w | teSigSet w | teWinLo w | teWinMid w | teWinHi w | teWinProbe w =>
    have hf7 := ok_of_check h2
    simp only [Bool.and_eq_true, decide_eq_true_eq] at hf7
    exact ⟨_, _, w, rfl, rfl, by decide, by decide, by simp [rowT, hf7]⟩
  | _ => cases hk

/-! ## The decoders, by opcode -/

theorem decodeS_of_lt {sv : Bool} {imm : Option Nat} {x : Nat} (h : x < 2 ^ 24) : decodeS sv imm x = .ok .nop :=
  if_pos (Nat.div_eq_of_lt h)

theorem decodeV_of_lt {sv : Bool} {k : Option Nat} {x : Nat} (h : x < 2 ^ 47) : decodeV sv k x = .ok .vnop :=
  if_pos (Nat.div_eq_of_lt h)

theorem decodeL_of_lt {sv : Bool} {x : Nat} (h : x < 2 ^ 41) : decodeL sv x = .ok .lnop := if_pos (Nat.div_eq_of_lt h)

theorem decodeM_of_lt {sv : Bool} {x : Nat} (h : x < 2 ^ 26) : decodeM sv x = .ok .mnop := if_pos (Nat.div_eq_of_lt h)

theorem decodeX_of_lt {sv : Bool} {x : Nat} (h : x < 2 ^ 25) : decodeX sv x = .ok .xnop := if_pos (Nat.div_eq_of_lt h)

theorem decodeS_of_op {sv : Bool} {imm : Option Nat} {x op : Nat} (hx : x / 2 ^ 24 = op) (h0 : op ≠ 0)
    (hp : (!sv && (0x70 ≤ op && op ≤ 0x77)) = false) : decodeS sv imm x = checked sv (rowS op (.of imm x)) := by
  simp only [decodeS, hx, if_neg h0, hp, Bool.false_eq_true, if_false]

theorem decodeV_of_op {sv : Bool} {k : Option Nat} {x op : Nat} (hx : x / 2 ^ 47 = op) (h0 : op ≠ 0) :
    decodeV sv k x = checked sv (rowV op (.of k x)) := by
  simp only [decodeV, hx, if_neg h0]

theorem decodeL_of_op {sv : Bool} {x op : Nat} (hx : x / 2 ^ 41 = op) (h0 : op ≠ 0) :
    decodeL sv x = checked sv (rowL op (.of x)) := by
  simp only [decodeL, hx, if_neg h0]

theorem decodeM_of_op {x op : Nat} (hx : x / 2 ^ 26 = op) (h0 : op ≠ 0) :
    decodeM false x = checked false (rowM op (.of x)) := by
  simp only [decodeM, hx, if_neg h0, Bool.false_eq_true, if_false]

theorem decodeX_of_op {sv : Bool} {x op : Nat} (hx : x / 2 ^ 25 = op) (h0 : op ≠ 0)
    (hp : (sv && (op = 0x0A || op = 0x0B || (0x0D ≤ op && op ≤ 0x0F))) = false) :
    decodeX sv x = checked sv (rowX op (.of x)) := by
  simp only [decodeX, hx, if_neg h0, hp, Bool.false_eq_true, if_false]

theorem decodeT_of_row {x : Nat} {i : Instr} (hrow : rowT (x % 128) (bitsAt x 12 3) (.of x) = .ok i) (h2 : (shape i).bad2 = false) :
    decodeT x = .ok i := by
  simp only [decodeT, hrow, h2, Bool.false_eq_true, if_false]

/-! ## The way there and back -/

theorem guardOf_zero_add {g : Nat} (hg : g < 64) : guardOf (0 + g) = g := (Nat.zero_add g).symm ▸ Nat.mod_eq_of_lt hg

/-- The slot word of `i` under the guard `g` decodes to `i` and carries `g` (R80). -/
def RoundTrips (sv : Bool) (i : Instr) (g : Nat) : Prop :=
  decode sv (shape i).kind (shape i).imm ((shape i).word + g) = .ok i ∧ guardOf ((shape i).word + g) = g

section
variable {sv : Bool} {i : Instr} {g : Nat} (hg : g < 64) (hwf : WellFormed sv i = true)
include hg hwf

theorem roundTrips_of_kind_s (hk : (shape i).kind = .s) : RoundTrips sv i g := by
  obtain ⟨-, hr, hc, h5⟩ := wellFormed_iff.1 hwf
  obtain ⟨⟨-, -, hp⟩, h2, -⟩ := fieldCause_eq_zero_iff.1 hc
  unfold RoundTrips
  rw [hk]
  obtain rfl | ⟨op, w, h⟩ := inRowS_of_kind hk h2 h5
  · exact ⟨decodeS_of_lt (x := 0 + g) (by omega), guardOf_zero_add hg⟩
  · obtain ⟨hop, hof, hgu⟩ := SWord.fields_of_word (op := op) hg (h.range ▸ hr)
    rw [h.word, h.imm]
    have hpriv : (!sv && (0x70 ≤ op && op ≤ 0x77)) = false := by
      rw [← h.priv]
      cases sv with
      | false => simpa using (hp rfl).1
      | true => rfl
    exact ⟨(decodeS_of_op hop h.op_ne hpriv).trans (by rw [hof, h.row, checked_ok hc]), hgu⟩

theorem roundTrips_of_kind_w (hk : (shape i).kind = .w) : RoundTrips sv i g := by
  obtain ⟨-, hr, hc, -⟩ := wellFormed_iff.1 hwf
  obtain ⟨w, rfl⟩ := eq_moviLong_of_kind hk
  obtain ⟨hop, hof, hgu⟩ := SWord.fields_of_word (op := 0x1D) (w := w) (n := 64) hg hr
  refine ⟨?_, hgu⟩
  change decodeW sv w.imm (w.word 0x1D + g) = _
  rw [decodeW, if_pos hop, hof, checked_ok hc]

theorem roundTrips_of_kind_v (hk : (shape i).kind = .v) : RoundTrips sv i g := by
  obtain ⟨-, hr, hc, -⟩ := wellFormed_iff.1 hwf
  obtain ⟨-, h2, -⟩ := fieldCause_eq_zero_iff.1 hc
  unfold RoundTrips
  rw [hk]
  obtain rfl | ⟨op, w, h⟩ := inRowV_of_kind hk h2
  · exact ⟨decodeV_of_lt (x := 0 + g) (by omega), guardOf_zero_add hg⟩
  · obtain ⟨hop, hof, hgu⟩ := VWord.fields_of_word (op := op) hg (h.range ▸ hr)
    rw [h.word, h.imm]
    exact ⟨(decodeV_of_op hop h.op_ne).trans (by rw [hof, h.row, checked_ok hc]), hgu⟩

theorem roundTrips_of_kind_l (hk : (shape i).kind = .l) : RoundTrips sv i g := by
  obtain ⟨-, hr, hc, -⟩ := wellFormed_iff.1 hwf
  obtain ⟨-, h2, -⟩ := fieldCause_eq_zero_iff.1 hc
  unfold RoundTrips
  rw [hk]
  obtain rfl | ⟨op, w, h⟩ := inRowL_of_kind hk h2
  · exact ⟨decodeL_of_lt (x := 0 + g) (by omega), guardOf_zero_add hg⟩
  · obtain ⟨hop, hof, hgu⟩ := LWord.fields_of_word (op := op) hg (h.range ▸ hr)
    rw [h.word]
    exact ⟨(decodeL_of_op hop h.op_ne).trans (by rw [hof, h.row, checked_ok hc]), hgu⟩

theorem roundTrips_of_kind_m (hk : (shape i).kind = .m) : RoundTrips sv i g := by
  obtain ⟨-, hr, hc, -⟩ := wellFormed_iff.1 hwf
  obtain ⟨⟨-, hsvc, -⟩, h2, -⟩ := fieldCause_eq_zero_iff.1 hc
  unfold RoundTrips
  rw [hk]
  obtain rfl | ⟨op, w, h⟩ := inRowM_of_kind hk h2
  · exact ⟨decodeM_of_lt (x := 0 + g) (by omega), guardOf_zero_add hg⟩
  · obtain rfl : sv = false := Bool.eq_false_iff.2 fun hs => Bool.false_ne_true ((hsvc hs).symm.trans h.svc1)
    obtain ⟨hop, hof, hgu⟩ := MWord.fields_of_word (op := op) hg (h.range ▸ hr)
    rw [h.word]
    exact ⟨(decodeM_of_op hop h.op_ne).trans (by rw [hof, h.row, checked_ok hc]), hgu⟩

theorem roundTrips_of_kind_x (hk : (shape i).kind = .x) : RoundTrips sv i g := by
  obtain ⟨-, hr, hc, -⟩ := wellFormed_iff.1 hwf
  obtain ⟨⟨-, hsvc, -⟩, h2, -⟩ := fieldCause_eq_zero_iff.1 hc
  unfold RoundTrips
  rw [hk]
  obtain rfl | ⟨op, w, h⟩ := inRowX_of_kind hk h2
  · exact ⟨decodeX_of_lt (x := 0 + g) (by omega), guardOf_zero_add hg⟩
  · obtain ⟨hop, hof, hgu⟩ := XWord.fields_of_word (op := op) hg (h.range ▸ hr)
    rw [h.word]
    have hserved : (sv && (op = 0x0A || op = 0x0B || (0x0D ≤ op && op ≤ 0x0F))) = false := by
      rw [← h.svc1]
      cases sv with
      | false => rfl
      | true => exact hsvc rfl
    exact ⟨(decodeX_of_op hop h.op_ne hserved).trans (by rw [hof, h.row, checked_ok hc]), hgu⟩

end

theorem decodeT_word {sv : Bool} {i : Instr} (hwf : WellFormed sv i = true) (hk : (shape i).kind = .t) :
    decodeT (shape i).word = .ok i := by
  obtain ⟨-, hr, hc, -⟩ := wellFormed_iff.1 hwf
  obtain ⟨-, h2, -⟩ := fieldCause_eq_zero_iff.1 hc
  obtain ⟨space, f3, w, h⟩ := inRowT_of_kind hk h2
  obtain ⟨hs, hf, hof⟩ := TWord.fields_of_word h.space_lt h.f3_lt (h.range ▸ hr)
  exact decodeT_of_row (by rw [h.word, hs, hf, hof, h.row]) h2

theorem encode_slot {i : Instr} (g : Nat) (he : (shape i).kind ≠ .event) (ht : (shape i).kind ≠ .t) :
    encode i g = some ((shape i).word + g) := by
  unfold encode
  split
  · contradiction
  · contradiction
  · rfl

theorem encode_t {i : Instr} (g : Nat) (ht : (shape i).kind = .t) : encode i g = some (shape i).word := by
  simp only [encode, ht]

theorem roundTrips_of_slot {sv : Bool} {i : Instr} {g : Nat} (hg : g < 64) (hwf : WellFormed sv i = true) (ht : (shape i).kind ≠ .t) :
    RoundTrips sv i g := by
  cases hk : (shape i).kind with
  | event => exact absurd hk (wellFormed_iff.1 hwf).1
  | s => exact roundTrips_of_kind_s hg hwf hk
  | w => exact roundTrips_of_kind_w hg hwf hk
  | v => exact roundTrips_of_kind_v hg hwf hk
  | l => exact roundTrips_of_kind_l hg hwf hk
  | m => exact roundTrips_of_kind_m hg hwf hk
  | x => exact roundTrips_of_kind_x hg hwf hk
  | t => exact absurd hk ht

/-! ## Refused words (R89) -/

/-- The last opcode of Table 3.17 is 0x77. -/
theorem rowS_of_unassigned {op : Nat} (h : 0x78 ≤ op) (w : SWord) : rowS op w = .bad 0x01 := by
  obtain ⟨k, rfl⟩ := Nat.exists_eq_add_of_le' h
  rfl

theorem decodeS_privileged {imm : Option Nat} {x : Nat} (h1 : 0x70000000 ≤ x) (h2 : x < 0x78000000) :
    decodeS false imm x = .bad 0x01 := by
  have hlo : 0x70 ≤ x / 2 ^ 24 := by omega
  have hhi : x / 2 ^ 24 ≤ 0x77 := by omega
  have h0 : x / 2 ^ 24 ≠ 0 := by omega
  simp only [decodeS, if_neg h0, hlo, hhi, decide_true, Bool.not_false, Bool.and_self, if_true]

theorem decodeS_unassigned {sv : Bool} {imm : Option Nat} {x : Nat} (h : 0x78000000 ≤ x) :
    decodeS sv imm x = .bad 0x01 := by
  have hop : 0x78 ≤ x / 2 ^ 24 := by omega
  have hpriv : (!sv && (0x70 ≤ x / 2 ^ 24 && x / 2 ^ 24 ≤ 0x77)) = false := by
    rw [decide_eq_false (show ¬ x / 2 ^ 24 ≤ 0x77 by omega), Bool.and_false, Bool.and_false]
  rw [decodeS_of_op rfl (by omega) hpriv, rowS_of_unassigned hop]
  rfl

theorem decodeM_service {x : Nat} (h : 2 ^ 26 ≤ x) : decodeM true x = .bad 0x01 := by
  have h0 : x / 2 ^ 26 ≠ 0 := by omega
  simp only [decodeM, if_neg h0, if_true]

/-! ## The obligations -/

/-- Settles O57: the fields of the word are those of the instruction, and its opcode's row of the tables gives the instruction back. -/
theorem decodingAnEncodedInstructionGivesItBack : Obligations.DecodingAnEncodedInstructionGivesItBack := by
  intro sv i g hg hwf
  obtain ht | ht := eq_or_ne (shape i).kind .t
  · refine ⟨_, encode_t g ht, ?_, fun h => absurd ht h⟩
    rw [ht]
    exact decodeT_word hwf ht
  · obtain ⟨hd, hgu⟩ := roundTrips_of_slot hg hwf ht
    exact ⟨_, encode_slot g (wellFormed_iff.1 hwf).1 ht, hd, fun _ => hgu⟩

/-- Settles O56: the sixteen words are read by evaluation, and each range of opcodes is one branch of its decoder. -/
theorem wordsOfTheEncodingTables : Obligations.WordsOfTheEncodingTables :=
  ⟨rfl, rfl, rfl, rfl, rfl, rfl, rfl, rfl, rfl, rfl, rfl, rfl, rfl, rfl, rfl, rfl,
    fun _ _ _ => ⟨decodeS_of_lt, decodeV_of_lt, decodeL_of_lt, decodeM_of_lt, decodeX_of_lt⟩,
    fun _ _ => decodeS_privileged, fun _ _ _ h _ => decodeS_unassigned h, fun _ h _ => decodeM_service h⟩

end Sys2Proof

/-! # Scalar integers

Operand b of the S slot (R98, R99), and the numbers that the instructions of Table 4.1 make (R104, R105). -/

namespace Sys2Proof.Machine
open Claim

/-! ## Operand b (R98, R99) -/

theorem toInt_ofNat_eq_sextNat {n : Nat} (hn : 0 < n) (x : Nat) : (BitVec.ofNat n x).toInt = sextNat n x := by
  have h2 : 2 ^ n = 2 * 2 ^ (n - 1) := by rw [← pow_succ', Nat.sub_add_cancel hn]
  rw [BitVec.toInt_eq_toNat_cond, BitVec.toNat_ofNat, sextNat]
  refine ite_congr (propext ?_) (fun _ => rfl) fun _ => rfl
  omega

theorem sextTo64_eq_signExtend {n : Nat} (hn : 0 < n) (x : Nat) : sextTo64 n x = (BitVec.ofNat n x).signExtend 64 := by
  rw [sextTo64, BitVec.signExtend, toInt_ofNat_eq_sextNat hn]

theorem opB_eq_opnd (s : State) (w : SWord) : opB s w = opnd s w true := by
  unfold opB opnd
  split
  · rfl
  · exact sextTo64_eq_signExtend (by decide) _

theorem opBz_eq_opnd (s : State) {w : SWord} (hw : immFits w) : opBz s w = opnd s w false := by
  unfold opBz opnd
  unfold immFits at hw
  split
  · rfl
  next n hn =>
    rw [hn] at hw
    rw [Option.getD_some] at hw
    refine BitVec.eq_of_toNat_eq ?_
    simp only [Bool.false_eq_true, if_false, BitVec.toNat_setWidth, BitVec.toNat_ofNat, Nat.mod_eq_of_lt hw]

/-! ## Results as numbers (R104) -/

theorem toNat_sub_add (a b : Word) : ((a - b).toNat + b.toNat) % 2 ^ 64 = a.toNat := by bv_omega

theorem natCast_toNat_eq_toInt_emod (a : Word) : (a.toNat : Int) = a.toInt % 2 ^ 64 := by
  have h := a.isLt
  rw [BitVec.toInt_eq_toNat_cond]
  split <;> omega

theorem toNat_mul_toInt (a b : Word) : ((a * b).toNat : Int) = a.toInt * b.toInt % 2 ^ 64 := by
  rw [natCast_toNat_eq_toInt_emod, BitVec.toInt_mul]
  exact Int.bmod_emod

/-- The high half of a product of two signed words fits a word. -/
theorem toInt_mulh (a b : Word) : (BitVec.ofInt 64 (a.toInt * b.toInt / 2 ^ 64)).toInt = a.toInt * b.toInt / 2 ^ 64 := by
  have h1 : -2 ^ 126 ≤ a.toInt * b.toInt := BitVec.le_toInt_mul_toInt
  have h2 : a.toInt * b.toInt ≤ 2 ^ 126 := BitVec.toInt_mul_toInt_le
  exact BitVec.toInt_ofInt_eq_self (by decide) (by omega) (by omega)

theorem toNat_mulhn (a b : Word) : (BitVec.ofNat 64 (a.toNat * b.toNat / 2 ^ 64)).toNat = a.toNat * b.toNat / 2 ^ 64 := by
  rw [BitVec.toNat_ofNat, Nat.mod_eq_of_lt]
  exact Nat.div_lt_of_lt_mul (Nat.mul_lt_mul'' a.isLt b.isLt)

theorem apply_min_of_le {α β : Type} [LinearOrder β] (f : α → β) (a b : α) : f (if f a ≤ f b then a else b) = min (f a) (f b) := by
  rw [min_def, apply_ite f]

theorem apply_max_of_le {α β : Type} [LinearOrder β] (f : α → β) (a b : α) : f (if f a ≤ f b then b else a) = max (f a) (f b) := by
  rw [max_def, apply_ite f]

/-! ## Results as bits (R104) -/

theorem getLsbD_rotateLeft_shifted (a : Word) {r k : Nat} (hr : r < 64) (hk : k < 64) :
    (a.rotateLeft r).getLsbD ((k + r) % 64) = a.getLsbD k := by
  rw [BitVec.getLsbD_rotateLeft, Nat.mod_eq_of_lt hr]
  by_cases h : k + r < 64
  · simp [Nat.mod_eq_of_lt h, h]
  · have hm : (k + r) % 64 = k + r - 64 := by omega
    rw [hm, decide_eq_true (show k + r - 64 < r by omega), show 64 - r + (k + r - 64) = k by omega]
    rfl

/-- A word that is not zero has its highest bit where its leading zeros end. -/
theorem clzNat_spec {x : Nat} (h0 : x ≠ 0) (hx : x < 2 ^ 64) :
    clzNat 64 x < 64 ∧ 2 ^ (63 - clzNat 64 x) ≤ x ∧ x < 2 ^ (64 - clzNat 64 x) := by
  have hlog : x.log2 < 64 := (Nat.log2_lt h0).2 hx
  have h1 : 63 - clzNat 64 x = x.log2 := by rw [clzNat, if_neg h0]; omega
  have h2 : 64 - clzNat 64 x = x.log2 + 1 := by rw [clzNat, if_neg h0]; omega
  rw [h1, h2]
  exact ⟨by omega, Nat.log2_self_le h0, Nat.lt_log2_self⟩

theorem sum_map_toNat_eq_length_filter {α : Type} (p : α → Bool) (l : List α) : (l.map fun k => (p k).toNat).sum = (l.filter p).length := by
  induction l with
  | nil => rfl
  | cons k r ih => cases hk : p k <;> simp [hk, ih, Nat.add_comm]

theorem popNat_eq_length_filter (a : Word) : popNat 64 a.toNat = ((List.range 64).filter a.getLsbD).length := by
  rw [← sum_map_toNat_eq_length_filter, popNat]
  refine congrArg List.sum (List.map_congr_left fun k _ => ?_)
  rw [BitVec.getLsbD, Nat.testBit_eq_decide_div_mod_eq]
  rcases Nat.mod_two_eq_zero_or_one (a.toNat / 2 ^ k) with h | h <;> simp [bitsAt, h]

/-! ## Quotients and remainders (R105) -/

theorem ofInt_tdiv_eq_sdiv (a b : Word) : BitVec.ofInt 64 (Int.tdiv a.toInt b.toInt) = a.sdiv b :=
  BitVec.eq_of_toInt_eq (by rw [BitVec.toInt_ofInt, BitVec.toInt_sdiv])

theorem ofInt_tmod_eq_srem (a b : Word) : BitVec.ofInt 64 (Int.tmod a.toInt b.toInt) = a.srem b := by
  rw [← BitVec.toInt_srem, BitVec.ofInt_toInt]

/-- The one quotient that no word holds wraps, and every other one is rounded toward zero. -/
theorem signed_division {a b : Word} (hb : b ≠ 0) :
    if a.toInt = -2 ^ 63 ∧ b.toInt = -1 then (a.sdiv b).toInt = -2 ^ 63 ∧ a.srem b = 0
    else (a.sdiv b).toInt * b.toInt + (a.srem b).toInt = a.toInt ∧ (a.srem b).toInt.natAbs < b.toInt.natAbs
      ∧ (a.srem b ≠ 0 → ((a.srem b).toInt < 0 ↔ a.toInt < 0)) := by
  have hb0 : b.toInt ≠ 0 := fun h => hb (BitVec.eq_of_toInt_eq (by simpa using h))
  split
  next h =>
    obtain ⟨ha, hb⟩ := h
    obtain rfl : a = BitVec.intMin 64 := BitVec.eq_of_toInt_eq ha
    obtain rfl : b = -1 := BitVec.eq_of_toInt_eq hb
    exact ⟨by decide, by decide⟩
  next h =>
    have hq : (a.sdiv b).toInt = a.toInt.tdiv b.toInt := BitVec.toInt_sdiv_of_ne_or_ne a b <| by
      by_contra hc
      push Not at hc
      exact h ⟨by rw [hc.1]; decide, by rw [hc.2]; decide⟩
    have hr := BitVec.toInt_srem a b
    refine ⟨by rw [hq, hr, Int.tdiv_mul_add_tmod], ?_, fun h0 => ?_⟩
    · rw [hr, Int.natAbs_tmod]
      exact Nat.mod_lt _ (by omega)
    · have hr0 : a.toInt.tmod b.toInt ≠ 0 := fun he => h0 (BitVec.eq_of_toInt_eq (by simpa [hr] using he))
      have hpos := Int.tmod_nonneg (a := a.toInt) b.toInt
      have hneg := Int.tmod_nonneg (a := -a.toInt) b.toInt
      rw [Int.neg_tmod] at hneg
      rw [hr]
      omega

theorem unsigned_division (a : Word) {b : Word} (hb : b ≠ 0) :
    (BitVec.ofNat 64 (a.toNat / b.toNat)).toNat * b.toNat + (BitVec.ofNat 64 (a.toNat % b.toNat)).toNat = a.toNat
      ∧ (BitVec.ofNat 64 (a.toNat % b.toNat)).toNat < b.toNat := by
  have hpos : 0 < b.toNat := Nat.pos_of_ne_zero fun h => hb (BitVec.eq_of_toNat_eq h)
  have hlt := Nat.mod_lt a.toNat hpos
  rw [BitVec.toNat_ofNat, BitVec.toNat_ofNat, Nat.mod_eq_of_lt ((Nat.div_le_self _ _).trans_lt a.isLt),
    Nat.mod_eq_of_lt (hlt.trans b.isLt), Nat.div_add_mod']
  exact ⟨rfl, hlt⟩

/-! ## Rows of the S slot -/

theorem putsS_of_putS {i : Instr} {s : State} {w : SWord} {v : Word} {P : Word → Prop} (h : exec i s = putS s w v) (hv : P v) :
    PutsS i s w.d 1 P := ⟨v, hv, h⟩

theorem divide_of_ne {s : State} {w : SWord} {b : Word} (hb : b ≠ 0) (r : Word) : divide s w b r = .next (landW s w.d 4 r) := if_neg hb

theorem divide_zero (s : State) (w : SWord) (r : Word) : divide s w 0 r = .next (trapNow s 0x28) := if_pos rfl

/-- The word of a row: its opcode above its fields and its guard. -/
theorem word_add_guard (op : Nat) (w : SWord) (g : Nat) :
    op * 2 ^ 24 + (2 ^ 18 * w.d + 2 ^ 12 * w.a + 2 ^ 6 * w.b + g) = w.word op + g := by
  unfold SWord.word
  ring

/-- A row of Table 3.17 without a check of its own but that of the immediate decodes to its instruction. -/
theorem decodeS_of_row {sv : Bool} {op g : Nat} {w : SWord} {i : Instr} (hg : g < 64) (hw : w.inRange 32 = true) (h0 : op ≠ 0)
    (hp : op < 0x70) (hrow : rowS op w = .ok i) (hc : fieldCause sv (shape i) = 0) :
    decodeS sv w.imm (op * 2 ^ 24 + (2 ^ 18 * w.d + 2 ^ 12 * w.a + 2 ^ 6 * w.b + g)) = .ok i := by
  obtain ⟨hop, hof, -⟩ := SWord.fields_of_word (op := op) hg hw
  rw [word_add_guard, decodeS_of_op hop h0 (by simp [Nat.not_le.2 hp]), hof, hrow, checked_ok hc]

/-- The checks of a row with three scalar registers, of which B may give way to an immediate (R83). -/
theorem fieldCause_sss {op lat : Nat} {w : SWord} (sv : Bool) (hw : w.imm = none ∨ w.b = 0) :
    fieldCause sv (sShape op .s .s .s .opt w lat) = 0 := by
  obtain h | h := hw <;> cases sv <;> cases hi : w.imm <;> simp_all [fieldCause, sShape, Cls.bad1, Cls.bad2]

end Sys2Proof.Machine

namespace Sys2Proof
open Machine Claim

/-- Settles O1: each row lands its operation on words, whose value the lemmas above give as a number or bit by bit. -/
theorem integerArithmeticAndBits : Obligations.IntegerArithmeticAndBits := by
  refine ⟨fun s w hw hb => ?_, fun s w hw => ?_⟩
  · simp only [← opB_eq_opnd, ← opBz_eq_opnd s hw]
    refine ⟨putsS_of_putS rfl (BitVec.toNat_add _ _), putsS_of_putS rfl (toNat_sub_add _ _), fun hi => putsS_of_putS rfl ?_,
      fun hi => putsS_of_putS rfl ?_, putsS_of_putS rfl (toNat_mul_toInt _ _), putsS_of_putS rfl (toInt_mulh _ _),
      putsS_of_putS rfl (toNat_mulhn _ _), putsS_of_putS rfl (apply_min_of_le BitVec.toInt _ _),
      putsS_of_putS rfl (apply_max_of_le BitVec.toInt _ _), putsS_of_putS rfl (apply_min_of_le BitVec.toNat _ _),
      putsS_of_putS rfl (apply_max_of_le BitVec.toNat _ _)⟩
    · simp only [addiImm, hi, sextTo64_eq_signExtend (show 0 < 6 by decide)]
    · obtain ⟨n, hn⟩ := Option.isSome_iff_exists.1 hi
      simp only [addiImm, opB, hn]
  · simp only [← opB_eq_opnd]
    refine ⟨fun k _ => putsS_of_putS rfl BitVec.getLsbD_and, fun k _ => putsS_of_putS rfl BitVec.getLsbD_or,
      fun k _ => putsS_of_putS rfl BitVec.getLsbD_xor, fun k hk => putsS_of_putS rfl ?_, putsS_of_putS rfl ?_, putsS_of_putS rfl ?_,
      putsS_of_putS rfl ?_, fun k hk => putsS_of_putS rfl (getLsbD_rotateLeft_shifted _ (Nat.mod_lt _ (by decide)) hk),
      putsS_of_putS rfl ?_, putsS_of_putS rfl ?_⟩
    · simp [hk]
    · simp [shamt, Nat.shiftLeft_eq]
    · simp [shamt, Nat.shiftRight_eq_div_pow]
    · simp [shamt, BitVec.toInt_sshiftRight, Int.shiftRight_eq_div_pow]
    · split
      next h => rw [show nat s w.a = 0 from congrArg BitVec.toNat h]; rfl
      next h =>
        have h0 : (body s w.a).toNat ≠ 0 := fun he => h (BitVec.eq_of_toNat_eq he)
        have hc := clzNat_spec h0 (body s w.a).isLt
        have hn : (BitVec.ofNat 64 (clzNat 64 (body s w.a).toNat)).toNat = clzNat 64 (body s w.a).toNat := by
          rw [BitVec.toNat_ofNat, Nat.mod_eq_of_lt (by omega)]
        exact hn.symm ▸ hc
    · have hle := List.length_filter_le (body s w.a).getLsbD (List.range 64)
      rw [List.length_range] at hle
      rw [show nat s w.a = (body s w.a).toNat from rfl, popNat_eq_length_filter, BitVec.toNat_ofNat, Nat.mod_eq_of_lt (by omega)]

/-- Settles O2: the signed and the unsigned division of words, a divisor of zero, and the rows of their opcodes. -/
theorem divisions : Obligations.Divisions := by
  intro s w hw a b u
  have hbz : opB s w = b := opB_eq_opnd s w
  have huz : opBz s w = u := opBz_eq_opnd s hw
  have hdiv : exec (.div w) s = divide s w b (a.sdiv b) := by rw [← ofInt_tdiv_eq_sdiv, ← hbz]; rfl
  have hrem : exec (.rem w) s = divide s w b (a.srem b) := by rw [← ofInt_tmod_eq_srem, ← hbz]; rfl
  have hdivn : exec (.divn w) s = divide s w u (BitVec.ofNat 64 (a.toNat / u.toNat)) := by rw [← huz]; rfl
  have hremn : exec (.remn w) s = divide s w u (BitVec.ofNat 64 (a.toNat % u.toNat)) := by rw [← huz]; rfl
  refine ⟨fun hb => ?_, fun hu => ?_, fun hb => ?_, fun hu => ?_, fun sv g hg hd ha hb hi => ?_⟩
  · exact ⟨_, _, hdiv.trans (divide_of_ne hb _), hrem.trans (divide_of_ne hb _), signed_division hb⟩
  · exact ⟨_, _, hdivn.trans (divide_of_ne hu _), hremn.trans (divide_of_ne hu _), unsigned_division a hu⟩
  · rw [hb] at hdiv hrem
    exact ⟨hdiv.trans (divide_zero s w _), hrem.trans (divide_zero s w _)⟩
  · rw [hu] at hdivn hremn
    exact ⟨hdivn.trans (divide_zero s w _), hremn.trans (divide_zero s w _)⟩
  · have hr : w.inRange 32 = true := SWord.inRange_iff.2 ⟨hd, ha, hb, hw⟩
    exact ⟨decodeS_of_row hg hr (by decide) (by decide) rfl (fieldCause_sss sv hi),
      decodeS_of_row hg hr (by decide) (by decide) rfl (fieldCause_sss sv hi),
      decodeS_of_row hg hr (by decide) (by decide) rfl (fieldCause_sss sv hi),
      decodeS_of_row hg hr (by decide) (by decide) rfl (fieldCause_sss sv hi)⟩

end Sys2Proof

/-! # Fields, addresses, predicates and transfers

Bit fields (R106), addresses (R110 to R112), predicates (R108, R115) and the next bundle (R13, R116 to R119). -/

namespace Sys2Proof.Machine
open Claim

/-! ## Bit fields (R106) -/

theorem testBit_field (x pos wid k : Nat) : (x / 2 ^ pos % 2 ^ wid).testBit k = (decide (k < wid) && x.testBit (pos + k)) := by
  rw [Nat.testBit_mod_two_pow, Nat.testBit_div_two_pow, Nat.add_comm]

/-- A field whose sign bit is extended. -/
theorem getLsbD_ofInt_sub_two_pow {f wid k : Nat} (hf : f < 2 ^ wid) (hw : wid ≤ 64) (hk : k < 64) :
    (BitVec.ofInt 64 ((f : Int) - 2 ^ wid)).getLsbD k = if k < wid then f.testBit k else true := by
  have h64 : 2 ^ 64 = 2 ^ wid * 2 ^ (64 - wid) := by rw [← pow_add, Nat.add_sub_cancel' hw]
  have hpos : 0 < 2 ^ (64 - wid) := Nat.two_pow_pos _
  have hn : (BitVec.ofInt 64 ((f : Int) - 2 ^ wid)).toNat = 2 ^ wid * (2 ^ (64 - wid) - 1) + f := by
    have hle : 2 ^ wid ≤ 2 ^ 64 := Nat.pow_le_pow_right (by decide) hw
    have hcast : ((2 ^ wid : Nat) : Int) = 2 ^ wid := by push_cast; rfl
    rw [BitVec.toNat_ofInt, Nat.mul_sub, ← h64, ← hcast]
    omega
  rw [BitVec.getLsbD, hn, Nat.testBit_two_pow_mul_add _ hf, Nat.testBit_two_pow_sub_one]
  exact ite_congr rfl (fun _ => rfl) fun _ => decide_eq_true (by omega)

theorem bitsAt_one_eq_one_iff (x k : Nat) : bitsAt x k 1 = 1 ↔ x.testBit k = true := by
  rw [Nat.testBit_eq_decide_div_mod_eq, decide_eq_true_eq, bitsAt, pow_one]

/-- The result of EXT, bit by bit. -/
theorem getLsbD_ext (a : Word) {pos wid k : Nat} (h0 : 0 < wid) (hw : wid ≤ 64) (hk : k < 64) (sg : Prop) [Decidable sg] :
    (if sg ∧ bitsAt (a.toNat / 2 ^ pos % 2 ^ wid) (wid - 1) 1 = 1
        then BitVec.ofInt 64 (((a.toNat / 2 ^ pos % 2 ^ wid : Nat) : Int) - 2 ^ wid)
        else BitVec.ofNat 64 (a.toNat / 2 ^ pos % 2 ^ wid)).getLsbD k
      = if k < wid then a.getLsbD (pos + k) else decide (sg ∧ a.getLsbD (pos + wid - 1) = true) := by
  have hsign : bitsAt (a.toNat / 2 ^ pos % 2 ^ wid) (wid - 1) 1 = 1 ↔ a.getLsbD (pos + wid - 1) = true := by
    rw [bitsAt_one_eq_one_iff, testBit_field, decide_eq_true (show wid - 1 < wid by omega), Bool.true_and, ← Nat.add_sub_assoc h0]
    rfl
  simp only [hsign]
  by_cases hs : sg ∧ a.getLsbD (pos + wid - 1) = true
  · rw [if_pos hs, getLsbD_ofInt_sub_two_pow (Nat.mod_lt _ (Nat.two_pow_pos _)) hw hk, testBit_field, decide_eq_true hs]
    split
    next h => rw [decide_eq_true h]; rfl
    next => rfl
  · rw [if_neg hs, BitVec.getLsbD_ofNat, testBit_field, decide_eq_false hs, decide_eq_true hk, Bool.true_and]
    split
    next h => rw [decide_eq_true h]; rfl
    next h => rw [decide_eq_false h]; rfl

/-- The merge of INS, bit by bit. -/
theorem getLsbD_insMerge (m a : Word) {pos wid k : Nat} (hk : k < 64) :
    (insMerge m a pos wid).getLsbD k = if pos ≤ k ∧ k < pos + wid then a.getLsbD (k - pos) else m.getLsbD k := by
  have hmask : (BitVec.ofNat 64 ((2 ^ wid - 1) * 2 ^ pos % 2 ^ 64)).getLsbD k = decide (pos ≤ k ∧ k < pos + wid) := by
    rw [BitVec.getLsbD_ofNat, Nat.testBit_mod_two_pow, Nat.mul_comm, Nat.testBit_two_pow_mul, Nat.testBit_two_pow_sub_one]
    simp only [hk, decide_true, Bool.true_and, ge_iff_le, ← Bool.decide_and]
    exact decide_eq_decide.2 (by omega)
  simp only [insMerge, BitVec.getLsbD_or, BitVec.getLsbD_and, BitVec.getLsbD_not, hmask, BitVec.getLsbD_shiftLeft, hk, decide_true,
    Bool.true_and]
  by_cases h : pos ≤ k ∧ k < pos + wid
  · simp [h, Nat.not_lt.2 h.1]
  · simp [h]

theorem ctlPos_eq (c : Word) : ctlPos c = c.toNat % 64 := by simp [ctlPos, bitsAt]

theorem ctlWid_eq (c : Word) : ctlWid c = c.toNat / 256 % 64 + 1 := by simp [ctlWid, bitsAt]

/-- What INS makes of its destination at its landing (R101). -/
theorem applyAct_ins (th : Thread) {l : Landing} {d pos wid : Nat} {a : Word} (h : l.act = .ins d a pos wid) (hd : d ≠ 0) :
    tget sZero (applyAct th l).sregs d = { body := insMerge (tget sZero th.sregs d).body a pos wid, tail := 0 } := by
  simp [applyAct, h, tget_putSreg, hd]

/-! ## Mesh addresses (R109 to R111) -/

theorem dieOf_lt {c : Nat} (h : c < 528) : dieOf c < 4 := by
  unfold dieOf isSvc
  split <;> simp_all <;> omega

section
variable {node die col row ofs : Nat} (hn : node < 1024) (hd : die < 4) (hc : col < 16) (hr : row < 8) (ho : ofs < 2 ^ 21)
include hn hd hc hr ho

theorem toNat_meshAddr : (meshAddr node die col row ofs).toNat
    = 15 * 2 ^ 68 + node * 2 ^ 58 + die * 2 ^ 56 + col * 2 ^ 52 + row * 2 ^ 49 + ofs := by
  unfold meshAddr
  rw [BitVec.toNat_ofNat]
  exact Nat.mod_eq_of_lt (by omega)

/-! The fields of Table 4.2, read back. -/

theorem isMesh_meshAddr : isMesh (meshAddr node die col row ofs) = true := by
  rw [isMesh, toNat_meshAddr hn hd hc hr ho, decide_eq_true_eq, bitsAt]
  omega

theorem meshNode_meshAddr : meshNode (meshAddr node die col row ofs) = node := by
  rw [meshNode, toNat_meshAddr hn hd hc hr ho, bitsAt]
  omega

theorem meshCore_meshAddr : meshCore (meshAddr node die col row ofs) = coreNo die col row := by
  unfold meshCore bitsAt
  rw [toNat_meshAddr hn hd hc hr ho]
  congr 1 <;> omega

theorem meshOfs_meshAddr : meshOfs (meshAddr node die col row ofs) = ofs := by
  rw [meshOfs, toNat_meshAddr hn hd hc hr ho, bitsAt]
  omega

theorem meshRsvd_meshAddr : meshRsvd (meshAddr node die col row ofs) = 0 := by
  rw [meshRsvd, toNat_meshAddr hn hd hc hr ho, bitsAt]
  omega

end

theorem ofInt_toNat_add_toInt (x : Addr) (b : Word) : BitVec.ofInt 72 ((x.toNat : Int) + b.toInt) = x + b.signExtend 72 := by
  rw [BitVec.ofInt_add, BitVec.ofInt_natCast, BitVec.ofNat_toNat, BitVec.setWidth_eq, BitVec.signExtend]

section
variable {x : Addr} {b : Word}

theorem addAddr_plain (hx : isMesh x = false) :
    addAddr x b.toInt = if isMesh (x + b.signExtend 72) then (x, 0x42) else (x + b.signExtend 72, 0) := by
  simp only [addAddr, hx, Bool.false_eq_true, if_false, ofInt_toNat_add_toInt]

theorem addAddr_mesh_outside (hx : isMesh x = true) (h : ¬ (0 ≤ (meshOfs x : Int) + b.toInt ∧ (meshOfs x : Int) + b.toInt ≤ 0x1FFFFF)) :
    addAddr x b.toInt = (x, 0x40) := by
  unfold meshOfs at h
  rw [addAddr, if_pos hx]
  exact if_pos (by omega)

theorem addAddr_mesh_inside (hx : isMesh x = true) (h : 0 ≤ (meshOfs x : Int) + b.toInt ∧ (meshOfs x : Int) + b.toInt ≤ 0x1FFFFF) :
    addAddr x b.toInt = (BitVec.ofNat 72 (x.toNat / 2 ^ 21 * 2 ^ 21 + ((meshOfs x : Int) + b.toInt).toNat), 0) := by
  rw [addAddr, if_pos hx]
  unfold meshOfs at h ⊢
  exact if_neg (by omega)

theorem toNat_replace_offset {o : Nat} (ho : o < 2 ^ 21) :
    (BitVec.ofNat 72 (x.toNat / 2 ^ 21 * 2 ^ 21 + o)).toNat = x.toNat / 2 ^ 21 * 2 ^ 21 + o := by
  have hlt := x.isLt
  rw [BitVec.toNat_ofNat]
  exact Nat.mod_eq_of_lt (by omega)

theorem meshOfs_of_replaced {y : Addr} {o : Nat} (ho : o < 2 ^ 21) (hy : y.toNat = x.toNat / 2 ^ 21 * 2 ^ 21 + o) :
    y.toNat / 2 ^ 21 = x.toNat / 2 ^ 21 ∧ meshOfs y = o := by
  unfold meshOfs bitsAt
  omega

end

/-- ADDA by its sum and cause. -/
theorem execAdda_of_good {s : State} {w : SWord} {y : Addr} (h : addAddr (areg s w.a) (opB s w).toInt = (y, 0)) :
    exec (.adda w) s = .next (landA s w.d y) := by
  show execAdda w s = _
  simp [execAdda, h]

theorem execAdda_of_bad {s : State} {w : SWord} {y : Addr} {cause : Nat} (h : addAddr (areg s w.a) (opB s w).toInt = (y, cause))
    (h0 : cause ≠ 0) : Traps (.adda w) s cause := by
  show execAdda w s = _
  simp [execAdda, h, h0]

/-- What MOVA.hi makes of its destination at its landing (R101). -/
theorem applyAct_movaHi (th : Thread) {l : Landing} {d : Nat} {v : Byte} (h : l.act = .movaHi d v) :
    (getA (applyAct th l) d).toNat = v.toNat * 2 ^ 64 + (getA th d).toNat % 2 ^ 64 := by
  have hv := v.isLt
  simp only [applyAct, h, getA, tget_tput_same, BitVec.toNat_ofNat]
  omega

/-! ## Predicates (R16, R108, R115) -/

theorem getLsbD_ite_allOnes (b : Bool) {k : Nat} (hk : k < 128) :
    (if b then BitVec.allOnes 128 else 0 : Pred).getLsbD k = b := by
  cases b
  · exact BitVec.getLsbD_zero
  · exact BitVec.getLsbD_allOnes.trans (decide_eq_true hk)

theorem putsP_of_putB {i : Instr} {s : State} {w : SWord} {b : Bool} {P : Pred → Prop} (h : exec i s = putB s w b)
    (hP : P (if b then BitVec.allOnes 128 else 0)) : PutsP i s w.d P := ⟨_, hP, h⟩

theorem putsP_of_putP {i : Instr} {s : State} {w : SWord} {v : Pred} {P : Pred → Prop} (h : exec i s = putP s w v) (hP : P v) :
    PutsP i s w.d P := ⟨v, hP, h⟩

theorem eq_allOnes_iff (v : Pred) : v = BitVec.allOnes 128 ↔ ∀ j < 128, v.getLsbD j = true :=
  ⟨fun h j hj => by rw [h, BitVec.getLsbD_allOnes, decide_eq_true hj],
    fun h => BitVec.eq_of_getLsbD_eq fun j hj => by rw [h j hj, BitVec.getLsbD_allOnes, decide_eq_true hj]⟩

theorem ne_zero_iff (v : Pred) : v ≠ 0 ↔ ∃ j < 128, v.getLsbD j = true := by
  refine ⟨fun h => ?_, fun ⟨j, _, hj⟩ h => by simp [h] at hj⟩
  by_contra hc
  push Not at hc
  exact h (BitVec.eq_of_getLsbD_eq fun j hj => by simp [hc j hj])

/-! ## The next bundle (R13, R116 to R119) -/

theorem following_of_half {th : Thread} {h : Half} (hh : halfOf th th.curHalf = some h) (addr : Nat) :
    following th addr = if addr % 32 + 1 < h.len then addr + 1 else 32 * h.next := by
  rw [following, hh, Nat.mul_comm]

theorem me_endTurn_next (s : State) : (me (endTurn s s.cur.core s.cur.slot)).next = (me s).next := by
  have hme : me (endTurn s s.cur.core s.cur.slot) = thread (endTurn s s.cur.core s.cur.slot) s.cur.core s.cur.slot := rfl
  rw [hme, endTurn, thread_tick, thread_modThread_same, me]

/-- What a bundle that takes effect makes the next one. -/
theorem me_commit_next {s t : State} (l : List (Nat × Nat × Instr)) (hc : t.cur.core = s.cur.core) (hk : t.cur.slot = s.cur.slot) :
    (me (commit s t l)).next = t.cur.jump.getD (following (me s) s.cur.addr) := by
  unfold commit
  rw [← hc, ← hk]
  exact (me_endTurn_next _).trans (congrArg Thread.next (me_modMe t _))

end Sys2Proof.Machine

namespace Sys2Proof
open Machine Claim

/-- Settles O3: the fields bit by bit, and each sum of addresses in its form. -/
theorem movesFieldsAndAddresses : Obligations.MovesFieldsAndAddresses := by
  refine ⟨fun s w hw ha hb => ?_, fun s w hw => ?_⟩
  · intro c pos n
    have hpos : ctlPos (opB s w) = pos := by rw [ctlPos_eq, opB_eq_opnd]
    have hwid : ctlWid (opB s w) = n := by rw [ctlWid_eq, opB_eq_opnd]
    refine ⟨rfl, rfl, putsS_of_putS rfl ?_, fun m hm => putsS_of_putS rfl ?_, fun m hm => putsS_of_putS rfl ?_,
      putsS_of_putS rfl fun k hk => ?_, ?_, fun th l d hl hd => ?_, fun sv g hg hd hi => ?_⟩
    · rw [sextTo64_eq_signExtend (by decide), Nat.mul_comm]
    · rw [hm, sextTo64_eq_signExtend (by decide), Option.getD_some]
    · exact Nat.mod_eq_of_lt hm
    · rw [hpos, hwid, opB_eq_opnd]
      exact getLsbD_ext _ (by omega) (by omega) hk _
    · rw [← hpos, ← hwid]
      rfl
    · rw [applyAct_ins th hl hd]
      exact ⟨rfl, fun k hk => getLsbD_insMerge _ _ hk⟩
    · have hr : w.inRange 32 = true := SWord.inRange_iff.2 ⟨hd, ha, hb, hw⟩
      exact ⟨decodeS_of_row hg hr (by decide) (by decide) rfl (fieldCause_sss sv hi),
        decodeS_of_row hg hr (by decide) (by decide) rfl (fieldCause_sss sv hi)⟩
  · intro b col row ofs inside
    have hB : opB s w = b := opB_eq_opnd s w
    have hcol : (colOf s.cur.core : Int) + sextNat 5 (opB s w).toNat = col := by rw [hB, ← toInt_ofNat_eq_sextNat (by decide)]
    have hrow : (rowOf s.cur.core : Int) + sextNat 4 ((opB s w).toNat / 32) = row := by
      rw [hB, ← toInt_ofNat_eq_sextNat (by decide)]
    have hlea : exec (.lea w) s = if 0x1FFFFF < ofs then .next (trapNow s 0x40)
        else if col < 0 ∨ 15 < col ∨ row < 0 ∨ 7 < row then .next (trapNow s 0x42)
        else .next (landA s w.d (meshAddr s.node (dieOf s.cur.core) col.toNat row.toNat ofs)) := by
      rw [← hcol, ← hrow]
      rfl
    refine ⟨fun ho => hlea.trans (if_pos ho), fun ho hin => ?_, fun hn hc ho hin => ?_, fun x hx => ?_, ⟨_, rfl, ?_⟩,
      putsS_of_putS rfl ?_, putsS_of_putS rfl ?_, rfl, rfl, fun th l v hl => applyAct_movaHi th hl⟩
    · rw [Traps, hlea, if_neg (by omega), if_pos (by omega)]
    · have hd := dieOf_lt hc
      have hcol16 : col.toNat < 16 := by omega
      have hrow8 : row.toNat < 8 := by omega
      have hofs : ofs < 2 ^ 21 := by omega
      refine ⟨_, ?_, isMesh_meshAddr hn hd hcol16 hrow8 hofs, meshNode_meshAddr hn hd hcol16 hrow8 hofs,
        meshCore_meshAddr hn hd hcol16 hrow8 hofs, meshOfs_meshAddr hn hd hcol16 hrow8 hofs,
        meshRsvd_meshAddr hn hd hcol16 hrow8 hofs⟩
      rw [hlea, if_neg (by omega), if_neg (by omega)]
    · subst hx
      refine ⟨fun h1 h2 => execAdda_of_good ?_, fun h1 h2 => execAdda_of_bad (y := areg s w.a) ?_ (by decide), fun h1 h2 => ?_,
        fun h1 h2 => execAdda_of_bad (y := areg s w.a) ?_ (by decide)⟩
      · rw [hB, addAddr_plain h1, h2]; rfl
      · rw [hB, addAddr_plain h1, h2]; rfl
      · have ho : ((meshOfs (areg s w.a) : Int) + b.toInt).toNat < 2 ^ 21 := by omega
        obtain ⟨hhigh, hofs⟩ := meshOfs_of_replaced ho (toNat_replace_offset ho)
        exact ⟨_, execAdda_of_good (by rw [hB, addAddr_mesh_inside h1 h2]), hhigh, by omega⟩
      · rw [hB, addAddr_mesh_outside h1 h2]
    · have h := (body s w.a).isLt
      exact Nat.mod_eq_of_lt (show nat s w.a < 2 ^ 72 from h.trans (by decide))
    · exact BitVec.toNat_ofNat _ _
    · have h := (areg s w.a).isLt
      rw [BitVec.toNat_ofNat, Nat.mod_eq_of_lt (by omega)]

/-- Settles O4: a compare writes its bit to every lane, and the predicate instructions are those of `BitVec`. -/
theorem comparesAndPredicates : Obligations.ComparesAndPredicates := by
  refine ⟨fun s w hw => ?_, fun s w k hk => ?_⟩
  · intro a b u all
    have hall (p : Prop) [Decidable p] : all p (if decide p then BitVec.allOnes 128 else 0) := fun k hk => by
      rw [getLsbD_ite_allOnes _ hk, decide_eq_true_eq]
    simp only [a, b, u, ← opB_eq_opnd, ← opBz_eq_opnd s hw]
    exact ⟨putsP_of_putB rfl (hall _), putsP_of_putB rfl (hall _), putsP_of_putB rfl (hall _), putsP_of_putB rfl (hall _),
      putsP_of_putB rfl (hall _), putsP_of_putB rfl (hall _)⟩
  · refine ⟨putsP_of_putP rfl BitVec.getLsbD_and, putsP_of_putP rfl BitVec.getLsbD_or, putsP_of_putP rfl BitVec.getLsbD_xor,
      putsP_of_putP rfl ?_, putsP_of_putP rfl rfl, putsP_of_putB rfl ?_, putsP_of_putB rfl ?_⟩
    · simp [hk]
    · rw [getLsbD_ite_allOnes _ hk, decide_eq_true_eq, eq_allOnes_iff]
    · rw [getLsbD_ite_allOnes _ hk, decide_eq_true_eq, ne_zero_iff]

/-- Settles O13: each transfer is its own jump, and a bundle that takes effect goes on at its jump or behind itself. -/
theorem controlTransfersChooseTheNextBundle : Obligations.ControlTransfersChooseTheNextBundle := by
  intro s w n ret
  refine ⟨fun hi hn => ?_, rfl, rfl, rfl, fun h hh => ⟨fun hl => ?_, fun hl => ?_⟩, ?_, fun _ => rfl,
    fun t l hc hk => me_commit_next l hc hk⟩
  · have himm : w.imm.getD 0 % 2 ^ 29 = n := by rw [hi, Option.getD_some, Nat.mod_eq_of_lt hn]
    rw [← himm]
    exact ⟨rfl, rfl⟩
  · rw [following_of_half hh, if_pos hl]
  · rw [following_of_half hh, if_neg (Nat.not_lt.2 hl)]
  · exact ⟨_, rfl, me_modMe s _, rfl, fun c k hck => by
      rw [modMe, thread_modThread, if_neg fun he => hck (by rw [he.1, he.2])]⟩

end Sys2Proof

/-! # Accesses of the thread port

What an access that issues leaves under way, what it finds and what it makes of memory (R123 to R131, R201). -/

namespace Sys2Proof.Machine
open Claim

/-! ## Performing, in another state of the cores -/

/-- The state with other cores and another latch. -/
def reseat (s : State) (cs : Tab Core) (l : Latch) : State := { s with cores := cs, cur := l }

section
variable (cs : Tab Core) (l : Latch)

theorem foldl_reseat {α : Type} (f : State → α → State) (hf : ∀ s x, f (reseat s cs l) x = reseat (f s x) cs l) (xs : List α) (s : State) :
    xs.foldl f (reseat s cs l) = reseat (xs.foldl f s) cs l := by
  induction xs generalizing s with
  | nil => rfl
  | cons x r ih => rw [List.foldl_cons, hf, ih, List.foldl_cons]

theorem putBytes_reseat (s : State) (a : Nat) (b : List Nat) : putBytes (reseat s cs l) a b = reseat (putBytes s a b) cs l := by
  induction b generalizing s a with
  | nil => rfl
  | cons x r ih => exact ih (putByte s a (BitVec.ofNat 8 x)) (a + 1)

theorem storePieces_reseat (s : State) (ps : List (Nat × List Nat)) : storePieces (reseat s cs l) ps = reseat (storePieces s ps) cs l := by
  unfold storePieces
  rw [foldl_reseat _ _ _ fun x p => putBytes_reseat cs l x _ _]
  exact foldl_reseat cs l _ (fun x u => by rw [apply_ite (reseat · cs l)]; rfl) _ _

theorem performPort_reseat (s : State) (a : PortAccess) : performPort (reseat s cs l) a = reseat (performPort s a) cs l := by
  unfold performPort
  rw [storePieces_reseat]
  cases a.full with
  | none => rfl
  | some b => exact foldl_reseat cs l _ (fun _ _ => rfl) _ _

end

/-- What performs changes memory, full/empty bits and poison alone. -/
theorem performPort_others (s : State) (a : PortAccess) :
    { performPort s a with mem := s.mem, empty := s.empty, poison := s.poison } = s := by
  have hput (x : State) (k : Nat) (b : List Nat) : { putBytes x k b with mem := s.mem, empty := s.empty, poison := s.poison }
      = { x with mem := s.mem, empty := s.empty, poison := s.poison } := by
    induction b generalizing x k with
    | nil => rfl
    | cons y r ih => exact ih _ _
  have hstore : { storePieces s a.writes with mem := s.mem, empty := s.empty, poison := s.poison } = s := by
    unfold storePieces
    refine (foldl_keeps (fun x : State => { x with mem := s.mem, empty := s.empty, poison := s.poison }) _ _ (fun x u _ => ?_) _).trans
      (foldl_keeps (fun x : State => { x with mem := s.mem, empty := s.empty, poison := s.poison }) _ _ (fun x p _ => hput x _ _) s)
    split <;> rfl
  unfold performPort
  cases a.full with
  | none => exact hstore
  | some b =>
    exact (foldl_keeps (fun x : State => { x with mem := s.mem, empty := s.empty, poison := s.poison }) (fun x w => setFull x w b) _
      (fun _ _ _ => rfl) _).trans hstore

/-! ## Accesses under way (R124) -/

/-- Nothing has changed but that landings of the bundle at work and accesses of its core's port were added. -/
structure AddsAccesses (s t : State) (l : List PortAccess) : Prop where
  adds : AddsLandings s t
  port : (Machine.core t s.cur.core).port = (Machine.core s s.cur.core).port ++ l

theorem AddsAccesses.refl (s : State) : AddsAccesses s s [] := ⟨.refl s, (List.append_nil _).symm⟩

theorem AddsAccesses.trans {s t u : State} {l m : List PortAccess} (h : AddsAccesses s t l) (h' : AddsAccesses t u m) :
    AddsAccesses s u (l ++ m) :=
  ⟨h.adds.trans h'.adds, by
    have hp := h'.port
    rw [h.adds.core] at hp
    rw [hp, h.port, List.append_assoc]⟩

theorem AddsAccesses.land (s : State) {lat : Nat} (h : lat ∈ [1, 2, 3, 4]) (a : LandAct) (n : Nat) :
    AddsAccesses s (Machine.land s lat a n) [] :=
  ⟨.land s h a n, by rw [Machine.land, modMe, core_modThread, if_pos rfl, List.append_nil]⟩

theorem AddsAccesses.note (s : State) (n : Nat) : AddsAccesses s (Machine.note s n) [] := ⟨.note s n, (List.append_nil _).symm⟩

theorem AddsAccesses.tick (s : State) (kind n : Nat) : AddsAccesses s (Machine.tick s s.cur.core kind n) [] :=
  ⟨.tick s kind n, by rw [Machine.tick, core_modCore_same, List.append_nil]⟩

theorem AddsAccesses.portAccess (s : State) (touch : Pieces) (writes : List (Nat × List Nat)) (full : Option Bool) :
    AddsAccesses s (Machine.portAccess s touch writes full) [{ due := s.gcyc + 4, touch := touch, writes := writes, full := full }] :=
  ⟨.of_core (f := fun k => { k with port := k.port ++ [{ due := s.gcyc + 4, touch := touch, writes := writes, full := full }] }) _
    fun _ => rfl, portAccess_port s touch writes full⟩

theorem AddsAccesses.landFlags (s : State) (n : Nat) : AddsAccesses s (Machine.landFlags s n) [] := by
  unfold Machine.landFlags
  split
  · exact .refl s
  · exact (AddsAccesses.note s n).trans (.land _ (by decide) _ _)

/-- The bank words of an access are counted behind it. -/
theorem AddsAccesses.tickPort {s t : State} {l : List PortAccess} (h : AddsAccesses s t l) (n : Nat) :
    AddsAccesses s (Machine.tickPort t s.cur.core n) l := by
  have ht := h.trans (AddsAccesses.tick t 3 n)
  rwa [h.adds.core, List.append_nil] at ht

section
variable {s t : State} {a : PortAccess} (h : AddsAccesses s t [a])
include h

theorem AddsAccesses.issues (hd : a.due = s.gcyc + 4) : Claim.Issues s t := ⟨h.adds.only, a, h.port, hd⟩

/-- What is under way performs behind what its port held before. -/
theorem AddsAccesses.performed_eq : performed s t = reseat (performPort (found s) a) t.cores t.cur := by
  obtain ⟨hout, -⟩ := h.adds.only
  have ht : t = reseat s t.cores t.cur := (congrArg (fun x => reseat x t.cores t.cur) hout : _)
  unfold performed settled
  rw [h.port, List.foldl_append, List.foldl_cons, List.foldl_nil]
  conv_lhs => rw [ht]
  rw [foldl_reseat _ _ _ fun x b => performPort_reseat _ _ x b, performPort_reseat]
  rfl

theorem AddsAccesses.sameBits_of_load (hw : a.writes = []) (hf : a.full = none) : SameBits s t ∧ SameBytes s t := by
  have hp : performPort (found s) a = found s := by
    unfold performPort
    rw [hw, hf]
    rfl
  unfold SameBits SameBytes
  rw [h.performed_eq, hp]
  exact ⟨⟨rfl, rfl⟩, rfl, rfl⟩

end

/-! ## Pieces that are written -/

/-- The bytes of pieces written in order, those of a state block free (R9). -/
def writeAll (s : State) (l : List (Nat × List Nat)) : State := l.foldl (fun x p => putBytes x p.1 (storedBytes p.1 p.2)) s

/-- Whether byte `x` is one of a piece. -/
def Covers (p : Nat × List Nat) (x : Nat) : Prop := p.1 ≤ x ∧ x < p.1 + p.2.length

theorem length_storedBytes (a : Nat) (l : List Nat) : (storedBytes a l).length = l.length := by simp [storedBytes]

theorem getD_storedBytes {a x : Nat} {l : List Nat} (h : Covers (a, l) x) (hb : inBlock x = false) :
    (storedBytes a l).getD (x - a) 0 = l.getD (x - a) 0 := by
  obtain ⟨h1, h2⟩ := h
  have hlt : x - a < l.length := by dsimp only at h1 h2; omega
  have hx : a + (x - a) = x := Nat.add_sub_cancel' h1
  rw [List.getD_eq_getElem _ _ (by rwa [length_storedBytes]), List.getD_eq_getElem _ _ hlt]
  simp [storedBytes, hx, hb]

theorem getByte_storePieces (s : State) (l : List (Nat × List Nat)) (x : Nat) : getByte (storePieces s l) x = getByte (writeAll s l) x :=
  getByte_of_mem (foldl_keeps State.mem _ _ (fun y u _ => by split <;> rfl) _) x

theorem writeAll_append (s : State) (l m : List (Nat × List Nat)) : writeAll s (l ++ m) = writeAll (writeAll s l) m := List.foldl_append

theorem getByte_writeAll_of_not_mem {s : State} {l : List (Nat × List Nat)} {x : Nat} (h : ∀ p ∈ l, ¬ Covers p x) :
    getByte (writeAll s l) x = getByte s x :=
  foldl_keeps (getByte · x) _ l (fun y p hp => by
    rw [getByte_putBytes, length_storedBytes]
    exact if_neg (h p hp)) s

/-- A byte that some piece covers holds the value that all that cover it give it. -/
theorem getByte_writeAll_of_mem {l : List (Nat × List Nat)} {x v : Nat} (hb : inBlock x = false) (h : ∃ p ∈ l, Covers p x)
    (hv : ∀ p ∈ l, Covers p x → p.2.getD (x - p.1) 0 = v) (s : State) : getByte (writeAll s l) x = BitVec.ofNat 8 v := by
  induction l generalizing s with
  | nil => simp at h
  | cons p r ih =>
    have hr : ∀ q ∈ r, Covers q x → q.2.getD (x - q.1) 0 = v := fun q hq => hv q (List.mem_cons_of_mem p hq)
    by_cases hlater : ∃ q ∈ r, Covers q x
    · exact ih hlater hr _
    · push Not at hlater
      have hp : Covers p x := by
        obtain ⟨q, hq, hc⟩ := h
        obtain rfl | hq := List.mem_cons.1 hq
        · exact hc
        · exact absurd hc (hlater q hq)
      refine (getByte_writeAll_of_not_mem (s := putBytes s p.1 (storedBytes p.1 p.2)) hlater).trans ?_
      rw [getByte_putBytes, length_storedBytes, if_pos (show _ ∧ _ from hp), getD_storedBytes hp hb, hv p List.mem_cons_self hp]

/-- One piece. -/
theorem stores_writeAll (s : State) (a : Nat) (l : List Nat) : Stores s (writeAll s [(a, l)]) a l := by
  intro x
  split
  next h =>
    exact fun hb => getByte_writeAll_of_mem hb ⟨(a, l), List.mem_singleton_self _, h⟩ (fun p hp _ => by rw [List.mem_singleton.1 hp]) s
  next h => exact getByte_writeAll_of_not_mem fun p hp => by rw [List.mem_singleton.1 hp]; exact h

/-! ### Numbers -/

theorem length_leBytes (n v : Nat) : (leBytes n v).length = n := by simp [leBytes]

theorem getD_leBytes {n k : Nat} (h : k < n) (v : Nat) : (leBytes n v).getD k 0 = v / 256 ^ k % 256 := by
  rw [List.getD_eq_getElem _ _ (by rwa [length_leBytes])]
  simp [leBytes]

/-- The bytes of a number are those of the number modulo its width. -/
theorem leBytes_mod (n v : Nat) : leBytes n (v % 256 ^ n) = leBytes n v := by
  refine List.map_congr_left fun k hk => ?_
  have hn : 256 ^ n = 256 ^ k * (256 * 256 ^ (n - k - 1)) := by
    rw [← pow_succ', ← pow_add]
    congr 1
    have := List.mem_range.1 hk
    omega
  rw [hn, Nat.mod_mul_right_div_self, Nat.mod_mul_right_mod]

theorem numberAt_of_bytes {s : State} {a n v : Nat} (h : ∀ k < n, getByte s (a + k) = BitVec.ofNat 8 ((leBytes n v).getD k 0)) :
    numberAt s a n = v % 256 ^ n := by
  rw [← sum_leBytes]
  refine congrArg List.sum (List.map_congr_left fun k hk => ?_)
  have hk := List.mem_range.1 hk
  rw [h k hk, getD_leBytes hk, BitVec.toNat_ofNat, Nat.mod_mod]

theorem getNat_eq_numberAt (s : State) (a n : Nat) : getNat s a n = numberAt s a n := by
  induction n generalizing a with
  | zero => rfl
  | succ n ih =>
    rw [getNat, ih, numberAt, numberAt, List.range_succ_eq_map, List.map_cons, List.sum_cons, List.map_map, ← List.sum_map_mul_left]
    congr 1
    · simp
    · refine congrArg List.sum (List.map_congr_left fun k _ => ?_)
      rw [Function.comp, Nat.succ_eq_add_one, show a + 1 + k = a + (k + 1) by omega, pow_succ]
      ring

theorem numberAt_lt (s : State) (a n : Nat) : numberAt s a n < 256 ^ n := by
  rw [← getNat_eq_numberAt]
  induction n generalizing a with
  | zero => exact Nat.one_pos
  | succ n ih =>
    have hb := (getByte s a).isLt
    have hr := ih (a + 1)
    rw [getNat, pow_succ]
    omega

/-! ### Lanes that are stored in ascending order -/

section
variable {ls : List Nat} {pl v : Nat → Nat} {n : Nat}

/-- A lane's place holds its number unless a later lane writes there. -/
theorem numberAt_writeAll_lanes (hs : ls.Pairwise (· < ·)) {l : Nat} (hl : l ∈ ls) (hb : NoBlock (pl l) n)
    (hd : ∀ k ∈ ls, l < k → pl k + n ≤ pl l ∨ pl l + n ≤ pl k) (s : State) :
    numberAt (writeAll s (ls.map fun l => (pl l, leBytes n (v l)))) (pl l) n = v l % 256 ^ n := by
  obtain ⟨r1, r2, rfl⟩ := List.append_of_mem hl
  have hlater : ∀ k ∈ r2, l < k := (List.pairwise_cons.1 (List.pairwise_append.1 hs).2.1).1
  refine numberAt_of_bytes fun k hk => ?_
  rw [List.map_append, writeAll_append]
  refine getByte_writeAll_of_mem (hb _ (by omega) (by omega)) ⟨(pl l, leBytes n (v l)), by simp, by simp [Covers, length_leBytes, hk]⟩ ?_ _
  intro p hp hc
  obtain ⟨m, hm, rfl⟩ := List.mem_map.1 hp
  obtain rfl | hm := List.mem_cons.1 hm
  · rw [Nat.add_sub_cancel_left]
  · obtain ⟨h1, h2⟩ := hc
    rw [length_leBytes] at h2
    dsimp only at h1 h2
    have := hd m (by simp [hm]) (hlater m hm)
    omega

theorem getByte_writeAll_lanes_of_not_mem {x : Nat} (h : ∀ l ∈ ls, ¬ (pl l ≤ x ∧ x < pl l + n)) (s : State) :
    getByte (writeAll s (ls.map fun l => (pl l, leBytes n (v l)))) x = getByte s x :=
  getByte_writeAll_of_not_mem fun p hp hc => by
    obtain ⟨l, hl, rfl⟩ := List.mem_map.1 hp
    unfold Covers at hc
    rw [length_leBytes] at hc
    exact h l hl hc

end

/-! ## Poison (R201, R206) -/

/-- Both sizes of an ECC unit divide 64, and which it is shows above bit 5. -/
theorem eccUnit_congr {a b : Nat} (h : a / 64 = b / 64) : eccUnit a = eccUnit b := by
  have hl : 0x3000000000000 ≤ localOf a ↔ 0x3000000000000 ≤ localOf b := by
    unfold localOf
    split <;> split <;> omega
  simp only [eccUnit, hl]

theorem isPoison_congr {s : State} {a b : Nat} (h : a / 64 = b / 64) (h' : a / eccUnit a = b / eccUnit a) : isPoison s a = isPoison s b := by
  rw [isPoison, isPoison, ← eccUnit_congr h, h']

theorem eccUnit_eq (a : Nat) : eccUnit a = 16 ∨ eccUnit a = 64 := by
  unfold eccUnit
  split
  · exact .inl rfl
  · exact .inr rfl

/-- Each unit of an access has the poison of one of its bytes. -/
theorem exists_isPoison_of_mem_unitsOf (s : State) {a n u : Nat} (hn : 0 < n) (hu : u ∈ unitsOf a n) :
    ∃ x, a ≤ x ∧ x < a + n ∧ isPoison s u = isPoison s x := by
  obtain ⟨k, hk, rfl⟩ := List.mem_map.1 hu
  have hk := List.mem_range.1 hk
  by_cases hlow : a ≤ eccUnit a * (a / eccUnit a + k)
  · refine ⟨_, hlow, ?_, rfl⟩
    obtain h | h := eccUnit_eq a <;> rw [h] at hk ⊢ <;> omega
  · refine ⟨a, le_rfl, by omega, (isPoison_congr ?_ ?_).symm⟩
    · obtain h | h := eccUnit_eq a <;> rw [h] at hlow ⊢ <;> omega
    · obtain h | h := eccUnit_eq a <;> rw [h] at hlow ⊢ <;> omega

theorem clean_mono {s : State} {a n b m : Nat} (h : Clean s a n) (h1 : a ≤ b) (h2 : b + m ≤ a + n) : Clean s b m :=
  fun x hx1 hx2 => h x (by omega) (by omega)

theorem isPoison_unit_of_clean {s : State} {a n u : Nat} (h : Clean s a n) (hn : 0 < n) (hu : u ∈ unitsOf a n) : isPoison s u = false := by
  obtain ⟨x, h1, h2, he⟩ := exists_isPoison_of_mem_unitsOf s hn hu
  rw [he, h x h1 h2]

theorem readPoison_of_clean {s : State} {a n : Nat} (h : Clean s a n) (hn : 0 < n) : readPoison s a n = false := by
  rw [Machine.readPoison, List.any_eq_false]
  exact fun u hu => by rw [isPoison_unit_of_clean h hn hu]; exact Bool.false_ne_true

/-- An aligned access of at most eight bytes lies in one unit. -/
theorem readPoison_of_not_clean {s : State} {a n : Nat} (hn : n = 1 ∨ n = 2 ∨ n = 4 ∨ n = 8) (ha : a % n = 0) (h : ¬ Clean s a n) :
    readPoison s a n = true := by
  unfold Clean at h
  push Not at h
  obtain ⟨x, h1, h2, hp⟩ := h
  have hmem : eccUnit a * (a / eccUnit a) ∈ unitsOf a n := List.mem_map.2 ⟨0, by simp, by simp⟩
  refine List.any_eq_true.2 ⟨_, hmem, ?_⟩
  rw [← isPoison_congr (a := a)]
  · rw [isPoison_congr (b := x)]
    · exact eq_true_of_ne_false hp
    · obtain rfl | rfl | rfl | rfl := hn <;> omega
    · obtain h | h := eccUnit_eq a <;> rw [h] <;> obtain rfl | rfl | rfl | rfl := hn <;> omega
  · obtain h | h := eccUnit_eq a <;> rw [h] <;> omega
  · obtain h | h := eccUnit_eq a <;> rw [h] <;> omega

/-- Pieces none of which meets poison. -/
def CleanAll (s : State) (ps : Pieces) : Prop := ∀ p ∈ ps, 0 < p.2 ∧ Clean s p.1 p.2

theorem CleanAll.loadPoison {s : State} {ps : Pieces} (h : CleanAll s ps) : loadPoison s ps = false := by
  rw [Machine.loadPoison, List.any_eq_false]
  exact fun p hp => by rw [readPoison_of_clean (h p hp).2 (h p hp).1]; exact Bool.false_ne_true

theorem CleanAll.storePoison {s : State} {ps : Pieces} (h : CleanAll s ps) : storePoison s ps = false := by
  rw [Machine.storePoison, List.any_eq_false]
  intro p hp hany
  obtain ⟨u, hu, hpoison⟩ := List.any_eq_true.1 hany
  rw [isPoison_unit_of_clean (h p hp).2 (h p hp).1 hu] at hpoison
  exact Bool.false_ne_true hpoison

theorem cleanAll_singleton {s : State} {a n : Nat} (h : Clean s a n) (hn : 0 < n) : CleanAll s [(a, n)] :=
  fun p hp => by rw [List.mem_singleton.1 hp]; exact ⟨hn, h⟩

/-- A store where no unit is poisoned leaves every bit as it was. -/
theorem storePieces_bits {s : State} {l : List (Nat × List Nat)} (h : CleanAll s (l.map fun p => (p.1, p.2.length))) :
    (storePieces s l).empty = s.empty ∧ (storePieces s l).poison = s.poison := by
  have hw : (writeAll s l).empty = s.empty ∧ (writeAll s l).poison = s.poison := by
    have hput (x : State) (k : Nat) (b : List Nat) : (putBytes x k b).poison = x.poison := by
      induction b generalizing x k with
      | nil => rfl
      | cons y r ih => exact ih _ _
    exact ⟨foldl_keeps State.empty _ l (fun x p _ => putBytes_empty x _ _) s, foldl_keeps State.poison _ l (fun x p _ => hput x _ _) s⟩
  have hclean : ∀ u ∈ (l.map fun p => (p.1, p.2.length)).flatMap (fun p => unitsOf p.1 p.2), isPoison (writeAll s l) u = false := by
    intro u hu
    obtain ⟨p, hp, hu⟩ := List.mem_flatMap.1 hu
    have hu := isPoison_unit_of_clean (h p hp).2 (h p hp).1 hu
    rwa [isPoison, ← hw.2] at hu
  have hloop (us : List Nat) (ps : Pieces) (hus : ∀ u ∈ us, isPoison (writeAll s l) u = false) :
      us.foldl (fun x u => if isPoison x u && coversWord ps u then setPoison x u false else x) (writeAll s l) = writeAll s l := by
    induction us with
    | nil => rfl
    | cons u r ih =>
      rw [List.foldl_cons, hus u List.mem_cons_self]
      exact ih fun v hv => hus v (List.mem_cons_of_mem u hv)
  have hs : storePieces s l = writeAll s l := hloop _ _ hclean
  rw [hs]
  exact hw

section
variable {s t : State} {a : PortAccess} (h : AddsAccesses s t [a]) (hf : a.full = none)
include h hf

theorem AddsAccesses.getByte_performed (x : Nat) : getByte (performed s t) x = getByte (writeAll (found s) a.writes) x := by
  rw [h.performed_eq, ← getByte_storePieces, performPort, hf]
  rfl

theorem AddsAccesses.sameBits_of_store (hc : CleanAll (found s) (a.writes.map fun p => (p.1, p.2.length))) : SameBits s t := by
  have hp : performPort (found s) a = storePieces (found s) a.writes := by
    unfold performPort
    rw [hf]
  unfold SameBits
  rw [h.performed_eq, hp]
  exact storePieces_bits hc

end

/-! ## The place of an access (R123) -/

theorem localEa_eq_ea (s : State) (base ofs unit : Nat) {bits : Nat} (hb : 0 < bits) : localEa s base ofs bits unit = ea s base ofs bits unit := by
  rw [localEa, ea, toInt_ofNat_eq_sextNat hb]
  rfl

theorem toNat_mod {e : Int} {n : Nat} (h0 : 0 ≤ e) : (e.toNat % n : Nat) = 0 ↔ e % n = 0 := by
  obtain ⟨k, rfl⟩ := Int.eq_ofNat_of_zero_le h0
  rw [Int.toNat_natCast]
  exact_mod_cast Iff.rfl

section
variable {s : State} {e : Int} {size align : Nat}

theorem localCause_of_outside (h : ¬ (0 ≤ e ∧ e + size ≤ scratchLimit s.cur.core)) : localCause s s.cur.core e size align = 0x40 :=
  if_pos (by omega)

theorem localCause_of_unaligned (h0 : 0 ≤ e) (h1 : e + size ≤ scratchLimit s.cur.core) (h2 : e % align ≠ 0) :
    localCause s s.cur.core e size align = 0x41 := by
  rw [localCause, if_neg (by omega), if_pos fun h => h2 ((toNat_mod h0).1 h)]

theorem localCause_of_context (h0 : 0 ≤ e) (h1 : e + size ≤ scratchLimit s.cur.core) (h2 : e % align = 0)
    (hp : (Machine.core s s.cur.core).pre = true) (hs : isSvc s.cur.core = false) (hc : 0x1C0000 < e + size) :
    localCause s s.cur.core e size align = 0x44 := by
  rw [localCause, if_neg (by omega), if_neg (not_not.2 ((toNat_mod h0).2 h2)), if_pos ⟨hp, by simp [hs], by omega⟩]

theorem localCause_of_reachable (h : Reachable s e size align) : localCause s s.cur.core e size align = 0 := by
  obtain ⟨h0, h1, h2, h3⟩ := h
  rw [localCause, if_neg (by omega), if_neg (not_not.2 ((toNat_mod h0).2 h2)), if_neg]
  rintro ⟨hp, hs, hc⟩
  rcases h3 with h3 | h3 | h3
  · exact Bool.false_ne_true (h3.symm.trans hp)
  · rw [h3] at hs
    exact Bool.false_ne_true hs
  · omega

variable {bad : Nat → Bool} {k : Nat → State}

theorem withRange_of_cause {c : Nat} (h : localCause s s.cur.core e size align = c) (h0 : c ≠ 0) :
    withRange s e size align bad k = .next (trapNow s c) := by
  rw [withRange, withPlace, h]
  exact if_pos h0

theorem withRange_of_bad (h : Reachable s e size align) (hb : bad (at_ s e) = true) :
    withRange s e size align bad k = .next (trapNow s 0x65) := by
  rw [withRange, withPlace, localCause_of_reachable h]
  exact (if_neg (not_not.2 rfl)).trans (if_pos hb)

theorem withRange_of_good (h : Reachable s e size align) (hb : bad (at_ s e) = false) :
    withRange s e size align bad k = .next (tickPort (k (at_ s e)) s.cur.core ((size + 15) / 16)) := by
  rw [withRange, withPlace, localCause_of_reachable h]
  exact (if_neg (not_not.2 rfl)).trans (if_neg (by rw [show here s + e.toNat = at_ s e from rfl, hb]; exact Bool.false_ne_true))

end

/-! ## The thread at work beside its accesses -/

@[simp] theorem me_portAccess (s : State) (touch : Pieces) (writes : List (Nat × List Nat)) (full : Option Bool) :
    me (portAccess s touch writes full) = me s := thread_modCore_of_threads rfl _ _

@[simp] theorem me_tickPort (s : State) (c n : Nat) : me (tickPort s c n) = me s := thread_tick _ _ _ _ _ _

theorem me_land_congr {s t : State} (hm : me t = me s) (hp : t.cur.pos = s.cur.pos) (lat : Nat) (a : LandAct) (n : Nat) :
    me (land t lat a n) = me (land s lat a n) := by
  rw [me_land, me_land, landingOf, landingOf, hm, hp]

theorem me_landFlags_zero (s : State) : me (landFlags s 0) = me s := rfl

theorem me_landFlags {s : State} {n : Nat} (h : n ≠ 0) :
    (me (landFlags s n)).lands = insLanding (landingOf s 1 .nothing n) (me s).lands := by
  rw [landFlags, if_neg h, me_land]
  rfl

theorem cur_flags_landFlags {s : State} {n : Nat} (h : n ≠ 0) : (landFlags s n).cur.flags = flagOr s.cur.flags n := by
  rw [landFlags, if_neg h]
  rfl

/-! ## Elements of the L slot (Table 3.8) -/

theorem szBytes_of_le {sz : Nat} (h : sz ≤ 13) : szBytes sz = 1 ∨ szBytes sz = 2 ∨ szBytes sz = 4 ∨ szBytes sz = 8 := by
  unfold szBytes
  interval_cases sz <;> decide

theorem szBytes_pos {sz : Nat} (h : sz ≤ 13) : 0 < szBytes sz := by
  have := szBytes_of_le h
  omega

theorem extends_loadExt {sz x : Nat} (h : sz ≤ 13) (hx : x < 256 ^ szBytes sz) : Extends sz (szBytes sz) x (loadExt sz x) := by
  have h64 : x < 2 ^ 64 := by
    have := szBytes_of_le h
    obtain hn | hn | hn | hn := this <;> rw [hn] at hx <;> omega
  have hn : (BitVec.ofNat 64 x).toNat = x := (BitVec.toNat_ofNat _ _).trans (Nat.mod_eq_of_lt h64)
  unfold Extends
  by_cases hs : sz = 0 ∨ sz = 2 ∨ sz = 4
  · rw [if_pos hs]
    obtain rfl | rfl | rfl := hs <;> exact sextTo64_eq_signExtend (by decide) x
  · rw [if_neg hs]
    interval_cases sz <;> first | exact hn | exact absurd hs (by decide)

theorem le_of_fmtOf {t : Nat} {f : Fmt} (h : fmtOf t = some f) : t ≤ 14 := by
  by_contra hc
  obtain ⟨k, rfl⟩ : ∃ k, t = k + 15 := ⟨t - 15, by omega⟩
  cases h

/-- The format of a type code fills its bytes. -/
theorem pow_szBytes_of_fmtOf {sz : Nat} {f : Fmt} (hf : fmtOf sz = some f) (h14 : sz ≠ 14) : 256 ^ szBytes sz = 2 ^ f.width := by
  have hsz := le_of_fmtOf hf
  interval_cases sz <;> simp_all [fmtOf, szBytes] <;> subst hf <;> rfl

/-! ### What a settle stores fits its format (R57, R60) -/

theorem signed_lt {f : Fmt} {m : Nat} (neg : Bool) (h : m < 2 ^ (f.width - 1)) : f.signed neg m < 2 ^ f.width := by
  rw [two_pow_width, Fmt.signed]
  split <;> omega

theorem infBody_lt (f : Fmt) : f.infBody < 2 ^ (f.width - 1) := by cases f <;> decide

theorem canonNan_lt (f : Fmt) : f.canonNan < 2 ^ f.width := by cases f <;> decide

theorem overflowBody_lt (f : Fmt) (mode : RMode) (sat neg : Bool) : overflowBody f mode sat neg < 2 ^ f.width := by
  unfold overflowBody
  split
  · exact signed_lt neg (maxBody_lt f)
  · split
    · exact signed_lt neg (infBody_lt f)
    · exact canonNan_lt f

theorem settleCode_lt (f : Fmt) (mode : RMode) (sat top neg : Bool) (c : Nat) : (settleCode f mode sat top neg c).1 < 2 ^ f.width := by
  unfold settleCode
  extract_lets g r b mag nx uf
  split
  · exact overflowBody_lt f mode sat neg
  next h =>
    refine signed_lt neg (lt_of_le_of_lt ?_ (maxBody_lt f))
    simp only [Bool.or_eq_true, decide_eq_true_eq, not_or, not_lt] at h
    exact h.2

theorem settleFin_lt (f : Fmt) (mode : RMode) (sat : Bool) (x : Exact) : (settleFin f mode sat x).1 < 2 ^ f.width := by
  cases x with
  | nan => exact canonNan_lt f
  | inf neg =>
    rw [settleFin]
    split
    · split
      · exact signed_lt neg (maxBody_lt f)
      · exact signed_lt neg (infBody_lt f)
    · exact settleCode_lt f mode sat true neg _
  | fin neg m e st => exact settleCode_lt f mode sat true neg _

theorem settle_lt {g : Fmt} {h : Held} (hb : h.body < 2 ^ g.width) (f : Fmt) (mode : RMode) (sat : Bool) :
    (settle g h f mode sat).1 < 2 ^ f.width := by
  unfold settle
  split
  · split
    · exact signed_lt _ (maxBody_lt f)
    · split
      next hfg => rw [hfg]; exact hb
      next => exact canonNan_lt f
  · exact settleFin_lt f mode sat _

end Sys2Proof.Machine

/-! # Loads, stores and atomics of the scratchpad

The instructions of R123 to R131 as accesses of the thread port. -/

namespace Sys2Proof.Machine
open Claim

/-! ## What a load and a store leave under way -/

/-- The load of a result that lands: nothing of memory changes with it. -/
theorem load_underway (s : State) {lat : Nat} (h : lat ∈ [1, 2, 3, 4]) (act : LandAct) (touch : Pieces) (n : Nat) :
    let t := tickPort (portAccess (land s lat act 0) touch [] none) s.cur.core n
    Claim.Issues s t ∧ SameBits s t ∧ SameBytes s t ∧ t.cur = s.cur ∧ (me t).lands = (me (land s lat act 0)).lands := by
  intro t
  have ha : AddsAccesses s t [{ due := s.gcyc + 4, touch := touch, writes := [], full := none }] :=
    ((AddsAccesses.land s h act 0).trans (.portAccess _ touch [] none)).tickPort n
  obtain ⟨hbits, hbytes⟩ := ha.sameBits_of_load rfl rfl
  exact ⟨ha.issues rfl, hbits, hbytes, rfl, by rw [me_tickPort, me_portAccess]⟩

/-- An access is under way that writes the pieces `l` and leaves every full/empty bit and every poison mark. -/
structure Writes (s t : State) (l : List (Nat × List Nat)) : Prop where
  issues : Claim.Issues s t
  bits : SameBits s t
  byte : ∀ x, getByte (performed s t) x = getByte (writeAll (found s) l) x

section
variable {s t : State}

theorem writes_of_addsAccesses {touch : Pieces} {l : List (Nat × List Nat)} (hc : CleanAll (found s) (l.map fun p => (p.1, p.2.length)))
    (h : AddsAccesses s t [{ due := s.gcyc + 4, touch := touch, writes := l, full := none }]) : Writes s t l :=
  ⟨h.issues rfl, h.sameBits_of_store rfl hc, h.getByte_performed rfl⟩

theorem Writes.number {l : List (Nat × List Nat)} (h : Writes s t l) (a n : Nat) :
    numberAt (performed s t) a n = numberAt (writeAll (found s) l) a n :=
  congrArg List.sum (List.map_congr_left fun k _ => by rw [h.byte])

theorem Writes.stores {a : Nat} {l : List Nat} (h : Writes s t [(a, l)]) : Stores (found s) (performed s t) a l := by
  intro x
  have hx := stores_writeAll (found s) a l x
  rw [h.byte]
  exact hx

end

/-- The state that a store and the flags of its settle leave. -/
def stored (s : State) (touch : Pieces) (l : List (Nat × List Nat)) (fl n : Nat) : State :=
  tickPort (landFlags (portAccess s touch l none) fl) s.cur.core n

section
variable {s : State} {touch : Pieces} {l : List (Nat × List Nat)}

theorem writes_stored (hc : CleanAll (found s) (l.map fun p => (p.1, p.2.length))) (fl n : Nat) : Writes s (stored s touch l fl n) l :=
  writes_of_addsAccesses hc (((AddsAccesses.portAccess s touch l none).trans (.landFlags _ fl)).tickPort n)

theorem stored_of_no_flags (n : Nat) : (stored s touch l 0 n).cur = s.cur ∧ (me (stored s touch l 0 n)).lands = (me s).lands :=
  ⟨rfl, by rw [stored, me_tickPort, me_landFlags_zero, me_portAccess]⟩

theorem stored_of_flags {fl : Nat} (h : fl ≠ 0) (n : Nat) :
    (stored s touch l fl n).cur.flags = flagOr s.cur.flags fl
      ∧ (me (stored s touch l fl n)).lands = insLanding (landingOf s 1 .nothing fl) (me s).lands := by
  refine ⟨cur_flags_landFlags h, ?_⟩
  rw [stored, me_tickPort, me_landFlags h, me_portAccess, landingOf, landingOf, me_portAccess]
  rfl

end

/-! ## LD and ST (R123, R126) -/

/-- A place of the scratchpad has the alignment of its offset. -/
theorem at_mod {s : State} {e : Int} {n : Nat} (hn : n = 1 ∨ n = 2 ∨ n = 4 ∨ n = 8) (h0 : 0 ≤ e) (h : e % n = 0) : at_ s e % n = 0 := by
  have he := (toNat_mod h0).2 h
  unfold at_ scratch
  split <;> obtain rfl | rfl | rfl | rfl := hn <;> omega

theorem exec_ld_eq (s : State) (w : LWord) :
    exec (.ld w) s = withRange s (ea s w.base w.ofs 16 (szBytes w.sz)) (szBytes w.sz) (szBytes w.sz)
      (fun a => readPoison (found s) a (szBytes w.sz))
      (fun a => portAccess (landW s w.data 2 (loadExt w.sz (numberAt (found s) a (szBytes w.sz)))) [(a, szBytes w.sz)] [] none) := by
  simp only [← getNat_eq_numberAt, ← localEa_eq_ea s w.base w.ofs (szBytes w.sz) (show 0 < 16 by decide)]
  rfl

theorem exec_st_eq (s : State) (w : LWord) :
    exec (.st w) s = withRange s (ea s w.base w.ofs 16 (szBytes w.sz)) (szBytes w.sz) (szBytes w.sz)
      (fun a => storePoison (found s) [(a, szBytes w.sz)])
      (fun a => landFlags (portAccess s [(a, szBytes w.sz)]
          [(a, leBytes (szBytes w.sz) (storeVal s.cur.cvp w.sz (w.md2 = 1) (sreg s w.data)).1)] none)
        (storeVal s.cur.cvp w.sz (w.md2 = 1) (sreg s w.data)).2) := by
  rw [← localEa_eq_ea s w.base w.ofs (szBytes w.sz) (show 0 < 16 by decide)]
  rfl

theorem scalar_traps {s : State} {w : LWord} {i : Instr} (hi : i = .ld w ∨ i = .st w) {c : Nat} (hc : c ≠ 0)
    (h : localCause s s.cur.core (ea s w.base w.ofs 16 (szBytes w.sz)) (szBytes w.sz) (szBytes w.sz) = c) : Traps i s c := by
  obtain rfl | rfl := hi
  · exact (exec_ld_eq s w).trans (withRange_of_cause h hc)
  · exact (exec_st_eq s w).trans (withRange_of_cause h hc)

/-- The pieces of one number. -/
theorem cleanAll_leBytes {s : State} {a n : Nat} (h : Clean s a n) (hn : 0 < n) (v : Nat) :
    CleanAll s ([(a, leBytes n v)].map fun p => (p.1, p.2.length)) := by
  rw [List.map_singleton, length_leBytes]
  exact cleanAll_singleton h hn

section
variable {s : State} {w : LWord} {e : Int} (he : e = ea s w.base w.ofs 16 (szBytes w.sz))
  (hr : Reachable s e (szBytes w.sz) (szBytes w.sz)) (hsz : w.sz ≤ 13) (hc : Clean (found s) (at_ s e) (szBytes w.sz))
include he hr hsz hc

theorem exec_ld : exec (.ld w) s = .next (tickPort (portAccess (landW s w.data 2 (loadExt w.sz (numberAt (found s) (at_ s e) (szBytes w.sz))))
    [(at_ s e, szBytes w.sz)] [] none) s.cur.core ((szBytes w.sz + 15) / 16)) := by
  subst he
  rw [exec_ld_eq, withRange_of_good (bad := fun a => readPoison (found s) a (szBytes w.sz)) hr
    (readPoison_of_clean hc (szBytes_pos hsz))]

/-- ST with the number it stores and the flags of its settle. -/
theorem exec_st {r : Nat × Nat} (hv : storeVal s.cur.cvp w.sz (w.md2 = 1) (sreg s w.data) = r) :
    ∃ t, exec (.st w) s = .next t ∧ Claim.Issues s t ∧ SameBits s t
      ∧ Stores (found s) (performed s t) (at_ s e) (leBytes (szBytes w.sz) r.1)
      ∧ (r.2 = 0 → t.cur = s.cur ∧ (me t).lands = (me s).lands)
      ∧ (r.2 ≠ 0 → t.cur.flags = flagOr s.cur.flags r.2 ∧ (me t).lands = insLanding (landingOf s 1 .nothing r.2) (me s).lands) := by
  subst he
  rw [exec_st_eq, withRange_of_good hr (cleanAll_singleton hc (szBytes_pos hsz)).storePoison, hv]
  have hw := writes_stored (touch := [(at_ s (ea s w.base w.ofs 16 (szBytes w.sz)), szBytes w.sz)])
    (cleanAll_leBytes hc (szBytes_pos hsz) r.1) r.2 ((szBytes w.sz + 15) / 16)
  refine ⟨_, rfl, hw.issues, hw.bits, hw.stores, fun h0 => ?_, fun h0 => stored_of_flags h0 _⟩
  rw [h0]
  exact stored_of_no_flags _

end

/-! ### The port in its cycle (R124, R201) -/

theorem wakeCore_of_no_retry {s : State} {c : Nat} (h : retryOf s (16 + c) = []) : wakeCore s c = s := by
  unfold wakeCore wakeHome
  rw [h]
  split
  · rfl
  · rfl

/-- The core as its port leaves it. -/
def portCore (s : State) (c : Nat) : Core :=
  { core s c with port := (core s c).port.filter (fun a => s.gcyc ≤ a.due), waits := [] }

theorem stepPort_eq {s : State} {c : Nat} (hs : isSvc c = false) (hw : (core s c).waits = []) (hr : retryOf s (16 + c) = []) :
    stepPort s c = reseat (((core s c).port.filter (fun a => a.due = s.gcyc)).foldl performPort s) (tset s.cores c (portCore s c)) s.cur := by
  have hperform := foldl_reseat (tset s.cores c (portCore s c)) s.cur performPort (fun x a => performPort_reseat _ _ x a)
    ((core s c).port.filter (fun a => a.due = s.gcyc)) s
  have hretry (l : List PortAccess) : (l.foldl performPort s).retry = s.retry :=
    foldl_keeps State.retry performPort l (fun x a _ => (congrArg State.retry (performPort_others x a) : _)) s
  unfold stepPort
  simp only [hw, hs, Bool.false_eq_true, if_false, List.map_nil, List.nil_append]
  rw [wakeCore_of_no_retry]
  · exact hperform
  · refine (congrArg (fun x => retryOf x (16 + c)) hperform : _).trans ?_
    exact (congrArg (fun r => tget [] r (16 + c)) (hretry _)).trans hr

theorem core_reseat_tset (s : State) (t : Tab Core) (c : Nat) (k : Core) (l : Latch) : core (reseat s (tset t c k) l) c = k :=
  tget_tset_same _ _ _ _

theorem portsPerformInTheirCycle {s : State} {c : Nat} (hs : isSvc c = false) (hw : (core s c).waits = [])
    (hr : retryOf s (16 + c) = []) :
    let p := (core s c).port
    let t := stepPort s c
    ((∀ a ∈ p, s.gcyc < a.due) → t.mem = s.mem ∧ t.empty = s.empty ∧ t.poison = s.poison ∧ (core t c).port = p)
    ∧ ((∀ a ∈ p, a.due = s.gcyc) → t.mem = (settled s c).mem ∧ t.empty = (settled s c).empty ∧ t.poison = (settled s c).poison
        ∧ (core t c).port = p)
    ∧ ((∀ a ∈ p, a.due < s.gcyc) → t.mem = s.mem ∧ (core t c).port = []) := by
  intro p t
  have ht : t = _ := stepPort_eq hs hw hr
  rw [ht, core_reseat_tset]
  refine ⟨fun h => ?_, fun h => ?_, fun h => ?_⟩
  · have hnow : p.filter (fun a => a.due = s.gcyc) = [] :=
      List.filter_eq_nil_iff.2 fun a ha => by simp [(h a ha).ne']
    have hkept : p.filter (fun a => s.gcyc ≤ a.due) = p := List.filter_eq_self.2 fun a ha => by simp [(h a ha).le]
    rw [hnow]
    exact ⟨rfl, rfl, rfl, hkept⟩
  · have hnow : p.filter (fun a => a.due = s.gcyc) = p := List.filter_eq_self.2 fun a ha => by simp [h a ha]
    have hkept : p.filter (fun a => s.gcyc ≤ a.due) = p := List.filter_eq_self.2 fun a ha => by simp [h a ha]
    rw [hnow]
    exact ⟨rfl, rfl, rfl, hkept⟩
  · have hnow : p.filter (fun a => a.due = s.gcyc) = [] := List.filter_eq_nil_iff.2 fun a ha => by simp [(h a ha).ne]
    have hkept : p.filter (fun a => s.gcyc ≤ a.due) = [] :=
      List.filter_eq_nil_iff.2 fun a ha => by simp [Nat.not_le.2 (h a ha)]
    rw [hnow]
    exact ⟨rfl, hkept⟩

end Sys2Proof.Machine

namespace Sys2Proof
open Machine Claim

/-- Settles O23: the checks in their order, the access under way, and the cycle in which it performs. -/
theorem localAccesses : Obligations.LocalAccesses := by
  refine ⟨fun s w i hi hsz hofs => ?_, fun s w hsz hofs => ?_, fun s c hs hw hr => portsPerformInTheirCycle hs hw hr⟩
  · intro n a good
    refine ⟨fun h => scalar_traps hi (by decide) (localCause_of_outside h),
      fun h ha => scalar_traps hi (by decide) (localCause_of_unaligned h.1 h.2 ha),
      fun h ha hp hs hc => scalar_traps hi (by decide) (localCause_of_context h.1 h.2 ha hp hs hc), fun h hr hc => ?_⟩
    subst h
    have hal : at_ s a % n = 0 := at_mod (szBytes_of_le hsz) hr.1 hr.2.2.1
    have hbad := readPoison_of_not_clean (szBytes_of_le hsz) hal hc
    rw [Traps, exec_ld_eq, withRange_of_bad hr hbad]
  · intro n a hr hc
    have hn : 0 < n := szBytes_pos hsz
    refine ⟨?_, fun hf => ?_, fun f hf => ?_⟩
    · obtain ⟨h1, h2, h3, h4, h5⟩ := load_underway s (lat := 2) (by decide) (.sreg (physS (me s) w.data)
        { body := loadExt w.sz (numberAt (found s) a n), tail := 0 }) [(a, n)] ((n + 15) / 16)
      exact ⟨_, _, extends_loadExt hsz (numberAt_lt _ _ _), exec_ld rfl hr hsz hc, h1, h2, h3, h4, h5⟩
    · have hv : storeVal s.cur.cvp w.sz (w.md2 = 1) (sreg s w.data) = ((body s w.data).toNat % 256 ^ n, 0) := by
        rw [storeVal, hf, show (256 : Nat) = 2 ^ 8 from rfl, ← pow_mul]
        rfl
      obtain ⟨t, hx, hi, hb, hst, hl, -⟩ := exec_st rfl hr hsz hc hv
      rw [leBytes_mod] at hst
      exact ⟨t, hx, hi, hb, hst, hl rfl⟩
    · have hv : storeVal s.cur.cvp w.sz (w.md2 = 1) (sreg s w.data) = settle (if w.md2 = 1 then Fmt.f32 else f)
          ((sreg s w.data).held (if w.md2 = 1 then Fmt.f32 else f)) f s.cur.cvp.mode s.cur.cvp.sat := by
        simp only [storeVal, hf, decide_eq_true_eq]
      obtain ⟨t, hx, hi, hb, hst, hl, hfl⟩ := exec_st rfl hr hsz hc hv
      exact ⟨t, hx, hi, hb, hst, fun h0 => (hl h0).2, hfl⟩

end Sys2Proof

/-! # Vector accesses and atomics of the scratchpad

Lanes stored and loaded in ascending order (R127 to R130), and ATOM (R131). -/

namespace Sys2Proof.Machine
open Claim

/-! ## Active lanes -/

theorem mem_activeLanes {s : State} {l : Nat} : l ∈ activeLanes s ↔ Active s l := by
  simp [activeLanes, Active, guardBit]

theorem activeLanes_pairwise (s : State) : (activeLanes s).Pairwise (· < ·) := List.pairwise_lt_range.filter _

theorem activeLanes_of_none {s : State} (h : ∀ l, ¬ Active s l) : activeLanes s = [] :=
  List.eq_nil_iff_forall_not_mem.2 fun l hl => h l (mem_activeLanes.1 hl)

theorem activeLanes_not_isEmpty {s : State} (h : ∃ l, Active s l) : (activeLanes s).isEmpty = false := by
  obtain ⟨l, hl⟩ := h
  rw [List.isEmpty_eq_false_iff]
  exact List.ne_nil_of_mem (mem_activeLanes.2 hl)

theorem vecSize_eq (s : State) {n m : Nat} (h : n = 128 * m) : vecSize s n = m * laneCount s := by
  unfold vecSize laneCount
  split <;> omega

theorem laneCount_even (s : State) : laneCount s % 2 = 0 := by
  unfold laneCount
  split <;> rfl

theorem vecSize_half (s : State) : vecSize s 64 = laneCount s / 2 := by
  unfold vecSize laneCount
  split <;> rfl

theorem cleanAll_map {s : State} {n : Nat} (hn : 0 < n) {pl : Nat → Nat} {ls : List Nat} (h : ∀ l ∈ ls, Clean s (pl l) n) :
    CleanAll s (ls.map fun l => (pl l, n)) := by
  intro p hp
  obtain ⟨l, hl, rfl⟩ := List.mem_map.1 hp
  exact ⟨hn, h l hl⟩

theorem cleanAll_lanes {s : State} {n : Nat} (hn : 0 < n) {pl : Nat → Nat} {ls : List Nat} (h : ∀ l ∈ ls, Clean s (pl l) n) (v : Nat → Nat) :
    CleanAll s ((ls.map fun l => (pl l, leBytes n (v l))).map fun p => (p.1, p.2.length)) := by
  simp only [List.map_map, Function.comp_def, length_leBytes]
  exact cleanAll_map hn h

/-! ## LDV (R127) -/

section
variable {s : State} {w : LWord} {e : Int} (he : e = ea s w.base w.ofs 16 64)
include he

theorem exec_ldv (ha : ∃ l, Active s l) (hr : Reachable s e (if w.md2 = 1 then 64 else 4 * laneCount s) 64)
    (hc : Clean (found s) (at_ s e) (if w.md2 = 1 then 64 else 4 * laneCount s)) :
    exec (.ldv w) s = .next (tickPort (portAccess
      (landV s w.data 2 (readLanes (found s) (w.md2 = 1) (at_ s e) (activeLanes s)))
      ((activeLanes s).map fun l => (lanePlace (w.md2 = 1) (at_ s e) l, 4)) [] none) s.cur.core
      (((if w.md2 = 1 then 64 else 4 * laneCount s) + 15) / 16)) := by
  have hclean : CleanAll (found s) ((activeLanes s).map fun l => (lanePlace (w.md2 = 1) (at_ s e) l, 4)) :=
    cleanAll_map (by decide) fun l hl => by
      have hlt := (mem_activeLanes.1 hl).1
      unfold lanePlace
      by_cases h : w.md2 = 1
      · rw [if_pos h] at hc
        rw [if_pos (decide_eq_true h)]
        exact clean_mono hc (by omega) (by omega)
      · rw [if_neg h] at hc
        rw [if_neg (by simpa using h)]
        exact clean_mono hc (by omega) (by omega)
  have hgood := withRange_of_good (bad := fun a => loadPoison (found s) ((activeLanes s).map fun l => (lanePlace (w.md2 = 1) a l, 4)))
    (k := fun a => portAccess (landV s w.data 2 (readLanes (found s) (w.md2 = 1) a (activeLanes s)))
      ((activeLanes s).map fun l => (lanePlace (w.md2 = 1) a l, 4)) [] none) hr hclean.loadPoison
  rw [← hgood, he, ← localEa_eq_ea s w.base w.ofs 64 (by decide)]
  show execLdv w s = _
  simp only [execLdv, activeLanes_not_isEmpty ha, Bool.false_eq_true, if_false, decide_eq_true_eq, vecEa, vecSize_eq s (show 512 = 128 * 4 from rfl)]

end

/-- The lanes that a vector load lands, as they stand at their places. -/
theorem laneListOf_readLanes (s : State) (bcast : Bool) (a : Nat) :
    LaneListOf s (readLanes (found s) bcast a (activeLanes s)) (fun l x => x.tail = 0
      ∧ x.data.toNat = numberAt (found s) (if bcast then a + 4 * (l % 16) else a + 4 * l) 4) := by
  have hfst : (readLanes (found s) bcast a (activeLanes s)).map Prod.fst = activeLanes s := by
    rw [readLanes, List.map_map]
    exact List.map_id _
  refine ⟨by rw [hfst]; exact activeLanes_pairwise s, fun l => by rw [hfst, mem_activeLanes], fun p hp => ?_⟩
  obtain ⟨l, -, rfl⟩ := List.mem_map.1 hp
  refine ⟨rfl, ?_⟩
  have hlt := numberAt_lt (found s) (lanePlace bcast a l) 4
  rw [BitVec.toNat_ofNat, getNat_eq_numberAt, Nat.mod_eq_of_lt (by omega)]
  rfl

/-! ## Stores of lanes at places of their own (R128, R129) -/

section
variable {s t : State} {ls : List Nat} {pl v : Nat → Nat} {n : Nat} (h : Writes s t (ls.map fun l => (pl l, leBytes n (v l))))
include h

theorem Writes.lane (hs : ls.Pairwise (· < ·)) {l : Nat} (hl : l ∈ ls) (hb : NoBlock (pl l) n)
    (hd : ∀ k ∈ ls, l < k → pl k + n ≤ pl l ∨ pl l + n ≤ pl k) : numberAt (performed s t) (pl l) n = v l % 256 ^ n := by
  rw [h.number, numberAt_writeAll_lanes hs hl hb hd]

theorem Writes.lane_rest {x : Nat} (hx : ∀ l ∈ ls, ¬ (pl l ≤ x ∧ x < pl l + n)) : getByte (performed s t) x = getByte (found s) x := by
  rw [h.byte, getByte_writeAll_lanes_of_not_mem hx]

end

/-- Places one after another do not overlap. -/
theorem places_disjoint (a : Nat) {n l k : Nat} (h : l < k) : a + n * k + n ≤ a + n * l ∨ a + n * l + n ≤ a + n * k := by
  have := Nat.mul_le_mul_left n (Nat.succ_le_of_lt h)
  rw [Nat.mul_succ] at this
  omega

/-- A store of lanes that finds its place good. -/
theorem exec_lanes {s : State} {i : Instr} {e : Int} {size al n : Nat} {ls : List Nat} {pl : Nat → Nat → Nat} {v fl : Nat → Nat}
    (hx : exec i s = withRange s e size al (fun a => storePoison (found s) (ls.map fun l => (pl a l, n)))
      (fun a => landFlags (portAccess s (ls.map fun l => (pl a l, n)) (ls.map fun l => (pl a l, leBytes n (v l))) none) (fl a)))
    (hr : Reachable s e size al) (hn : 0 < n) (hc : ∀ l ∈ ls, Clean (found s) (pl (at_ s e) l) n) :
    ∃ t, exec i s = .next t ∧ Writes s t (ls.map fun l => (pl (at_ s e) l, leBytes n (v l))) :=
  ⟨_, hx.trans (withRange_of_good (bad := fun a => storePoison (found s) (ls.map fun l => (pl a l, n))) hr
    (cleanAll_map hn hc).storePoison), writes_stored (cleanAll_lanes hn hc v) _ _⟩

theorem clean_lane {s : State} {a n l : Nat} (hc : Clean (found s) a (n * laneCount s)) (hl : l ∈ activeLanes s) :
    Clean (found s) (a + n * l) n := by
  have hle := Nat.mul_le_mul_left n (Nat.succ_le_of_lt (mem_activeLanes.1 hl).1)
  rw [Nat.mul_succ] at hle
  exact clean_mono hc (by omega) (by omega)

section
variable {s : State} {w : LWord} (ha : ∃ l, Active s l)
include ha

/-- The image form of STV. -/
theorem exec_stv_image (hm : w.md2 = 0) {e : Int} (he : e = ea s w.base w.ofs 16 64) (hr : Reachable s e (4 * laneCount s) 64)
    (hc : Clean (found s) (at_ s e) (4 * laneCount s)) :
    ∃ t, exec (.stv w) s = .next t ∧ Writes s t ((activeLanes s).map fun l =>
      (at_ s e + 4 * l, leBytes 4 (storeLane s.cur.cvp w.sz (vlane s w.data l)).1)) := by
  subst he
  refine exec_lanes (fl := fun a => (imageBytes s w a (activeLanes s)).2) (pl := fun a l => a + 4 * l) ?_ hr (by decide)
    fun l hl => clean_lane hc hl
  rw [← localEa_eq_ea s w.base w.ofs 64 (by decide)]
  show execStv w s = _
  simp only [execStv, hm, storeImage, activeLanes_not_isEmpty ha, Bool.false_eq_true, if_false, vecEa,
    vecSize_eq s (show 512 = 128 * 4 from rfl), show ¬ (0 = 1) by decide, laneAt, imageBytes, List.map_map, Function.comp_def]

/-- The narrowing form into a type of whole bytes. -/
theorem exec_stv_narrow (hm : w.md2 = 1) (h14 : w.sz ≠ 14) {n : Nat} (h : szBytes w.sz = n) (hn : 0 < n) {e : Int}
    (he : e = ea s w.base w.ofs 16 (16 * n)) (hr : Reachable s e (n * laneCount s) (16 * n))
    (hc : Clean (found s) (at_ s e) (n * laneCount s)) :
    ∃ t, exec (.stv w) s = .next t ∧ Writes s t ((activeLanes s).map fun l =>
      (at_ s e + n * l, leBytes n (narrowLane s.cur.cvp w.sz (vlane s w.data l)).1)) := by
  subst h he
  refine exec_lanes (pl := fun a l => a + szBytes w.sz * l)
    (fl := fun _ => ((activeLanes s).map fun l => (l, narrowLane s.cur.cvp w.sz (vlane s w.data l))).foldl (fun f p => flagOr f p.2.2) 0)
    ?_ hr hn fun l hl => clean_lane hc hl
  rw [← localEa_eq_ea s w.base w.ofs _ (by decide)]
  show execStv w s = _
  simp only [execStv, hm, storeNarrow, activeLanes_not_isEmpty ha, Bool.false_eq_true, if_false, if_true, if_neg h14, vecEa,
    vecSize_eq s (show 128 * szBytes w.sz = 128 * szBytes w.sz from rfl), List.map_map, Function.comp_def]

end

/-! ### Nibbles (R128) -/

/-- The half byte of lane `l`. -/
def nibbleAt (s : State) (a l : Nat) : Nat := (getByte s (a + l / 2)).toNat / 16 ^ (l % 2) % 16

theorem nibbleAt_putNibble (s : State) (a k l v : Nat) : nibbleAt (putNibble s a k v) a l = if k = l then v % 16 else nibbleAt s a l := by
  have hb := (getByte s (a + k / 2)).isLt
  simp only [nibbleAt, putNibble, getByte_putByte]
  by_cases h : a + k / 2 = a + l / 2
  · rw [if_pos h, ← h, BitVec.toNat_ofNat]
    rcases Nat.mod_two_eq_zero_or_one k with hk | hk <;> rcases Nat.mod_two_eq_zero_or_one l with hl | hl <;>
      simp only [hk, hl, if_true, Nat.one_ne_zero, if_false] <;> split <;> omega
  · rw [if_neg h, if_neg (by rintro rfl; exact h rfl)]

/-- The nibbles of lanes replaced one after another. -/
def putNibbles (s : State) (a : Nat) (v : Nat → Nat) (ls : List Nat) : State := ls.foldl (fun x l => putNibble x a l (v l)) s

theorem nibbleAt_putNibbles (s : State) (a : Nat) (v : Nat → Nat) (ls : List Nat) (l : Nat) :
    nibbleAt (putNibbles s a v ls) a l = if l ∈ ls then v l % 16 else nibbleAt s a l := by
  induction ls generalizing s with
  | nil => rfl
  | cons k r ih =>
    refine (ih _).trans ?_
    rw [nibbleAt_putNibble]
    by_cases hr : l ∈ r
    · rw [if_pos hr, if_pos (List.mem_cons_of_mem k hr)]
    · by_cases hk : k = l
      · rw [if_neg hr, if_pos hk, if_pos (by simp [hk]), hk]
      · rw [if_neg hr, if_neg hk, if_neg (by simp [hr, Ne.symm hk])]

/-- The bytes that the .f4 form stores. -/
def nibblePieces (s : State) (a : Nat) (v : Nat → Nat) (ls : List Nat) : List (Nat × List Nat) :=
  ls.map fun l => (a + l / 2, [(getByte (putNibbles s a v ls) (a + l / 2)).toNat])

theorem covers_nibble {a k b x : Nat} : Covers (a + k / 2, [b]) x ↔ x = a + k / 2 := by
  unfold Covers
  simp only [List.length_cons, List.length_nil]
  omega

section
variable {s t : State} {a : Nat} {v : Nat → Nat} {ls : List Nat} (h : Writes s t (nibblePieces (found s) a v ls))
include h

theorem Writes.nibble {l : Nat} (hb : NoBlock (a + l / 2) 1) :
    nibbleAt (performed s t) a l = if l ∈ ls then v l % 16 else nibbleAt (found s) a l := by
  rw [← nibbleAt_putNibbles]
  by_cases hex : ∃ k ∈ ls, k / 2 = l / 2
  · obtain ⟨k, hk, hkl⟩ := hex
    have hbyte : getByte (performed s t) (a + l / 2) = getByte (putNibbles (found s) a v ls) (a + l / 2) := by
      rw [h.byte]
      refine (getByte_writeAll_of_mem (l := nibblePieces (found s) a v ls) (v := (getByte (putNibbles (found s) a v ls) (a + l / 2)).toNat)
        (hb _ (by omega) (by omega)) ⟨_, List.mem_map.2 ⟨k, hk, rfl⟩, covers_nibble.2 (by rw [hkl])⟩ (fun p hp hc => ?_) _).trans
        (by rw [BitVec.ofNat_toNat, BitVec.setWidth_eq])
      obtain ⟨m, -, rfl⟩ := List.mem_map.1 hp
      rw [covers_nibble.1 hc, Nat.sub_self]
      rfl
    rw [nibbleAt, nibbleAt, hbyte]
  · have hl : l ∉ ls := fun hl => hex ⟨l, hl, rfl⟩
    have hbyte : getByte (performed s t) (a + l / 2) = getByte (found s) (a + l / 2) := by
      rw [h.byte]
      refine getByte_writeAll_of_not_mem fun p hp hc => ?_
      obtain ⟨m, hm, rfl⟩ := List.mem_map.1 hp
      have hx := covers_nibble.1 hc
      exact hex ⟨m, hm, by omega⟩
    rw [nibbleAt_putNibbles, if_neg hl, nibbleAt, nibbleAt, hbyte]

theorem Writes.nibble_rest {x : Nat} (hx : ∀ l ∈ ls, x ≠ a + l / 2) : getByte (performed s t) x = getByte (found s) x := by
  rw [h.byte]
  refine getByte_writeAll_of_not_mem fun p hp hc => ?_
  obtain ⟨m, hm, rfl⟩ := List.mem_map.1 hp
  exact hx m hm (covers_nibble.1 hc)

end

theorem cleanAll_nibblePieces {s : State} {a : Nat} {ls : List Nat} (h : ∀ l ∈ ls, Clean s (a + l / 2) 1) (v : Nat → Nat) :
    CleanAll s ((nibblePieces s a v ls).map fun p => (p.1, p.2.length)) := by
  simp only [nibblePieces, List.map_map, Function.comp_def, List.length_cons, List.length_nil]
  exact cleanAll_map (by decide) h

/-- Both lanes of the byte of lane `l` are stored. -/
def bothLanes (ls : List Nat) (l : Nat) : Bool := ls.contains (2 * (l / 2)) && ls.contains (2 * (l / 2) + 1)

/-- The poison that stops the .f4 form: of a unit, or of a byte that is replaced in part. -/
def nibblePoison (s : State) (ls : List Nat) (a : Nat) : Bool :=
  storePoison s ((ls.filter (bothLanes ls)).map fun l => (a + l / 2, 1)) || ls.any fun l => !bothLanes ls l && isPoison s (a + l / 2)

theorem nibblePoison_of_clean {s : State} {a : Nat} {ls : List Nat} (h : ∀ l ∈ ls, Clean s (a + l / 2) 1) : nibblePoison s ls a = false := by
  have hwhole : CleanAll s ((ls.filter (bothLanes ls)).map fun l => (a + l / 2, 1)) :=
    cleanAll_map (by decide) fun l hl => h l (List.mem_of_mem_filter hl)
  rw [nibblePoison, hwhole.storePoison, Bool.false_or, List.any_eq_false]
  intro l hl
  rw [h l hl _ le_rfl (by omega), Bool.and_false]
  exact Bool.false_ne_true

theorem exec_stv_nibbles_eq {s : State} {w : LWord} (ha : ∃ l, Active s l) (hm : w.md2 = 1) (h14 : w.sz = 14) :
    exec (.stv w) s = withRange s (ea s w.base w.ofs 16 8) (laneCount s / 2) 8 (nibblePoison (found s) (activeLanes s))
      (fun a => landFlags (portAccess s ((activeLanes s).map fun l => (a + l / 2, 1))
        (nibblePieces (found s) a (fun l => (narrowLane s.cur.cvp w.sz (vlane s w.data l)).1) (activeLanes s)) none)
        ((activeLanes s).foldl (fun f l => flagOr f (narrowLane s.cur.cvp w.sz (vlane s w.data l)).2) 0)) := by
  rw [← localEa_eq_ea s w.base w.ofs _ (by decide)]
  show execStv w s = _
  simp only [execStv, hm, storeNarrow, activeLanes_not_isEmpty ha, Bool.false_eq_true, if_false, if_true, if_pos h14, vecEa,
    vecSize_half, List.map_map, Function.comp_def, List.foldl_map, nibblePieces, putNibbles]
  rfl

/-- The narrowing form into nibbles. -/
theorem exec_stv_nibbles {s : State} {w : LWord} {e : Int} (he : e = ea s w.base w.ofs 16 8) (ha : ∃ l, Active s l) (hm : w.md2 = 1)
    (h14 : w.sz = 14) (hr : Reachable s e (laneCount s / 2 : Nat) 8) (hc : Clean (found s) (at_ s e) (laneCount s / 2)) :
    ∃ t, exec (.stv w) s = .next t ∧ Writes s t (nibblePieces (found s) (at_ s e)
      (fun l => (narrowLane s.cur.cvp w.sz (vlane s w.data l)).1) (activeLanes s)) := by
  subst he
  have hclean : ∀ l ∈ activeLanes s, Clean (found s) (at_ s (ea s w.base w.ofs 16 8) + l / 2) 1 := fun l hl => by
    have hlt := (mem_activeLanes.1 hl).1
    have heven := laneCount_even s
    exact clean_mono hc (by omega) (by omega)
  rw [exec_stv_nibbles_eq ha hm h14, withRange_of_good hr (nibblePoison_of_clean hclean)]
  exact ⟨_, rfl, writes_stored (cleanAll_nibblePieces hclean _) _ _⟩

/-! ### The stored lanes -/

theorem elemHeld_eq_eltHeldAt (f : Fmt) (k : Nat) (x : Lane) : elemHeld f k x = eltHeldAt f k x := by
  rw [elemHeld, eltHeldAt, elemBits, bitsAt, bitsAt, pow_mul 2 2 k]
  rfl

theorem narrowLane_of_fmtOf {p : Cvp} {sz : Nat} {f : Fmt} (h : fmtOf sz = some f) (x : Lane) :
    narrowLane p sz x = settle .f32 (eltHeldAt .f32 0 x) f p.mode p.sat := by
  rw [narrowLane, h, ← elemHeld_eq_eltHeldAt]

theorem settle_eltHeldAt_lt (g f : Fmt) (k : Nat) (x : Lane) (mode : RMode) (sat : Bool) :
    (settle g (eltHeldAt g k x) f mode sat).1 < 2 ^ f.width :=
  settle_lt (Nat.mod_lt _ (Nat.two_pow_pos _)) f mode sat

/-- The integer and the untyped forms store a lane as it is. -/
theorem storeLane_of_le {p : Cvp} {sz : Nat} (h : sz ≤ 5) (x : Lane) : (storeLane p sz x).1 = x.data.toNat := by
  unfold storeLane
  interval_cases sz <;> rfl

/-- With no active lane nothing is done and nothing checked (log 20). -/
theorem vector_access_of_no_lane {s : State} (h : ∀ l, ¬ Active s l) (w : LWord) :
    exec (.ldv w) s = .next s ∧ exec (.stv w) s = .next s := by
  have he : (activeLanes s).isEmpty = true := by rw [activeLanes_of_none h]; rfl
  refine ⟨if_pos he, ?_⟩
  show execStv w s = _
  unfold execStv
  split
  · exact if_pos he
  · exact if_pos he

end Sys2Proof.Machine

namespace Sys2Proof
open Machine Claim

/-- Settles O24: the lanes in ascending order, each at a place of its own, the narrow forms settled lane by lane. -/
theorem vectorLoadsAndStores : Obligations.VectorLoadsAndStores := by
  refine ⟨fun s w hsz hofs => ?_, fun s w f hf h13 hofs hm => ?_⟩
  · intro e a size
    refine ⟨fun h => vector_access_of_no_lane h w, fun ha hr hc => ⟨?_, fun hm => ?_⟩⟩
    · obtain ⟨hi, hb, hby, hcur, hl⟩ := load_underway s (lat := 2) (by decide)
        (.lanes (physV (me s) w.data) (readLanes (found s) (w.md2 = 1) a (activeLanes s)))
        ((activeLanes s).map fun l => (lanePlace (w.md2 = 1) a l, 4)) ((size + 15) / 16)
      have hlanes := laneListOf_readLanes s (w.md2 = 1) a
      simp only [decide_eq_true_eq] at hlanes
      exact ⟨_, _, hlanes, exec_ldv rfl ha hr hc, hi, hb, hby, hcur, hl⟩
    · have hsize : size = 4 * laneCount s := if_neg (by rw [hm]; decide)
      rw [hsize] at hr hc
      obtain ⟨t, hx, hw⟩ := exec_stv_image ha hm rfl hr hc
      have hlane : ∀ l, Active s l → NoBlock (a + 4 * l) 4 →
          numberAt (performed s t) (a + 4 * l) 4 = (storeLane s.cur.cvp w.sz (vlane s w.data l)).1 % 2 ^ 32 :=
        fun l hl hb => hw.lane (activeLanes_pairwise s) (mem_activeLanes.2 hl) hb fun k _ hk => places_disjoint a hk
      refine ⟨t, hx, hw.issues, hw.bits, hlane, fun h5 l hl hb => ?_, fun x hx => hw.lane_rest fun l hl => hx l (mem_activeLanes.1 hl)⟩
      rw [hlane l hl hb, storeLane_of_le h5, Nat.mod_eq_of_lt (vlane s w.data l).data.isLt]
  · intro v ha
    have hv (l : Nat) : (narrowLane s.cur.cvp w.sz (vlane s w.data l)).1 = v l := by rw [narrowLane_of_fmtOf hf]
    refine ⟨fun h14 => ?_, fun h14 => ?_⟩
    · intro n e a hr hc
      obtain ⟨t, hx, hw⟩ := exec_stv_narrow ha hm h14 rfl (szBytes_pos (by have := le_of_fmtOf hf; omega)) rfl hr hc
      refine ⟨t, hx, hw.issues, hw.bits, fun l hl hb => ?_, fun x hx => hw.lane_rest fun l hl => hx l (mem_activeLanes.1 hl)⟩
      refine (hw.lane (activeLanes_pairwise s) (mem_activeLanes.2 hl) hb fun k _ hk => places_disjoint a hk).trans ?_
      rw [hv, pow_szBytes_of_fmtOf hf h14, Nat.mod_eq_of_lt (settle_eltHeldAt_lt _ _ _ _ _ _)]
    · intro e a hr hc
      obtain ⟨t, hx, hw⟩ := exec_stv_nibbles rfl ha hm h14 hr hc
      refine ⟨t, hx, hw.issues, hw.bits, fun l hl hb => ?_, fun x hx => hw.nibble_rest fun l hl (hxl : x = a + l / 2) => hx ?_⟩
      · refine (hw.nibble hb).trans ?_
        have hf4 : f = .e2m1 := by rw [h14] at hf; exact (Option.some.inj hf).symm
        have hlt : v l < 2 ^ f.width := settle_eltHeldAt_lt _ _ _ _ _ _
        rw [hf4] at hlt
        rw [hv, show v l % 16 = v l from Nat.mod_eq_of_lt hlt]
        exact if_congr (mem_activeLanes.trans (and_iff_right hl)) rfl rfl
      · have hlt := (mem_activeLanes.1 hl).1
        have heven := laneCount_even s
        omega

end Sys2Proof

/-! # Indexed accesses, spills and atomics of the scratchpad (R129 to R131) -/

namespace Sys2Proof.Machine
open Claim

/-! ## LDX and STX (R129) -/

/-- The lanes of the named cluster whose guard bit is 1. -/
def idxOn (s : State) (w : LWord) : List Nat :=
  ((List.range 16).map fun i => 16 * idxCluster w + i).filter (guardBit (me s) s.cur.g)

/-- The offset of a lane's element. -/
def idxPlace (s : State) (w : LWord) (l : Nat) : Nat := nat s w.base + (vlane s (idxReg w) l).data.toNat

/-- The pieces of the lanes. -/
def idxPieces (s : State) (w : LWord) : Pieces := (idxOn s w).map fun l => (at_ s (idxPlace s w l), szBytes w.sz)

theorem mem_idxOn {s : State} {w : LWord} {l : Nat} :
    l ∈ idxOn s w ↔ 16 * idxCluster w ≤ l ∧ l < 16 * idxCluster w + 16 ∧ (guardPred (me s) s.cur.g).getLsbD l = true := by
  unfold idxOn
  rw [List.mem_filter, List.mem_map, ← and_assoc, guardBit]
  refine and_congr_left fun _ => ⟨?_, fun ⟨h1, h2⟩ => ⟨l - 16 * idxCluster w, List.mem_range.2 (by omega), by omega⟩⟩
  rintro ⟨i, hi, rfl⟩
  have := List.mem_range.1 hi
  omega

theorem idxOn_pairwise (s : State) (w : LWord) : (idxOn s w).Pairwise (· < ·) := by
  refine List.Pairwise.filter _ (List.pairwise_map.2 ?_)
  exact List.pairwise_lt_range.imp fun h => Nat.add_lt_add_left h _

theorem filterMap_ite {α β : Type} (p : α → Bool) (f : α → β) (l : List α) :
    l.filterMap (fun x => if p x then some (f x) else none) = (l.filter p).map f := by
  induction l with
  | nil => rfl
  | cons x r ih => by_cases h : p x <;> simp [h, ih]

theorem idxLanes_eq (s : State) (w : LWord) : idxLanes s w = (idxOn s w).map fun l => (l, (idxPlace s w l : Int)) := by
  rw [idxLanes, filterMap_ite]
  exact List.map_congr_left fun l _ => by rw [idxPlace, Int.natCast_add]

theorem firstCause_eq_zero {l : List Nat} (h : ∀ c ∈ l, c = 0) : firstCause l = 0 := by
  induction l with
  | nil => rfl
  | cons c r ih => rw [firstCause, if_pos (h c List.mem_cons_self), ih fun d hd => h d (List.mem_cons_of_mem c hd)]

section
variable {s : State} {w : LWord}

/-- With no active lane nothing is done and nothing checked (log 20). -/
theorem indexed_access_of_no_lane (h : idxOn s w = []) : exec (.ldx w) s = .next s ∧ exec (.stx w) s = .next s := by
  have hl : idxLanes s w = [] := by rw [idxLanes_eq, h]; rfl
  refine ⟨?_, ?_⟩
  · show execLdx w s = _
    rw [execLdx, hl]
    rfl
  · show execStx w s = _
    rw [execStx, hl]
    rfl

end

/-- Every lane's place can be reached and is clean. -/
def IdxGood (s : State) (w : LWord) : Prop :=
  ∀ l ∈ idxOn s w, Reachable s (idxPlace s w l) (szBytes w.sz) (szBytes w.sz) ∧ Clean (found s) (at_ s (idxPlace s w l)) (szBytes w.sz)

section
variable {s : State} {w : LWord} (hg : IdxGood s w)
include hg

theorem IdxGood.cause : idxCause s (szBytes w.sz) ((idxOn s w).map fun l => (l, (idxPlace s w l : Int))) = 0 := by
  refine firstCause_eq_zero fun c hc => ?_
  rw [List.map_map] at hc
  obtain ⟨l, hl, rfl⟩ := List.mem_map.1 hc
  exact localCause_of_reachable (hg l hl).1

theorem IdxGood.clean (hn : 0 < szBytes w.sz) : CleanAll (found s) (idxPieces s w) := cleanAll_map hn fun l hl => (hg l hl).2

variable (hne : idxOn s w ≠ []) (hn : 0 < szBytes w.sz)
include hne hn

theorem exec_ldx : exec (.ldx w) s = .next (tickPort (portAccess
    (landV s w.data 2 ((idxOn s w).map fun l => (l, loadLane w.sz (numberAt (found s) (at_ s (idxPlace s w l)) (szBytes w.sz)))))
    (idxPieces s w) [] none) s.cur.core 16) := by
  have hclean := (hg.clean hn).loadPoison
  show execLdx w s = _
  simp only [idxPieces] at hclean ⊢
  simp only [execLdx, idxLanes_eq, hg.cause, List.map_map, Function.comp_def, ← getNat_eq_numberAt]
  refine (if_neg (not_not.2 rfl)).trans ((if_neg ?_).trans (if_neg ?_))
  · exact (Bool.eq_false_iff.1 hclean :)
  · simpa using hne

/-- The stored elements, one piece for each lane. -/
theorem exec_stx : ∃ t, exec (.stx w) s = .next t ∧ Writes s t ((idxOn s w).map fun l =>
    (at_ s (idxPlace s w l), leBytes (szBytes w.sz) (storeElem s.cur.cvp w.sz (w.md2 = 1) (vlane s w.data l)).1)) := by
  have hclean := (hg.clean hn).storePoison
  refine ⟨stored s (idxPieces s w) _ ((idxOn s w).foldl (fun f l =>
    flagOr f (storeElem s.cur.cvp w.sz (w.md2 = 1) (vlane s w.data l)).2) 0) 16, ?_,
    writes_stored (cleanAll_lanes hn (fun l hl => (hg l hl).2) _) _ _⟩
  show execStx w s = _
  simp only [idxPieces] at hclean ⊢
  simp only [execStx, idxLanes_eq, hg.cause, List.map_map, Function.comp_def, List.foldl_map]
  refine (if_neg (not_not.2 rfl)).trans ((if_neg ?_).trans (if_neg ?_))
  · exact (Bool.eq_false_iff.1 hclean :)
  · simpa using hne

end

/-- What STX stores of a lane, modulo its bytes. -/
theorem storeElem_of_none {p : Cvp} {sz : Nat} (h : fmtOf sz = none) (narrow : Bool) (x : Lane) :
    (storeElem p sz narrow x).1 % 256 ^ szBytes sz = x.data.toNat % 256 ^ szBytes sz := by
  unfold storeElem
  split
  · rw [narrowLane, h]
  · rw [h, show (256 : Nat) = 2 ^ 8 from rfl, ← pow_mul]
    show x.data.toNat / 2 ^ (8 * szBytes sz * 0) % _ % _ = _
    rw [Nat.mul_zero, pow_zero, Nat.div_one, Nat.mod_mod]

theorem storeElem_of_some {p : Cvp} {sz : Nat} {f : Fmt} (h : fmtOf sz = some f) (narrow : Bool) (x : Lane) :
    storeElem p sz narrow x = if narrow then settle .f32 (eltHeldAt .f32 0 x) f p.mode p.sat
      else settle f (eltHeldAt f 0 x) f p.mode p.sat := by
  rw [← narrowLane_of_fmtOf h, ← elemHeld_eq_eltHeldAt]
  unfold storeElem
  simp only [h]

theorem storeElem_lt {p : Cvp} {sz : Nat} {f : Fmt} (h : fmtOf sz = some f) (h14 : sz ≠ 14) (narrow : Bool) (x : Lane) :
    (storeElem p sz narrow x).1 < 256 ^ szBytes sz := by
  rw [storeElem_of_some h, pow_szBytes_of_fmtOf h h14]
  split
  · exact settle_eltHeldAt_lt _ _ _ _ _ _
  · exact settle_eltHeldAt_lt _ _ _ _ _ _

end Sys2Proof.Machine

namespace Sys2Proof
open Machine Claim

/-- Settles O25: the lanes of one cluster in ascending order, each at its own place. -/
theorem indexedLoadsAndStores : Obligations.IndexedLoadsAndStores := by
  intro s w hsz n cl place on
  have hmem (l : Nat) : l ∈ idxOn s w ↔ on l := mem_idxOn
  refine ⟨fun h => indexed_access_of_no_lane (List.eq_nil_iff_forall_not_mem.2 fun l hl => h l ((hmem l).1 hl)), fun ⟨l0, hl0⟩ hr => ?_⟩
  have hg : IdxGood s w := fun l hl => hr l ((hmem l).1 hl)
  have hne : idxOn s w ≠ [] := List.ne_nil_of_mem ((hmem l0).2 hl0)
  have hn : 0 < n := szBytes_pos (by omega)
  refine ⟨?_, ?_⟩
  · obtain ⟨hi, hb, hby, hcur, hl⟩ := load_underway s (lat := 2) (by decide) (.lanes (physV (me s) w.data)
      ((idxOn s w).map fun l => (l, loadLane w.sz (numberAt (found s) (at_ s (idxPlace s w l)) n)))) (idxPieces s w) 16
    have hfst : ((idxOn s w).map fun l => (l, loadLane w.sz (numberAt (found s) (at_ s (idxPlace s w l)) n))).map Prod.fst = idxOn s w := by
      rw [List.map_map]
      exact List.map_id _
    refine ⟨_, _, by rw [hfst]; exact idxOn_pairwise s w, fun l => by rw [hfst]; exact hmem l, fun p hp => ?_, exec_ldx hg hne hn,
      hi, hb, hby, hcur, hl⟩
    obtain ⟨l, -, rfl⟩ := List.mem_map.1 hp
    exact ⟨rfl, _, extends_loadExt (by omega) (numberAt_lt _ _ _), BitVec.ofNat_toNat _ _⟩
  · obtain ⟨t, hx, hw⟩ := exec_stx hg hne hn
    refine ⟨t, hx, hw.issues, hw.bits, fun l hl hb hd => ?_, fun x hx => hw.lane_rest fun l hl => hx l ((hmem l).1 hl)⟩
    have hnum := hw.lane (idxOn_pairwise s w) ((hmem l).2 hl) hb fun k hk hlk => by
      have hd := hd k ((hmem k).1 hk) hlk
      show scratch s.cur.core + place k + n ≤ scratch s.cur.core + place l ∨ scratch s.cur.core + place l + n ≤ scratch s.cur.core + place k
      omega
    refine ⟨fun hf => hnum.trans (storeElem_of_none hf _ _), fun f hf => hnum.trans ?_⟩
    rw [Nat.mod_eq_of_lt (storeElem_lt hf (by omega) _ _), storeElem_of_some hf]
    simp only [decide_eq_true_eq]

end Sys2Proof

namespace Sys2Proof.Machine
open Claim

/-! ## SPILL and FILL (R130) -/

/-! ### Lists of chunks of one length -/

section
variable {α : Type} {f : Nat → List α} {n : Nat} (h : ∀ c, (f c).length = n)
include h

theorem length_flatMap_range (m : Nat) : ((List.range m).flatMap f).length = n * m := by
  simp [List.length_flatMap, h, Nat.mul_comm]

theorem getD_flatMap_range {m c j : Nat} (hc : c < m) (hj : j < n) (d : α) :
    ((List.range m).flatMap f).getD (n * c + j) d = (f c).getD j d := by
  induction m with
  | zero => omega
  | succ m ih =>
    rw [List.range_succ, List.flatMap_append, List.flatMap_singleton]
    by_cases hcm : c < m
    · have hlt : n * c + j < n * m := by
        have := Nat.mul_le_mul_left n (Nat.succ_le_of_lt hcm)
        rw [Nat.mul_succ] at this
        omega
      rw [List.getD_append _ _ _ _ (by rwa [length_flatMap_range h]), ih hcm]
    · obtain rfl : c = m := by omega
      rw [List.getD_append_right _ _ _ _ (by rw [length_flatMap_range h]; omega), length_flatMap_range h, Nat.add_sub_cancel_left]

end

/-! ### The image of a cluster (Table 4.13) -/

section
variable (g : Nat → Lane)

theorem length_spillCluster : (spillCluster ((List.range 16).map g)).length = 80 := by
  simp [spillCluster, List.flatMap_map, length_flatMap_range fun i => length_leBytes 4 (g i).data.toNat]

theorem getD_spillCluster_body {i k : Nat} (hi : i < 16) (hk : k < 4) :
    (spillCluster ((List.range 16).map g)).getD (4 * i + k) 0 = (leBytes 4 (g i).data.toNat).getD k 0 := by
  have hlen (i : Nat) : (leBytes 4 (g i).data.toNat).length = 4 := length_leBytes 4 _
  rw [spillCluster, List.flatMap_map, List.getD_append _ _ _ _ (by rw [length_flatMap_range hlen]; omega), getD_flatMap_range hlen hi hk]

theorem getD_spillCluster_tail {i : Nat} (hi : i < 16) : (spillCluster ((List.range 16).map g)).getD (64 + i) 0 = (g i).tail.toNat := by
  have hlen (i : Nat) : (leBytes 4 (g i).data.toNat).length = 4 := length_leBytes 4 _
  rw [spillCluster, List.flatMap_map, List.getD_append_right _ _ _ _ (by rw [length_flatMap_range hlen]; omega),
    length_flatMap_range hlen, Nat.add_sub_cancel_left, List.map_map, List.getD_eq_getElem _ _ (by simpa using hi)]
  simp

end

theorem drop_take_getBytes (s : State) (a : Nat) {j k n : Nat} (h : j + k ≤ n) : ((getBytes s a n).drop j).take k = getBytes s (a + j) k := by
  refine List.ext_getElem (by simp [getBytes]; omega) fun i h1 h2 => ?_
  simp [getBytes, Nat.add_assoc]

theorem leNat_getBytes (s : State) (a n : Nat) : leNat (getBytes s a n) = numberAt s a n :=
  leNat_map_range n _ fun i => (getByte s (a + i)).isLt

/-- The lane that an image at `a` holds for lane `i` of its cluster. -/
def imageLane (s : State) (a i : Nat) : Lane :=
  { data := BitVec.ofNat 32 (numberAt s (a + 4 * i) 4), tail := getByte s (a + 64 + i) }

theorem fillCluster_getBytes (s : State) (a : Nat) : fillCluster (getBytes s a 80) = (List.range 16).map (imageLane s a) := by
  refine List.map_congr_left fun i hi => ?_
  have hi := List.mem_range.1 hi
  rw [imageLane, drop_take_getBytes s a (by omega), leNat_getBytes, List.getD_eq_getElem _ _ (by simp [getBytes]; omega)]
  simp [getBytes, Nat.add_assoc]

theorem clusters_eq (s : State) : clusters s = List.range (laneCount s / 16) := by
  unfold clusters laneCount
  split <;> rfl

theorem spillSize_eq (s : State) (w : LWord) : spillSize s w = if w.md2 = 1 then 16 else 5 * laneCount s := by
  unfold spillSize laneCount
  split
  · rfl
  · split <;> rfl

theorem spillSize_pos {s : State} {w : LWord} : 0 < spillSize s w := by
  unfold spillSize
  split
  · decide
  · split <;> decide

/-- The bytes that SPILL stores. -/
def spillBytes (s : State) (w : LWord) : List Nat :=
  if w.md2 = 1 then leBytes 8 (body s w.data).toNat ++ [(sreg s w.data).tail.toNat] ++ List.replicate 7 0
  else (clusters s).flatMap fun c => spillCluster ((List.range 16).map fun i => vlane s w.data (16 * c + i))

theorem length_spillBytes (s : State) (w : LWord) : (spillBytes s w).length = if w.md2 = 1 then 16 else 5 * laneCount s := by
  unfold spillBytes
  split
  · simp [length_leBytes]
  · rw [clusters_eq, length_flatMap_range fun c => length_spillCluster _]
    unfold laneCount
    split <;> rfl

theorem numberAt_one (s : State) (a : Nat) : numberAt s a 1 = (getByte s a).toNat := by simp [numberAt]

/-- The scalar register that FILL lands of an image at `a`. -/
def imageReg (s : State) (a : Nat) : SReg :=
  { body := BitVec.ofNat 64 (numberAt s a 8), tail := BitVec.ofNat 2 (getByte s (a + 8)).toNat }

/-- The lanes that FILL lands. -/
def fillLanes (s : State) (a : Nat) : List (Nat × Lane) :=
  (clusters s).flatMap fun c => (List.range 16).map fun i => (16 * c + i, imageLane (found s) (a + 80 * c) i)

section
variable {s : State} {w : LWord} {size : Nat} (hsize : (if w.md2 = 1 then 16 else 5 * laneCount s) = size)
  (hr : Reachable s (ea s w.base w.ofs 16 16) size 16) (hc : Clean (found s) (at_ s (ea s w.base w.ofs 16 16)) size)
include hsize hr hc

theorem exec_spill : exec (.spill w) s = .next (stored s [(at_ s (ea s w.base w.ofs 16 16), size)]
    [(at_ s (ea s w.base w.ofs 16 16), spillBytes s w)] 0 ((size + 15) / 16)) := by
  have hpos := spillSize_pos (s := s) (w := w)
  rw [spillSize_eq, hsize] at hpos
  have hgood := withRange_of_good (bad := fun a => storePoison (found s) [(a, size)])
    (k := fun a => portAccess s [(a, size)] [(a, spillBytes s w)] none) hr (cleanAll_singleton hc hpos).storePoison
  refine Eq.trans ?_ hgood
  rw [← localEa_eq_ea s w.base w.ofs _ (by decide), ← hsize, ← spillSize_eq]
  rfl

theorem exec_fill : exec (.fill w) s = .next (tickPort (portAccess
    (if w.md2 = 1 then landS s w.data 2 (imageReg (found s) (at_ s (ea s w.base w.ofs 16 16)))
      else landV s w.data 2 (fillLanes s (at_ s (ea s w.base w.ofs 16 16))))
    [(at_ s (ea s w.base w.ofs 16 16), size)] [] none) s.cur.core ((size + 15) / 16)) := by
  have hpos := spillSize_pos (s := s) (w := w)
  rw [spillSize_eq, hsize] at hpos
  have hgood := withRange_of_good (bad := fun a => readPoison (found s) a size)
    (k := fun a => portAccess (if w.md2 = 1 then landS s w.data 2 (imageReg (found s) a) else landV s w.data 2 (fillLanes s a))
      [(a, size)] [] none) hr (readPoison_of_clean hc hpos)
  refine Eq.trans ?_ hgood
  rw [← localEa_eq_ea s w.base w.ofs _ (by decide), ← hsize, ← spillSize_eq]
  show execFill w s = _
  simp only [execFill, fillCluster_getBytes, List.zip_eq_zipWith, List.zipWith_map_right, List.zipWith_self, List.map_map,
    getNat_eq_numberAt, numberAt_one, Function.comp_def, fillLanes, imageReg, vecEa]

end

theorem laneCount_eq (s : State) : laneCount s = 16 * (laneCount s / 16) := by
  unfold laneCount
  split <;> rfl

/-! ### The image that SPILL leaves -/

section
variable {s : State} {w : LWord} (hm : w.md2 = 0)
include hm

theorem getD_spillBytes {c j : Nat} (hc : c < laneCount s / 16) (hj : j < 80) :
    (spillBytes s w).getD (80 * c + j) 0 = (spillCluster ((List.range 16).map fun i => vlane s w.data (16 * c + i))).getD j 0 := by
  rw [spillBytes, if_neg (by rw [hm]; decide), clusters_eq, getD_flatMap_range (fun c => length_spillCluster _) hc hj]

/-- The bytes of lane `l`. -/
theorem getD_spillBytes_body {l k : Nat} (hl : l < laneCount s) (hk : k < 4) :
    (spillBytes s w).getD (80 * (l / 16) + 4 * (l % 16) + k) 0 = (leBytes 4 (vlane s w.data l).data.toNat).getD k 0 := by
  rw [Nat.add_assoc, getD_spillBytes hm (by have := laneCount_eq s; omega) (by omega),
    getD_spillCluster_body _ (Nat.mod_lt _ (by decide)) hk, Nat.div_add_mod]

theorem getD_spillBytes_tail {l : Nat} (hl : l < laneCount s) :
    (spillBytes s w).getD (80 * (l / 16) + 64 + l % 16) 0 = (vlane s w.data l).tail.toNat := by
  rw [Nat.add_assoc, getD_spillBytes hm (by have := laneCount_eq s; omega) (by omega),
    getD_spillCluster_tail _ (Nat.mod_lt _ (by decide)), Nat.div_add_mod]

variable {t : State} {a : Nat} (hw : Writes s t [(a, spillBytes s w)]) (hb : NoBlock a (5 * laneCount s))
include hw hb

theorem getByte_spilled {j : Nat} (hj : j < 5 * laneCount s) : getByte (performed s t) (a + j) = BitVec.ofNat 8 ((spillBytes s w).getD j 0) := by
  have hx := hw.stores (a + j)
  have hlen : (spillBytes s w).length = 5 * laneCount s := (length_spillBytes s w).trans (if_neg (by rw [hm]; decide))
  rw [if_pos (by omega), Nat.add_sub_cancel_left] at hx
  exact hx (hb _ (by omega) (by omega))

theorem lane_spilled {l : Nat} (hl : l < laneCount s) :
    numberAt (performed s t) (a + 80 * (l / 16) + 4 * (l % 16)) 4 = (vlane s w.data l).data.toNat
      ∧ getByte (performed s t) (a + 80 * (l / 16) + 64 + l % 16) = (vlane s w.data l).tail := by
  have heq := laneCount_eq s
  refine ⟨?_, ?_⟩
  · refine (numberAt_of_bytes fun k hk => ?_).trans (Nat.mod_eq_of_lt (vlane s w.data l).data.isLt)
    rw [← getD_spillBytes_body hm hl hk, ← getByte_spilled hm hw hb (by omega)]
    congr 1
    omega
  · rw [Nat.add_assoc, Nat.add_assoc, ← Nat.add_assoc (80 * (l / 16)), getByte_spilled hm hw hb (by omega), getD_spillBytes_tail hm hl,
      BitVec.ofNat_toNat, BitVec.setWidth_eq]

end

/-! ### The lanes that FILL lands -/

theorem mem_fillLanes {s : State} {a : Nat} {p : Nat × Lane} :
    p ∈ fillLanes s a ↔ p.1 < laneCount s ∧ p.2 = imageLane (found s) (a + 80 * (p.1 / 16)) (p.1 % 16) := by
  obtain ⟨l, x⟩ := p
  have heq := laneCount_eq s
  simp only [fillLanes, clusters_eq, List.mem_flatMap, List.mem_map, List.mem_range, Prod.mk.injEq]
  constructor
  · rintro ⟨c, hc, i, hi, rfl, rfl⟩
    rw [show (16 * c + i) / 16 = c by omega, show (16 * c + i) % 16 = i by omega]
    exact ⟨by omega, rfl⟩
  · rintro ⟨hl, rfl⟩
    exact ⟨l / 16, by omega, l % 16, Nat.mod_lt _ (by decide), Nat.div_add_mod l 16, rfl⟩

end Sys2Proof.Machine

namespace Sys2Proof
open Machine Claim

/-- Settles O26: the images byte by byte, the way out and the way back. -/
theorem spillsAndFills : Obligations.SpillsAndFills := by
  intro s w hofs e a size hr hc
  refine ⟨?_, ?_⟩
  · have hlen : (spillBytes s w).length = size := length_spillBytes s w
    have hpos := spillSize_pos (s := s) (w := w)
    rw [spillSize_eq] at hpos
    have hw : Writes s (stored s [(a, size)] [(a, spillBytes s w)] 0 ((size + 15) / 16)) [(a, spillBytes s w)] :=
      writes_stored (cleanAll_singleton (n := (spillBytes s w).length) (by rwa [hlen]) (by rw [hlen]; exact hpos)) _ _
    obtain ⟨hcur, hlands⟩ := stored_of_no_flags (s := s) (touch := [(a, size)]) (l := [(a, spillBytes s w)]) ((size + 15) / 16)
    refine ⟨_, exec_spill rfl hr hc, hw.issues, hw.bits, hlands, hcur, fun hm => ?_, fun hm => ⟨fun l hl hb => ?_, fun x hx => ?_⟩⟩
    · rw [← show spillBytes s w = _ from if_pos hm]
      exact hw.stores
    · exact lane_spilled hm hw (by rwa [show size = 5 * laneCount s from if_neg (by rw [hm]; decide)] at hb) hl
    · have hx' := hw.stores x
      rwa [hlen, if_neg hx] at hx'
  · by_cases hm : w.md2 = 1
    · obtain ⟨hi, hb, hby, hcur, hl⟩ := load_underway s (lat := 2) (by decide) (.sreg (physS (me s) w.data) (imageReg (found s) a))
        [(a, size)] ((size + 15) / 16)
      have hx := exec_fill rfl hr hc
      rw [if_pos hm] at hx
      exact ⟨_, hx, hi, hb, hby, hcur, fun _ => hl, fun h0 => absurd (hm.symm.trans h0) (by decide)⟩
    · obtain ⟨hi, hb, hby, hcur, hl⟩ := load_underway s (lat := 2) (by decide) (.lanes (physV (me s) w.data) (fillLanes s a))
        [(a, size)] ((size + 15) / 16)
      have hx := exec_fill rfl hr hc
      rw [if_neg hm] at hx
      refine ⟨_, hx, hi, hb, hby, hcur, fun h1 => absurd h1 hm, fun _ => ⟨_, hl, fun l => ?_, fun p hp => ?_⟩⟩
      · rw [List.mem_map]
        refine ⟨?_, fun h => ⟨(l, imageLane (found s) (a + 80 * (l / 16)) (l % 16)), mem_fillLanes.2 ⟨h, rfl⟩, rfl⟩⟩
        rintro ⟨p, hp, rfl⟩
        exact (mem_fillLanes.1 hp).1
      · rw [(mem_fillLanes.1 hp).2]
        have hlt := numberAt_lt (found s) (a + 80 * (p.1 / 16) + 4 * (p.1 % 16)) 4
        exact ⟨(BitVec.toNat_ofNat _ _).trans (Nat.mod_eq_of_lt hlt), rfl⟩

end Sys2Proof

/-! # Exact arithmetic

What the operations on exact values answer (R53, R54): sums, products, quotients and roots of finite numbers, and the cases of NaNs and
infinities. -/

namespace Sys2Proof.Machine
open Claim

/-! ## Finite numbers as rationals -/

theorem finite_fin (n : Bool) (m : Nat) (e : Int) : Finite (.fin n m e) := ⟨n, m, e, rfl⟩

theorem not_finite_nan (b : Bool) : ¬ Finite (.nan b) := by rintro ⟨_, _, _, h⟩; cases h

theorem not_finite_inf (b : Bool) : ¬ Finite (.inf b) := by rintro ⟨_, _, _, h⟩; cases h

theorem ratOf_fin_eq_zero {n : Bool} {m : Nat} {e : Int} : ratOf (.fin n m e) = 0 ↔ m = 0 := by
  have he : (2 : ℚ) ^ e ≠ 0 := by positivity
  have hn : (if n then (-1 : ℚ) else 1) ≠ 0 := by split <;> norm_num
  rw [ratOf, mul_eq_zero, or_iff_left he, mul_eq_zero, or_iff_right hn, Nat.cast_eq_zero]

/-- A signed integer in units of a power of two. -/
theorem ratOf_int (i e : Int) : ratOf (.fin (i < 0) i.natAbs e) = i * (2 : ℚ) ^ e := by
  by_cases h : i < 0
  · have hi : ((i.natAbs : Nat) : Int) = -i := by omega
    simp only [ratOf, h, decide_true, if_true]
    rw [← Int.cast_natCast, hi]
    push_cast
    ring
  · have hi : ((i.natAbs : Nat) : Int) = i := by omega
    simp only [ratOf, h, decide_false, Bool.false_eq_true, if_false]
    rw [← Int.cast_natCast, hi]
    ring

/-- A finite number in units of a lower power of two. -/
theorem ratOf_rescale (n : Bool) (m : Nat) {e e0 : Int} (h : e ≤ e0) :
    ratOf (.fin n m e0) = (((if n then -1 else 1) * (m * 2 ^ (e0 - e).toNat : Nat) : Int) : ℚ) * (2 : ℚ) ^ e := by
  have he : (2 : ℚ) ^ e0 = 2 ^ (e0 - e).toNat * 2 ^ e := by
    rw [← zpow_natCast, ← zpow_add₀ two_ne_zero]
    congr 1
    omega
  rw [ratOf, he]
  cases n
  · push_cast
    simp
    ring
  · push_cast
    simp
    ring

/-- R53: the exact sum, and the sign of an exact zero. -/
theorem exactly_addFin (mode : RMode) (n1 : Bool) (m1 : Nat) (e1 : Int) (n2 : Bool) (m2 : Nat) (e2 : Int) :
    Exactly (addFin mode n1 m1 e1 n2 m2 e2) (ratOf (.fin n1 m1 e1) + ratOf (.fin n2 m2 e2)) (if n1 = n2 then n1 else mode = .rdn) := by
  rw [ratOf_rescale n1 m1 (min_le_left e1 e2), ratOf_rescale n2 m2 (min_le_right e1 e2), ← add_mul, ← Int.cast_add]
  unfold addFin
  extract_lets e a b t
  have ht : t = a + b := rfl
  rw [← ht]
  have he : (2 : ℚ) ^ e ≠ 0 := by positivity
  split
  next h0 =>
    refine ⟨_, 0, 0, rfl, by rw [h0]; simp [ratOf], fun _ => ?_⟩
    unfold zeroNeg
    split
    next h => rw [if_pos h.2.2]
    next => rfl
  next h0 =>
    refine ⟨_, _, _, rfl, ratOf_int t e, fun h => absurd ?_ h0⟩
    exact_mod_cast (mul_eq_zero.1 h).resolve_right he

/-! ## Sums and differences (R53, R54) -/

theorem snanFlag_pair (x y : Val) : snanFlag [x, y] = nanFlag x y := by
  cases x <;> cases y <;> simp [snanFlag, nanFlag, Val.snan]

theorem fpAdd_of_someNan (mode : RMode) {x y : Val} (h : someNan x y) : fpAdd mode x y = (.nan, nanFlag x y) := by
  rw [← snanFlag_pair]
  obtain ⟨b, rfl⟩ | ⟨b, rfl⟩ := h
  · rfl
  · cases x <;> rfl

theorem isSum_fpAdd (mode : RMode) (x y : Val) : IsSum (mode = .rdn) x y (fpAdd mode x y) := by
  refine ⟨?_, fpAdd_of_someNan mode, ?_, ?_, ?_⟩
  · rintro ⟨n1, m1, e1, rfl⟩ ⟨n2, m2, e2, rfl⟩
    exact ⟨rfl, exactly_addFin mode n1 m1 e1 n2 m2 e2⟩
  · rintro a b rfl rfl
    rfl
  · rintro a rfl ⟨n, m, e, rfl⟩
    rfl
  · rintro b ⟨n, m, e, rfl⟩ rfl
    rfl

theorem isDifference_of_isSum_neg {down : Bool} {x y : Val} {r : Exact × Nat} (h : IsSum down x y.neg r) : IsDifference down x y r := by
  obtain ⟨hfin, hnan, hinf, hl, hr⟩ := h
  refine ⟨?_, ?_, ?_, ?_, ?_⟩
  · rintro hx ⟨n, m, e, rfl⟩
    have hf := hfin hx (finite_fin _ _ _)
    have hq : ratOf (Val.neg (.fin n m e)) = - ratOf (.fin n m e) := by cases n <;> simp [Val.neg, ratOf]
    rw [hq, ← sub_eq_add_neg] at hf
    refine ⟨hf.1, ?_⟩
    convert hf.2 using 1
    show (if isNegative x = n then down else isNegative x) = if isNegative x = !n then isNegative x else down
    cases isNegative x <;> cases n <;> rfl
  · intro hs
    have hf : nanFlag x y.neg = nanFlag x y := by cases y <;> simp [nanFlag, Val.neg]
    rw [← hf]
    refine hnan (hs.imp_right ?_)
    rintro ⟨b, rfl⟩
    exact ⟨b, rfl⟩
  · rintro a b rfl rfl
    rw [hinf a (!b) rfl rfl]
    cases a <;> cases b <;> rfl
  · rintro a rfl ⟨n, m, e, rfl⟩
    exact hl a rfl (finite_fin _ _ _)
  · rintro b hx rfl
    exact hr (!b) hx rfl

/-! ## Products (R53, R54) -/

theorem fpMul_of_someNan {x y : Val} (h : someNan x y) : fpMul x y = (.nan, nanFlag x y) := by
  rw [← snanFlag_pair]
  obtain ⟨b, rfl⟩ | ⟨b, rfl⟩ := h
  · rfl
  · cases x <;> rfl

theorem ratOf_mul_fin (n1 : Bool) (m1 : Nat) (e1 : Int) (n2 : Bool) (m2 : Nat) (e2 : Int) :
    ratOf (.fin (n1 != n2) (m1 * m2) (e1 + e2)) = ratOf (.fin n1 m1 e1) * ratOf (.fin n2 m2 e2) := by
  simp only [ratOf, zpow_add₀ (two_ne_zero' ℚ)]
  push_cast
  cases n1 <;> cases n2 <;> simp <;> ring

theorem isProduct_fpMul (x y : Val) : IsProduct x y (fpMul x y) := by
  refine ⟨?_, fpMul_of_someNan, ?_, ?_, ?_⟩
  · rintro ⟨n1, m1, e1, rfl⟩ ⟨n2, m2, e2, rfl⟩
    exact ⟨rfl, _, _, _, rfl, ratOf_mul_fin n1 m1 e1 n2 m2 e2, fun _ => rfl⟩
  · rintro a b rfl rfl
    rfl
  · rintro a rfl ⟨n, m, e, rfl⟩
    exact if_congr ratOf_fin_eq_zero.symm rfl rfl
  · rintro b ⟨n, m, e, rfl⟩ rfl
    exact if_congr ratOf_fin_eq_zero.symm rfl rfl

/-! ## Quotients (R53, R54) -/

theorem fpDiv_of_someNan {x y : Val} (h : someNan x y) : fpDiv x y = (.nan, nanFlag x y) := by
  rw [← snanFlag_pair]
  obtain ⟨b, rfl⟩ | ⟨b, rfl⟩ := h
  · rfl
  · cases x <;> rfl

/-- A quotient of naturals lies at its floor, or strictly between it and the next where there is a remainder. -/
theorem floor_div_spec (p : Nat) {d : Nat} (hd : 0 < d) :
    (p % d = 0 → ((p / d : Nat) : ℚ) = p / d) ∧ (p % d ≠ 0 → ((p / d : Nat) : ℚ) < p / d) ∧ (p / d : ℚ) < (p / d : Nat) + 1 := by
  have hd' : (0 : ℚ) < d := by exact_mod_cast hd
  have hdm : (d : ℚ) * (p / d : Nat) + (p % d : Nat) = p := by exact_mod_cast Nat.div_add_mod p d
  have hlt : ((p % d : Nat) : ℚ) < d := by exact_mod_cast Nat.mod_lt p hd
  refine ⟨fun h => ?_, fun h => ?_, ?_⟩
  · rw [h, Nat.cast_zero, add_zero] at hdm
    rw [eq_div_iff hd'.ne', ← hdm, mul_comm]
  · have hpos : (0 : ℚ) < (p % d : Nat) := by exact_mod_cast Nat.pos_of_ne_zero h
    rw [lt_div_iff₀ hd']
    linarith
  · rw [div_lt_iff₀ hd']
    linarith

theorem abs_ratOf_fin (n : Bool) (m : Nat) (e : Int) : |ratOf (.fin n m e)| = m * (2 : ℚ) ^ e := by
  have h : (0 : ℚ) ≤ m * 2 ^ e := by positivity
  cases n
  · rw [show ratOf (.fin false m e) = m * 2 ^ e by simp [ratOf], abs_of_nonneg h]
  · rw [show ratOf (.fin true m e) = -(m * 2 ^ e) by simp [ratOf], abs_neg, abs_of_nonneg h]

theorem abs_quotient (n1 : Bool) (m1 : Nat) (e1 : Int) (n2 : Bool) (m2 : Nat) (e2 : Int) :
    |ratOf (.fin n1 m1 e1) / ratOf (.fin n2 m2 e2)| = ((m1 * 2 ^ 128 : Nat) : ℚ) / m2 * (2 : ℚ) ^ (e1 - e2 - 128) := by
  rw [abs_div, abs_ratOf_fin, abs_ratOf_fin, zpow_sub₀ two_ne_zero, zpow_sub₀ two_ne_zero]
  push_cast
  field_simp

theorem isQuotient_fpDiv (x : Val) {y : Val} (hy : ∀ n m e, y = .fin n m e → m ≤ 2 ^ 64) : IsQuotient x y (fpDiv x y) := by
  refine ⟨?_, fpDiv_of_someNan, ?_, ?_, ?_⟩
  · rintro ⟨n1, m1, e1, rfl⟩ ⟨n2, m2, e2, rfl⟩
    have hm2 := hy n2 m2 e2 rfl
    simp only [ratOf_fin_eq_zero]
    by_cases h2 : m2 = 0
    · rw [if_pos h2]
      show (if m2 = 0 then _ else _) = _
      rw [if_pos h2]
      rfl
    · have hr : fpDiv (.fin n1 m1 e1) (.fin n2 m2 e2) =
        (.fin (n1 != n2) (m1 * 2 ^ 128 / m2) (e1 - e2 - 128) (m1 * 2 ^ 128 % m2 != 0), 0) := if_neg h2
      rw [if_neg h2, hr]
      refine ⟨rfl, ?_⟩
      by_cases h1 : m1 = 0
      · rw [if_pos h1, h1]
        exact ⟨n1 != n2, 0, e1 - e2 - 128, by simp, by simp [ratOf], fun _ => rfl⟩
      · rw [if_neg h1, abs_quotient]
        obtain ⟨hexact, hlow, hhigh⟩ := floor_div_spec (m1 * 2 ^ 128) (Nat.pos_of_ne_zero h2)
        have hpos : (0 : ℚ) < 2 ^ (e1 - e2 - 128) := by positivity
        refine ⟨_, _, _, rfl, ?_, ?_, ?_⟩
        · rw [Nat.le_div_iff_mul_le (Nat.pos_of_ne_zero h2)]
          calc 2 ^ 64 * m2 ≤ 2 ^ 64 * 2 ^ 64 := Nat.mul_le_mul_left _ hm2
            _ = 1 * 2 ^ 128 := by norm_num
            _ ≤ m1 * 2 ^ 128 := Nat.mul_le_mul_right _ (Nat.pos_of_ne_zero h1)
        · by_cases h0 : m1 * 2 ^ 128 % m2 = 0
          · rw [if_neg (by simpa using h0), hexact h0]
          · rw [if_pos (by simpa using h0)]
            exact mul_lt_mul_of_pos_right (hlow h0) hpos
        · by_cases h0 : m1 * 2 ^ 128 % m2 = 0
          · rw [if_neg (by simpa using h0), hexact h0]
            exact lt_irrefl _
          · rw [if_pos (by simpa using h0), not_le]
            exact mul_lt_mul_of_pos_right hhigh hpos
  · rintro a b rfl rfl
    rfl
  · rintro a rfl ⟨n, m, e, rfl⟩
    rfl
  · rintro b ⟨n, m, e, rfl⟩ rfl
    exact ⟨rfl, _, 0, 0, rfl, by simp [ratOf], fun _ => rfl⟩

/-! ## Roots (R54) -/

/-- The bits found so far are a root from below; the bits to come bring it to its end. -/
theorem isqrtAux_spec (x : Nat) {n r : Nat} (h1 : r * r ≤ x) (h2 : x < (r + 2 ^ (n + 1)) * (r + 2 ^ (n + 1))) :
    isqrtAux x n r * isqrtAux x n r ≤ x ∧ x < (isqrtAux x n r + 1) * (isqrtAux x n r + 1) := by
  induction n generalizing r with
  | zero =>
    rw [isqrtAux]
    split
    next h => exact ⟨h, h2⟩
    next h => exact ⟨h1, by omega⟩
  | succ n ih =>
    rw [isqrtAux]
    split
    next h => exact ih h (by rwa [add_assoc, ← two_mul, ← pow_succ'])
    next h => exact ih h1 (not_le.1 h)

theorem isqrt_spec (x : Nat) : isqrt x * isqrt x ≤ x ∧ x < (isqrt x + 1) * (isqrt x + 1) := by
  refine isqrtAux_spec x (Nat.zero_le _) ?_
  rw [zero_add, ← pow_add]
  exact Nat.lt_log2_self.trans_le (Nat.pow_le_pow_right two_pos (by omega))

/-- The significand of a positive number scaled to an even exponent. -/
theorem sticky_isqrt {m : Nat} {e : Int} (hm : 2 ^ 160 ≤ m) (he : e % 2 = 0) :
    Sticky (.fin false (isqrt m) (e / 2) (isqrt m * isqrt m != m)) false (fun q => q ^ 2 ≤ m * (2 : ℚ) ^ e)
      (fun q => q ^ 2 < m * (2 : ℚ) ^ e) := by
  obtain ⟨h1, h2⟩ := isqrt_spec m
  have hpos : (0 : ℚ) < 2 ^ e := by positivity
  have hsq (q : ℚ) : (q * 2 ^ (e / 2)) ^ 2 = q * q * 2 ^ e := by
    rw [mul_pow, sq q, ← zpow_natCast (2 ^ (e / 2)), ← zpow_mul, show e / 2 * ((2 : Nat) : Int) = e by push_cast; omega]
  have hlow : (isqrt m : ℚ) * isqrt m ≤ m := by exact_mod_cast h1
  have hhigh : (m : ℚ) < (isqrt m + 1) * (isqrt m + 1) := by exact_mod_cast h2
  refine ⟨_, _, _, rfl, ?_, ?_, ?_⟩
  · by_contra hc
    have : (isqrt m + 1) * (isqrt m + 1) ≤ 2 ^ 64 * 2 ^ 64 := Nat.mul_le_mul (by omega) (by omega)
    omega
  · simp only [hsq]
    by_cases h0 : isqrt m * isqrt m = m
    · rw [if_neg (by simpa using h0)]
      exact mul_le_mul_of_nonneg_right hlow hpos.le
    · rw [if_pos (by simpa using h0)]
      refine mul_lt_mul_of_pos_right ?_ hpos
      exact_mod_cast lt_of_le_of_ne h1 h0
  · simp only [hsq, not_le, not_lt]
    by_cases h0 : isqrt m * isqrt m = m
    · rw [if_neg (by simpa using h0)]
      refine mul_le_mul_of_nonneg_right ?_ hpos.le
      exact_mod_cast h0.ge
    · rw [if_pos (by simpa using h0)]
      exact mul_lt_mul_of_pos_right hhigh hpos

theorem isRoot_fpSqrt (x : Val) : IsRoot x (fpSqrt x) := by
  refine ⟨?_, ?_, ?_, ?_⟩
  · rintro ⟨n, m, e, rfl⟩
    simp only [ratOf_fin_eq_zero]
    by_cases h0 : m = 0
    · rw [if_pos h0, fpSqrt, if_pos h0]
      exact ⟨rfl, _, 0, 0, rfl, by simp [ratOf], fun _ => rfl⟩
    · rw [if_neg h0, fpSqrt, if_neg h0]
      have hm : (0 : ℚ) < m := by exact_mod_cast Nat.pos_of_ne_zero h0
      have hpos : (0 : ℚ) < m * 2 ^ e := by positivity
      cases n
      · have hq : ratOf (.fin false m e) = m * 2 ^ e := by simp [ratOf]
        rw [hq, if_neg (not_lt.2 hpos.le), if_neg Bool.false_ne_true]
        refine ⟨rfl, ?_⟩
        have hm1 : 1 ≤ m := Nat.pos_of_ne_zero h0
        by_cases he : e % 2 = 0
        · have hs := sticky_isqrt (m := m * 2 ^ 160) (e := e - 160) (by omega) (by omega)
          have hv : ((m * 2 ^ 160 : Nat) : ℚ) * 2 ^ (e - 160) = m * 2 ^ e := by
            rw [zpow_sub₀ two_ne_zero]
            push_cast
            ring
          rw [hv] at hs
          simpa only [if_pos he] using hs
        · have hs := sticky_isqrt (m := 2 * m * 2 ^ 160) (e := e - 161) (by omega) (by omega)
          have hv : ((2 * m * 2 ^ 160 : Nat) : ℚ) * 2 ^ (e - 161) = m * 2 ^ e := by
            rw [zpow_sub₀ two_ne_zero]
            push_cast
            ring
          rw [hv] at hs
          simpa only [if_neg he] using hs
      · have hq : ratOf (.fin true m e) = -(m * 2 ^ e) := by simp [ratOf]
        rw [hq, if_pos (neg_lt_zero.2 hpos)]
        rfl
  · rintro b rfl
    rfl
  · rintro rfl
    rfl
  · rintro rfl
    rfl

end Sys2Proof.Machine

/-! # Atomics of the scratchpad (R131) -/

namespace Sys2Proof.Machine
open Claim

/-! ## ATOM (R131) -/

theorem two_pow_bits (n : Nat) : 2 ^ (8 * n) = 256 ^ n := by rw [pow_mul]; rfl

/-- The signed reading of an element of `n` bytes. -/
theorem sextNat_bytes {n x : Nat} (hn : 0 < n) (hx : x < 256 ^ n) :
    sextNat (8 * n) x = if 2 * x < 256 ^ n then (x : Int) else (x : Int) - 256 ^ n := by
  have h2 : 256 ^ n = 2 * 2 ^ (8 * n - 1) := by rw [← two_pow_bits, ← pow_succ', Nat.sub_add_cancel (by omega)]
  rw [sextNat, two_pow_bits, Nat.mod_eq_of_lt hx]
  have h256 : ((256 ^ n : Nat) : Int) = 256 ^ n := by push_cast; rfl
  split <;> split <;> omega

/-- What ATOM stores and the flags it raises. -/
def atomResult (s : State) (w : LWord) (old : Nat) : Nat × Nat :=
  atomStep s.cur.cvp (w.ofs / 4096) (8 * szBytes w.sz) (fmtOf w.sz) old
    (match fmtOf w.sz with
      | some f => heldS s f w.data
      | none => ⟨nat s w.data, 0⟩)

/-- The state of an atomic at `a` that finds `old` there. -/
def atomAt (s : State) (w : LWord) (a old : Nat) : State :=
  landFl (portAccess s [(a, szBytes w.sz)] [(a, leBytes (szBytes w.sz) (atomResult s w old).1)] none) w.data 2 (loadExt w.sz old)
    (atomResult s w old).2

theorem exec_atom_eq (s : State) (w : LWord) :
    exec (.atom w) s = withRange s (ea s w.base (w.ofs % 4096) 12 (szBytes w.sz)) (szBytes w.sz) (szBytes w.sz)
      (fun a => readPoison (found s) a (szBytes w.sz)) (fun a => atomAt s w a (numberAt (found s) a (szBytes w.sz))) := by
  simp only [← getNat_eq_numberAt, ← localEa_eq_ea s w.base (w.ofs % 4096) (szBytes w.sz) (show 0 < 12 by decide)]
  rfl

theorem addsAccesses_atomAt (s : State) (w : LWord) (a old : Nat) :
    AddsAccesses s (atomAt s w a old)
      [{ due := s.gcyc + 4
         touch := [(a, szBytes w.sz)]
         writes := [(a, leBytes (szBytes w.sz) (atomResult s w old).1)]
         full := none }] :=
  ((AddsAccesses.portAccess s _ _ none).trans (.note _ _)).trans (.land _ (by decide) _ _)

theorem me_atomAt (s : State) (w : LWord) (a old : Nat) :
    me (atomAt s w a old) = me (landW s w.data 2 (loadExt w.sz old) (atomResult s w old).2) := by
  have hm : me (note (portAccess s [(a, szBytes w.sz)] [(a, leBytes (szBytes w.sz) (atomResult s w old).1)] none)
      (atomResult s w old).2) = me s := me_portAccess s _ _ none
  rw [atomAt, landFl, landW, landS, hm]
  exact me_land_congr hm rfl _ _ _

theorem exec_atom {s : State} {w : LWord} {e : Int} (he : e = ea s w.base (w.ofs % 4096) 12 (szBytes w.sz))
    (hr : Reachable s e (szBytes w.sz) (szBytes w.sz)) (hsz : w.sz ≤ 13) (hc : Clean (found s) (at_ s e) (szBytes w.sz)) {old : Nat}
    (hlt : numberAt (found s) (at_ s e) (szBytes w.sz) = old) :
    ∃ t, exec (.atom w) s = .next t ∧ Writes s t [(at_ s e, leBytes (szBytes w.sz) (atomResult s w old).1)]
      ∧ (me t).lands = (me (landW s w.data 2 (loadExt w.sz old) (atomResult s w old).2)).lands := by
  subst he hlt
  have hn := szBytes_pos hsz
  rw [exec_atom_eq, withRange_of_good (bad := fun a => readPoison (found s) a (szBytes w.sz)) hr (readPoison_of_clean hc hn)]
  refine ⟨_, rfl, writes_of_addsAccesses (cleanAll_leBytes hc hn _) ((addsAccesses_atomAt s w _ _).tickPort _), ?_⟩
  rw [me_tickPort]
  exact congrArg Thread.lands (me_atomAt s w _ _)

/-- The integer combinations of Table 4.14 on elements of `n` bytes. -/
def atomNat (op n old x : Nat) : Nat :=
  match op with
  | 0 => (old + x) % 256 ^ n
  | 1 => old &&& x
  | 2 => old ||| x
  | 3 => old ^^^ x
  | 4 => if sextNat (8 * n) old ≤ sextNat (8 * n) x then old else x
  | 5 => if sextNat (8 * n) old ≤ sextNat (8 * n) x then x else old
  | 6 => min old x
  | 7 => max old x
  | _ => x

theorem atomResult_integer {s : State} {w : LWord} (hf : fmtOf w.sz = none) {old : Nat} (hlt : old < 256 ^ szBytes w.sz) :
    atomResult s w old = (atomNat (w.ofs / 4096) (szBytes w.sz) old ((body s w.data).toNat % 256 ^ szBytes w.sz), 0) := by
  simp only [atomResult, hf, atomStep, two_pow_bits, Nat.mod_eq_of_lt hlt]
  rfl

theorem atomResult_floating {s : State} {w : LWord} {f : Fmt} (hf : fmtOf w.sz = some f) {old : Nat} (hlt : old < 256 ^ szBytes w.sz) :
    let r := fpAdd s.cur.cvp.mode (Held.val f ⟨old, 0⟩) ((heldS s f w.data).val f)
    let v := settle f (hold f r.1) f s.cur.cvp.mode s.cur.cvp.sat
    atomResult s w old = (v.1, flagOr r.2 v.2) := by
  simp only [atomResult, hf, atomStep, two_pow_bits, Nat.mod_eq_of_lt hlt]

end Sys2Proof.Machine

namespace Sys2Proof
open Machine Claim

/-- Settles O27: the combination of the two numbers below 256^n, or the settled sum, by the operation. -/
theorem localAtomics : Obligations.LocalAtomics := by
  intro s w hsz hofs n e a op old x sg hr hc
  have hsz13 : w.sz ≤ 13 := by omega
  have hn : 0 < n := szBytes_pos hsz13
  have hlt : old < 256 ^ n := numberAt_lt _ _ _
  have hx : x < 256 ^ n := Nat.mod_lt _ (Nat.pow_pos (by decide))
  obtain ⟨t, hex, hw, hl⟩ := exec_atom rfl hr hsz13 hc (old := old) rfl
  refine ⟨t, _, (atomResult s w old).1, (atomResult s w old).2, extends_loadExt hsz13 hlt, hex, hw.issues, hw.bits, hw.stores, hl,
    fun hf => ?_, fun f hf => ?_⟩
  · have hsg {y : Nat} (hy : y < 256 ^ n) : sg y = sextNat (8 * n) y := (sextNat_bytes hn hy).symm
    rw [atomResult_integer hf hlt]
    refine ⟨rfl, fun h => ?_, fun h => ?_, fun h => ?_, fun h => ?_, fun h => ?_, fun h => ?_, fun h => ?_, fun h => ?_, fun h => ?_⟩
    all_goals rw [show w.ofs / 4096 = _ from h]
    case refine_5 =>
      rw [atomNat, ← hsg hlt, ← hsg hx]
      exact apply_min_of_le sg _ _
    case refine_6 =>
      rw [atomNat, ← hsg hlt, ← hsg hx]
      exact apply_max_of_le sg _ _
    all_goals rfl
  · refine ⟨_, isSum_fpAdd _ _ _, ?_⟩
    rw [atomResult_floating hf hlt]
    exact ⟨rfl, rfl⟩

end Sys2Proof

/-! # Scalar floating point (R69, R70, R113)

The rows of FP64 and FP32, and the order of held values by their codes. -/

namespace Sys2Proof.Machine
open Claim

/-! ## Held operands -/

/-- A held value that fits its register: what registers and immediates give. -/
structure Fits (f : Fmt) (h : Held) : Prop where
  body : h.body < 2 ^ f.width
  tail : h.tail < 4

theorem fits_ofCode {f : Fmt} (neg : Bool) {c : Nat} (h : c ≤ f.ovfCode) : Fits f (Held.ofCode f neg c) :=
  ⟨signed_lt neg ((div_four_le_maxBody h).trans_lt (maxBody_lt f)), Nat.mod_lt _ (by decide)⟩

theorem fits_hold (f : Fmt) (x : Exact) : Fits f (hold f x) := by
  cases x with
  | nan => exact ⟨canonNan_lt f, Nat.zero_lt_succ 3⟩
  | inf neg =>
    rw [hold]
    split
    · exact ⟨signed_lt neg (infBody_lt f), Nat.zero_lt_succ 3⟩
    · exact fits_ofCode neg le_rfl
  | fin neg m e st => exact fits_ofCode neg (min_le_right _ _)

theorem fits_heldS (s : State) (f : Fmt) (n : Nat) : Fits f (heldS s f n) := ⟨Nat.mod_lt _ (by positivity), (sreg s n).tail.isLt⟩

theorem fits_heldB {s : State} {f : Fmt} (hf : f = .f64 ∨ f = .f32) {w : SWord} (hw : immFits w) : Fits f (heldB s f w) := by
  unfold heldB
  unfold immFits at hw
  split
  · exact fits_heldS s f w.b
  next n hn =>
    rw [hn] at hw
    obtain rfl | rfl := hf
    · exact fits_hold _ _
    · exact ⟨hw, Nat.zero_lt_succ 3⟩

theorem val_heldB (s : State) (f : Fmt) (w : SWord) : (heldB s f w).val f = valB s f w := by
  unfold heldB valB
  split <;> rfl

/-! ## Which values a held value can be -/

section
variable {f : Fmt} {h : Held}

theorem val_eq_nan_iff {b : Bool} : h.val f = .nan b ↔ f.isNan h.body = true ∧ f.isSnan h.body = b := by
  by_cases hn : f.isNan h.body = true
  · rw [val_of_isNan hn, Val.nan.injEq, and_iff_right hn]
  · rw [Held.val, if_neg hn]
    split <;> simp [hn]

theorem val_eq_inf_iff {b : Bool} : h.val f = .inf b ↔ f.isInf h.body = true ∧ f.signOf h.body = b := by
  by_cases hi : f.isInf h.body = true
  · rw [val_of_isInf hi, Val.inf.injEq, and_iff_right hi]
  · rw [Held.val, if_neg hi]
    split <;> simp [hi]

theorem finite_val_iff : Finite (h.val f) ↔ f.isNan h.body = false ∧ f.isInf h.body = false := by
  constructor
  · rintro ⟨n, m, e, hv⟩
    refine ⟨Bool.eq_false_iff.2 fun hn => ?_, Bool.eq_false_iff.2 fun hi => ?_⟩
    · rw [val_of_isNan hn] at hv
      cases hv
    · rw [val_of_isInf hi] at hv
      cases hv
  · rintro ⟨hn, hi⟩
    exact ⟨_, _, _, val_of_finite hn hi⟩

theorem isNegative_val (hn : f.isNan h.body = false) : isNegative (h.val f) = f.signOf h.body := by
  by_cases hi : f.isInf h.body = true
  · rw [val_of_isInf hi]
    rfl
  · rw [val_of_finite hn (Bool.eq_false_iff.2 hi)]
    rfl

/-- The significand of a held value has two bits more than its format's. -/
theorem significand_lt {n : Bool} {m : Nat} {e : Int} (hv : h.val f = .fin n m e) : m < 2 * f.lead := by
  obtain ⟨hn, hi⟩ := finite_val_iff.1 ⟨n, m, e, hv⟩
  rw [val_of_finite hn hi, Val.fin.injEq] at hv
  obtain ⟨-, rfl, -⟩ := hv
  have := Nat.mod_lt (h.code f) (lead_pos f)
  split <;> omega

end

/-! ## The rows of a format -/

theorem exec_row {f : Fmt} (hf : f = .f64 ∨ f = .f32) {d i : SWord → Instr} {w : SWord} {s : State} (k : Fmt → SWord → State → Out)
    (h64 : exec (d w) s = k .f64 w s) (h32 : exec (i w) s = k .f32 w s) : exec (row f d i w) s = k f w s := by
  obtain rfl | rfl := hf
  · exact h64
  · exact h32

/-! ## The order of codes (R69, R70) -/

/-- The number of a code. -/
def codeRat (f : Fmt) (c : Nat) : ℚ := ratOf ((Held.ofCode f false c).val f)

section
variable {f : Fmt}

/-- The next code is a greater number. -/
theorem codeRat_lt_succ {c : Nat} (h : c + 1 ≤ f.ovfCode) : codeRat f c < codeRat f (c + 1) := by
  obtain ⟨k, j, hg, rfl⟩ := exists_onGrid f c
  have hlt := hg.lt
  have hnormal := hg.normal
  have hsucc : gridCode f k j + 1 = gridCode f (k + 1) j := by unfold gridCode; omega
  have hpos : (0 : ℚ) < 2 ^ gridExp f j := by positivity
  rw [hsucc] at h ⊢
  rw [codeRat, codeRat, ratOf_ofCode false hnormal hlt.le (by omega), ratOf_ofCode false (by omega) (by omega) h]
  simp [ratOf, hpos]

theorem codeRat_strictMonoOn (f : Fmt) : StrictMonoOn (codeRat f) (Set.Iic f.ovfCode) :=
  strictMonoOn_of_lt_succ Set.ordConnected_Iic fun _ _ _ h => codeRat_lt_succ h

theorem codeRat_zero (f : Fmt) : codeRat f 0 = 0 := by
  have hg : OnGrid f 0 0 := ⟨.inl rfl, by have := lead_pos f; omega⟩
  have h0 : gridCode f 0 0 = 0 := by simp [gridCode]
  rw [codeRat, ← h0, hg.val_ofCode false (by rw [h0]; exact Nat.zero_le _)]
  simp [ratOf]

theorem codeRat_lt_iff {c d : Nat} (hc : c ≤ f.ovfCode) (hd : d ≤ f.ovfCode) : codeRat f c < codeRat f d ↔ c < d :=
  (codeRat_strictMonoOn f).lt_iff_lt hc hd

theorem codeRat_nonneg {c : Nat} (h : c ≤ f.ovfCode) : 0 ≤ codeRat f c := by
  rw [← codeRat_zero f]
  exact (codeRat_strictMonoOn f).monotoneOn (Nat.zero_le _) h (Nat.zero_le _)

/-- Signed codes order as their numbers do. -/
theorem signed_code_lt_iff {c d : Nat} (hc : c ≤ f.ovfCode) (hd : d ≤ f.ovfCode) (m n : Bool) :
    (if m then -1 else 1) * codeRat f c < (if n then -1 else 1) * codeRat f d
      ↔ (if m then -(c : Int) else c) < if n then -(d : Int) else d := by
  have hlt := codeRat_lt_iff hc hd
  have hgt := codeRat_lt_iff hd hc
  have hc0 := codeRat_nonneg hc
  have hd0 := codeRat_nonneg hd
  cases m <;> cases n <;> simp only [Bool.false_eq_true, if_false, if_true, one_mul, neg_one_mul]
  case false.false => rw [hlt, Nat.cast_lt]
  case true.true => rw [neg_lt_neg_iff, hgt, neg_lt_neg_iff, Nat.cast_lt]
  case false.true => exact iff_of_false (by linarith) (by omega)
  case true.false =>
    have hzero : codeRat f c + codeRat f d = 0 ↔ c = 0 ∧ d = 0 := by
      rw [add_eq_zero_iff_of_nonneg hc0 hd0, ← codeRat_zero f,
        (codeRat_strictMonoOn f).injOn.eq_iff hc (Nat.zero_le _), (codeRat_strictMonoOn f).injOn.eq_iff hd (Nat.zero_le _)]
    constructor
    · intro h
      by_contra hn
      have := hzero.2 (by omega)
      linarith
    · intro h
      have := lt_of_le_of_ne (add_nonneg hc0 hd0) fun h0 => by have := hzero.1 h0.symm; omega
      linarith

end

section
variable {f : Fmt} {a b : Held}

theorem ratOf_val_of_finite (ha : Fits f a) (hn : f.isNan a.body = false) (hi : f.isInf a.body = false) :
    ratOf (a.val f) = (if f.signOf a.body then -1 else 1) * codeRat f (a.code f) := by
  have hle := code_le_ovfCode hn hi
  obtain ⟨k, j, hg, hc⟩ := exists_onGrid f (a.code f)
  rw [hc] at hle
  rw [← ofCode_code ha.body ha.tail, hc, code_ofCode _ hle, codeRat, hg.val_ofCode _ hle, hg.val_ofCode _ hle, signOf_ofCode _ hle,
    ratOf_eq_sign_mul]

/-- The code of an infinity as the device makes it follows the overflow form's. -/
theorem code_of_isInf (hi : f.isInf a.body = true) (hm : Made f a) : a.code f = f.ovfCode + 1 := by
  obtain ⟨hinf, hmag⟩ : f.hasInf = true ∧ f.magOf a.body = f.infBody := by simpa [Fmt.isInf] using hi
  rw [Held.code, hmag, hm hi]
  cases f
  case e4m3 => cases hinf
  case e2m1 => cases hinf
  all_goals rfl

/-- R69: the order by signed codes is that of the values. -/
theorem below_iff (ha : Fits f a) (hb : Fits f b) (hna : f.isNan a.body = false) (hnb : f.isNan b.body = false) (hma : Made f a)
    (hmb : Made f b) : Below (a.val f) (b.val f) ↔ a.num f < b.num f := by
  unfold Held.num
  by_cases hia : f.isInf a.body = true <;> by_cases hib : f.isInf b.body = true
  · rw [code_of_isInf hia hma, code_of_isInf hib hmb, val_of_isInf hia, val_of_isInf hib]
    cases f.signOf a.body <;> cases f.signOf b.body <;> simp [Below, not_finite_inf] <;> omega
  · have hle := code_le_ovfCode hnb (Bool.eq_false_iff.2 hib)
    rw [code_of_isInf hia hma, val_of_isInf hia, val_of_finite hnb (Bool.eq_false_iff.2 hib)]
    cases f.signOf a.body <;> cases f.signOf b.body <;> simp [Below, not_finite_inf] <;> omega
  · have hle := code_le_ovfCode hna (Bool.eq_false_iff.2 hia)
    rw [code_of_isInf hib hmb, val_of_isInf hib, val_of_finite hna (Bool.eq_false_iff.2 hia)]
    cases f.signOf a.body <;> cases f.signOf b.body <;> simp [Below, not_finite_inf] <;> omega
  · rw [Bool.not_eq_true] at hia hib
    have hfa : Finite (a.val f) := finite_val_iff.2 ⟨hna, hia⟩
    have hfb : Finite (b.val f) := finite_val_iff.2 ⟨hnb, hib⟩
    rw [← signed_code_lt_iff (code_le_ovfCode hna hia) (code_le_ovfCode hnb hib), ← ratOf_val_of_finite ha hna hia,
      ← ratOf_val_of_finite hb hnb hib]
    unfold Below
    constructor
    · rintro (⟨h, -⟩ | ⟨h, -⟩ | ⟨-, -, h⟩)
      · exact absurd hfa (h ▸ not_finite_inf _)
      · exact absurd hfb (h ▸ not_finite_inf _)
      · exact h
    · exact fun h => .inr (.inr ⟨hfa, hfb, h⟩)

/-- Values that are no NaN are the same where neither is below the other. -/
theorem same_iff_not_below {x y : Val} (h : ¬ someNan x y) : Same x y ↔ ¬ Below x y ∧ ¬ Below y x := by
  unfold someNan at h
  cases x <;> cases y
  case fin.fin => simp [Same, Below, finite_fin, le_antisymm_iff, and_comm]
  case inf.inf b c => cases b <;> cases c <;> simp [Same, Below, not_finite_inf]
  case inf.fin b n m e => cases b <;> simp [Same, Below, not_finite_inf]
  case fin.inf n m e b => cases b <;> simp [Same, Below, not_finite_inf]
  all_goals simp at h

/-! ### Choices and compares (R69, R70) -/

theorem someNan_val_iff : someNan (a.val f) (b.val f) ↔ (f.isNan a.body || f.isNan b.body) = true := by
  simp only [someNan, val_eq_nan_iff, exists_and_left, exists_eq', and_true, Bool.or_eq_true]

theorem not_isNan_of_not_someNan (h : ¬ someNan (a.val f) (b.val f)) : f.isNan a.body = false ∧ f.isNan b.body = false := by
  rwa [someNan_val_iff, Bool.not_eq_true, Bool.or_eq_false_iff] at h

theorem isNan_of_isSnan {x : Nat} (h : f.isSnan x = true) : f.isNan x = true := by
  simp only [Fmt.isSnan, Bool.and_eq_true] at h
  exact h.1.1

theorem nanFlag_val : nanFlag (a.val f) (b.val f) = if f.isSnan a.body || f.isSnan b.body then fNV else 0 := by
  have hs (h : Held) : h.val f = .nan true ↔ f.isSnan h.body = true := val_eq_nan_iff.trans (and_iff_right_of_imp isNan_of_isSnan)
  simp only [nanFlag, hs, Bool.or_eq_true]

theorem nanFlag_of_not_someNan {x y : Val} (h : ¬ someNan x y) : nanFlag x y = 0 :=
  if_neg fun hs => h (hs.imp (fun h => ⟨_, h⟩) fun h => ⟨_, h⟩)

theorem fpMinMax_of_someNan (h : someNan (a.val f) (b.val f)) (isMax : Bool) :
    fpMinMax f isMax false a b = (⟨f.canonNan, 0⟩, nanFlag (a.val f) (b.val f)) := by
  rw [nanFlag_val]
  unfold fpMinMax
  simp only [someNan_val_iff.1 h, if_true, Bool.false_and, Bool.false_eq_true, if_false]

theorem fpMinMax_of_not_someNan (h : ¬ someNan (a.val f) (b.val f)) (isMax : Bool) :
    fpMinMax f isMax false a b = (if (if isMax then b.key f < a.key f else a.key f < b.key f) then a else b, 0) :=
  if_neg fun hs => h (someNan_val_iff.2 hs)

theorem fpCmp_of_someNan (h : someNan (a.val f) (b.val f)) :
    fpCmp f .eq a b = (false, nanFlag (a.val f) (b.val f)) ∧ fpCmp f .lt a b = (false, fNV) ∧ fpCmp f .le a b = (false, fNV) := by
  rw [nanFlag_val]
  unfold fpCmp
  simp only [someNan_val_iff.1 h, if_true, Bool.not_true, Bool.false_and, true_and]

theorem fpCmp_of_not_someNan (h : ¬ someNan (a.val f) (b.val f)) :
    fpCmp f .eq a b = (decide (a.num f = b.num f), 0) ∧ fpCmp f .lt a b = (decide (a.num f < b.num f), 0)
      ∧ fpCmp f .le a b = (decide (a.num f ≤ b.num f), 0) := by
  have hsig := nanFlag_val.symm.trans (nanFlag_of_not_someNan h)
  rw [someNan_val_iff, Bool.not_eq_true] at h
  unfold fpCmp
  simp only [h, hsig, Bool.not_false, Bool.true_and, Bool.false_eq_true, if_false, true_and]

theorem key_injective (ha : Fits f a) (hb : Fits f b) (h : a.key f = b.key f) : a = b := by
  unfold Held.key at h
  rw [← ofCode_code ha.body ha.tail, ← ofCode_code hb.body hb.tail]
  cases hsa : f.signOf a.body <;> cases hsb : f.signOf b.body <;> simp only [hsa, hsb, Bool.false_eq_true, if_true, if_false] at h
  case false.false => rw [Nat.cast_injective h]
  case true.true => rw [show a.code f = b.code f by omega]
  all_goals omega

theorem num_le_of_key_le (h : a.key f ≤ b.key f) : a.num f ≤ b.num f := by
  revert h
  unfold Held.key Held.num
  cases f.signOf a.body <;> cases f.signOf b.body <;> simp only [Bool.false_eq_true, if_true, if_false] <;> omega

theorem signOf_of_key_le (h : a.key f ≤ b.key f) (hb : f.signOf b.body = true) : f.signOf a.body = true := by
  by_contra hs
  rw [Held.key, Held.key, if_neg hs, if_pos hb] at h
  omega

/-- R70: what comes first by its key is not above, and is the negative one of two zeros. -/
theorem order_of_key_le (ha : Fits f a) (hb : Fits f b) (hs : ¬ someNan (a.val f) (b.val f)) (hma : Made f a) (hmb : Made f b)
    (h : a.key f ≤ b.key f) : ¬ Below (b.val f) (a.val f) ∧ (isNegative (b.val f) = true → isNegative (a.val f) = true) := by
  obtain ⟨hna, hnb⟩ := not_isNan_of_not_someNan hs
  rw [below_iff hb ha hnb hna hmb hma, isNegative_val hna, isNegative_val hnb]
  exact ⟨not_lt.2 (num_le_of_key_le h), signOf_of_key_le h⟩

/-- R70: the two operands in the order of their keys. -/
theorem exists_ordered (ha : Fits f a) (hb : Fits f b) (h : ¬ someNan (a.val f) (b.val f)) :
    ∃ lo hi : Held, (lo = a ∧ hi = b ∨ lo = b ∧ hi = a) ∧ lo.key f ≤ hi.key f
      ∧ fpMinMax f false false a b = (lo, 0) ∧ fpMinMax f true false a b = (hi, 0) := by
  rw [fpMinMax_of_not_someNan h, fpMinMax_of_not_someNan h]
  simp only [Bool.false_eq_true, if_false, if_true]
  rcases lt_trichotomy (a.key f) (b.key f) with hlt | heq | hlt
  · exact ⟨a, b, .inl ⟨rfl, rfl⟩, hlt.le, by rw [if_pos hlt], by rw [if_neg hlt.asymm]⟩
  · obtain rfl := key_injective ha hb heq
    exact ⟨a, a, .inl ⟨rfl, rfl⟩, le_rfl, by rw [ite_self], by rw [ite_self]⟩
  · exact ⟨b, a, .inr ⟨rfl, rfl⟩, hlt.le, by rw [if_neg hlt.asymm], by rw [if_pos hlt]⟩

end

end Sys2Proof.Machine

namespace Sys2Proof
open Machine Claim

/-- Settles O5: the exact operations of R53 and R54, and the order of held values by their codes. -/
theorem scalarFloatingArithmetic : Obligations.ScalarFloatingArithmetic := by
  refine ⟨fun s w f hf => ?_, fun s w f hf hw => ?_⟩
  · rw [← val_heldB]
    intro x y down
    have hquot : IsQuotient x y (fpDiv x y) := isQuotient_fpDiv x fun n m e h => by
      have hlt := significand_lt h
      obtain rfl | rfl := hf
      · exact hlt.le.trans (by decide)
      · exact hlt.le.trans (by decide)
    exact ⟨⟨_, isSum_fpAdd _ x y, exec_row hf execFadd rfl rfl⟩,
      ⟨_, isDifference_of_isSum_neg (isSum_fpAdd _ x y.neg), exec_row hf execFsub rfl rfl⟩,
      ⟨_, isProduct_fpMul x y, exec_row hf execFmul rfl rfl⟩, ⟨_, hquot, exec_row hf execFdiv rfl rfl⟩,
      ⟨_, isRoot_fpSqrt x, exec_row hf execFsqrt rfl rfl⟩⟩
  · have hmin : exec (row f .fminF64 .fminF32 w) s = execFmin f w s := exec_row hf execFmin rfl rfl
    have hmax : exec (row f .fmaxF64 .fmaxF32 w) s = execFmax f w s := exec_row hf execFmax rfl rfl
    have heq : exec (row f .fcmpeqF64 .fcmpeqF32 w) s = execFcmp f .eq w s := exec_row hf (execFcmp · .eq) rfl rfl
    have hlt : exec (row f .fcmpltF64 .fcmpltF32 w) s = execFcmp f .lt w s := exec_row hf (execFcmp · .lt) rfl rfl
    have hle : exec (row f .fcmpleF64 .fcmpleF32 w) s = execFcmp f .le w s := exec_row hf (execFcmp · .le) rfl rfl
    refine ⟨heldS s f w.a, heldB s f w, rfl, val_heldB s f w, rfl, fun hi => by unfold heldB; rw [hi], fun hs => ?_, fun hs hma hmb => ?_⟩
    · obtain ⟨ceq, clt, cle⟩ := fpCmp_of_someNan hs
      refine ⟨fun i hi => ?_, ?_, ?_, ?_⟩
      · rw [List.mem_pair] at hi
        obtain rfl | rfl := hi
        · rw [hmin, execFmin, fpMinMax_of_someNan hs]
        · rw [hmax, execFmax, fpMinMax_of_someNan hs]
      · rw [heq, execFcmp, ceq]
      · rw [hlt, execFcmp, clt]
      · rw [hle, execFcmp, cle]
    · have ha := fits_heldS s f w.a
      have hb := fits_heldB (s := s) hf hw
      obtain ⟨hna, hnb⟩ := not_isNan_of_not_someNan hs
      have hbelow := below_iff ha hb hna hnb hma hmb
      have hbelow' := below_iff hb ha hnb hna hmb hma
      obtain ⟨ceq, clt, cle⟩ := fpCmp_of_not_someNan hs
      refine ⟨?_, _, _, _, ?_, ?_, ?_, by rw [heq, execFcmp, ceq], by rw [hlt, execFcmp, clt], by rw [hle, execFcmp, cle]⟩
      · obtain ⟨lo, hi, hor, hkey, hlo, hhi⟩ := exists_ordered ha hb hs
        have horder : ¬ Below (hi.val f) (lo.val f) ∧ (isNegative (hi.val f) = true → isNegative (lo.val f) = true) := by
          obtain ⟨rfl, rfl⟩ | ⟨rfl, rfl⟩ := hor
          · exact order_of_key_le ha hb hs hma hmb hkey
          · exact order_of_key_le hb ha (hs ∘ Or.symm) hmb hma hkey
        exact ⟨lo, hi, hor, horder.1, fun _ => horder.2, by rw [hmin, execFmin, hlo], by rw [hmax, execFmax, hhi]⟩
      · rw [same_iff_not_below hs, hbelow, hbelow', decide_eq_true_iff, not_lt, not_lt, le_antisymm_iff, and_comm]
      · rw [hbelow, decide_eq_true_iff]
      · rw [← Bool.decide_or]
        exact decide_eq_decide.2 le_iff_lt_or_eq

end Sys2Proof

/-! # The merge of FMA (R101, R113) -/

namespace Sys2Proof.Machine
open Claim

/-- Zero times an infinity (R54). -/
theorem zeroTimesInf_iff {x y : Val} : zeroTimesInf x y = true ↔
    (∃ b, x = .inf b) ∧ Finite y ∧ ratOf y = 0 ∨ Finite x ∧ ratOf x = 0 ∧ ∃ b, y = .inf b := by
  cases x <;> cases y <;> simp [zeroTimesInf, finite_fin, not_finite_inf, not_finite_nan, ratOf_fin_eq_zero]

theorem snanFlag_triple (x y z : Val) : snanFlag [x, y, z] = if x = .nan true ∨ y = .nan true ∨ z = .nan true then fNV else 0 := by
  have hs (v : Val) : v.snan = true ↔ v = .nan true := by cases v <;> simp [Val.snan]
  simp [snanFlag, hs]

/-- The flag that FMA raises at its issue. -/
theorem fmaFlag_eq (x y : Val) : flagOr (if zeroTimesInf x y then fNV else 0) (snanFlag [x, y])
    = if zeroTimesInf x y = true ∨ x = .nan true ∨ y = .nan true then fNV else 0 := by
  rw [snanFlag_pair, nanFlag]
  by_cases h1 : zeroTimesInf x y = true <;> by_cases h2 : x = .nan true ∨ y = .nan true <;> simp [h1, h2, flagOr]

theorem isNan_iff {x : Val} : x.isNan = true ↔ ∃ b, x = .nan b := by cases x <;> simp [Val.isNan]

section
variable (mode : RMode) {x y z : Val}

theorem fpFma_of_nan (hz : zeroTimesInf x y = false) (h : ∃ b, x = .nan b ∨ y = .nan b ∨ z = .nan b) :
    fpFma mode x y z = (.nan, if x = .nan true ∨ y = .nan true ∨ z = .nan true then fNV else 0) := by
  have hn : (x.isNan || y.isNan || z.isNan) = true := by
    simp only [Bool.or_eq_true, isNan_iff]
    obtain ⟨b, h | h | h⟩ := h
    · exact .inl (.inl ⟨b, h⟩)
    · exact .inl (.inr ⟨b, h⟩)
    · exact .inr ⟨b, h⟩
  rw [fpFma, hz, if_neg Bool.false_ne_true, if_pos hn, snanFlag_triple]

/-- Where nothing is a NaN, the exact product is added. -/
theorem fpFma_of_product {p : Val} (hz : zeroTimesInf x y = false) (hx : x.isNan = false) (hy : y.isNan = false) (hc : z.isNan = false)
    (hp : (fpMul x y).1.toVal = p) : fpFma mode x y z = fpAdd mode p z := by
  rw [fpFma, hz, if_neg Bool.false_ne_true, hx, hy, hc, if_neg (by decide), hp]

theorem isNan_of_finite (h : Finite x) : x.isNan = false := by
  obtain ⟨n, m, e, rfl⟩ := h
  rfl

/-- An infinite product, and nothing invalid in it. -/
theorem fpMul_of_productIsInf {n : Bool} (h : ProductIsInf x y n) :
    zeroTimesInf x y = false ∧ x.isNan = false ∧ y.isNan = false ∧ (fpMul x y).1.toVal = .inf n := by
  obtain ⟨a, b, rfl, rfl, rfl⟩ | ⟨a, rfl, ⟨n2, m, e, rfl⟩, h0, rfl⟩ | ⟨b, ⟨n1, m, e, rfl⟩, h0, rfl, rfl⟩ := h
  · exact ⟨rfl, rfl, rfl, rfl⟩
  · rw [Ne, ratOf_fin_eq_zero] at h0
    refine ⟨decide_eq_false h0, rfl, rfl, ?_⟩
    rw [fpMul, if_neg h0]
    rfl
  · rw [Ne, ratOf_fin_eq_zero] at h0
    refine ⟨decide_eq_false h0, rfl, rfl, ?_⟩
    rw [fpMul, if_neg h0]
    rfl

theorem isFused_fpFma (x y z : Val) : IsFused (mode = .rdn) x y z (fpFma mode x y z) := by
  refine ⟨?_, fun h => if_pos (zeroTimesInf_iff.2 h), fun h => fpFma_of_nan mode (Bool.eq_false_iff.2 fun hz => h (zeroTimesInf_iff.1 hz)),
    ?_, fun n h => ?_⟩
  · rintro ⟨n1, m1, e1, rfl⟩ ⟨n2, m2, e2, rfl⟩ ⟨n3, m3, e3, rfl⟩
    rw [fpFma_of_product mode (p := .fin (n1 != n2) (m1 * m2) (e1 + e2)) rfl rfl rfl rfl rfl, ← ratOf_mul_fin]
    obtain ⟨hfl, hex⟩ := (isSum_fpAdd mode (.fin (n1 != n2) (m1 * m2) (e1 + e2)) (.fin n3 m3 e3)).1 (finite_fin _ _ _) (finite_fin _ _ _)
    refine ⟨hfl, ?_⟩
    convert hex using 1
    show (if n3 = (n1 != n2) then n3 else _) = if (n1 != n2) = n3 then (n1 != n2) else _
    by_cases h : n3 = (n1 != n2)
    · rw [if_pos h, if_pos h.symm, h]
    · rw [if_neg h, if_neg (Ne.symm h)]
  · rintro ⟨n1, m1, e1, rfl⟩ ⟨n2, m2, e2, rfl⟩ b rfl
    exact fpFma_of_product mode rfl rfl rfl rfl rfl
  · obtain ⟨hz, hx, hy, hp⟩ := fpMul_of_productIsInf h
    obtain ⟨-, -, hinf, hl, -⟩ := isSum_fpAdd mode (.inf n) z
    refine ⟨fun hf => ?_, ?_⟩
    · rw [fpFma_of_product mode hz hx hy (isNan_of_finite hf) hp]
      exact hl n rfl hf
    · rintro b rfl
      rw [fpFma_of_product mode hz hx hy rfl hp, hinf n b rfl rfl]
      exact if_congr eq_comm rfl rfl

end

/-- What the landing of an FMA writes. -/
theorem applyAct_fma (th : Thread) {l : Landing} {d : Nat} {f : Fmt} {a b : Held} {p : Cvp} (hl : l.act = .fma d f a b p) :
    applyAct th l = { th with
      sregs := putSreg th.sregs d (fmaMerge f a b p (tget sZero th.sregs d)).1
      flags := flagOr (flagOr th.flags l.flags) (fmaMerge f a b p (tget sZero th.sregs d)).2 } := by
  rw [applyAct, hl]

end Sys2Proof.Machine

namespace Sys2Proof
open Machine Claim

/-- Settles O6: the fused sum of the exact product and the register that the landing finds. -/
theorem fusedMultiplyAddMergesAtItsLanding : Obligations.FusedMultiplyAddMergesAtItsLanding := by
  intro s w f hf
  rw [← val_heldB]
  intro x y d zeroTimes
  have hz : zeroTimesInf x y = true ↔ zeroTimes := zeroTimesInf_iff
  refine ⟨heldS s f w.a, heldB s f w, if zeroTimesInf x y = true ∨ x = .nan true ∨ y = .nan true then fNV else 0, rfl, rfl,
    fun h => if_pos (h.imp_left hz.2), fun h => if_neg fun h' => h (h'.imp_left hz.1), ?_, fun th l hl hd => ?_⟩
  · rw [exec_row hf execFma rfl rfl, ← fmaFlag_eq]
    rfl
  · refine ⟨_, isFused_fpFma _ _ _ _, ?_, ?_⟩
    · rw [applyAct_fma th hl, putSreg, if_neg hd]
      exact tget_tput_same _ _ _ _
    · rw [applyAct_fma th hl]
      rfl

end Sys2Proof

/-! # Scalar conversions, settling and classes (R57, R61, R62, R67, R72, R114) -/

namespace Sys2Proof.Machine
open Claim

/-! ## Rounding to an integer (R57, R61) -/

/-- What `Rounds` asks of a magnitude. -/
def RoundsMag (mode : RMode) (neg : Bool) (q : ℚ) (m : Nat) : Prop :=
  match mode with
  | .rtz => (m : ℚ) ≤ q ∧ q < m + 1
  | .rup => if neg then (m : ℚ) ≤ q ∧ q < m + 1 else q ≤ m ∧ (m : ℚ) < q + 1
  | .rdn => if neg then q ≤ m ∧ (m : ℚ) < q + 1 else (m : ℚ) ≤ q ∧ q < m + 1
  | .rne => 2 * |q - m| ≤ 1 ∧ (2 * |q - m| = 1 → m % 2 = 0)
  | .rna => 2 * |q - m| ≤ 1 ∧ (2 * |q - m| = 1 → q < m)

theorem rounds_of_mag {mode : RMode} {neg : Bool} {q : ℚ} {m : Nat} (hq : 0 ≤ q) (h : RoundsMag mode neg q m) :
    Rounds mode ((if neg then -1 else 1) * q) (if neg then -(m : Int) else m) := by
  have hm : (0 : ℚ) ≤ m := Nat.cast_nonneg m
  have hdiff : |(if neg then -1 else 1) * q - ((if neg then -(m : Int) else m : Int) : ℚ)| = |q - m| := by
    cases neg
    · simp
    · rw [abs_sub_comm q]
      simp [add_comm, ← sub_eq_add_neg]
  have habs : |(if neg then -1 else 1) * q| = q := by cases neg <;> simp [abs_of_nonneg hq]
  have habs' : |((if neg then -(m : Int) else m : Int) : ℚ)| = m := by cases neg <;> simp
  cases mode <;> simp only [Rounds, RoundsMag, hdiff, habs, habs'] at h ⊢
  case rne => exact ⟨h.1, fun h1 => by have := h.2 h1; split <;> omega⟩
  case rtz =>
    refine ⟨h.1, by rw [abs_lt]; constructor <;> linarith [h.1, h.2], ?_⟩
    cases neg
    · simpa using mul_nonneg hq hm
    · simpa using mul_nonneg hq hm
  case rup =>
    cases neg
    · simpa using h
    · simp only [if_true] at h ⊢
      push_cast
      exact ⟨by linarith [h.1], by linarith [h.2]⟩
  case rdn =>
    cases neg
    · simp only [Bool.false_eq_true, if_false] at h ⊢
      push_cast
      exact ⟨by linarith [h.1], by linarith [h.2]⟩
    · simp only [if_true] at h ⊢
      push_cast
      exact ⟨by linarith [h.1], by linarith [h.2]⟩
  case rna => exact h

/-- The fraction of a number in units of a power of two, and what its bits say of it. -/
theorem exists_fraction (m : Nat) {d : Nat} (hd : 0 < d) :
    ∃ t : ℚ, (m : ℚ) / d = (m / d : Nat) + t ∧ 0 ≤ t ∧ t < 1 ∧ (m % d = 0 ↔ t = 0)
      ∧ (d ≤ 2 * (m % d) ↔ 1 ≤ 2 * t) ∧ (2 * (m % d) = d ↔ 2 * t = 1) := by
  have hd' : (0 : ℚ) < d := by exact_mod_cast hd
  have hdm : (d : ℚ) * (m / d : Nat) + (m % d : Nat) = m := by exact_mod_cast Nat.div_add_mod m d
  have hlt : ((m % d : Nat) : ℚ) < d := by exact_mod_cast Nat.mod_lt m hd
  refine ⟨(m % d : Nat) / d, ?_, by positivity, (div_lt_one hd').2 hlt, ?_, ?_, ?_⟩
  · rw [div_eq_iff hd'.ne', add_mul, div_mul_cancel₀ _ hd'.ne', ← hdm]
    ring
  · rw [div_eq_zero_iff, or_iff_left hd'.ne', Nat.cast_eq_zero]
  · rw [← mul_div_assoc, le_div_iff₀ hd', one_mul]
    norm_cast
  · rw [← mul_div_assoc, div_eq_one_iff_eq hd'.ne']
    norm_cast

/-- The increment of R57 by the fraction `t` that guard and sticky mark tell apart. -/
theorem roundsMag_of_fraction (mode : RMode) (neg : Bool) (q : Nat) {t : ℚ} (h0 : 0 ≤ t) (h1 : t < 1) {g s : Bool}
    (hg : g = true ↔ 1 ≤ 2 * t) (hs : s = true ↔ t ≠ 0 ∧ 2 * t ≠ 1) :
    RoundsMag mode neg (q + t) (if roundUp mode neg (q % 2 = 1) g s then q + 1 else q) := by
  have hlow : |(q : ℚ) + t - q| = t := by rw [add_sub_cancel_left, abs_of_nonneg h0]
  have hhigh : |(q : ℚ) + t - (q + 1 : Nat)| = 1 - t := by
    rw [abs_sub_comm, abs_of_nonneg (by push_cast; linarith)]
    push_cast
    ring
  have hexact : (g || s) = true ↔ t ≠ 0 := by
    rw [Bool.or_eq_true, hg, hs]
    refine ⟨fun h ht => ?_, fun ht => ?_⟩
    · obtain h | h := h
      · linarith
      · exact h.1 ht
    · by_cases hh : 2 * t = 1
      · exact .inl hh.ge
      · exact .inr ⟨ht, hh⟩
  have hfloor : (q : ℚ) ≤ q + t ∧ (q : ℚ) + t < q + 1 := ⟨by linarith, by linarith⟩
  have hceil : (q : ℚ) + t ≤ (if (g || s) = true then q + 1 else q : Nat)
      ∧ ((if (g || s) = true then q + 1 else q : Nat) : ℚ) < q + t + 1 := by
    split
    next h =>
      have := lt_of_le_of_ne h0 (hexact.1 h).symm
      push_cast
      exact ⟨by linarith, by linarith⟩
    next h =>
      rw [not_not.1 (mt hexact.2 h)]
      exact ⟨by linarith, by linarith⟩
  cases mode <;> simp only [RoundsMag]
  case rtz => simpa [roundUp] using hfloor
  case rup =>
    cases neg
    · simpa [roundUp] using hceil
    · simpa [roundUp] using hfloor
  case rdn =>
    cases neg
    · simpa [roundUp] using hfloor
    · simpa [roundUp] using hceil
  case rne =>
    by_cases h : roundUp .rne neg (q % 2 = 1) g s = true
    · rw [if_pos h]
      simp only [roundUp, Bool.and_eq_true, Bool.or_eq_true, hg, hs, decide_eq_true_eq] at h
      rw [hhigh]
      refine ⟨by linarith [h.1], fun hh => ?_⟩
      have hodd := h.2.resolve_left fun h => h.2 (by linarith)
      omega
    · rw [if_neg h]
      simp only [roundUp, Bool.and_eq_true, Bool.or_eq_true, hg, hs, decide_eq_true_eq, not_and, not_or, not_not] at h
      rw [hlow]
      by_cases hh : 1 ≤ 2 * t
      · have ht : 2 * t = 1 := (h hh).1 (by rintro rfl; linarith)
        have heven := (h hh).2
        exact ⟨ht.le, fun _ => by omega⟩
      · exact ⟨by linarith, fun h => absurd h.ge hh⟩
  case rna =>
    by_cases h : roundUp .rna neg (q % 2 = 1) g s = true
    · have ht := hg.1 h
      rw [if_pos h, hhigh]
      exact ⟨by linarith, fun _ => by push_cast; linarith⟩
    · have ht := mt hg.2 h
      rw [if_neg h, hlow]
      exact ⟨by linarith, fun h => absurd h.ge ht⟩

/-- The magnitude that a mode rounds `m / d` to, by its last bit, its guard and its sticky mark (R57). -/
def roundedMag (mode : RMode) (neg : Bool) (m d : Nat) : Nat :=
  if roundUp mode neg (m / d % 2 = 1) (d ≤ 2 * (m % d)) (m % d != 0 && 2 * (m % d) != d) then m / d + 1 else m / d

section
variable (mode : RMode) (neg : Bool) (m : Nat) {d : Nat} (hd : 0 < d)

theorem roundedMag_eq_or : roundedMag mode neg m d = m / d ∨ roundedMag mode neg m d = m / d + 1 := by
  unfold roundedMag
  split
  · exact .inr rfl
  · exact .inl rfl

include hd

theorem roundsMag_roundedMag : RoundsMag mode neg (m / d) (roundedMag mode neg m d) := by
  obtain ⟨t, hx, h0, h1, hz, hg, hh⟩ := exists_fraction m hd
  rw [hx]
  refine roundsMag_of_fraction mode neg (m / d) h0 h1 (decide_eq_true_iff.trans hg) ?_
  rw [Bool.and_eq_true, bne_iff_ne, bne_iff_ne, Ne, Ne, hz, hh]

/-- A mode changes a number exactly where it is no integer. -/
theorem roundedMag_eq_iff : (roundedMag mode neg m d : ℚ) = m / d ↔ m % d = 0 := by
  obtain ⟨t, hx, h0, h1, hz, -, -⟩ := exists_fraction m hd
  rw [hx]
  constructor
  · intro h
    rw [hz]
    obtain hq | hq := roundedMag_eq_or mode neg m (d := d)
    · rw [hq] at h
      linarith
    · rw [hq] at h
      push_cast at h
      linarith
  · intro h
    have hup : roundedMag mode neg m d = m / d := by
      unfold roundedMag
      rw [h]
      cases mode <;> simp [roundUp, hd.ne']
    rw [hup, hz.1 h, add_zero]

end

theorem roundsMag_self (mode : RMode) (neg : Bool) (m : Nat) : RoundsMag mode neg m m := by
  have h := roundsMag_of_fraction mode neg m (t := 0) (g := false) (s := false) le_rfl one_pos (by simp) (by simp)
  have hup : roundUp mode neg (m % 2 = 1) false false = false := by cases mode <;> simp [roundUp]
  rwa [hup, if_neg Bool.false_ne_true, add_zero] at h

/-- The sign of a rounded magnitude decides nothing about its being exact. -/
theorem signed_eq_iff (neg : Bool) (q : ℚ) (m : Nat) :
    (((if neg then -(m : Int) else m : Int)) : ℚ) = (if neg then -1 else 1) * q ↔ (m : ℚ) = q := by
  cases neg <;> simp

/-- R61: the rounded integer, and whether the number was none. -/
theorem roundInt_spec (mode : RMode) (neg : Bool) (m : Nat) (e : Int) :
    Rounds mode (ratOf (.fin neg m e)) (roundInt mode neg m e).1
      ∧ ((roundInt mode neg m e).2 = false ↔ ((roundInt mode neg m e).1 : ℚ) = ratOf (.fin neg m e)) := by
  rw [ratOf_eq_sign_mul]
  by_cases he : 0 ≤ e
  · have hr : roundInt mode neg m e = (if neg then -((m * 2 ^ e.toNat : Nat) : Int) else (m * 2 ^ e.toNat : Nat), false) := by
      unfold roundInt
      simp only [if_pos he]
    have hq : ratOf (.fin false m e) = (m * 2 ^ e.toNat : Nat) := by
      have hz : (2 : ℚ) ^ e = (2 ^ e.toNat : Nat) := by
        push_cast
        rw [← zpow_natCast, Int.toNat_of_nonneg he]
      simp [ratOf, hz]
    rw [hr, hq]
    exact ⟨rounds_of_mag (Nat.cast_nonneg _) (roundsMag_self mode neg _), iff_of_true rfl ((signed_eq_iff neg _ _).2 rfl)⟩
  · have hr : roundInt mode neg m e = (if neg then -(roundedMag mode neg m (2 ^ (-e).toNat) : Int) else roundedMag mode neg m (2 ^ (-e).toNat),
        m % 2 ^ (-e).toNat != 0) := by
      unfold roundInt
      simp only [if_neg he]
      rfl
    have hpos : 0 < 2 ^ (-e).toNat := Nat.two_pow_pos _
    have hq : ratOf (.fin false m e) = m / (2 ^ (-e).toNat : Nat) := by
      have hz : (2 : ℚ) ^ e = ((2 ^ (-e).toNat : Nat) : ℚ)⁻¹ := by
        push_cast
        rw [← zpow_natCast, ← zpow_neg, Int.toNat_of_nonneg (by omega), neg_neg]
      simp [ratOf, hz, div_eq_mul_inv]
    rw [hr, hq]
    refine ⟨rounds_of_mag (by positivity) (roundsMag_roundedMag mode neg m hpos), ?_⟩
    rw [signed_eq_iff, roundedMag_eq_iff mode neg m hpos, bne_eq_false_iff_eq]

/-! ## FCVT (R114) -/

theorem lt_of_intOf {t n : Nat} {sg : Bool} (h : intOf t = some (n, sg)) : t < 13 := by
  by_contra hc
  obtain ⟨k, rfl⟩ : ∃ k, t = k + 13 := ⟨t - 13, by omega⟩
  cases h

theorem fmtOf_of_intOf {t n : Nat} {sg : Bool} (h : intOf t = some (n, sg)) : fmtOf t = none := by
  have hall : ∀ t < 13, intOf t ≠ none → fmtOf t = none := by decide
  exact hall t (lt_of_intOf h) (by rw [h]; exact Option.some_ne_none _)

theorem intOf_pos {t n : Nat} {sg : Bool} (h : intOf t = some (n, sg)) : 0 < n := by
  have ht := lt_of_intOf h
  interval_cases t <;> cases h <;> decide

theorem convExact_eq (g : Fmt) (h : Held) : convExact g h = ((h.val g).exact, if h.val g = .nan true then fNV else 0) := by
  have hs : h.val g = .nan true ↔ g.isSnan h.body = true := val_eq_nan_iff.trans (and_iff_right_of_imp isNan_of_isSnan)
  simp only [convExact, hs]

section
variable {f : Fmt} (hf : f = .f64 ∨ f = .f32) (s : State) {w : SWord} {t : Nat}
include hf

theorem exec_fcvt_to_format {g : Fmt} (h : fmtOf t = some g) (hw : w.b = t) :
    exec (row f .fcvtF64 .fcvtF32 w) s = .next (landFp s w.d 1 g (convExact f (heldS s f w.a))) := by
  have ht := le_of_fmtOf h
  rw [exec_row hf execFcvt rfl rfl, execFcvt, if_pos (by omega), show w.b % 16 = t by omega, h]

theorem exec_fcvt_from_format {g : Fmt} (h : fmtOf t = some g) (hw : w.b = 16 + t) :
    exec (row f .fcvtF64 .fcvtF32 w) s = .next (landFp s w.d 1 f (convExact g (heldS s g w.a))) := by
  have ht := le_of_fmtOf h
  rw [exec_row hf execFcvt rfl rfl, execFcvt, if_neg (by omega), show w.b % 16 = t by omega, h]

theorem exec_fcvt_to_integer {n : Nat} {sg : Bool} (h : intOf t = some (n, sg)) (hw : w.b = t) {r : Int × Nat}
    (hr : fpToInt s.cur.cvp.mode (valA s f w) n sg = r) :
    exec (row f .fcvtF64 .fcvtF32 w) s = .next (landFl s w.d 1 (BitVec.ofInt 64 r.1) r.2) := by
  have ht := lt_of_intOf h
  rw [exec_row hf execFcvt rfl rfl, execFcvt, if_pos (by omega), show w.b % 16 = t by omega, h, fmtOf_of_intOf h, ← hr]
  rfl

theorem exec_fcvt_from_integer {n : Nat} {sg : Bool} (h : intOf t = some (n, sg)) (hw : w.b = 16 + t) :
    exec (row f .fcvtF64 .fcvtF32 w) s = .next (landFp s w.d 1 f
      (intExact (if sg then sextNat n (nat s w.a % 2 ^ n) else (nat s w.a % 2 ^ n : Nat)), 0)) := by
  have ht := lt_of_intOf h
  rw [exec_row hf execFcvt rfl rfl, execFcvt, if_neg (by omega), show w.b % 16 = t by omega, h, fmtOf_of_intOf h]

end

theorem exactly_intExact (i : Int) : Exactly (intExact i) i false := by
  refine ⟨_, _, _, rfl, by rw [ratOf_int, zpow_zero, mul_one], fun h => ?_⟩
  have h0 : i = 0 := by exact_mod_cast h
  rw [h0]
  rfl

theorem toInt_truncate {n : Nat} (hn : 0 < n) {x : Word} : (x.truncate n).toInt = sextNat n (x.toNat % 2 ^ n) := by
  rw [← toInt_ofNat_eq_sextNat hn, BitVec.truncate_eq_setWidth, ← BitVec.ofNat_toNat]
  exact congrArg BitVec.toInt (BitVec.eq_of_toNat_eq (by simp))

/-- R61: the range of the integer format, and the flags. -/
theorem fpToInt_fin (mode : RMode) (neg : Bool) (m : Nat) (e : Int) (n : Nat) (sg : Bool) :
    let r := (roundInt mode neg m e).1
    fpToInt mode (.fin neg m e) n sg = if r < intMin n sg then (intMin n sg, fNV) else if intMax n sg < r then (intMax n sg, fNV)
      else (r, if (r : ℚ) = ratOf (.fin neg m e) then 0 else fNX) := by
  intro r
  have hx := (roundInt_spec mode neg m e).2
  have hfl : (if (roundInt mode neg m e).2 = true then fNX else 0) = if (r : ℚ) = ratOf (.fin neg m e) then 0 else fNX := by
    rw [if_congr hx.symm rfl rfl]
    cases (roundInt mode neg m e).2 <;> rfl
  rw [← hfl]
  rfl

/-! ## SETL (R57) -/

theorem exists_val_of_finite {f : Fmt} {h : Held} (hh : Fits f h) (hn : f.isNan h.body = false) (hi : f.isInf h.body = false) :
    ∃ m e, h.val f = .fin (f.signOf h.body) m e ∧ roCode f m e false = h.code f := by
  obtain ⟨k, j, hg, hc⟩ := exists_onGrid f (h.code f)
  have hle : gridCode f k j ≤ f.ovfCode := hc ▸ code_le_ovfCode hn hi
  refine ⟨k, gridExp f j, ?_, by rw [roCode_of_onGrid hg, hc]⟩
  conv_lhs => rw [← ofCode_code hh.body hh.tail, hc]
  exact hg.val_ofCode _ hle

/-- A finite held value is settled by its code. -/
theorem settle_of_finite {f : Fmt} {h : Held} (hh : Fits f h) (hn : f.isNan h.body = false) (hi : f.isInf h.body = false) (mode : RMode) (sat : Bool) :
    settle f h f mode sat = settleCode f mode sat true (f.signOf h.body) (h.code f) := by
  obtain ⟨m, e, hv, hc⟩ := exists_val_of_finite hh hn hi
  rw [settle, hn, if_neg Bool.false_ne_true, hv, Val.exact, settleFin, hc, min_eq_left (code_le_ovfCode hn hi)]

theorem settle_of_isNan {f : Fmt} {h : Held} (hn : f.isNan h.body = true) (hf : f ≠ .e2m1) (mode : RMode) (sat : Bool) :
    settle f h f mode sat = (h.body, 0) := by
  rw [settle, if_pos hn, if_neg hf, if_pos rfl]

theorem settle_of_isInf {f : Fmt} {h : Held} (hi : f.isInf h.body = true) (mode : RMode) (sat : Bool) :
    settle f h f mode sat = (f.signed (f.signOf h.body) (if sat then f.maxBody else f.infBody), 0) := by
  have hv := val_of_isInf hi
  have hn : f.isNan h.body = false := Bool.eq_false_iff.2 fun hn => by rw [val_of_isNan hn] at hv; cases hv
  have hinf : f.hasInf = true := by simp only [Fmt.isInf, Bool.and_eq_true] at hi; exact hi.1
  rw [settle, hn, if_neg Bool.false_ne_true, hv, Val.exact, settleFin, if_pos hinf]
  cases sat <;> rfl

/-- The body that a code rounds to. -/
theorem settleCode_mag (mode : RMode) (neg : Bool) (c : Nat) :
    (if roundUp mode neg (c / 4 % 2 = 1) (c / 2 % 2 = 1) (c % 2 = 1) then c / 4 + 1 else c / 4) = roundedMag mode neg c 4 := by
  have hg : (decide (c / 2 % 2 = 1)) = decide (4 ≤ 2 * (c % 4)) := decide_eq_decide.2 (by omega)
  have hs : (decide (c % 2 = 1)) = (c % 4 != 0 && 2 * (c % 4) != 4) := by
    rw [Bool.eq_iff_iff, decide_eq_true_iff, Bool.and_eq_true, bne_iff_ne, bne_iff_ne]
    omega
  rw [hg, hs]
  rfl

/-- The integer that a signed code rounds to, in units of the last place. -/
theorem rounds_code (mode : RMode) (neg : Bool) (c : Nat) :
    Rounds mode ((if neg then -1 else 1) * (c : ℚ) / 4) (if neg then -(roundedMag mode neg c 4 : Int) else roundedMag mode neg c 4)
      ∧ (if neg then -(roundedMag mode neg c 4 : Int) else roundedMag mode neg c 4).natAbs = roundedMag mode neg c 4 := by
  refine ⟨?_, by cases neg <;> simp⟩
  rw [mul_div_assoc]
  exact rounds_of_mag (by positivity) (roundsMag_roundedMag mode neg c four_pos)

/-- R57: inexact exactly where the two tail bits are not zero. -/
theorem settleCode_inexact (c : Nat) : (decide (c / 2 % 2 = 1) || decide (c % 2 = 1)) = decide (c % 4 ≠ 0) := by
  rw [← Bool.decide_or]
  exact decide_eq_decide.2 (by omega)

section
variable {f : Fmt} (mode : RMode) (sat neg : Bool) {c : Nat}

/-- The flags of a code that does not overflow. -/
def settleFlags (f : Fmt) (c : Nat) : Nat := (if c % 4 = 0 then 0 else fNX) + if c % 4 ≠ 0 ∧ c < 4 * 2 ^ f.fb then fUF else 0

theorem settleCode_of_le (hc : c < f.ovfCode) (hm : roundedMag mode neg c 4 ≤ f.maxBody) :
    settleCode f mode sat true neg c = (f.signed neg (roundedMag mode neg c 4), settleFlags f c) := by
  rw [settleCode]
  simp only [settleCode_mag, settleCode_inexact]
  rw [if_neg (by simp only [Bool.true_and, Bool.or_eq_true, decide_eq_true_eq]; omega), settleFlags]
  by_cases h0 : c % 4 = 0 <;> by_cases hu : c < 4 * 2 ^ f.fb <;> simp [h0, hu, flagOr, fNX, fUF]

theorem settleCode_of_overflow (hsub : 2 ^ f.fb ≤ f.maxBody) (h : c = f.ovfCode ∨ c < f.ovfCode ∧ f.maxBody < roundedMag mode neg c 4) :
    settleCode f mode sat true neg c = (overflowBody f mode sat neg, fOF + fNX) := by
  have hbig : f.maxBody ≤ c / 4 := by
    obtain rfl | ⟨-, hm⟩ := h
    · unfold Fmt.ovfCode
      omega
    · have := roundedMag_eq_or mode neg c (d := 4)
      omega
  have hsubnormal : ¬ (decide (c < 4 * 2 ^ f.fb) && decide (c % 4 ≠ 0)) = true := by
    simp only [Bool.and_eq_true, decide_eq_true_eq]
    omega
  rw [settleCode]
  simp only [settleCode_mag, settleCode_inexact]
  rw [if_pos (by simp only [Bool.true_and, Bool.or_eq_true, decide_eq_true_eq]; exact h.imp_right And.right), if_neg hsubnormal]
  split <;> rfl

/-- A mode that rounds away from zero past the greatest number overflows to infinity. -/
theorem overflowBody_of_roundUp (hf : f = .f64 ∨ f = .f32) (h : c / 4 < roundedMag mode neg c 4) :
    overflowBody f mode sat neg = f.signed neg (if sat then f.maxBody else f.infBody) := by
  have hup : towardsZero mode neg = false := by
    unfold roundedMag at h
    split at h
    next hr => cases mode <;> cases neg <;> simp_all [roundUp, towardsZero]
    next => omega
  obtain rfl | rfl := hf <;> cases sat <;> simp [overflowBody, hup, Fmt.hasInf]

theorem overflowBody_eq (hf : f = .f64 ∨ f = .f32) :
    overflowBody f mode sat neg = f.signed neg
      (if sat ∨ mode = .rtz ∨ mode = (if neg then .rup else .rdn) then f.maxBody else f.infBody) := by
  obtain rfl | rfl := hf <;> cases sat <;> cases mode <;> cases neg <;> rfl

end

theorem two_pow_fb_le_maxBody {f : Fmt} (hf : f = .f64 ∨ f = .f32) : 2 ^ f.fb ≤ f.maxBody := by
  obtain rfl | rfl := hf <;> decide

theorem isInf_of_isNan {f : Fmt} {b : Nat} (hn : f.isNan b = true) : f.isInf b = false := by
  cases f <;> simp_all [Fmt.isInf, Fmt.isNan, Fmt.hasInf] <;> omega

theorem exec_setl {f : Fmt} (hf : f = .f64 ∨ f = .f32) {s : State} {w : SWord} {r : Nat × Nat}
    (hr : settle f (heldS s f w.a) f s.cur.cvp.mode s.cur.cvp.sat = r) :
    exec (row f .setlF64 .setlF32 w) s = .next (landFl s w.d 1 (BitVec.ofNat 64 r.1) r.2) := by
  rw [exec_row hf execSetl rfl rfl, ← hr]
  rfl

/-- A code up to the overflow form's is that of a finite value. -/
theorem finite_of_code_le {f : Fmt} {h : Held} (hc : h.code f ≤ f.ovfCode) : f.isNan h.body = false ∧ f.isInf h.body = false := by
  rw [finite_iff_magOf_le]
  unfold Held.code Fmt.ovfCode at hc
  omega

/-! ## FCLASS (R72, Table 2.15) -/

/-- The class of a held value: one of the bits 0 to 9. -/
def classOf (f : Fmt) (h : Held) : Nat :=
  if f.isNan h.body then (if f.isSnan h.body then 8 else 9)
  else if f.isInf h.body then (if f.signOf h.body then 0 else 7)
  else if f.magOf h.body = 0 then (if f.signOf h.body then 3 else 4)
  else if f.magOf h.body < 2 ^ f.fb then (if f.signOf h.body then 2 else 5)
  else (if f.signOf h.body then 1 else 6)

/-- A mask of one class and the two marks. -/
def classMask (i : Nat) (ovf tail : Bool) : Nat := 2 ^ i + (if ovf then 2 ^ 10 else 0) + (if tail then 2 ^ 11 else 0)

theorem fpClass_eq (f : Fmt) (h : Held) : fpClass f h
    = classMask (classOf f h) (!f.isNan h.body && !f.isInf h.body && h.code f = f.ovfCode) (decide (h.tail % 4 ≠ 0)) := by
  unfold fpClass
  extract_lets neg mag base ovf
  have hbase : base = 2 ^ classOf f h := by
    unfold base classOf
    repeat' split
    all_goals rfl
  rw [hbase, classMask]
  by_cases h0 : h.tail % 4 = 0 <;> simp [h0, ovf]

theorem classOf_lt (f : Fmt) (h : Held) : classOf f h < 10 := by
  unfold classOf
  repeat' split
  all_goals decide

theorem classMask_spec {i : Nat} (hi : i < 10) (ovf tail : Bool) :
    classMask i ovf tail < 2 ^ 12 ∧ ∀ k < 12, (classMask i ovf tail).testBit k = (i == k || k == 10 && ovf || k == 11 && tail) := by
  have hall : ∀ i < 10, ∀ ovf tail : Bool,
      classMask i ovf tail < 2 ^ 12 ∧ ∀ k < 12, (classMask i ovf tail).testBit k = (i == k || k == 10 && ovf || k == 11 && tail) := by decide
  exact hall i hi ovf tail

theorem getLsbD_fpClass (f : Fmt) (h : Held) {k : Nat} (hk : k < 10) : (BitVec.ofNat 64 (fpClass f h)).getLsbD k = true ↔ classOf f h = k := by
  rw [BitVec.getLsbD_ofNat, fpClass_eq, (classMask_spec (classOf_lt f h) _ _).2 k (by omega)]
  have h10 : (k == 10) = false := beq_eq_false_iff_ne.2 (by omega)
  have h11 : (k == 11) = false := beq_eq_false_iff_ne.2 (by omega)
  simp [h10, h11, show k < 64 by omega]

/-- The classes of Table 2.15. -/
theorem classOf_spec {f : Fmt} (hf : f = .f64 ∨ f = .f32) (h : Held) :
    (classOf f h = 0 ↔ h.val f = .inf true) ∧ (classOf f h = 7 ↔ h.val f = .inf false)
    ∧ (classOf f h = 3 ↔ Finite (h.val f) ∧ f.magOf h.body = 0 ∧ f.signOf h.body = true)
    ∧ (classOf f h = 4 ↔ Finite (h.val f) ∧ f.magOf h.body = 0 ∧ (!f.signOf h.body) = true)
    ∧ (classOf f h = 2 ↔ 0 < f.magOf h.body ∧ f.magOf h.body < 2 ^ f.fb ∧ f.signOf h.body = true)
    ∧ (classOf f h = 5 ↔ 0 < f.magOf h.body ∧ f.magOf h.body < 2 ^ f.fb ∧ (!f.signOf h.body) = true)
    ∧ (classOf f h = 1 ↔ 2 ^ f.fb ≤ f.magOf h.body ∧ f.magOf h.body ≤ f.maxBody ∧ f.signOf h.body = true)
    ∧ (classOf f h = 6 ↔ 2 ^ f.fb ≤ f.magOf h.body ∧ f.magOf h.body ≤ f.maxBody ∧ (!f.signOf h.body) = true)
    ∧ (classOf f h = 8 ↔ h.val f = .nan true) ∧ (classOf f h = 9 ↔ h.val f = .nan false) := by
  have hsub := two_pow_fb_le_maxBody hf
  have hpos : 0 < 2 ^ f.fb := Nat.two_pow_pos _
  have hfin := finite_iff_magOf_le f h.body
  rw [finite_val_iff]
  simp only [val_eq_inf_iff, val_eq_nan_iff]
  unfold classOf
  by_cases hn : f.isNan h.body = true
  · have hi : f.isInf h.body = false := isInf_of_isNan hn
    have hbig : ¬ f.magOf h.body ≤ f.maxBody := fun hle => by have := (hfin.2 hle).1; rw [hn] at this; cases this
    have hsmall : ¬ f.magOf h.body < 2 ^ f.fb := by omega
    cases f.isSnan h.body <;> simp [hn, hi, hbig, hsmall]
  · rw [Bool.not_eq_true] at hn
    by_cases hi : f.isInf h.body = true
    · have hbig : ¬ f.magOf h.body ≤ f.maxBody := fun hle => by have := (hfin.2 hle).2; rw [hi] at this; cases this
      have hsmall : ¬ f.magOf h.body < 2 ^ f.fb := by omega
      cases f.signOf h.body <;> simp [hn, hi, hbig, hsmall]
    · rw [Bool.not_eq_true] at hi
      have hle := hfin.1 ⟨hn, hi⟩
      by_cases h0 : f.magOf h.body = 0
      · cases f.signOf h.body <;> simp [hn, hi, h0, hpos]
      · by_cases h1 : f.magOf h.body < 2 ^ f.fb
        · cases f.signOf h.body <;> simp [hn, hi, h0, h1, Nat.pos_of_ne_zero h0, not_le.2 h1]
        · cases f.signOf h.body <;> simp [hn, hi, h0, h1, hle, not_lt.1 h1]

theorem toNat_fpClass_lt (f : Fmt) (h : Held) : (BitVec.ofNat 64 (fpClass f h)).toNat < 2 ^ 12 := by
  have hlt := (classMask_spec (classOf_lt f h) (!f.isNan h.body && !f.isInf h.body && h.code f = f.ovfCode) (decide (h.tail % 4 ≠ 0))).1
  rw [← fpClass_eq] at hlt
  rw [BitVec.toNat_ofNat]
  omega

/-- The two marks beside the class: the overflow form and a tail that is not zero. -/
theorem getLsbD_fpClass_marks (f : Fmt) (h : Held) :
    ((BitVec.ofNat 64 (fpClass f h)).getLsbD 10 = true ↔ f.magOf h.body = f.maxBody ∧ h.tail % 4 = 3)
    ∧ ((BitVec.ofNat 64 (fpClass f h)).getLsbD 11 = true ↔ h.tail % 4 ≠ 0) := by
  have hlt := classOf_lt f h
  rw [BitVec.getLsbD_ofNat, BitVec.getLsbD_ofNat, fpClass_eq, (classMask_spec hlt _ _).2 10 (by decide), (classMask_spec hlt _ _).2 11 (by decide)]
  have h10 : (classOf f h == 10) = false := beq_eq_false_iff_ne.2 (by omega)
  have h11 : (classOf f h == 11) = false := beq_eq_false_iff_ne.2 (by omega)
  have hcode : h.code f = f.ovfCode ↔ f.magOf h.body = f.maxBody ∧ h.tail % 4 = 3 := by
    unfold Held.code Fmt.ovfCode
    omega
  refine ⟨?_, by simp [h11]⟩
  simp only [h10, ← hcode]
  refine ⟨fun h => by simpa using And.right (by simpa using h), fun hc => ?_⟩
  obtain ⟨hn, hi⟩ := finite_of_code_le hc.le
  simp [hn, hi, hc]

end Sys2Proof.Machine

namespace Sys2Proof
open Machine Claim

/-- Settles O7: one rounding of a fraction serves the conversions to integers and the settle of codes; the classes are the bits of a
sum of distinct powers of two. -/
theorem scalarConversionsAndSettling : Obligations.ScalarConversionsAndSettling := by
  refine ⟨fun s w f t hf => ?_, fun s w f hf => ?_⟩
  · intro i x
    refine ⟨fun g hg hw => ⟨_, convExact_eq f _, exec_fcvt_to_format hf s hg hw⟩,
      fun g hg hw => ⟨_, convExact_eq g _, exec_fcvt_from_format hf s hg hw⟩, fun n sg hi hw => ?_, fun n sg hi hw => ?_⟩
    · refine ⟨fun b hx => ?_, fun b hx => ?_, fun hx => ?_⟩
      · exact exec_fcvt_to_integer hf s hi hw (r := (0, fNV)) (by rw [show valA s f w = _ from hx]; rfl)
      · exact exec_fcvt_to_integer hf s hi hw (r := (if b then intMin n sg else intMax n sg, fNV)) (by rw [show valA s f w = _ from hx]; rfl)
      · obtain ⟨neg, m, e, hv⟩ := hx
        have hv : valA s f w = .fin neg m e := hv
        refine ⟨(roundInt s.cur.cvp.mode neg m e).1, ?_, ?_⟩
        · rw [show x = _ from hv]
          exact (roundInt_spec _ neg m e).1
        · rw [show x = _ from hv]
          rw [show exec i s = _ from exec_fcvt_to_integer hf s hi hw (by rw [hv, fpToInt_fin])]
          split
          · rfl
          · split <;> rfl
    · refine ⟨_, ⟨rfl, ?_⟩, exec_fcvt_from_integer hf s hi hw⟩
      have hx := exactly_intExact (if sg then sextNat n (nat s w.a % 2 ^ n) else (nat s w.a % 2 ^ n : Nat))
      rw [apply_ite (Int.cast : Int → ℚ)] at hx
      rwa [toInt_truncate (intOf_pos hi)]
  · intro h neg sgn sat setl
    have hh := fits_heldS s f w.a
    have htail : h.code f % 4 = h.tail % 4 := by
      unfold Held.code
      omega
    refine ⟨fun hn => exec_setl hf (settle_of_isNan hn (by rintro rfl; simp at hf) _ _), fun hi => exec_setl hf (settle_of_isInf hi _ _),
      fun hn hi hc => ?_, fun hc => ?_, ?_⟩
    · have hset : settle f h f s.cur.cvp.mode sat = settleCode f s.cur.cvp.mode sat true neg (h.code f) := settle_of_finite hh hn hi _ _
      obtain ⟨hround, habs⟩ := rounds_code s.cur.cvp.mode neg (h.code f)
      refine ⟨_, hround, fun hm => ?_, fun hm => ?_⟩
      · rw [habs] at hm ⊢
        rw [settleCode_of_le _ _ _ hc hm] at hset
        rw [show exec setl s = _ from exec_setl hf hset, settleFlags, htail]
      · rw [habs] at hm
        rw [settleCode_of_overflow _ _ _ (two_pow_fb_le_maxBody hf) (.inr ⟨hc, hm⟩),
          overflowBody_of_roundUp _ _ _ hf (lt_of_le_of_lt (div_four_le_maxBody hc.le) hm)] at hset
        exact exec_setl hf hset
    · obtain ⟨hn, hi⟩ := finite_of_code_le hc.le
      have hset := settle_of_finite hh hn hi s.cur.cvp.mode sat
      rw [settleCode_of_overflow _ _ _ (two_pow_fb_le_maxBody hf) (.inl hc), overflowBody_eq _ _ _ hf] at hset
      exact exec_setl hf hset
    · obtain ⟨c0, c7, c3, c4, c2, c5, c1, c6, c8, c9⟩ := classOf_spec hf h
      obtain ⟨b10, b11⟩ := getLsbD_fpClass_marks f h
      have hbit {k : Nat} (hk : k < 10) := getLsbD_fpClass f h hk
      exact putsS_of_putS (exec_row hf execFclass rfl rfl) ⟨toNat_fpClass_lt f h, (hbit (by decide)).trans c0, (hbit (by decide)).trans c7,
        (hbit (by decide)).trans c3, (hbit (by decide)).trans c4, (hbit (by decide)).trans c2, (hbit (by decide)).trans c5,
        (hbit (by decide)).trans c1, (hbit (by decide)).trans c6, (hbit (by decide)).trans c8, (hbit (by decide)).trans c9, b10, b11⟩

end Sys2Proof

/-! # The V slot (R133 to R137)

The lanes on which an instruction acts, the elements of a lane, and what an instruction that works lane by lane answers. -/

namespace Sys2Proof.Machine
open Claim

/-! ## The acting lanes (R134) -/

section
variable {s : State} {w : VWord}

theorem mem_acting {l : Nat} : l ∈ acting s w ↔ On s w l := by
  simp [acting, On, guardBit, bitsAt]

theorem acting_pairwise (s : State) (w : VWord) : (acting s w).Pairwise (· < ·) := List.pairwise_lt_range.filter _

theorem laneB_eq_bLane (s : State) (w : VWord) (l : Nat) : laneB s w l = bLane s w l := by
  unfold laneB bLane
  split <;> rfl

theorem note_zero (s : State) : note s 0 = s := by
  simp [note, flagOr]

theorem fills_acting {P : Nat → Lane → Prop} {g : Nat → Lane} (h : ∀ l, On s w l → P l (g l)) :
    Fills s w ((acting s w).map fun l => (l, g l)) P := by
  have hfst : ((acting s w).map fun l => (l, g l)).map Prod.fst = acting s w := by
    rw [List.map_map]
    exact List.map_id _
  refine ⟨hfst.symm ▸ acting_pairwise s w, fun l => by rw [hfst, mem_acting], fun p hp => ?_⟩
  obtain ⟨l, hl, rfl⟩ := List.mem_map.1 hp
  exact h l (mem_acting.1 hl)

theorem putsV_perLane {i : Instr} {lat : Nat} {g : Nat → Lane} {P : Nat → Lane → Prop} (hx : exec i s = perLane s w lat g)
    (h : ∀ l, On s w l → P l (g l)) : PutsV i s w lat P := ⟨_, fills_acting h, hx⟩

theorem putsV_mono {i : Instr} {lat : Nat} {P Q : Nat → Lane → Prop} (h : PutsV i s w lat P)
    (hpq : ∀ l r, On s w l → P l r → Q l r) : PutsV i s w lat Q := by
  obtain ⟨ls, ⟨hs, hm, hp⟩, hx⟩ := h
  exact ⟨ls, ⟨hs, hm, fun p h => hpq _ _ ((hm _).1 (List.mem_map_of_mem h)) (hp p h)⟩, hx⟩

end

/-! ## The digits of a number -/

/-- Digits below the base: the sum of their places stays below the next power, and each can be read back. -/
theorem sum_digits {B : Nat} {d : Nat → Nat} (hd : ∀ i, d i < B) (n : Nat) :
    ((List.range n).map fun i => d i * B ^ i).sum < B ^ n
      ∧ ∀ k < n, ((List.range n).map fun i => d i * B ^ i).sum / B ^ k % B = d k := by
  have hB : 0 < B := (Nat.zero_le _).trans_lt (hd 0)
  induction n with
  | zero => simp
  | succ n ih =>
    obtain ⟨hlt, hdig⟩ := ih
    rw [List.range_succ, List.map_append, List.sum_append, List.map_singleton, List.sum_singleton]
    refine ⟨?_, fun k hk => ?_⟩
    · calc _ < B ^ n + d n * B ^ n := Nat.add_lt_add_right hlt _
        _ = (d n + 1) * B ^ n := by ring
        _ ≤ B * B ^ n := Nat.mul_le_mul_right _ (hd n)
        _ = B ^ (n + 1) := by ring
    · have hk' : B ^ n = B ^ k * B ^ (n - k) := by rw [← pow_add]; congr 1; omega
      have hpos : 0 < B ^ k := Nat.pow_pos hB
      rw [hk', mul_left_comm, Nat.add_mul_div_left _ _ hpos]
      obtain hk | rfl := Nat.lt_succ_iff_lt_or_eq.1 hk
      · obtain ⟨j, hj⟩ : ∃ j, n - k = j + 1 := ⟨n - k - 1, by omega⟩
        rw [hj, pow_succ, ← mul_assoc, Nat.add_mul_mod_self_right, hdig k hk]
      · rw [Nat.div_eq_of_lt hlt, Nat.sub_self, pow_zero, mul_one, zero_add, Nat.mod_eq_of_lt (hd k)]

/-! ## The elements of a lane (R55, Table 2.9) -/

/-- The widths that divide a lane into elements of whole bytes. -/
def IsWidth (wd : Nat) : Prop := wd = 8 ∨ wd = 16 ∨ wd = 32

theorem isWidth_tyBits (ty : Nat) : IsWidth (tyBits ty) := by
  unfold tyBits IsWidth
  split <;> decide

theorem tyWidth_eq_tyBits {ty : Nat} (h : ty ≤ 10) : tyWidth ty = tyBits ty := by
  interval_cases ty <;> rfl

theorem tyBits_of_fmtOf {ty : Nat} {f : Fmt} (hf : fmtOf ty = some f) (h : ty ≤ 10) : tyBits ty = f.width := by
  interval_cases ty <;> cases hf <;> rfl

theorem isWidth_of_fmtOf {ty : Nat} {f : Fmt} (hf : fmtOf ty = some f) (h : ty ≤ 10) : IsWidth f.width :=
  tyBits_of_fmtOf hf h ▸ isWidth_tyBits ty

theorem zip_range_map {α : Type} (n : Nat) (g : Nat → α) : (List.range n).zip ((List.range n).map g) = (List.range n).map fun i => (i, g i) := by
  rw [← List.zip_map', List.map_id']

section
variable {wd : Nat} (hwd : IsWidth wd) (g : Nat → Held) {k : Nat} (hk : k < 32 / wd)

theorem mkLane_map (wd : Nat) (g : Nat → Held) : mkLane wd ((elems wd).map g) =
    { data := BitVec.ofNat 32 ((List.range (32 / wd)).map fun i => (g i).body % 2 ^ wd * (2 ^ wd) ^ i).sum
      tail := BitVec.ofNat 8 ((List.range (32 / wd)).map fun i => (g i).tail % 4 * 4 ^ i).sum } := by
  simp only [mkLane, elems, List.length_map, List.length_range, zip_range_map, List.map_map, Function.comp_def, pow_mul]

include hwd hk

theorem elemBits_mkLane : elemBits wd k (mkLane wd ((elems wd).map g)) = (g k).body % 2 ^ wd := by
  obtain ⟨hlt, hdig⟩ := sum_digits (fun i => Nat.mod_lt (g i).body (Nat.two_pow_pos wd)) (32 / wd)
  have h32 : (2 ^ wd) ^ (32 / wd) = 2 ^ 32 := by
    rw [← pow_mul]
    obtain rfl | rfl | rfl := hwd <;> rfl
  rw [h32] at hlt
  rw [mkLane_map, elemBits, bitsAt, BitVec.toNat_ofNat, Nat.mod_eq_of_lt hlt, pow_mul]
  exact hdig k hk

theorem tail_mkLane : (mkLane wd ((elems wd).map g)).tail.toNat / 4 ^ k % 4 = (g k).tail % 4 := by
  obtain ⟨hlt, hdig⟩ := sum_digits (fun i => Nat.mod_lt (g i).tail four_pos) (32 / wd)
  have h8 : 4 ^ (32 / wd) ≤ 2 ^ 8 := by obtain rfl | rfl | rfl := hwd <;> decide
  rw [mkLane_map, BitVec.toNat_ofNat, Nat.mod_eq_of_lt (hlt.trans_le h8)]
  exact hdig k hk

end

theorem tail_mkLaneI (wd : Nat) (g : Nat → Nat) : (mkLaneI wd ((elems wd).map g)).tail = 0 := by
  rw [mkLaneI, List.map_map, mkLane_map]
  simp

/-- The elements of a lane of integers. -/
theorem eltBitsAt_mkLaneI (ty : Nat) (g : Nat → Nat) {k : Nat} (hk : k < 32 / tyBits ty) :
    eltBitsAt ty k (mkLaneI (tyBits ty) ((elems (tyBits ty)).map g)) = g k % 2 ^ tyBits ty := by
  rw [mkLaneI, List.map_map]
  exact elemBits_mkLane (isWidth_tyBits ty) _ hk

/-- The elements of a lane of held values. -/
theorem eltHeldAt_mkLane {f : Fmt} (hw : IsWidth f.width) (g : Nat → Held) {k : Nat} (hk : k < 32 / f.width) (hg : Fits f (g k)) :
    eltHeldAt f k (mkLane f.width ((elems f.width).map g)) = g k := by
  rw [← elemHeld_eq_eltHeldAt, elemHeld, elemBits_mkLane hw g hk, Nat.mod_eq_of_lt hg.body, bitsAt, pow_mul]
  rw [show (2 : Nat) ^ 2 = 4 from rfl, tail_mkLane hw g hk, Nat.mod_eq_of_lt hg.tail]

theorem fits_eltHeldAt (f : Fmt) (k : Nat) (x : Lane) : Fits f (eltHeldAt f k x) :=
  ⟨Nat.mod_lt _ (Nat.two_pow_pos _), Nat.mod_lt _ four_pos⟩

/-- Two lanes with the same elements have the same bits. -/
theorem data_eq_of_eltBitsAt {ty : Nat} {x y : Lane} (h : ∀ k < 32 / tyBits ty, eltBitsAt ty k x = eltBitsAt ty k y) : x.data = y.data := by
  have hw := isWidth_tyBits ty
  refine BitVec.eq_of_toNat_eq ?_
  have hx := x.data.isLt
  have hy := y.data.isLt
  simp only [eltBitsAt] at h
  obtain h8 | h8 | h8 := hw <;> rw [h8] at h
  · have h0 := h 0 (by decide)
    have h1 := h 1 (by decide)
    have h2 := h 2 (by decide)
    have h3 := h 3 (by decide)
    omega
  · have h0 := h 0 (by decide)
    have h1 := h 1 (by decide)
    omega
  · have h0 := h 0 (by decide)
    omega

/-! ## Elements as integers (Table 3.8) -/

theorem tyBits_pos (ty : Nat) : 0 < tyBits ty := by
  obtain h | h | h := isWidth_tyBits ty <;> omega

theorem two_pow_tyBits (ty : Nat) : (2 : Int) ^ tyBits ty = 2 * 2 ^ (tyBits ty - 1) := by
  rw [← pow_succ', Nat.sub_add_cancel (tyBits_pos ty)]

theorem eltBitsAt_lt (ty k : Nat) (x : Lane) : eltBitsAt ty k x < 2 ^ tyBits ty := Nat.mod_lt _ (Nat.two_pow_pos _)

/-- An element lies in the range of its type and is its bits modulo the width. -/
theorem eltIntAt_spec (ty k : Nat) (x : Lane) :
    lowest ty ≤ eltIntAt ty k x ∧ eltIntAt ty k x ≤ highest ty ∧ eltIntAt ty k x % 2 ^ tyBits ty = eltBitsAt ty k x := by
  have hlt : (eltBitsAt ty k x : Int) < 2 ^ tyBits ty := by exact_mod_cast eltBitsAt_lt ty k x
  have hge : ((2 ^ (tyBits ty - 1) : Nat) : Int) = 2 ^ (tyBits ty - 1) := by push_cast; rfl
  have h2 := two_pow_tyBits ty
  have hpos : (0 : Int) < 2 ^ (tyBits ty - 1) := by positivity
  have hmod : ((eltBitsAt ty k x : Int) - 2 ^ tyBits ty) % 2 ^ tyBits ty = eltBitsAt ty k x := by
    rw [Int.sub_emod_right, Int.emod_eq_of_lt (by omega) hlt]
  by_cases h : ty % 2 = 0 ∧ 2 ^ (tyBits ty - 1) ≤ eltBitsAt ty k x
  · have he : eltIntAt ty k x = eltBitsAt ty k x - 2 ^ tyBits ty := if_pos h
    obtain ⟨hs, hb⟩ := h
    rw [he, lowest, highest, if_pos hs, if_pos hs]
    exact ⟨by omega, by omega, hmod⟩
  · have he : eltIntAt ty k x = eltBitsAt ty k x := if_neg h
    rw [he, lowest, highest]
    refine ⟨by split <;> omega, ?_, Int.emod_eq_of_lt (by omega) hlt⟩
    split
    next hs => have := not_le.1 fun hc => h ⟨hs, hc⟩; omega
    next => omega

/-- A number in the range of the type is the element whose bits it is modulo the width. -/
theorem eltIntAt_of_range {ty k : Nat} {r : Lane} {x : Int} (h : (eltBitsAt ty k r : Int) = x % 2 ^ tyBits ty) (hlo : lowest ty ≤ x)
    (hhi : x ≤ highest ty) : eltIntAt ty k r = x := by
  obtain ⟨h1, h2, h3⟩ := eltIntAt_spec ty k r
  have hmod : (eltIntAt ty k r - x) % 2 ^ tyBits ty = 0 := by rw [Int.sub_emod, h3, h, sub_self, Int.zero_emod]
  have hspan : highest ty - lowest ty < 2 ^ tyBits ty := by
    have := two_pow_tyBits ty
    unfold highest lowest
    split <;> omega
  obtain ⟨c, hc⟩ := Int.dvd_of_emod_eq_zero hmod
  have hc0 : c = 0 := by
    have hpos : (0 : Int) < 2 ^ tyBits ty := by positivity
    by_contra hne
    obtain h | h : 1 ≤ c ∨ c ≤ -1 := by omega
    · nlinarith
    · nlinarith
  rw [hc0, mul_zero] at hc
  omega

/-- Elements with the same bits are the same integer. -/
theorem eltIntAt_congr {ty k j : Nat} {x y : Lane} (h : eltBitsAt ty k x = eltBitsAt ty j y) : eltIntAt ty k x = eltIntAt ty j y := by
  unfold eltIntAt
  rw [h]

theorem natCast_wrapNat (n : Nat) (x : Int) : (wrapNat n x : Int) = x % 2 ^ n := by
  have h : ((2 ^ n : Nat) : Int) = 2 ^ n := by push_cast; rfl
  rw [wrapNat, h, Int.toNat_of_nonneg (Int.emod_nonneg _ (by positivity))]

theorem wrapNat_lt (n : Nat) (x : Int) : wrapNat n x < 2 ^ n := by
  have h : (wrapNat n x : Int) < 2 ^ n := by
    rw [natCast_wrapNat]
    exact Int.emod_lt_of_pos _ (by positivity)
  exact_mod_cast h

theorem intOf_of_le {ty : Nat} (h : ty ≤ 5) : intOf ty = some (tyBits ty, decide (ty % 2 = 0)) := by
  interval_cases ty <;> rfl

theorem fmtOf_of_le {ty : Nat} (h : ty ≤ 5) : fmtOf ty = none := by
  interval_cases ty <;> rfl

theorem intMin_eq_lowest (ty : Nat) : intMin (tyBits ty) (ty % 2 = 0) = lowest ty := by
  unfold intMin lowest
  simp

theorem intMax_eq_highest (ty : Nat) : intMax (tyBits ty) (ty % 2 = 0) = highest ty := by
  unfold intMax highest
  simp

theorem sextNat_of_lt {ty x : Nat} (h : x < 2 ^ tyBits ty) :
    sextNat (tyBits ty) x = if 2 ^ (tyBits ty - 1) ≤ x then (x : Int) - 2 ^ tyBits ty else x := by
  have hc : ((2 ^ tyBits ty : Nat) : Int) = 2 ^ tyBits ty := by push_cast; rfl
  rw [sextNat, Nat.mod_eq_of_lt h, hc]
  by_cases hx : 2 ^ (tyBits ty - 1) ≤ x
  · rw [if_neg (not_lt.2 hx), if_pos hx]
  · rw [if_pos (not_le.1 hx), if_neg hx]

/-- An element of a signed type. -/
theorem sextNat_eltBitsAt {ty : Nat} (hs : ty % 2 = 0) (k : Nat) (x : Lane) : sextNat (tyBits ty) (eltBitsAt ty k x) = eltIntAt ty k x := by
  rw [sextNat_of_lt (eltBitsAt_lt ty k x), eltIntAt]
  simp only [hs, true_and]

theorem elemInt_eq_eltIntAt {ty : Nat} (h : ty ≤ 5) (k : Nat) (x : Lane) : elemInt ty (tyBits ty) k x = eltIntAt ty k x := by
  rw [elemInt, intOf_of_le h]
  by_cases hs : ty % 2 = 0
  · rw [← sextNat_eltBitsAt hs]
    simp only [hs, decide_true]
    rfl
  · rw [eltIntAt, if_neg fun h => hs h.1]
    simp only [hs, decide_false]
    rfl

end Sys2Proof.Machine

/-! # Vector integers and bits (R133, R136, R140) -/

namespace Sys2Proof.Machine
open Claim

section
variable {s : State} {w : VWord}

theorem eachElt_mkLaneI {ty : Nat} {g : Nat → Nat} {P : Nat → Prop}
    (h : ∀ k, eltBitsAt ty k (mkLaneI (tyBits ty) ((elems (tyBits ty)).map g)) = g k % 2 ^ tyBits ty → P k) :
    EachElt ty (mkLaneI (tyBits ty) ((elems (tyBits ty)).map g)) P :=
  ⟨tail_mkLaneI _ g, fun k hk => h k (eltBitsAt_mkLaneI ty g hk)⟩

theorem eachElt_mono {ty : Nat} {r : Lane} {P Q : Nat → Prop} (h : EachElt ty r P) (hpq : ∀ k, k < 32 / tyBits ty → P k → Q k) : EachElt ty r Q :=
  ⟨h.1, fun k hk => hpq k hk (h.2 k hk)⟩

/-- A row that works on the elements as integers answers the result modulo the width. -/
theorem putsV_intOp {i : Instr} {f : Int → Int → Int} (hty : w.ty ≤ 5) (hx : exec i s = intOp s w f) :
    PutsV i s w 1 fun l r => EachElt w.ty r fun k =>
      (eltBitsAt w.ty k r : Int) = f (eltIntAt w.ty k (vlane s w.a l)) (eltIntAt w.ty k (bLane s w l)) % 2 ^ tyBits w.ty := by
  rw [intOp, tyWidth_eq_tyBits (by omega)] at hx
  refine putsV_perLane hx fun l _ => eachElt_mkLaneI fun k hk => ?_
  rw [hk, Nat.mod_eq_of_lt (wrapNat_lt _ _), natCast_wrapNat, elemInt_eq_eltIntAt hty, elemInt_eq_eltIntAt hty, laneB_eq_bLane]

/-- The same where the result lies in the range of the type. -/
theorem putsV_intOp_of_range {i : Instr} {f : Int → Int → Int} (hty : w.ty ≤ 5) (hx : exec i s = intOp s w f)
    (hr : ∀ l k, let y := f (eltIntAt w.ty k (vlane s w.a l)) (eltIntAt w.ty k (bLane s w l)); lowest w.ty ≤ y ∧ y ≤ highest w.ty) :
    PutsV i s w 1 fun l r => EachElt w.ty r fun k =>
      eltIntAt w.ty k r = f (eltIntAt w.ty k (vlane s w.a l)) (eltIntAt w.ty k (bLane s w l)) :=
  putsV_mono (putsV_intOp hty hx) fun l _ _ h => eachElt_mono h fun k _ hk => eltIntAt_of_range hk (hr l k).1 (hr l k).2

/-- A row that works on the bits of the elements. -/
theorem putsV_bitOp {i : Instr} {f : Nat → Nat → Nat → Nat} (hty : w.ty ≤ 5) (hx : exec i s = bitOp s w f) :
    PutsV i s w 1 fun l r => EachElt w.ty r fun k =>
      eltBitsAt w.ty k r = f (tyBits w.ty) (eltBitsAt w.ty k (vlane s w.a l)) (eltBitsAt w.ty k (bLane s w l)) % 2 ^ tyBits w.ty := by
  rw [bitOp, tyWidth_eq_tyBits (by omega)] at hx
  refine putsV_perLane hx fun l _ => eachElt_mkLaneI fun k hk => ?_
  rw [hk, laneB_eq_bLane]
  rfl

/-- A row that combines bit by bit works on whole lanes. -/
theorem putsV_bitwise {i : Instr} {f : Nat → Nat → Nat} {g : W32 → W32 → W32} (hty : w.ty ≤ 5) (hx : exec i s = bitOp s w fun _ => f)
    (hg : ∀ {x y}, (g x y).toNat = f x.toNat y.toNat)
    (hd : ∀ {x y j}, f x y / 2 ^ j = f (x / 2 ^ j) (y / 2 ^ j)) (hm : ∀ {x y j}, f x y % 2 ^ j = f (x % 2 ^ j) (y % 2 ^ j)) :
    PutsV i s w 1 fun l r => r.tail = 0 ∧ r.data = g (vlane s w.a l).data (bLane s w l).data := by
  refine putsV_mono (putsV_bitOp hty hx) fun l r _ h => ⟨h.1, data_eq_of_eltBitsAt (ty := w.ty)
    (y := { data := g (vlane s w.a l).data (bLane s w l).data }) fun k hk => ?_⟩
  rw [h.2 k hk, eltBitsAt, eltBitsAt, eltBitsAt, hg, hd, hm, hm, Nat.mod_mod, Nat.mod_mod]

/-- Saturation gives the nearest value of the range (R133). -/
theorem satOp_of_saturating (hty : w.ty ≤ 5) (hm : w.md = 1) (x : Int) : satOp w x = max (lowest w.ty) (min (highest w.ty) x) := by
  simp only [satOp, intOf_of_le hty, if_pos hm, clampInt, intMin_eq_lowest, intMax_eq_highest]

theorem satOp_of_wrapping (hty : w.ty ≤ 5) (hm : w.md = 0) (x : Int) : satOp w x = x := by
  simp only [satOp, intOf_of_le hty, hm, Nat.zero_ne_one, if_false]

theorem lowest_le_highest (ty : Nat) : lowest ty ≤ highest ty := by
  obtain ⟨h1, h2, -⟩ := eltIntAt_spec ty 0 {}
  exact h1.trans h2

end

/-! ## Shifts and counts -/

/-- A floor by a power of two stays in the range of the type. -/
theorem range_div_two_pow (ty k : Nat) (x : Lane) (j : Nat) :
    lowest ty ≤ eltIntAt ty k x / 2 ^ j ∧ eltIntAt ty k x / 2 ^ j ≤ highest ty := by
  obtain ⟨h1, h2, -⟩ := eltIntAt_spec ty k x
  have hpos : (0 : Int) < 2 ^ j := by positivity
  have hone : (1 : Int) ≤ 2 ^ j := hpos
  have hlow : lowest ty ≤ 0 := by
    unfold lowest
    split
    · exact neg_nonpos.2 (by positivity)
    · exact le_rfl
  have hhigh : 0 ≤ highest ty := by
    have h1 : (1 : Int) ≤ 2 ^ (tyBits ty - 1) := one_le_pow₀ (by decide)
    have h2 : (1 : Int) ≤ 2 ^ tyBits ty := one_le_pow₀ (by decide)
    unfold highest
    split <;> omega
  rw [Int.le_ediv_iff_mul_le hpos]
  refine ⟨by nlinarith, ?_⟩
  obtain hn | hn := le_or_gt 0 (eltIntAt ty k x)
  · exact (Int.ediv_le_self _ hn).trans h2
  · exact (Int.ediv_neg_of_neg_of_pos hn hpos).le.trans hhigh

theorem clzNat_normalizes {n x : Nat} (h0 : x ≠ 0) (hx : x < 2 ^ n) :
    clzNat n x < n ∧ 2 ^ (n - 1) ≤ x * 2 ^ clzNat n x ∧ x * 2 ^ clzNat n x < 2 ^ n := by
  have hlog : x.log2 < n := (Nat.log2_lt h0).2 hx
  rw [clzNat, if_neg h0]
  have h1 : 2 ^ (n - 1) = 2 ^ x.log2 * 2 ^ (n - 1 - x.log2) := by rw [← pow_add]; congr 1; omega
  have h2 : 2 ^ n = 2 ^ (x.log2 + 1) * 2 ^ (n - 1 - x.log2) := by rw [← pow_add]; congr 1; omega
  refine ⟨by omega, ?_, ?_⟩
  · rw [h1]
    exact Nat.mul_le_mul_right _ (Nat.log2_self_le h0)
  · rw [h2]
    exact Nat.mul_lt_mul_of_pos_right Nat.lt_log2_self (Nat.two_pow_pos _)

theorem popNat_eq_length_filter_testBit (n x : Nat) : popNat n x = ((List.range n).filter x.testBit).length := by
  rw [← sum_map_toNat_eq_length_filter, popNat]
  refine congrArg List.sum (List.map_congr_left fun k _ => ?_)
  rw [Nat.testBit_eq_decide_div_mod_eq]
  rcases Nat.mod_two_eq_zero_or_one (x / 2 ^ k) with h | h <;> simp [bitsAt, h]

/-- The bits of an element are its integer modulo the width. -/
theorem eltBitsAt_modEq (ty k : Nat) (x : Lane) : (eltBitsAt ty k x : Int) ≡ eltIntAt ty k x [ZMOD 2 ^ tyBits ty] :=
  (eltIntAt_spec ty k x).2.2 ▸ Int.mod_modEq _ _

theorem natAbs_eltIntAt_lt (ty k : Nat) (x : Lane) : ((eltIntAt ty k x).natAbs : Int) < 2 ^ tyBits ty := by
  obtain ⟨h1, h2, -⟩ := eltIntAt_spec ty k x
  have hpow := two_pow_tyBits ty
  have hpos : (0 : Int) < 2 ^ (tyBits ty - 1) := by positivity
  unfold lowest at h1
  unfold highest at h2
  split at h1
  · rw [if_pos ‹_›] at h2
    omega
  · rw [if_neg ‹_›] at h2
    omega

theorem tyBits_of_le_one {ty : Nat} (h : ty ≤ 1) : tyBits ty = 8 := by
  interval_cases ty <;> rfl

/-- A count of bits or of zeros fits an element. -/
theorem le_tyBits_lt {ty x : Nat} (h : x ≤ tyBits ty) : x < 2 ^ tyBits ty := h.trans_lt Nat.lt_two_pow_self

/-- The signed type of a width (R140). -/
theorem tyBits_signed {ty : Nat} (h : ty ≤ 5) : tyBits (ty / 2 * 2) = tyBits ty ∧ ty / 2 * 2 % 2 = 0 := by
  interval_cases ty <;> decide

theorem eltBitsAt_signed {ty : Nat} (h : ty ≤ 5) (k : Nat) (x : Lane) : eltBitsAt (ty / 2 * 2) k x = eltBitsAt ty k x := by
  rw [eltBitsAt, eltBitsAt, (tyBits_signed h).1]

end Sys2Proof.Machine

namespace Sys2Proof
open Machine Claim

/-- Settles O16: a row answers its operation on the elements modulo the width; one in the range of the type is that integer. -/
theorem vectorIntegersAndBits : Obligations.VectorIntegersAndBits := by
  refine ⟨fun s w hty => ?_, fun s w hty => ?_⟩
  · intro n A B
    have hA (l k : Nat) := eltIntAt_spec w.ty k (vlane s w.a l)
    have hB (l k : Nat) := eltIntAt_spec w.ty k (bLane s w l)
    have hle := lowest_le_highest w.ty
    have hadd : exec (.vadd w) s = intOp s w fun a b => satOp w (a + b) := rfl
    have hsub : exec (.vsub w) s = intOp s w fun a b => satOp w (a - b) := rfl
    have hmulh : exec (.vmulh w) s = intOp s w fun a b => a * b / (2 ^ tyWidth w.ty : Nat) := rfl
    have habs : exec (.vabs w) s = intOp s w fun a _ => a.natAbs := rfl
    refine ⟨fun hm => ?_, fun hm => ?_, putsV_intOp hty rfl, ?_, ?_, ?_, ?_, ?_, fun h1 => ?_⟩
    · simp only [satOp_of_wrapping hty hm] at hadd hsub
      exact ⟨putsV_intOp hty hadd, putsV_intOp hty hsub⟩
    · simp only [satOp_of_saturating hty hm] at hadd hsub
      exact ⟨putsV_intOp_of_range hty hadd fun l k => by omega, putsV_intOp_of_range hty hsub fun l k => by omega⟩
    · rw [tyWidth_eq_tyBits (by omega), Nat.cast_pow] at hmulh
      exact putsV_intOp hty hmulh
    · refine putsV_perLane (i := .vmad w) rfl fun l _ => ?_
      rw [tyWidth_eq_tyBits (by omega)]
      refine eachElt_mkLaneI fun k hk => ?_
      rw [hk, laneB_eq_bLane, Nat.mod_mod]
      push_cast
      exact ((eltBitsAt_modEq _ _ _).mul (eltBitsAt_modEq _ _ _)).add (eltBitsAt_modEq _ _ _)
    · exact putsV_intOp_of_range hty rfl fun l k => by have := hA l k; have := hB l k; omega
    · exact putsV_intOp_of_range hty rfl fun l k => by have := hA l k; have := hB l k; omega
    · refine putsV_mono (putsV_intOp hty habs) fun l r _ h => eachElt_mono h fun k _ hk => ?_
      rw [Int.emod_eq_of_lt (by omega) (natAbs_eltIntAt_lt _ _ _)] at hk
      exact_mod_cast hk
    · refine putsV_perLane (i := .vdot4 w) rfl fun l _ => ⟨rfl, ?_⟩
      have helt (k : Nat) (x : Lane) : elemInt w.ty 8 k x = eltIntAt w.ty k x := tyBits_of_le_one h1 ▸ elemInt_eq_eltIntAt hty k x
      simp only [helt, laneB_eq_bLane, BitVec.toNat_ofInt]
      rw [Int.toNat_of_nonneg (Int.emod_nonneg _ (by decide))]
      simp [List.range_succ, A, B, add_assoc]
  · intro n A B
    have hlt (l k : Nat) : A l k < 2 ^ n := eltBitsAt_lt _ _ _
    have hshl : exec (.vshl w) s = bitOp s w fun n a b => a * 2 ^ (b % n) % 2 ^ n := rfl
    have hshr : exec (.vshr w) s = bitOp s w fun n a b => a / 2 ^ (b % n) := rfl
    have hsar : exec (.vsar w) s = bitOp s w fun n a b => wrapNat n (sextNat n a / (2 ^ (b % n) : Nat)) := rfl
    have hclz : exec (.vclz w) s = bitOp s w fun n a _ => clzNat n a := rfl
    have hpopc : exec (.vpopc w) s = bitOp s w fun n a _ => popNat n a := rfl
    refine ⟨putsV_bitwise hty rfl (BitVec.toNat_and _ _) Nat.and_div_two_pow Nat.and_mod_two_pow,
      putsV_bitwise hty rfl (BitVec.toNat_or _ _) Nat.or_div_two_pow Nat.or_mod_two_pow,
      putsV_bitwise hty rfl (BitVec.toNat_xor _ _) Nat.xor_div_two_pow Nat.xor_mod_two_pow,
      putsV_mono (putsV_bitOp hty hshl) fun l r _ h => eachElt_mono h fun k _ hk => hk.trans (Nat.mod_mod _ _),
      putsV_mono (putsV_bitOp hty hshr) fun l r _ h => eachElt_mono h fun k _ hk =>
        hk.trans (Nat.mod_eq_of_lt ((Nat.div_le_self _ _).trans_lt (hlt l k))),
      putsV_mono (putsV_bitOp hty hsar) fun l r _ h => eachElt_mono h fun k _ hk => ?_,
      putsV_mono (putsV_bitOp hty hclz) fun l r _ h => eachElt_mono h fun k _ hk => ?_,
      putsV_mono (putsV_bitOp hty hpopc) fun l r _ h => eachElt_mono h fun k _ hk => hk.trans ?_⟩
    · obtain ⟨hbits, hsig⟩ := tyBits_signed hty
      obtain ⟨hlo, hhi⟩ := range_div_two_pow (w.ty / 2 * 2) k (vlane s w.a l) (B l k % n)
      refine eltIntAt_of_range ?_ hlo hhi
      rw [eltBitsAt_signed hty, hk, Nat.mod_eq_of_lt (wrapNat_lt _ _), natCast_wrapNat, ← sextNat_eltBitsAt hsig, hbits, eltBitsAt_signed hty]
      push_cast
      rfl
    · rw [hk]
      split
      next h0 =>
        rw [show eltBitsAt w.ty k (vlane s w.a l) = 0 from h0]
        exact Nat.mod_eq_of_lt (le_tyBits_lt le_rfl)
      next h0 =>
        obtain ⟨hc, h1, h2⟩ := clzNat_normalizes h0 (hlt l k)
        rw [Nat.mod_eq_of_lt (le_tyBits_lt hc.le)]
        exact ⟨h1, h2⟩
    · rw [popNat_eq_length_filter_testBit]
      refine Nat.mod_eq_of_lt (le_tyBits_lt ((List.length_filter_le _ _).trans ?_))
      rw [List.length_range]

end Sys2Proof

/-! # Vector floating arithmetic (R137, R141, R146) -/

namespace Sys2Proof.Machine
open Claim

/-! ## Results with flags -/

theorem testBit_foldl_flagOr {α : Type} (l : List α) (f : α → Nat) (z b : Nat) :
    (l.foldl (fun a x => flagOr a (f x)) z).testBit b = true ↔ z.testBit b = true ∨ ∃ x ∈ l, (f x).testBit b = true := by
  induction l generalizing z with
  | nil => simp
  | cons x r ih => rw [List.foldl_cons, ih, flagOr, Nat.testBit_or, Bool.or_eq_true, or_assoc]; simp

section
variable {s : State} {w : VWord}

/-- The lanes whose elements a function of lane and place gives. -/
def lanesOf (s : State) (w : VWord) (wd : Nat) (F : Nat → Nat → Held × Nat) : List (Nat × Lane) :=
  (acting s w).map fun l => (l, mkLane wd ((elems wd).map fun k => (F l k).1))

/-- The union of the flags of the elements of the acting lanes. -/
def IsUnion (s : State) (w : VWord) (wd : Nat) (F : Nat → Nat → Held × Nat) (fl : Nat) : Prop :=
  ∀ b, fl.testBit b = true ↔ ∃ l k, On s w l ∧ k < 32 / wd ∧ (F l k).2.testBit b = true

theorem isUnion_foldl {wd : Nat} {F : Nat → Nat → Held × Nat} {g : Nat → Nat}
    (hg : ∀ l b, (g l).testBit b = true ↔ ∃ k < 32 / wd, (F l k).2.testBit b = true) :
    IsUnion s w wd F ((acting s w).foldl (fun a l => flagOr a (g l)) 0) := by
  intro b
  rw [testBit_foldl_flagOr, Nat.zero_testBit, or_iff_right Bool.false_ne_true]
  simp only [mem_acting, hg, exists_and_left]

theorem testBit_elems_flags (wd : Nat) (h : Nat → Held × Nat) (b : Nat) :
    ((elems wd).foldl (fun a k => flagOr a (h k).2) 0).testBit b = true ↔ ∃ k < 32 / wd, (h k).2.testBit b = true := by
  rw [testBit_foldl_flagOr, Nat.zero_testBit, or_iff_right Bool.false_ne_true]
  simp [elems]

theorem foldl_flagOr_start {α : Type} (l : List α) (f : α → Nat) (z : Nat) :
    l.foldl (fun a x => flagOr a (f x)) z = flagOr z (l.foldl (fun a x => flagOr a (f x)) 0) := by
  induction l generalizing z with
  | nil => simp [flagOr]
  | cons x r ih => rw [List.foldl_cons, ih, List.foldl_cons, ih (flagOr 0 (f x))]; simp [flagOr, Nat.or_assoc]

theorem perLaneFl_spec (s : State) (w : VWord) (lat wd : Nat) (F : Nat → Nat → Held × Nat) :
    ∃ fl, perLaneFl s w lat wd F = .next (landV (note s fl) w.d lat (lanesOf s w wd F) fl) ∧ IsUnion s w wd F fl := by
  refine ⟨(acting s w).foldl (fun a l => flagOr a ((elems wd).foldl (fun a k => flagOr a (F l k).2) 0)) 0, ?_,
    isUnion_foldl fun l b => testBit_elems_flags wd (F l) b⟩
  unfold perLaneFl landVFl lanesOf
  simp only [List.foldl_map, List.map_map, Function.comp_def, ← foldl_flagOr_start]

/-- Results of a format fill the lanes element by element. -/
theorem fills_lanesOf {f : Fmt} (hw : IsWidth f.width) {F : Nat → Nat → Held × Nat} (hF : ∀ l k, On s w l → k < 32 / f.width → Fits f (F l k).1) :
    Fills s w (lanesOf s w f.width F) fun l x => ∀ k < 32 / f.width, eltHeldAt f k x = (F l k).1 :=
  fills_acting fun l hl k hk => eltHeldAt_mkLane hw _ hk (hF l k hl hk)

theorem putsVH_perLaneFl {f : Fmt} (hw : IsWidth f.width) {i : Instr} {lat : Nat} {F : Nat → Nat → Held × Nat}
    {R : Nat → Nat → Held × Nat → Prop} (hx : exec i s = perLaneFl s w lat f.width F) (hF : ∀ l k, On s w l → k < 32 / f.width → Fits f (F l k).1)
    (hR : ∀ l k, On s w l → k < 32 / f.width → R l k (F l k)) : PutsVH i s w lat f R := by
  obtain ⟨fl, he, hfl⟩ := perLaneFl_spec s w lat f.width F
  exact ⟨F, _, fl, hR, fills_lanesOf hw hF, hfl, hx.trans he⟩

/-! ## What is written fits its format (R52, R57, R66) -/

theorem settleExact_lt (f : Fmt) (mode : RMode) (sat : Bool) (x : Exact) : (settleExact f mode sat x).1 < 2 ^ f.width := by
  unfold settleExact
  split
  · exact settleCode_lt f mode sat false _ _
  · exact settleFin_lt f mode sat _

theorem fits_writeFp (p : Cvp) (f : Fmt) (x : Exact) : Fits f (writeFp p f x).1 := by
  unfold writeFp
  split
  · exact ⟨settleExact_lt f p.mode p.sat x, Nat.zero_lt_succ 3⟩
  · exact fits_hold f x

theorem fits_writeHeld (p : Cvp) {f : Fmt} {h : Held} (hh : Fits f h) : Fits f (writeHeld p f h).1 := by
  unfold writeHeld
  split
  · exact ⟨settleExact_lt f p.mode p.sat _, Nat.zero_lt_succ 3⟩
  · split
    · exact ⟨hh.body, Nat.zero_lt_succ 3⟩
    · exact hh

/-! ## Rows of exact results -/

section
variable {f : Fmt} (hf : fmtOf w.ty = some f) (h10 : w.ty ≤ 10)
include hf h10

theorem putsVF_perLaneFl {i : Instr} {lat : Nat} {G : Nat → Nat → Exact × Nat} {R : Nat → Nat → Exact × Nat → Prop}
    (hx : exec i s = perLaneFl s w lat f.width fun l k =>
      ((writeFp s.cur.cvp f (G l k).1).1, flagOr (G l k).2 (writeFp s.cur.cvp f (G l k).1).2))
    (hR : ∀ l k, On s w l → k < 32 / f.width → R l k (G l k)) : PutsVF i s w lat f R := by
  obtain ⟨fl, he, hfl⟩ := perLaneFl_spec s w lat f.width fun l k =>
      ((writeFp s.cur.cvp f (G l k).1).1, flagOr (G l k).2 (writeFp s.cur.cvp f (G l k).1).2)
  exact ⟨G, _, fl, hR, fills_lanesOf (isWidth_of_fmtOf hf h10) fun _ _ _ _ => fits_writeFp _ _ _, hfl, hx.trans he⟩

theorem putsVF_fpOp {i : Instr} {lat : Nat} {F : Val → Val → Val → Exact × Nat} {R : Nat → Nat → Exact × Nat → Prop}
    (hx : exec i s = fpOp s w lat F)
    (hR : ∀ l k, R l k (F ((eltHeldAt f k (vlane s w.a l)).val f) ((eltHeldAt f k (bLane s w l)).val f) ((eltHeldAt f k (vlane s w.c l)).val f))) :
    PutsVF i s w lat f R := by
  simp only [fpOp, vfmt, hf, Option.getD_some, elemHeld_eq_eltHeldAt, laneB_eq_bLane] at hx
  exact putsVF_perLaneFl hf h10 hx fun l k _ _ => hR l k

theorem putsVH_heldOp {i : Instr} {F : Fmt → Held → Held → Held × Nat} {R : Nat → Nat → Held × Nat → Prop}
    (hx : exec i s = heldOp s w F) (hF : ∀ a b, Fits f a → Fits f b → Fits f (F f a b).1)
    (hR : ∀ l k, R l k (F f (eltHeldAt f k (vlane s w.a l)) (eltHeldAt f k (bLane s w l)))) : PutsVH i s w 1 f R := by
  simp only [heldOp, vfmt, hf, Option.getD_some, elemHeld_eq_eltHeldAt, laneB_eq_bLane] at hx
  exact putsVH_perLaneFl (isWidth_of_fmtOf hf h10) hx (fun _ _ _ _ => hF _ _ (fits_eltHeldAt _ _ _) (fits_eltHeldAt _ _ _)) fun l k _ _ => hR l k

end

end

/-! ## Reciprocal roots (R54) -/

/-- The root of the reciprocal of a significand with an even exponent. -/
theorem sticky_rsq {m : Nat} {e : Int} (h0 : 0 < m) (hm : m ≤ 2 ^ 128) (he : e % 2 = 0) :
    Sticky (.fin false (isqrt (2 ^ 256 / m)) (-(e / 2) - 128) (isqrt (2 ^ 256 / m) * isqrt (2 ^ 256 / m) * m != 2 ^ 256)) false
      (fun q => q ^ 2 * (m * (2 : ℚ) ^ e) ≤ 1) (fun q => q ^ 2 * (m * (2 : ℚ) ^ e) < 1) := by
  obtain ⟨h1, h2⟩ := isqrt_spec (2 ^ 256 / m)
  generalize hr : isqrt (2 ^ 256 / m) = r at h1 h2 ⊢
  have hlow : r * r * m ≤ 2 ^ 256 := (Nat.le_div_iff_mul_le h0).1 h1
  have hhigh : 2 ^ 256 < (r + 1) * (r + 1) * m := (Nat.div_lt_iff_lt_mul h0).1 h2
  have hsq (x : ℚ) : (x * 2 ^ (-(e / 2) - 128)) ^ 2 * (m * (2 : ℚ) ^ e) = x * x * m / 2 ^ 256 := by
    obtain ⟨j, rfl⟩ : ∃ j, e = 2 * j := ⟨e / 2, by omega⟩
    have hj : (2 : ℚ) ^ (-(2 * j / 2) - 128) * 2 ^ (-(2 * j / 2) - 128) * 2 ^ (2 * j) = 1 / 2 ^ 256 := by
      rw [← zpow_add₀ two_ne_zero, ← zpow_add₀ two_ne_zero, one_div, ← zpow_natCast, ← zpow_neg]
      congr 1
      push_cast
      omega
    calc _ = x * x * m * ((2 : ℚ) ^ (-(2 * j / 2) - 128) * 2 ^ (-(2 * j / 2) - 128) * 2 ^ (2 * j)) := by ring
      _ = _ := by rw [hj, mul_one_div]
  have hpos : (0 : ℚ) < 2 ^ 256 := by positivity
  refine ⟨_, _, _, rfl, ?_, ?_, ?_⟩
  · by_contra hc
    have hdiv : 2 ^ 128 ≤ 2 ^ 256 / m := (Nat.le_div_iff_mul_le h0).2 (by calc 2 ^ 128 * m ≤ 2 ^ 128 * 2 ^ 128 := Nat.mul_le_mul_left _ hm
      _ = 2 ^ 256 := by norm_num)
    have : (r + 1) * (r + 1) ≤ 2 ^ 64 * 2 ^ 64 := Nat.mul_le_mul (by omega) (by omega)
    omega
  · simp only [hsq, div_le_one hpos, div_lt_one hpos]
    by_cases hx : r * r * m = 2 ^ 256
    · rw [if_neg (by simpa using hx)]
      exact_mod_cast hlow
    · rw [if_pos (by simpa using hx)]
      exact_mod_cast lt_of_le_of_ne hlow hx
  · simp only [hsq, div_le_one hpos, div_lt_one hpos, not_le, not_lt]
    by_cases hx : r * r * m = 2 ^ 256
    · rw [if_neg (by simpa using hx)]
      exact_mod_cast hx.ge
    · rw [if_pos (by simpa using hx)]
      exact_mod_cast hhigh

theorem finite_cases {v : Val} {P : Prop} (h : ∀ n m e, v = .fin n m e → P) (hv : Finite v) : P := by
  obtain ⟨n, m, e, rfl⟩ := hv
  exact h n m e rfl

theorem ratOf_false_nonneg (m : Nat) (e : Int) : 0 ≤ ratOf (.fin false m e) := by
  rw [show ratOf (.fin false m e) = m * 2 ^ e by simp [ratOf]]
  positivity

theorem ratOf_true_nonpos (m : Nat) (e : Int) : ratOf (.fin true m e) ≤ 0 := by
  have h := ratOf_false_nonneg m e
  rw [ratOf_eq_sign_mul, if_pos rfl]
  linarith

theorem sign_of_neg {n : Bool} {m : Nat} {e : Int} (h : ratOf (.fin n m e) < 0) : n = true := by
  cases n
  · exact absurd h (not_lt.2 (ratOf_false_nonneg m e))
  · rfl

theorem sign_of_pos {n : Bool} {m : Nat} {e : Int} (h : 0 < ratOf (.fin n m e)) : n = false := by
  cases n
  · rfl
  · exact absurd h (not_lt.2 (ratOf_true_nonpos m e))

theorem fpRsq_spec {v : Val} (hv : ∀ n m e, v = .fin n m e → m ≤ 2 ^ 64) :
    (∀ b, v = .nan b → fpRsq v = (.nan, if b then fNV else 0))
    ∧ (v = .inf false → (fpRsq v).2 = 0 ∧ Exactly (fpRsq v).1 0 false) ∧ (v = .inf true → fpRsq v = (.nan, fNV))
    ∧ (Finite v → ratOf v = 0 → fpRsq v = (.inf (isNegative v), fDZ))
    ∧ (Finite v → ratOf v < 0 → fpRsq v = (.nan, fNV))
    ∧ (Finite v → 0 < ratOf v → (fpRsq v).2 = 0
        ∧ Sticky (fpRsq v).1 false (fun q => q ^ 2 * ratOf v ≤ 1) (fun q => q ^ 2 * ratOf v < 1)) := by
  refine ⟨?_, ?_, ?_, finite_cases ?_, finite_cases ?_, finite_cases ?_⟩
  · rintro b rfl
    rfl
  · rintro rfl
    exact ⟨rfl, _, 0, 0, rfl, by simp [ratOf], fun _ => rfl⟩
  · rintro rfl
    rfl
  · rintro n m e rfl h
    rw [fpRsq, if_pos (ratOf_fin_eq_zero.1 h)]
    rfl
  · rintro n m e rfl h
    rw [fpRsq, if_neg (mt ratOf_fin_eq_zero.2 h.ne), if_pos (sign_of_neg h)]
  · rintro n m e rfl h
    have h0 := mt ratOf_fin_eq_zero.2 h.ne'
    have hm := hv n m e rfl
    obtain rfl := sign_of_pos h
    have hq : ratOf (.fin false m e) = m * 2 ^ e := by simp [ratOf]
    rw [fpRsq, if_neg h0, if_neg Bool.false_ne_true, hq]
    refine ⟨rfl, ?_⟩
    by_cases he : e % 2 = 0
    · simpa only [if_pos he] using sticky_rsq (Nat.pos_of_ne_zero h0) (by omega) he
    · have hs := sticky_rsq (m := 2 * m) (e := e - 1) (by omega) (by omega) (by omega)
      have hval : ((2 * m : Nat) : ℚ) * 2 ^ (e - 1) = m * 2 ^ e := by
        rw [zpow_sub_one₀ two_ne_zero]
        push_cast
        ring
      rw [hval] at hs
      simpa only [if_neg he] using hs

/-! ## The exact cases of Table 2.16 -/

/-- A multiple of a quarter in the fixed point of the special functions. -/
theorem fixed_of_quarters {m a : Nat} {e : Int} (h : (m : ℚ) * 2 ^ e = a / 4) :
    (if 0 ≤ e + fixBits then m * 2 ^ (e + fixBits).toNat else m / 2 ^ (-(e + fixBits)).toNat) = a * 2 ^ 446 := by
  have hscaled : (m : ℚ) * 2 ^ (e + 448) = a * 2 ^ 446 := by
    have hsplit : (2 : ℚ) ^ (448 : Int) = 4 * 2 ^ 446 := by
      rw [show (448 : Int) = (446 : Nat) + 2 from rfl, zpow_add₀ two_ne_zero, zpow_natCast, mul_comm]
      congr 1
    rw [zpow_add₀ two_ne_zero, ← mul_assoc, h, hsplit]
    ring
  split
  next he =>
    obtain ⟨j, hj⟩ := Int.eq_ofNat_of_zero_le he
    rw [show e + 448 = e + ((fixBits : Nat) : Int) from rfl, hj, zpow_natCast] at hscaled
    rw [hj, Int.toNat_natCast]
    exact_mod_cast hscaled
  next he =>
    obtain ⟨j, hj⟩ : ∃ j : Nat, -(e + fixBits) = j := Int.eq_ofNat_of_zero_le (by omega)
    rw [hj, Int.toNat_natCast]
    have he' : e + 448 = -(j : Int) := by rw [← hj, neg_neg]; rfl
    rw [he', zpow_neg, zpow_natCast, ← div_eq_mul_inv, div_eq_iff (by positivity)] at hscaled
    have hm : m = a * 2 ^ 446 * 2 ^ j := by exact_mod_cast hscaled
    rw [hm, Nat.mul_div_cancel _ (Nat.two_pow_pos j)]

theorem floorFrac_of_quarters {neg : Bool} {m : Nat} {e n : Int} {j : Nat} (hj : j < 4) (h : ratOf (.fin neg m e) = n + j / 4) :
    floorFrac neg m e = (n, j * 2 ^ 446) := by
  have ht : ratOf (.fin neg m e) = ((4 * n + j : Int) : ℚ) / 4 := by
    rw [h]
    push_cast
    ring
  have habs : (m : ℚ) * 2 ^ e = ((4 * n + j : Int).natAbs : ℚ) / 4 := by
    rw [← abs_ratOf_fin neg, ht, abs_div, Nat.cast_natAbs, Int.cast_abs, abs_of_pos (show (0 : ℚ) < 4 by norm_num)]
  have hsign : (if neg then -1 else 1) * ((4 * n + j : Int).natAbs : Int) = 4 * n + j := by
    cases neg
    · have h0 : (0 : ℚ) ≤ ((4 * n + j : Int) : ℚ) := by
        have := ratOf_false_nonneg m e
        rw [ht] at this
        linarith
      have : 0 ≤ 4 * n + (j : Int) := by exact_mod_cast h0
      simp only [Bool.false_eq_true, if_false]
      omega
    · have h0 : ((4 * n + j : Int) : ℚ) ≤ 0 := by
        have := ratOf_true_nonpos m e
        rw [ht] at this
        linarith
      have : 4 * n + (j : Int) ≤ 0 := by exact_mod_cast h0
      simp only [if_true]
      omega
  have hx : (if neg then -1 else 1) * ((if 0 ≤ e + fixBits then m * 2 ^ (e + fixBits).toNat else m / 2 ^ (-(e + fixBits)).toNat : Nat) : Int)
      = (2 ^ 446 : Nat) * (4 * n + j) := by
    rw [fixed_of_quarters habs, Nat.cast_mul, ← mul_assoc, hsign, mul_comm]
  have hone : ((fixOne : Nat) : Int) = (2 ^ 446 : Nat) * 4 := by
    rw [show fixOne = 2 ^ 446 * 4 from pow_add 2 446 2, Nat.cast_mul]
    rfl
  have hpos : (0 : Int) < (2 ^ 446 : Nat) := by exact_mod_cast Nat.two_pow_pos 446
  unfold floorFrac
  simp only [hx, hone]
  rw [Int.mul_ediv_mul_of_pos _ _ hpos, Int.mul_emod_mul_of_pos _ _ hpos, show (4 * n + (j : Int)) / 4 = n by omega,
    show (4 * n + (j : Int)) % 4 = j by omega, ← Nat.cast_mul, Int.toNat_natCast, mul_comm]

theorem quadrant_of_quarters {neg : Bool} {m : Nat} {e n : Int} {j : Nat} (hj : j < 4) (h : ratOf (.fin neg m e) = n + j / 4) :
    quadrant neg m e = (j, 0) := by
  have hone : fixOne = 4 * 2 ^ 446 := by rw [mul_comm]; exact pow_add 2 446 2
  simp only [quadrant, floorFrac_of_quarters hj h]
  rw [hone, mul_left_comm]
  rw [Nat.mul_div_cancel _ (by positivity), Nat.mul_mod_left]

/-- An exact answer without a flag. -/
theorem exactly_of_eq {r : Exact × Nat} {n : Bool} {m : Nat} {e : Int} {q : ℚ} {zs : Bool} (h : r = (.fin n m e false, 0))
    (hq : ratOf (.fin n m e) = q) (hz : q = 0 → n = zs) : r.2 = 0 ∧ Exactly r.1 q zs := by
  subst h
  exact ⟨rfl, n, m, e, rfl, hq, hz⟩

theorem log2_add_lt {neg : Bool} {m : Nat} {e n : Int} (h1 : -512 < n) (h2 : n < 512) (hq : ratOf (.fin neg m e) = n) (h0 : m ≠ 0) :
    (m.log2 : Int) + e < 9 := by
  have habs : (m : ℚ) * 2 ^ e < 2 ^ (9 : Int) := by
    rw [← abs_ratOf_fin neg, hq, abs_lt]
    constructor
    · have : ((-512 : Int) : ℚ) < n := by exact_mod_cast h1
      norm_num at this ⊢
      linarith
    · have : (n : ℚ) < ((512 : Int) : ℚ) := by exact_mod_cast h2
      norm_num at this ⊢
      linarith
  have hlow : (2 : ℚ) ^ ((m.log2 : Int) + e) ≤ m * 2 ^ e := by
    rw [zpow_add₀ two_ne_zero, zpow_natCast]
    exact mul_le_mul_of_nonneg_right (by exact_mod_cast Nat.log2_self_le h0) (by positivity)
  exact (zpow_lt_zpow_iff_right₀ one_lt_two).1 (hlow.trans_lt habs)

theorem fpExp2_spec (v : Val) :
    (∀ b, v = .nan b → fpExp2 v = (.nan, if b then fNV else 0))
    ∧ (v = .inf false → fpExp2 v = (.inf false, 0)) ∧ (v = .inf true → (fpExp2 v).2 = 0 ∧ Exactly (fpExp2 v).1 0 false)
    ∧ (∀ n : Int, -512 < n → n < 512 → Finite v → ratOf v = n → (fpExp2 v).2 = 0 ∧ Exactly (fpExp2 v).1 ((2 : ℚ) ^ n) false) := by
  refine ⟨?_, ?_, ?_, fun n h1 h2 => finite_cases ?_⟩
  · rintro b rfl
    rfl
  · rintro rfl
    rfl
  · rintro rfl
    exact exactly_of_eq rfl (by simp [ratOf]) fun _ => rfl
  · rintro neg m e rfl hq
    have hsmall : (decide (0 ≤ (m.log2 : Int) + e - 9) && m != 0) = false := by
      by_cases h0 : m = 0
      · simp [h0]
      · have := log2_add_lt h1 h2 hq h0
        rw [decide_eq_false (by omega), Bool.false_and]
    have hfloor := floorFrac_of_quarters (j := 0) (n := n) (by decide) (by rw [hq]; simp)
    have he : fpExp2 (.fin neg m e) = (.fin false 1 n false, 0) := by
      rw [fpExp2, Bool.and_assoc, Bool.and_assoc, hsmall]
      simp only [Bool.and_false, Bool.false_eq_true, if_false, hfloor, Nat.zero_mul, if_true]
    exact exactly_of_eq he (by simp [ratOf]) fun _ => rfl

theorem eq_two_pow_log2 {m : Nat} {e n : Int} (h : (m : ℚ) * 2 ^ e = 2 ^ n) : m = 2 ^ m.log2 ∧ (m.log2 : Int) + e = n := by
  have hm : (m : ℚ) = 2 ^ (n - e) := by rw [zpow_sub₀ two_ne_zero, ← h, mul_div_cancel_right₀ _ (by positivity)]
  have hne : 0 ≤ n - e := by
    have h0 : m ≠ 0 := by
      rintro rfl
      have hpos : (0 : ℚ) < 2 ^ (n - e) := by positivity
      rw [← hm] at hpos
      simp at hpos
    have hone : (1 : ℚ) ≤ 2 ^ (n - e) := by rw [← hm]; exact_mod_cast Nat.pos_of_ne_zero h0
    exact (one_le_zpow_iff_right₀ one_lt_two).1 hone
  obtain ⟨j, hj⟩ := Int.eq_ofNat_of_zero_le hne
  rw [hj, zpow_natCast] at hm
  have hm' : m = 2 ^ j := by exact_mod_cast hm
  have hlog : m.log2 = j := by rw [hm', Nat.log2_two_pow]
  exact ⟨by rw [hlog, hm'], by omega⟩

theorem fpLog2_spec (v : Val) :
    (∀ b, v = .nan b → fpLog2 v = (.nan, if b then fNV else 0))
    ∧ (v = .inf false → fpLog2 v = (.inf false, 0)) ∧ (v = .inf true → fpLog2 v = (.nan, fNV))
    ∧ (Finite v → ratOf v = 0 → fpLog2 v = (.inf true, fDZ))
    ∧ (Finite v → ratOf v < 0 → fpLog2 v = (.nan, fNV))
    ∧ (∀ n : Int, Finite v → ratOf v = (2 : ℚ) ^ n → (fpLog2 v).2 = 0 ∧ Exactly (fpLog2 v).1 n false) := by
  refine ⟨?_, ?_, ?_, finite_cases ?_, finite_cases ?_, fun n => finite_cases ?_⟩
  · rintro b rfl
    rfl
  · rintro rfl
    rfl
  · rintro rfl
    rfl
  · rintro n m e rfl h
    rw [fpLog2, if_pos (ratOf_fin_eq_zero.1 h)]
  · rintro n m e rfl h
    rw [fpLog2, if_neg (mt ratOf_fin_eq_zero.2 h.ne), if_pos (sign_of_neg h)]
  · rintro neg m e rfl h
    have hpos : 0 < ratOf (.fin neg m e) := h ▸ by positivity
    obtain rfl := sign_of_pos hpos
    obtain ⟨hm, hn⟩ := eq_two_pow_log2 (m := m) (e := e) (n := n) (by rw [← h]; simp [ratOf])
    have he : fpLog2 (.fin false m e) = (intExact n, 0) := by
      rw [fpLog2, if_neg (mt ratOf_fin_eq_zero.2 hpos.ne'), if_neg Bool.false_ne_true]
      simp only [if_pos hm, hn]
    rw [he]
    exact ⟨rfl, exactly_intExact n⟩

/-! ### Sines and cosines of quarter turns -/

theorem fpSin_of_quadrant {neg : Bool} {m : Nat} {e : Int} {j : Nat} (h : quadrant neg m e = (j, 0)) :
    fpSin (.fin neg m e) = (if j = 1 then .fin false 1 0 false else if j = 3 then .fin true 1 0 false else .fin neg 0 0 false, 0) := by
  simp only [fpSin, h, if_true]

theorem fpCos_of_quadrant {neg : Bool} {m : Nat} {e : Int} {j : Nat} (h : quadrant neg m e = (j, 0)) :
    fpCos (.fin neg m e) = (if j = 0 then .fin false 1 0 false else if j = 2 then .fin true 1 0 false else .fin false 0 0 false, 0) := by
  simp only [fpCos, h, if_true]

theorem fpSin_spec (v : Val) :
    (∀ b, v = .nan b → fpSin v = (.nan, if b then fNV else 0)) ∧ (∀ b, v = .inf b → fpSin v = (.nan, fNV))
    ∧ (∀ n : Int, Finite v → ratOf v = n → (fpSin v).2 = 0 ∧ Exactly (fpSin v).1 0 (isNegative v))
    ∧ (∀ n : Int, Finite v → ratOf v = n + 1 / 4 → (fpSin v).2 = 0 ∧ Exactly (fpSin v).1 1 false)
    ∧ (∀ n : Int, Finite v → ratOf v = n + 3 / 4 → (fpSin v).2 = 0 ∧ Exactly (fpSin v).1 (-1) false) := by
  refine ⟨?_, ?_, fun n => finite_cases ?_, fun n => finite_cases ?_, fun n => finite_cases ?_⟩
  · rintro b rfl
    rfl
  · rintro b rfl
    rfl
  · rintro neg m e rfl h
    exact exactly_of_eq (fpSin_of_quadrant (quadrant_of_quarters (j := 0) (n := n) (by decide) (by rw [h]; simp))) (by simp [ratOf]) fun _ => rfl
  · rintro neg m e rfl h
    exact exactly_of_eq (fpSin_of_quadrant (quadrant_of_quarters (j := 1) (n := n) (by decide) (by rw [h]; simp))) (by simp [ratOf]) fun _ => rfl
  · rintro neg m e rfl h
    exact exactly_of_eq (fpSin_of_quadrant (quadrant_of_quarters (j := 3) (n := n) (by decide) (by rw [h]; simp))) (by simp [ratOf])
      (by norm_num)

theorem fpCos_spec (v : Val) :
    (∀ b, v = .nan b → fpCos v = (.nan, if b then fNV else 0)) ∧ (∀ b, v = .inf b → fpCos v = (.nan, fNV))
    ∧ (∀ n : Int, Finite v → ratOf v = n → (fpCos v).2 = 0 ∧ Exactly (fpCos v).1 1 false)
    ∧ (∀ n : Int, Finite v → ratOf v = n + 1 / 2 → (fpCos v).2 = 0 ∧ Exactly (fpCos v).1 (-1) false)
    ∧ (∀ n : Int, Finite v → ratOf v = n + 1 / 4 ∨ ratOf v = n + 3 / 4 → (fpCos v).2 = 0 ∧ Exactly (fpCos v).1 0 false) := by
  refine ⟨?_, ?_, fun n => finite_cases ?_, fun n => finite_cases ?_, fun n => finite_cases ?_⟩
  · rintro b rfl
    rfl
  · rintro b rfl
    rfl
  · rintro neg m e rfl h
    exact exactly_of_eq (fpCos_of_quadrant (quadrant_of_quarters (j := 0) (n := n) (by decide) (by rw [h]; simp))) (by simp [ratOf]) fun _ => rfl
  · rintro neg m e rfl h
    exact exactly_of_eq (fpCos_of_quadrant (quadrant_of_quarters (j := 2) (n := n) (by decide) (by rw [h]; norm_num))) (by simp [ratOf])
      (by norm_num)
  · rintro neg m e rfl (h | h)
    · exact exactly_of_eq (fpCos_of_quadrant (quadrant_of_quarters (j := 1) (n := n) (by decide) (by rw [h]; simp))) (by simp [ratOf]) fun _ => rfl
    · exact exactly_of_eq (fpCos_of_quadrant (quadrant_of_quarters (j := 3) (n := n) (by decide) (by rw [h]; simp))) (by simp [ratOf]) fun _ => rfl

end Sys2Proof.Machine

namespace Sys2Proof
open Machine Claim

/-- Settles O17: each row answers its exact operation on the elements, held, or settled where settle-on-write is set. -/
theorem vectorFloatingArithmetic : Obligations.VectorFloatingArithmetic := by
  intro s w f hf h10 A B C down
  have hbound (l k : Nat) : ∀ n m e, A l k = .fin n m e → m ≤ 2 ^ 64 := fun n m e h => by
    have hlt := significand_lt h
    have hlead : f.lead ≤ 2 ^ 25 := by
      interval_cases w.ty <;> cases hf <;> decide
    omega
  have hadd : exec (.vfadd w) s = fpOp s w 1 fun a b _ => fpAdd s.cur.cvp.mode a b := rfl
  have hsub : exec (.vfsub w) s = fpOp s w 1 fun a b _ => fpAdd s.cur.cvp.mode a b.neg := rfl
  have hmul : exec (.vfmul w) s = fpOp s w 1 fun a b _ => fpMul a b := rfl
  have hfma : exec (.vfma w) s = fpOp s w 1 fun a b c => fpFma s.cur.cvp.mode a b c := rfl
  have hsqrt : exec (.vsqrt w) s = fpOp s w 3 fun a _ _ => fpSqrt a := rfl
  have hrcp : exec (.vrcp w) s = fpOp s w 3 fun a _ _ => fpDiv (.fin false 1 0) a := rfl
  have hrsq : exec (.vrsq w) s = fpOp s w 3 fun a _ _ => fpRsq a := rfl
  have hexp2 : exec (.vexp2 w) s = fpOp s w 3 fun a _ _ => fpExp2 a := rfl
  have hlog2 : exec (.vlog2 w) s = fpOp s w 3 fun a _ _ => fpLog2 a := rfl
  have hsin : exec (.vsin w) s = fpOp s w 3 fun a _ _ => fpSin a := rfl
  have hcos : exec (.vcos w) s = fpOp s w 3 fun a _ _ => fpCos a := rfl
  exact ⟨putsVF_fpOp hf h10 hadd fun _ _ => isSum_fpAdd _ _ _,
    putsVF_fpOp hf h10 hsub fun _ _ => isDifference_of_isSum_neg (isSum_fpAdd _ _ _),
    putsVF_fpOp hf h10 hmul fun _ _ => isProduct_fpMul _ _,
    putsVF_fpOp hf h10 hfma fun _ _ => isFused_fpFma _ _ _ _,
    putsVF_fpOp hf h10 hsqrt fun _ _ => isRoot_fpSqrt _,
    putsVF_fpOp hf h10 hrcp fun l k => isQuotient_fpDiv _ (hbound l k),
    putsVF_fpOp hf h10 hrsq fun l k => fpRsq_spec (hbound l k),
    putsVF_fpOp hf h10 hexp2 fun _ _ => fpExp2_spec _,
    putsVF_fpOp hf h10 hlog2 fun _ _ => fpLog2_spec _,
    putsVF_fpOp hf h10 hsin fun _ _ => fpSin_spec _,
    putsVF_fpOp hf h10 hcos fun _ _ => fpCos_spec _⟩

end Sys2Proof

/-! # Vector choices, compares and classes (R69, R70, R72, R141, R142, R144, R145) -/

namespace Sys2Proof.Machine
open Claim

/-! ## Predicate results (R142) -/

/-- A sum of distinct powers of two has the bits that it sums. -/
theorem testBit_sum_two_pow (p : Nat → Bool) {ls : List Nat} (h : ls.Pairwise (· < ·)) (j : Nat) :
    (ls.map fun l => if p l then 2 ^ l else 0).sum.testBit j = (decide (j ∈ ls) && p j) := by
  induction ls with
  | nil => simp
  | cons l r ih =>
    obtain ⟨hl, hr⟩ := List.pairwise_cons.1 h
    obtain ⟨a, ha⟩ : 2 ^ (l + 1) ∣ (r.map fun l => if p l then 2 ^ l else 0).sum := List.dvd_sum fun x hx => by
      obtain ⟨m, hm, rfl⟩ := List.mem_map.1 hx
      split
      · exact pow_dvd_pow 2 (hl m hm)
      · exact dvd_zero _
    have hlow : (if p l then 2 ^ l else 0) < 2 ^ (l + 1) := by
      have := Nat.two_pow_pos l
      rw [pow_succ]
      split <;> omega
    have ih := ih hr
    rw [ha, Nat.testBit_two_pow_mul] at ih
    rw [List.map_cons, List.sum_cons, ha, Nat.add_comm, Nat.testBit_two_pow_mul_add _ hlow]
    split
    next hj =>
      have hnr : j ∉ r := fun hm => by have := hl j hm; omega
      rw [apply_ite (Nat.testBit · j), Nat.testBit_two_pow, Nat.zero_testBit]
      by_cases hjl : j = l
      · subst hjl
        simp
      · simp [hnr, hjl, Ne.symm hjl]
    next hj =>
      have hjl : j ≠ l := by omega
      rw [decide_eq_true (show j ≥ l + 1 by omega), Bool.true_and] at ih
      simp [ih, hjl]

section
variable {s : State} {w : VWord}

theorem On.lt {l : Nat} (h : On s w l) : l < 128 := by
  have := h.1
  unfold laneCount at this
  split at this <;> omega

/-- The mask of a predicate result names the acting lanes, and its value their bits. -/
theorem putsVP_perBit {i : Instr} {g : Nat → Bool × Nat} {R : Nat → Bool × Nat → Prop} (hx : exec i s = perBit s w g)
    (hR : ∀ l, R l (g l)) : PutsVP i s w R := by
  have hbits := testBit_sum_two_pow (fun l => (g l).1) (acting_pairwise s w)
  have hmask := testBit_sum_two_pow (fun _ => true) (acting_pairwise s w)
  simp only [if_true, Bool.and_true] at hmask
  simp only [perBit, List.foldl_map, List.map_map, Function.comp_def] at hx
  refine ⟨g, _, _, _, fun l _ => hR l, fun l hl => ?_, fun l hl hon => ?_, fun b => ?_, hx⟩
  · rw [BitVec.getLsbD_ofNat, hmask, decide_eq_true hl, Bool.true_and, decide_eq_true_eq, mem_acting]
  · rw [BitVec.getLsbD_ofNat, hbits, decide_eq_true hl, decide_eq_true (mem_acting.2 hon)]
    rfl
  · rw [testBit_foldl_flagOr, Nat.zero_testBit, or_iff_right Bool.false_ne_true]
    simp only [mem_acting]

end

/-! ## Minima and maxima (R70) -/

section
variable {f : Fmt} {a b : Held}

theorem fits_ite {p : Prop} [Decidable p] (ha : Fits f a) (hb : Fits f b) : Fits f (if p then a else b) := by
  split
  · exact ha
  · exact hb

theorem fits_fpMinMax (ha : Fits f a) (hb : Fits f b) (isMax number : Bool) : Fits f (fpMinMax f isMax number a b).1 := by
  have hcanon : Fits f ⟨f.canonNan, 0⟩ := ⟨canonNan_lt f, Nat.zero_lt_succ 3⟩
  unfold fpMinMax
  extract_lets na nb sig pick
  split
  · split
    · exact fits_ite hb ha
    · exact hcanon
  · exact fits_ite ha hb

/-- Where nothing is a NaN, both kinds of choice are the same. -/
theorem fpMinMax_number (h : ¬ someNan (a.val f) (b.val f)) (isMax number : Bool) :
    fpMinMax f isMax number a b = fpMinMax f isMax false a b := by
  rw [someNan_val_iff] at h
  unfold fpMinMax
  simp only [if_neg h]

/-- A number is chosen before a NaN, and two NaNs give the canonical one. -/
theorem fpMinMax_number_of_someNan (h : someNan (a.val f) (b.val f)) (isMax : Bool) :
    fpMinMax f isMax true a b = (if f.isNan a.body && f.isNan b.body then ⟨f.canonNan, 0⟩ else if f.isNan a.body then b else a,
      nanFlag (a.val f) (b.val f)) := by
  rw [nanFlag_val]
  unfold fpMinMax
  simp only [if_pos (someNan_val_iff.1 h), Bool.true_and]
  cases f.isNan a.body <;> cases f.isNan b.body <;> rfl

theorem not_below_self (ha : Fits f a) (hn : f.isNan a.body = false) (hm : Made f a) : ¬ Below (a.val f) (a.val f) := by
  rw [below_iff ha ha hn hn hm hm]
  exact lt_irrefl _

/-- The lesser and the greater of two operands that are no NaN. -/
theorem fpMinMax_chosen (ha : Fits f a) (hb : Fits f b) (hs : ¬ someNan (a.val f) (b.val f)) (number : Bool) :
    ∃ lo hi : Held, fpMinMax f false number a b = (lo, 0) ∧ fpMinMax f true number a b = (hi, 0)
      ∧ (lo = a ∨ lo = b) ∧ (hi = a ∨ hi = b)
      ∧ (Made f a → Made f b → (¬ Below (a.val f) (lo.val f) ∧ ¬ Below (b.val f) (lo.val f))
          ∧ ¬ Below (hi.val f) (a.val f) ∧ ¬ Below (hi.val f) (b.val f)) := by
  obtain ⟨lo, hi, hor, hkey, hlo, hhi⟩ := exists_ordered ha hb hs
  obtain ⟨hna, hnb⟩ := not_isNan_of_not_someNan hs
  rw [fpMinMax_number hs false number, fpMinMax_number hs true number]
  refine ⟨lo, hi, hlo, hhi, ?_⟩
  obtain ⟨rfl, rfl⟩ | ⟨rfl, rfl⟩ := hor
  · refine ⟨.inl rfl, .inr rfl, fun hma hmb => ?_⟩
    have hord := (order_of_key_le ha hb hs hma hmb hkey).1
    exact ⟨⟨not_below_self ha hna hma, hord⟩, hord, not_below_self hb hnb hmb⟩
  · refine ⟨.inr rfl, .inl rfl, fun hma hmb => ?_⟩
    have hord := (order_of_key_le hb ha (hs ∘ Or.symm) hmb hma hkey).1
    exact ⟨⟨hord, not_below_self hb hnb hmb⟩, not_below_self ha hna hma, hord⟩

end

/-! ## Compares (R69, Table 5.5) -/

theorem intCond_iff {c : Nat} (hc : c ≤ 5) (x y : Int) : intCond c x y = true ↔ condOf c (x = y) (x < y) := by
  interval_cases c <;> simp [intCond, condOf] <;> omega

section
variable {f : Fmt} {a b : Held}

theorem fpCmp_ne (f : Fmt) (a b : Held) : fpCmp f .ne a b = (!(fpCmp f .eq a b).1, (fpCmp f .eq a b).2) := by
  simp only [fpCmp, Bool.not_and, Bool.not_not]
  rfl

theorem fpCmp_un : fpCmp f .un a b = (f.isNan a.body || f.isNan b.body, nanFlag (a.val f) (b.val f)) := by
  rw [nanFlag_val]
  rfl

theorem fpCond_of_someNan (h : someNan (a.val f) (b.val f)) {c : Nat} (hc : c ≤ 6) :
    ((fpCond f c a b).1 = true ↔ c = 1 ∨ c = 6)
      ∧ (fpCond f c a b).2 = if c ∈ [2, 3, 4, 5] then fNV else nanFlag (a.val f) (b.val f) := by
  obtain ⟨heq, hlt, hle⟩ := fpCmp_of_someNan h
  obtain ⟨-, hgt, hge⟩ := fpCmp_of_someNan (Or.symm h)
  have hnan := someNan_val_iff.1 h
  interval_cases c <;> simp [fpCond, heq, hlt, hle, hgt, hge, fpCmp_ne, fpCmp_un, -Bool.or_eq_true, hnan]

theorem fpCond_of_not_someNan (ha : Fits f a) (hb : Fits f b) (h : ¬ someNan (a.val f) (b.val f)) (hma : Made f a) (hmb : Made f b)
    {c : Nat} (hc : c ≤ 6) :
    (fpCond f c a b).2 = 0 ∧ (c = 6 → (fpCond f c a b).1 = false)
      ∧ (c ≤ 5 → ((fpCond f c a b).1 = true ↔ condOf c (Same (a.val f) (b.val f)) (Below (a.val f) (b.val f)))) := by
  obtain ⟨hna, hnb⟩ := not_isNan_of_not_someNan h
  obtain ⟨heq, hlt, hle⟩ := fpCmp_of_not_someNan h
  obtain ⟨-, hgt, hge⟩ := fpCmp_of_not_someNan (h ∘ Or.symm)
  rw [same_iff_not_below h, below_iff ha hb hna hnb hma hmb, below_iff hb ha hnb hna hmb hma]
  interval_cases c <;> simp [fpCond, heq, hlt, hle, hgt, hge, fpCmp_ne, fpCmp_un, nanFlag_of_not_someNan h, hna, hnb, condOf] <;> omega

end

/-! ## Settling (R57) -/

section
variable {f : Fmt} {h : Held} (mode : RMode) (sat : Bool)

/-- A held value with tail 00 is settled already. -/
theorem settle_of_tail_zero (hh : Fits f h) (ht : h.tail = 0) (hn : f.isNan h.body = false)
    (hs : sat = false ∨ f.isInf h.body = false) : settle f h f mode sat = (h.body, 0) := by
  by_cases hi : f.isInf h.body = true
  · rw [settle_of_isInf hi, hs.resolve_right (by simp [hi])]
    have hmag : f.magOf h.body = f.infBody := by simp only [Fmt.isInf, Bool.and_eq_true, decide_eq_true_eq] at hi; exact hi.2
    rw [if_neg Bool.false_ne_true, ← hmag, signed_signOf_magOf hh.body]
  · rw [Bool.not_eq_true] at hi
    have hmag := (finite_iff_magOf_le f h.body).1 ⟨hn, hi⟩
    have hcode : h.code f = 4 * f.magOf h.body := by unfold Held.code; omega
    have hround : roundedMag mode (f.signOf h.body) (h.code f) 4 = f.magOf h.body := by
      have := (roundedMag_eq_iff mode (f.signOf h.body) (h.code f) four_pos).2 (by omega)
      rw [hcode] at this ⊢
      push_cast at this
      rw [mul_div_cancel_left₀ _ (by norm_num)] at this
      exact_mod_cast this
    rw [settle_of_finite hh hn hi, settleCode_of_le mode sat _ (by unfold Fmt.ovfCode; omega) (hround.trans_le hmag), hround,
      signed_signOf_magOf hh.body, settleFlags, hcode]
    simp

/-- Without an overflow a finite value settles to its code rounded in units of the last place. -/
theorem settle_rounds (hh : Fits f h) (hn : f.isNan h.body = false) (hi : f.isInf h.body = false) (hc : h.code f < f.ovfCode)
    (ho : (settle f h f mode sat).2 &&& fOF = 0) :
    ∃ n : Int, Rounds mode ((if f.signOf h.body then -1 else 1) * (h.code f : ℚ) / 4) n
      ∧ (settle f h f mode sat).1 = f.signed (f.signOf h.body) n.natAbs := by
  obtain ⟨hround, habs⟩ := rounds_code mode (f.signOf h.body) (h.code f)
  refine ⟨_, hround, ?_⟩
  rw [habs]
  rw [settle_of_finite hh hn hi] at ho ⊢
  by_cases hm : roundedMag mode (f.signOf h.body) (h.code f) 4 ≤ f.maxBody
  · rw [settleCode_of_le mode sat _ hc hm]
  · exfalso
    rw [settleCode] at ho
    simp only [settleCode_mag] at ho
    rw [if_pos (by simp only [Bool.or_eq_true, decide_eq_true_eq]; exact .inr (not_le.1 hm))] at ho
    have hbit := congrArg (Nat.testBit · 2) ho
    simp only [flagOr, Nat.testBit_and, Nat.testBit_or, show fOF.testBit 2 = true from rfl, Bool.true_or, Bool.or_true, Bool.true_and,
      Nat.zero_testBit, Bool.true_eq_false] at hbit

end

/-! ## Classes (R72) -/

theorem classOf_iff (f : Fmt) (h : Held) :
    (classOf f h = 0 ↔ h.val f = .inf true) ∧ (classOf f h = 7 ↔ h.val f = .inf false)
      ∧ (classOf f h = 8 ↔ h.val f = .nan true) ∧ (classOf f h = 9 ↔ h.val f = .nan false)
      ∧ (classOf f h = 3 ↔ f.magOf h.body = 0 ∧ f.signOf h.body = true)
      ∧ (classOf f h = 4 ↔ f.magOf h.body = 0 ∧ f.signOf h.body = false) := by
  have hzero : f.magOf h.body = 0 → f.isNan h.body = false ∧ f.isInf h.body = false := fun h0 =>
    (finite_iff_magOf_le f h.body).2 (h0 ▸ Nat.zero_le _)
  simp only [val_eq_inf_iff, val_eq_nan_iff]
  unfold classOf
  by_cases hn : f.isNan h.body = true
  · have hi := isInf_of_isNan hn
    have h0 : f.magOf h.body ≠ 0 := fun h0 => by have := (hzero h0).1; rw [hn] at this; cases this
    cases f.isSnan h.body <;> simp [hn, hi, h0]
  · rw [Bool.not_eq_true] at hn
    by_cases hi : f.isInf h.body = true
    · have h0 : f.magOf h.body ≠ 0 := fun h0 => by have := (hzero h0).2; rw [hi] at this; cases this
      cases f.signOf h.body <;> simp [hn, hi, h0]
    · by_cases h0 : f.magOf h.body = 0
      · cases f.signOf h.body <;> simp [hn, hi, h0]
      · by_cases h1 : f.magOf h.body < 2 ^ f.fb
        · cases f.signOf h.body <;> simp [hn, hi, h0, h1]
        · cases f.signOf h.body <;> simp [hn, hi, h0, h1]

theorem testBit_fpClass (f : Fmt) (h : Held) {k : Nat} (hk : k < 10) : (fpClass f h).testBit k = true ↔ classOf f h = k := by
  rw [fpClass_eq, (classMask_spec (classOf_lt f h) _ _).2 k (by omega)]
  have h10 : (k == 10) = false := beq_eq_false_iff_ne.2 (by omega)
  have h11 : (k == 11) = false := beq_eq_false_iff_ne.2 (by omega)
  simp [h10, h11]

theorem testBit_fpClass_tail (f : Fmt) (h : Held) : (fpClass f h).testBit 11 = true ↔ h.tail % 4 ≠ 0 := by
  have hlt := classOf_lt f h
  rw [fpClass_eq, (classMask_spec hlt _ _).2 11 (by decide)]
  have h11 : (classOf f h == 11) = false := beq_eq_false_iff_ne.2 (by omega)
  simp [h11]

theorem fpClass_lt (f : Fmt) (h : Held) : fpClass f h < 2 ^ 12 := by
  rw [fpClass_eq]
  exact (classMask_spec (classOf_lt f h) _ _).1

/-! ## Signs (R141) -/

/-- The other sign is the body with half the range added. -/
theorem signed_not_signOf {f : Fmt} {b : Nat} (h : b < 2 ^ f.width) :
    f.signed (!f.signOf b) (f.magOf b) = (b + 2 ^ (f.width - 1)) % 2 ^ f.width := by
  have hb := signed_signOf_magOf h
  have hlt := magOf_lt f b
  rw [two_pow_width]
  generalize f.magOf b = m at *
  generalize f.signOf b = n at *
  subst hb
  cases n
  · show 2 ^ (f.width - 1) + m = (m + 2 ^ (f.width - 1)) % _
    rw [Nat.mod_eq_of_lt (by omega), Nat.add_comm]
  · show m = (2 ^ (f.width - 1) + m + 2 ^ (f.width - 1)) % _
    rw [show 2 ^ (f.width - 1) + m + 2 ^ (f.width - 1) = m + 2 * 2 ^ (f.width - 1) by ring, Nat.add_mod_right, Nat.mod_eq_of_lt (by omega)]

theorem ne_e2m1_of_fmtOf {ty : Nat} {f : Fmt} (hf : fmtOf ty = some f) (h : ty ≤ 10) : f ≠ .e2m1 := by
  interval_cases ty <;> cases hf <;> decide

end Sys2Proof.Machine

namespace Sys2Proof
open Machine Claim

/-- Settles O18: the choices, compares and classes of held values, element by element and lane by lane. -/
theorem vectorChoicesComparesAndClasses : Obligations.VectorChoicesComparesAndClasses := by
  refine ⟨fun s w f hf h10 => ?_, fun s w => ⟨fun hty hc hk => ?_, fun f hf h10 hc hk => ?_, fun f hf h10 hw => ?_, ?_⟩⟩
  · intro A B nanOf fl written least greatest other
    have hpick (isMax number : Bool) : pickOp s w isMax number = heldOp s w (fun fm a b =>
        ((writeHeld s.cur.cvp fm (fpMinMax fm isMax number a b).1).1,
          flagOr (fpMinMax fm isMax number a b).2 (writeHeld s.cur.cvp fm (fpMinMax fm isMax number a b).1).2)) := rfl
    have hfits (isMax number : Bool) (a b : Held) (ha : Fits f a) (hb : Fits f b) :
        Fits f (writeHeld s.cur.cvp f (fpMinMax f isMax number a b).1).1 := fits_writeHeld _ (fits_fpMinMax ha hb _ _)
    have hA (l k : Nat) : Fits f (A l k) := fits_eltHeldAt _ _ _
    have hB (l k : Nat) : Fits f (B l k) := fits_eltHeldAt _ _ _
    have hother (isMax : Bool) (l k : Nat) (hs : nanOf l k) : other l k (fpMinMax f isMax true (A l k) (B l k)).1
        ∧ (fpMinMax f isMax true (A l k) (B l k)).2 = fl l k := by
      rw [fpMinMax_number_of_someNan hs]
      refine ⟨⟨?_, ?_, ?_⟩, rfl⟩ <;> intro h1 h2 <;> simp [h1, h2]
    have hneg : exec (.vfneg w) s = heldOp s w fun fm a _ => (⟨fm.signed (!fm.signOf a.body) (fm.magOf a.body), a.tail⟩, 0) := rfl
    have habs : exec (.vfabs w) s = heldOp s w fun fm a _ => (⟨fm.magOf a.body, a.tail⟩, 0) := rfl
    have hsetl : exec (.vsetl w) s = heldOp s w fun fm a _ =>
      (⟨(settle fm a fm s.cur.cvp.mode s.cur.cvp.sat).1, 0⟩, (settle fm a fm s.cur.cvp.mode s.cur.cvp.sat).2) := rfl
    refine ⟨putsVH_heldOp hf h10 (hpick false false) (hfits _ _) fun l k => ⟨_, rfl, fun hs => fpMinMax_of_someNan hs _, fun hs => ?_⟩,
      putsVH_heldOp hf h10 (hpick true false) (hfits _ _) fun l k => ⟨_, rfl, fun hs => fpMinMax_of_someNan hs _, fun hs => ?_⟩,
      putsVH_heldOp hf h10 (hpick false true) (hfits _ _) fun l k => ⟨_, rfl, hother false l k, fun hs => ?_⟩,
      putsVH_heldOp hf h10 (hpick true true) (hfits _ _) fun l k => ⟨_, rfl, hother true l k, fun hs => ?_⟩,
      putsVH_heldOp hf h10 habs (fun a _ ha _ => ⟨(magOf_lt f _).trans_le (Nat.pow_le_pow_right two_pos (Nat.sub_le _ _)), ha.tail⟩)
        fun l k => ⟨rfl, rfl, rfl⟩,
      putsVH_heldOp hf h10 hneg (fun a _ ha _ => ⟨signed_lt _ (magOf_lt f _), ha.tail⟩) fun l k => ⟨rfl, rfl, signed_not_signOf (hA l k).body⟩,
      putsVH_heldOp hf h10 hsetl (fun a _ ha _ => ⟨settle_lt ha.body f _ _, Nat.zero_lt_succ 3⟩) fun l k => ⟨rfl, fun hn => ?_,
        fun ht hn hs => ?_, fun hn hi hc ho => settle_rounds _ _ (hA l k) hn hi hc ho⟩⟩
    · obtain ⟨lo, hi, hlo, -, hor, -, hord⟩ := fpMinMax_chosen (hA l k) (hB l k) hs false
      rw [hlo]
      exact ⟨rfl, hor, fun hma hmb => (hord hma hmb).1⟩
    · obtain ⟨lo, hi, -, hhi, -, hor, hord⟩ := fpMinMax_chosen (hA l k) (hB l k) hs false
      rw [hhi]
      exact ⟨rfl, hor, fun hma hmb => (hord hma hmb).2⟩
    · obtain ⟨lo, hi, hlo, -, hor, -, hord⟩ := fpMinMax_chosen (hA l k) (hB l k) hs true
      rw [hlo]
      exact ⟨rfl, hor, fun hma hmb => (hord hma hmb).1⟩
    · obtain ⟨lo, hi, -, hhi, -, hor, hord⟩ := fpMinMax_chosen (hA l k) (hB l k) hs true
      rw [hhi]
      exact ⟨rfl, hor, fun hma hmb => (hord hma hmb).2⟩
    · rw [settle_of_isNan hn (ne_e2m1_of_fmtOf hf h10)]
    · rw [settle_of_tail_zero _ _ (hA l k) ht hn hs]
  · refine putsVP_perBit (i := .vcmp w) rfl fun l => ⟨rfl, ?_⟩
    rw [tyWidth_eq_tyBits (by omega), elemInt_eq_eltIntAt hty, elemInt_eq_eltIntAt hty, laneB_eq_bLane]
    exact intCond_iff hc _ _
  · intro A B settled answers
    have hanswers (a b : Held) (ha : Fits f a) (hb : Fits f b) : answers a b (fpCond f (w.md % 8) a b) :=
      ⟨fun hs => fpCond_of_someNan hs hc, fun hs hma hmb => fpCond_of_not_someNan ha hb hs hma hmb hc⟩
    have hsettled (k : Nat) (x : Lane) : Fits f (settled (eltHeldAt f k x)) := ⟨settle_eltHeldAt_lt _ _ _ _ _ _, Nat.zero_lt_succ 3⟩
    have hcmp : exec (.vfcmp w) s = perBit s w fun l => fpCond (vfmt w) (w.md % 8) (elemHeld (vfmt w) (w.md / 8) (vlane s w.a l))
      (elemHeld (vfmt w) (w.md / 8) (laneB s w l)) := rfl
    have hcmps : exec (.vfcmps w) s = perBit s w fun l => fpCond (vfmt w) (w.md % 8)
      ⟨(settle (vfmt w) (elemHeld (vfmt w) (w.md / 8) (vlane s w.a l)) (vfmt w) s.cur.cvp.mode s.cur.cvp.sat).1, 0⟩
      ⟨(settle (vfmt w) (elemHeld (vfmt w) (w.md / 8) (laneB s w l)) (vfmt w) s.cur.cvp.mode s.cur.cvp.sat).1, 0⟩ := rfl
    simp only [vfmt, hf, Option.getD_some, elemHeld_eq_eltHeldAt, laneB_eq_bLane] at hcmp hcmps
    exact ⟨putsVP_perBit hcmp fun l => hanswers _ _ (fits_eltHeldAt _ _ _) (fits_eltHeldAt _ _ _),
      putsVP_perBit hcmps fun l => hanswers _ _ (hsettled _ _) (hsettled _ _)⟩
  · have hclass : exec (.vfclass w) s = heldOp s w fun fm a _ => (⟨fpClass fm a, 0⟩, 0) := rfl
    have h12 : 2 ^ 12 ≤ 2 ^ f.width := Nat.pow_le_pow_right two_pos (by omega)
    refine putsVH_heldOp hf h10 hclass (fun a _ _ _ => ⟨(fpClass_lt f a).trans_le h12, Nat.zero_lt_succ 3⟩) fun l k => ⟨rfl, rfl, ?_⟩
    obtain ⟨c0, c7, c8, c9, c3, c4⟩ := classOf_iff f (eltHeldAt f k (vlane s w.a l))
    have hbit {j : Nat} (hj : j < 10) := testBit_fpClass f (eltHeldAt f k (vlane s w.a l)) hj
    refine ⟨(hbit (by decide)).trans c0, (hbit (by decide)).trans c7, (hbit (by decide)).trans c8, (hbit (by decide)).trans c9,
      (hbit (by decide)).trans c3, (hbit (by decide)).trans c4, (testBit_fpClass_tail f _).trans ?_⟩
    rw [Nat.mod_eq_of_lt (fits_eltHeldAt _ _ _).tail]
  · exact putsVP_perBit (i := .vmovlToPredicate w) rfl fun l => ⟨rfl, decide_eq_true_iff⟩

end Sys2Proof

/-! # Vector moves, shuffles and cluster crossings (R147 to R149, R153) -/

namespace Sys2Proof.Machine
open Claim

/-- A kept place stands behind the kept places before it. -/
theorem getElem?_filter_range {p : Nat → Bool} {j n : Nat} (hj : j < n) (hp : p j = true) :
    ((List.range n).filter p)[((List.range j).filter p).length]? = some j := by
  obtain ⟨m, rfl⟩ : ∃ m, n = j + (m + 1) := ⟨n - j - 1, by omega⟩
  rw [List.range_add, List.filter_append, List.range_succ_eq_map, List.map_cons, Nat.add_zero, List.filter_cons_of_pos hp,
    List.getElem?_append_right le_rfl, Nat.sub_self, List.getElem?_cons_zero]

theorem execVmovsToScalar_of_on {s : State} {w : VWord} (h : On s w (16 * (w.c % 8) + w.b % 16)) :
    exec (.vmovsToScalar w) s = .next (landS s w.d 1
      { body := (vlane s w.a (16 * (w.c % 8) + w.b % 16)).data.zeroExtend 64
        tail := (vlane s w.a (16 * (w.c % 8) + w.b % 16)).tail.truncate 2 }) := by
  rw [BitVec.zeroExtend_eq_setWidth, BitVec.truncate_eq_setWidth, ← BitVec.ofNat_toNat, ← BitVec.ofNat_toNat]
  exact if_pos (List.contains_iff_mem.2 (mem_acting.2 h))

theorem execVmovsToScalar_of_not_on {s : State} {w : VWord} (h : ¬ On s w (16 * (w.c % 8) + w.b % 16)) :
    exec (.vmovsToScalar w) s = .next s :=
  if_neg fun hc => h (mem_acting.1 (List.contains_iff_mem.1 hc))

end Sys2Proof.Machine

namespace Sys2Proof
open Machine Claim

/-- Settles O19: each row's lane, and the compressed order of the lanes that a predicate keeps. -/
theorem vectorMovesAndShuffles : Obligations.VectorMovesAndShuffles := by
  intro s w A
  refine ⟨putsV_perLane rfl fun _ _ => rfl, putsV_perLane (i := .vsel w) rfl fun l _ => ?_, putsV_perLane (i := .vshuf w) rfl fun l _ => ?_,
    putsV_perLane (i := .vbcast w) rfl fun l _ => ?_, putsV_perLane (i := .vcmprs w) rfl fun l _ => ⟨fun j hj hp hl => ?_, fun hl => ?_⟩,
    putsV_perLane (i := .viota w) rfl fun l _ => ⟨rfl, ?_⟩, putsV_perLane (i := .vmovsToVector w) rfl fun l _ => ⟨?_, ?_⟩,
    putsV_perLane (i := .vmovlToVector w) rfl fun l _ => ⟨rfl, rfl⟩, ⟨execVmovsToScalar_of_on, execVmovsToScalar_of_not_on⟩,
    putsV_perLane (i := .xcl w) rfl fun l _ => ⟨fun h => ?_, fun h => ?_, fun h => ?_⟩⟩
  · rw [laneB_eq_bLane]
    rfl
  · rw [Nat.mul_comm]
  · rw [Nat.mul_comm]
  · simp only [Nat.mul_comm (l / 16) 16, preg]
    rw [← hl, getElem?_filter_range (p := fun i => (getP (me s) w.c).getLsbD (16 * (l / 16) + i)) hj hp]
  · simp only [Nat.mul_comm (l / 16) 16, preg]
    rw [List.getElem?_eq_none hl]
  · exact (BitVec.toNat_ofNat _ _).trans (Nat.mod_add_mod _ _ _)
  · exact BitVec.toNat_ofNat _ _
  · have := (sreg s w.a).tail.isLt
    exact (BitVec.toNat_ofNat _ _).trans (Nat.mod_eq_of_lt (by omega))
  · simp only [xclSource, h, A]
  · simp only [xclSource, h, A]
  · simp only [xclSource, h, A]

end Sys2Proof

/-! # Vector conversions (R61, R62, R67, R143) -/

namespace Sys2Proof.Machine
open Claim

section
variable {s : State} {w : VWord}

theorem perLaneFl_congr {lat wd : Nat} {F G : Nat → Nat → Held × Nat} (h : ∀ l, ∀ k < 32 / wd, F l k = G l k) :
    perLaneFl s w lat wd F = perLaneFl s w lat wd G := by
  have hrow (l : Nat) : (elems wd).map (F l) = (elems wd).map (G l) := List.map_congr_left fun k hk => h l k (List.mem_range.1 hk)
  unfold perLaneFl
  simp only [hrow]

/-- A row whose results raise no flag. -/
theorem perLaneFl_of_no_flags {lat wd : Nat} {F : Nat → Nat → Held × Nat} (h : ∀ l k, On s w l → k < 32 / wd → (F l k).2 = 0) :
    perLaneFl s w lat wd F = .next (landV s w.d lat (lanesOf s w wd F)) := by
  obtain ⟨fl, he, hfl⟩ := perLaneFl_spec s w lat wd F
  have h0 : fl = 0 := Nat.eq_of_testBit_eq fun b => by
    rw [Nat.zero_testBit, Bool.eq_false_iff]
    intro hb
    obtain ⟨l, k, hl, hk, hbit⟩ := (hfl b).1 hb
    rw [h l k hl hk, Nat.zero_testBit] at hbit
    cases hbit
  rw [he, h0, note_zero]

/-- Integers modulo the width fill the lanes element by element. -/
theorem fills_lanesOf_int (ty : Nat) (v : Nat → Nat → Int) (fl : Nat → Nat → Nat) :
    Fills s w (lanesOf s w (tyBits ty) fun l k => (⟨wrapNat (tyBits ty) (v l k), 0⟩, fl l k))
      fun l x => EachElt ty x fun k => (eltBitsAt ty k x : Int) = v l k % 2 ^ tyBits ty := by
  refine fills_acting fun l _ => ?_
  have hlane : mkLane (tyBits ty) ((elems (tyBits ty)).map fun k => ⟨wrapNat (tyBits ty) (v l k), 0⟩)
      = mkLaneI (tyBits ty) ((elems (tyBits ty)).map fun k => wrapNat (tyBits ty) (v l k)) := by
    rw [mkLaneI, List.map_map]
    rfl
  rw [hlane]
  refine eachElt_mkLaneI fun k hk => ?_
  rw [hk, Nat.mod_eq_of_lt (wrapNat_lt _ _), natCast_wrapNat]

theorem fills_mono {ls : List (Nat × Lane)} {P Q : Nat → Lane → Prop} (h : Fills s w ls P) (hpq : ∀ l r, P l r → Q l r) : Fills s w ls Q :=
  ⟨h.1, h.2.1, fun p hp => hpq _ _ (h.2.2 p hp)⟩

/-! ## The source elements (R143) -/

/-- The lane and the place of the source of result element `j`. -/
def vcvtSource (s : State) (w : VWord) (l j : Nat) : Lane × Nat :=
  if tyBits (w.md % 16) = 2 * tyBits w.ty ∧ 32 / tyBits (w.md % 16) ≤ j then (vlane s w.b l, j - 32 / tyBits (w.md % 16))
  else (vlane s w.a l, if tyBits w.ty = 2 * tyBits (w.md % 16) then j + w.md / 16 * (32 / tyBits w.ty) else j)

/-- An element as VCVT reads it. -/
def rawHeld (wd : Nat) (e : Lane × Nat) : Held := ⟨elemBits wd e.2 e.1, bitsAt e.1.tail.toNat (2 * e.2) 2⟩

theorem rawHeld_eq_eltHeldAt (f : Fmt) (e : Lane × Nat) : rawHeld f.width e = eltHeldAt f e.2 e.1 := elemHeld_eq_eltHeldAt f e.2 e.1

theorem intVal_eq_eltIntAt (ty : Nat) (e : Lane × Nat) :
    (if decide (ty % 2 = 0) then sextNat (tyBits ty) (rawHeld (tyBits ty) e).body else ((rawHeld (tyBits ty) e).body : Int))
      = eltIntAt ty e.2 e.1 := by
  by_cases hs : ty % 2 = 0
  · rw [← sextNat_eltBitsAt hs, if_pos (decide_eq_true hs)]
    rfl
  · rw [if_neg (by rwa [decide_eq_true_iff]), eltIntAt, if_neg fun h => hs h.1]
    rfl

/-- An element of a result lane whose bits are a number of the type's range modulo the width. -/
theorem eachElt_of_range {ty : Nat} {x : Lane} {v : Nat → Int} (h : EachElt ty x fun k => (eltBitsAt ty k x : Int) = v k % 2 ^ tyBits ty)
    (hv : ∀ k, lowest ty ≤ v k ∧ v k ≤ highest ty) : EachElt ty x fun k => eltIntAt ty k x = v k :=
  ⟨h.1, fun k hk => eltIntAt_of_range (h.2 k hk) (hv k).1 (hv k).2⟩

theorem lowest_le_zero (ty : Nat) : lowest ty ≤ 0 := by
  have hpos : (0 : Int) < 2 ^ (tyBits ty - 1) := by positivity
  unfold lowest
  split <;> omega

theorem zero_le_highest (ty : Nat) : 0 ≤ highest ty := by
  have hpos : (0 : Int) < 2 ^ (tyBits ty - 1) := by positivity
  have h2 := two_pow_tyBits ty
  unfold highest
  split <;> omega

/-- R61: a conversion to an integer answers a number of its range. -/
theorem fpToInt_range (mode : RMode) (v : Val) (ty : Nat) :
    lowest ty ≤ (fpToInt mode v (tyBits ty) (decide (ty % 2 = 0))).1
      ∧ (fpToInt mode v (tyBits ty) (decide (ty % 2 = 0))).1 ≤ highest ty := by
  have h0 := lowest_le_zero ty
  have h1 := zero_le_highest ty
  cases v with
  | nan _ => exact ⟨h0, h1⟩
  | inf neg =>
    simp only [fpToInt, intMin_eq_lowest, intMax_eq_highest]
    cases neg <;> simp <;> omega
  | fin neg m e =>
    rw [fpToInt_fin, intMin_eq_lowest, intMax_eq_highest]
    by_cases hlo : (roundInt mode neg m e).1 < lowest ty
    · rw [if_pos hlo]
      exact ⟨le_rfl, h0.trans h1⟩
    · by_cases hhi : highest ty < (roundInt mode neg m e).1
      · rw [if_neg hlo, if_pos hhi]
        exact ⟨h0.trans h1, le_rfl⟩
      · rw [if_neg hlo, if_neg hhi]
        exact ⟨not_lt.1 hlo, not_lt.1 hhi⟩

variable (hty : w.ty ≤ 10) (hsrc : w.md % 16 ≤ 10)
include hty hsrc

theorem exec_vcvt_eq : exec (.vcvt w) s = perLaneFl s w 1 (tyBits w.ty) fun l j =>
    convElem s.cur.cvp (w.md % 16) w.ty (rawHeld (tyBits (w.md % 16)) (vcvtSource s w l j)) := by
  show execVcvt w s = _
  unfold execVcvt
  simp only [tyWidth_eq_tyBits hty, tyWidth_eq_tyBits hsrc]
  refine perLaneFl_congr fun l j hj => congrArg (convElem _ _ _) ?_
  have hn : tyBits (w.md % 16) = 2 * tyBits w.ty → 32 / tyBits w.ty = 2 * (32 / tyBits (w.md % 16)) ∧ 0 < 32 / tyBits (w.md % 16) := by
    obtain h | h | h := isWidth_tyBits w.ty <;> obtain h' | h' | h' := isWidth_tyBits (w.md % 16) <;> rw [h, h'] <;> decide
  unfold vcvtSource rawHeld
  by_cases h2 : tyBits (w.md % 16) = 2 * tyBits w.ty
  · obtain ⟨hwd, hpos⟩ := hn h2
    have hne : tyBits w.ty ≠ 2 * tyBits (w.md % 16) := by have := tyBits_pos w.ty; omega
    by_cases hj' : 32 / tyBits (w.md % 16) ≤ j
    · have hmod : j % (32 / tyBits (w.md % 16)) = j - 32 / tyBits (w.md % 16) := by
        rw [Nat.mod_eq_sub_mod hj', Nat.mod_eq_of_lt (by omega)]
      simp only [h2, true_and, if_true]
      rw [← h2, if_pos hj', if_pos hj', hmod]
    · have hmod : j % (32 / tyBits (w.md % 16)) = j := Nat.mod_eq_of_lt (not_le.1 hj')
      simp only [h2, true_and, if_true]
      rw [← h2, if_neg hj', if_neg hj', if_neg hne, hmod]
  · simp only [h2, false_and, if_false]

theorem exec_vcvt_floats {g f : Fmt} (hg : fmtOf (w.md % 16) = some g) (hf : fmtOf w.ty = some f) :
    exec (.vcvt w) s = perLaneFl s w 1 f.width fun l j =>
      ((writeFp s.cur.cvp f (convExact g (eltHeldAt g (vcvtSource s w l j).2 (vcvtSource s w l j).1)).1).1,
        flagOr (convExact g (eltHeldAt g (vcvtSource s w l j).2 (vcvtSource s w l j).1)).2
          (writeFp s.cur.cvp f (convExact g (eltHeldAt g (vcvtSource s w l j).2 (vcvtSource s w l j).1)).1).2) := by
  rw [exec_vcvt_eq hty hsrc, tyBits_of_fmtOf hf hty, tyBits_of_fmtOf hg hsrc]
  simp only [rawHeld_eq_eltHeldAt, convElem, hg, hf]

theorem exec_vcvt_from_integer {f : Fmt} (hi : w.md % 16 ≤ 5) (hf : fmtOf w.ty = some f) :
    exec (.vcvt w) s = perLaneFl s w 1 f.width fun l j =>
      ((writeFp s.cur.cvp f (intExact (eltIntAt (w.md % 16) (vcvtSource s w l j).2 (vcvtSource s w l j).1))).1,
        flagOr 0 (writeFp s.cur.cvp f (intExact (eltIntAt (w.md % 16) (vcvtSource s w l j).2 (vcvtSource s w l j).1))).2) := by
  rw [exec_vcvt_eq hty hsrc, tyBits_of_fmtOf hf hty]
  simp only [convElem, hf, fmtOf_of_le hi, intOf_of_le hi, intVal_eq_eltIntAt, flagOr, Nat.zero_or]

theorem exec_vcvt_to_integer {g : Fmt} (hg : fmtOf (w.md % 16) = some g) (hi : w.ty ≤ 5) :
    exec (.vcvt w) s = perLaneFl s w 1 (tyBits w.ty) fun l j =>
      let r := fpToInt s.cur.cvp.mode ((eltHeldAt g (vcvtSource s w l j).2 (vcvtSource s w l j).1).val g) (tyBits w.ty) (decide (w.ty % 2 = 0))
      (⟨wrapNat (tyBits w.ty) r.1, 0⟩, r.2) := by
  rw [exec_vcvt_eq hty hsrc, tyBits_of_fmtOf hg hsrc]
  simp only [rawHeld_eq_eltHeldAt, convElem, hg, fmtOf_of_le hi, intOf_of_le hi]

theorem exec_vcvt_integers (hi : w.md % 16 ≤ 5) (hi' : w.ty ≤ 5) :
    exec (.vcvt w) s = perLaneFl s w 1 (tyBits w.ty) fun l j =>
      let n := eltIntAt (w.md % 16) (vcvtSource s w l j).2 (vcvtSource s w l j).1
      (⟨wrapNat (tyBits w.ty) (if s.cur.cvp.sat && decide (tyBits w.ty ≤ tyBits (w.md % 16))
        then max (lowest w.ty) (min (highest w.ty) n) else n), 0⟩, 0) := by
  rw [exec_vcvt_eq hty hsrc]
  simp only [convElem, fmtOf_of_le hi, fmtOf_of_le hi', intOf_of_le hi, intOf_of_le hi', intVal_eq_eltIntAt, clampInt,
    intMin_eq_lowest, intMax_eq_highest]

end

end Sys2Proof.Machine

namespace Sys2Proof
open Machine Claim

/-- Settles O20: a conversion is one of four rows, by whether the source and the result are floating. -/
theorem vectorConversions : Obligations.VectorConversions := by
  intro s w src ws wd E hty hsrc _ _
  refine ⟨fun g f hg hf => ?_, fun f hi hf => ?_, fun hi hi' => ?_, fun g hg hi => ?_⟩
  · exact putsVF_perLaneFl hf hty (exec_vcvt_floats hty hsrc hg hf) fun _ _ _ _ => convExact_eq g _
  · exact putsVF_perLaneFl hf hty (G := fun l j => (intExact (eltIntAt src (E l j).2 (E l j).1), 0))
      (exec_vcvt_from_integer hty hsrc hi hf) fun _ _ _ _ => ⟨rfl, exactly_intExact _⟩
  · refine ⟨_, fills_mono (fills_lanesOf_int w.ty _ _) fun _ _ h => eachElt_mono h fun j _ hbits => ⟨fun h => ?_, fun hsat hle => ?_⟩,
      (exec_vcvt_integers hty hsrc hi hi').trans (perLaneFl_of_no_flags fun _ _ _ _ => rfl)⟩
    · have hc : (s.cur.cvp.sat && decide (tyBits w.ty ≤ tyBits (w.md % 16))) = false := by
        obtain h | h := h
        · rw [h, Bool.false_and]
        · rw [decide_eq_false (not_le.2 h), Bool.and_false]
      rwa [hc, if_neg Bool.false_ne_true] at hbits
    · have hc : (s.cur.cvp.sat && decide (tyBits w.ty ≤ tyBits (w.md % 16))) = true := by
        rw [hsat, decide_eq_true hle, Bool.and_true]
      rw [if_pos hc] at hbits
      have hrange := (lowest_le_zero w.ty).trans (zero_le_highest w.ty)
      exact eltIntAt_of_range hbits (le_max_left _ _) (max_le hrange (min_le_left _ _))
  · let h := fun l j => fpToInt s.cur.cvp.mode ((eltHeldAt g (E l j).2 (E l j).1).val g) (tyBits w.ty) (decide (w.ty % 2 = 0))
    obtain ⟨fl, he, hfl⟩ := perLaneFl_spec s w 1 (tyBits w.ty) fun l j => (⟨wrapNat (tyBits w.ty) (h l j).1, 0⟩, (h l j).2)
    refine ⟨h, _, fl, fun l j _ _ => ?_,
      fills_mono (fills_lanesOf_int w.ty (fun l j => (h l j).1) _) fun _ _ hx => eachElt_of_range hx fun _ => fpToInt_range _ _ _, hfl,
      (exec_vcvt_to_integer hty hsrc hg hi).trans he⟩
    refine ⟨fun b hv => ?_, fun b hv => ?_, fun ⟨neg, m, e, hv⟩ => ⟨(roundInt s.cur.cvp.mode neg m e).1, ?_, ?_⟩⟩
    · simp only [h, hv]
      rfl
    · simp only [h, hv, ← intMin_eq_lowest, ← intMax_eq_highest]
      rfl
    · simp only [hv]
      exact (roundInt_spec _ _ _ _).1
    · simp only [h, hv, fpToInt_fin, intMin_eq_lowest, intMax_eq_highest]

end Sys2Proof

/-! # Reductions and scans: their rows as functions of lane and place (R150 to R152) -/

namespace Sys2Proof.Machine
open Claim

/-! ## The acting lanes of a cluster -/

section
variable {s : State} {w : VWord}

/-- The acting lanes of cluster `c`, in ascending order. -/
def clusterLanes (s : State) (w : VWord) (c : Nat) : List Nat := (acting s w).filter fun l => l / 16 = c

theorem mem_clusterLanes {c l : Nat} : l ∈ clusterLanes s w c ↔ On s w l ∧ l / 16 = c := by
  rw [clusterLanes, List.mem_filter, mem_acting, decide_eq_true_eq]

theorem clusterLanes_pairwise (s : State) (w : VWord) (c : Nat) : (clusterLanes s w c).Pairwise (· < ·) := (acting_pairwise s w).filter _

/-- Going through the clusters in turn meets the acting lanes in turn. -/
theorem flatMap_clusterLanes : (List.range 8).flatMap (clusterLanes s w) = acting s w := by
  refine List.Pairwise.eq_of_mem_iff (r := (· < ·)) ?_ (acting_pairwise s w) fun l => ?_
  · refine List.pairwise_flatMap.2 ⟨fun c _ => clusterLanes_pairwise s w c, List.pairwise_lt_range.imp fun {a b} hab x hx y hy => ?_⟩
    have := (mem_clusterLanes.1 hx).2
    have := (mem_clusterLanes.1 hy).2
    omega
  · simp only [List.mem_flatMap, List.mem_range, mem_clusterLanes, mem_acting]
    refine ⟨fun ⟨c, _, h, _⟩ => h, fun h => ⟨l / 16, ?_, h, rfl⟩⟩
    have := On.lt h
    omega

theorem flatMap_clusterLanes_map {α : Type} (g : Nat → Nat → α) :
    ((List.range 8).flatMap fun c => (clusterLanes s w c).map (g c)) = (acting s w).map fun l => g (l / 16) l := by
  rw [← flatMap_clusterLanes, List.map_flatMap]
  refine List.flatMap_congr fun c _ => List.map_congr_left fun l hl => ?_
  rw [(mem_clusterLanes.1 hl).2]

/-- The lanes of a cluster as R150 names them. -/
theorem clusterLanes_eq (s : State) (w : VWord) (c : Nat) :
    ((List.range 16).map (16 * c + ·)).filter (fun j =>
      decide (j < laneCount s) && decide (w.cm / 2 ^ (j / 16) % 2 = 1) && (guardPred (me s) s.cur.g).getLsbD j) = clusterLanes s w c := by
  refine List.Pairwise.eq_of_mem_iff (r := (· < ·)) ((List.Pairwise.map _ (fun a b (h : a < b) => by omega) List.pairwise_lt_range).filter _)
    (clusterLanes_pairwise s w c) fun l => ?_
  simp only [List.mem_filter, List.mem_map, List.mem_range, Bool.and_eq_true, decide_eq_true_eq, mem_clusterLanes, On, and_assoc]
  constructor
  · rintro ⟨⟨i, hi, rfl⟩, h⟩
    exact ⟨h.1, h.2.1, h.2.2, by omega⟩
  · rintro ⟨h1, h2, h3, h4⟩
    exact ⟨⟨l % 16, by omega, by omega⟩, h1, h2, h3⟩

end

/-! ## Combining the values of lanes -/

/-- How the value and the flags for a list of lanes arise: of one lane its own value, without a flag; of two lists after one another
by the combining step. -/
structure Folds (st : Held → Held → Held × Nat) (e : Nat → Held) (R : List Nat → Held → Nat → Prop) : Prop where
  single : ∀ j, R [j] (e j) 0
  join : ∀ l₁ l₂ a b x y, R l₁ a x → R l₂ b y → R (l₁ ++ l₂) (st a b).1 (flagOr (st a b).2 (flagOr x y))

/-! ### The tree (R151) -/

/-- Two places of a level, with the flags so far: an absent one passes its partner through. -/
def meet (st : Held → Held → Held × Nat) : Option Held × Nat → Option Held × Nat → Option Held × Nat
  | (some a, x), (some b, y) => (some (st a b).1, flagOr (st a b).2 (flagOr x y))
  | (some a, x), (none, y) => (some a, flagOr x y)
  | (none, x), (b, y) => (b, flagOr x y)

/-- The tree over the 2^n places from `i` on. -/
def treeOf (st : Held → Held → Held × Nat) (e : Nat → Option Held) : Nat → Nat → Option Held × Nat
  | 0, i => (e i, 0)
  | n + 1, i => meet st (treeOf st e n i) (treeOf st e n (i + 2 ^ n))

theorem meet_flags (st : Held → Held → Held × Nat) (a b : Option Held) (x y : Nat) :
    meet st (a, x) (b, y) = ((meet st (a, 0) (b, 0)).1, flagOr (meet st (a, 0) (b, 0)).2 (flagOr x y)) := by
  cases a <;> cases b <;> simp [meet, flagOr]

theorem pairUp_cons (st : Held → Held → Held × Nat) (a b : Option Held) (r : List (Option Held)) :
    pairUp st (a :: b :: r) = ((meet st (a, 0) (b, 0)).1 :: (pairUp st r).1, flagOr (meet st (a, 0) (b, 0)).2 (pairUp st r).2) := by
  cases a <;> cases b <;> simp [pairUp, meet, flagOr]

theorem pairUp_nil (st : Held → Held → Held × Nat) : pairUp st [] = ([], 0) := rfl

/-- The four levels over sixteen places are the tree. -/
theorem redTree_eq_treeOf (st : Held → Held → Held × Nat) (e : Nat → Option Held) (i : Nat) :
    redTree st ((List.range 16).map fun j => e (i + j)) = treeOf st e 4 i := by
  have hr : (List.range 16).map (fun j => e (i + j)) = [e i, e (i + 1), e (i + 2), e (i + 3), e (i + 4), e (i + 5), e (i + 6), e (i + 7),
      e (i + 8), e (i + 9), e (i + 10), e (i + 11), e (i + 12), e (i + 13), e (i + 14), e (i + 15)] := rfl
  have htree (n i : Nat) : treeOf st e (n + 1) i = ((meet st ((treeOf st e n i).1, 0) ((treeOf st e n (i + 2 ^ n)).1, 0)).1,
      flagOr (meet st ((treeOf st e n i).1, 0) ((treeOf st e n (i + 2 ^ n)).1, 0)).2
        (flagOr (treeOf st e n i).2 (treeOf st e n (i + 2 ^ n)).2)) := meet_flags st _ _ _ _
  have hzero (i : Nat) : treeOf st e 0 i = (e i, 0) := rfl
  rw [hr, redTree]
  simp only [pairUp_cons, pairUp_nil, htree, hzero, Nat.add_assoc, Nat.reducePow, Nat.reduceAdd, flagOr, Nat.or_zero, List.getD_cons_zero]
  refine Prod.ext rfl ?_
  simp only []
  ac_rfl

/-- The tree reads its places alone. -/
theorem sumTree_congr {p : Cvp} {f : Fmt} {e e' : Nat → Option Held} {n i : Nat} (h : ∀ j, i ≤ j → j < i + 2 ^ n → e j = e' j) :
    sumTree p f e n i = sumTree p f e' n i := by
  induction n generalizing i with
  | zero => exact h i le_rfl (by omega)
  | succ n ih =>
    have hpow : 2 ^ (n + 1) = 2 ^ n + 2 ^ n := by rw [pow_succ, mul_two]
    rw [sumTree, sumTree, ih fun j h1 h2 => h j h1 (by omega), ih fun j h1 h2 => h j (by omega) (by omega)]

theorem sumTree_eq_treeOf {p : Cvp} {f : Fmt} {st : Held → Held → Held × Nat} (e : Nat → Option Held)
    (hst : ∀ x y : Held, (st x y).1 = (writeFp p f (fpAdd p.mode (x.val f) (y.val f)).1).1) (n i k : Nat) :
    sumTree p f (fun j => e (k + j)) n i = (treeOf st e n (k + i)).1 := by
  induction n generalizing i with
  | zero => rfl
  | succ n ih =>
    rw [sumTree, treeOf, ih, ih, ← Nat.add_assoc]
    obtain ⟨a, x⟩ := treeOf st e n (k + i)
    obtain ⟨b, y⟩ := treeOf st e n (k + i + 2 ^ n)
    cases a <;> cases b <;> simp [meet, hst]

/-- The tree over places of which some hold a value: the combination of those. -/
theorem treeOf_of_folds {st : Held → Held → Held × Nat} {v : Nat → Held} {R : List Nat → Held → Nat → Prop} (hR : Folds st v R)
    (p : Nat → Bool) (n i : Nat) :
    let present := (List.range' i (2 ^ n)).filter p
    let t := treeOf st (fun j => if p j then some (v j) else none) n i
    (present = [] ∧ t = (none, 0)) ∨ ∃ h fl, t = (some h, fl) ∧ R present h fl := by
  induction n generalizing i with
  | zero =>
    by_cases hp : p i
    · exact .inr ⟨v i, 0, by simp [treeOf, hp], by simpa [hp] using hR.single i⟩
    · exact .inl (by simp [treeOf, hp])
  | succ n ih =>
    have hsplit : List.range' i (2 ^ (n + 1)) = List.range' i (2 ^ n) ++ List.range' (i + 2 ^ n) (2 ^ n) := by
      rw [pow_succ, mul_two, List.range'_append_1]
    simp only [hsplit, List.filter_append, treeOf]
    obtain ⟨h1, t1⟩ | ⟨a, x, t1, r1⟩ := ih i <;> obtain ⟨h2, t2⟩ | ⟨b, y, t2, r2⟩ := ih (i + 2 ^ n)
    · exact .inl ⟨by rw [h1, h2]; rfl, by rw [t1, t2]; rfl⟩
    · exact .inr ⟨b, y, by rw [t1, t2]; simp [meet, flagOr], by rwa [h1]⟩
    · exact .inr ⟨a, x, by rw [t1, t2]; simp [meet, flagOr], by rwa [h2, List.append_nil]⟩
    · exact .inr ⟨_, _, by rw [t1, t2]; rfl, hR.join _ _ _ _ _ _ r1 r2⟩

/-! ### The running result (R152) -/

/-- A running result takes a value in. -/
def takeIn (st : Held → Held → Held × Nat) (run : Option Held) (x : Held) : Held × Nat :=
  match run with
  | none => (x, 0)
  | some y => st y x

/-- The running result after a list of values. -/
def runOf (st : Held → Held → Held × Nat) (run : Option Held) (l : List Held) : Option Held := l.foldl (fun y x => some (takeIn st y x).1) run

theorem runOf_of_folds {st : Held → Held → Held × Nat} {v : Nat → Held} {R : List Nat → Held → Nat → Prop} (hR : Folds st v R)
    (l : List Nat) : (l = [] ∧ runOf st none (l.map v) = none) ∨ ∃ h fl, runOf st none (l.map v) = some h ∧ R l h fl := by
  induction l using List.reverseRecOn with
  | nil => exact .inl ⟨rfl, rfl⟩
  | append_singleton l j ih =>
    have hstep : runOf st none ((l ++ [j]).map v) = some (takeIn st (runOf st none (l.map v)) (v j)).1 := by
      rw [List.map_append, List.map_singleton, runOf, List.foldl_append]
      rfl
    obtain ⟨rfl, h⟩ | ⟨h, fl, hrun, hr⟩ := ih
    · exact .inr ⟨v j, 0, by rw [hstep, h]; rfl, hR.single j⟩
    · exact .inr ⟨_, _, by rw [hstep, hrun]; rfl, hR.join _ _ _ _ _ _ hr (hR.single j)⟩

/-- What a lane takes in after the lanes before it. -/
theorem takeIn_of_folds {st : Held → Held → Held × Nat} {v : Nat → Held} {R : List Nat → Held → Nat → Prop} (hR : Folds st v R)
    (l : List Nat) (j : Nat) : ∃ fl, R (l ++ [j]) (takeIn st (runOf st none (l.map v)) (v j)).1 fl := by
  obtain ⟨rfl, h⟩ | ⟨h, fl, hrun, hr⟩ := runOf_of_folds hR l
  · exact ⟨0, by rw [h]; exact hR.single j⟩
  · exact ⟨_, by rw [hrun]; exact hR.join _ _ _ _ _ _ hr (hR.single j)⟩

/-! ## The rows -/

section
variable {s : State} {w : VWord}

/-- The combining step of the row, and the value of element `k` of a lane. -/
def rowStep (s : State) (w : VWord) : Held → Held → Held × Nat := redStep s.cur.cvp w.ty (w.md % 16) (tyBits w.ty)

def rowElem (s : State) (w : VWord) (k l : Nat) : Held := elemOf w.ty (tyBits w.ty) k (vlane s w.a l)

/-- A row's value as it is written, with the flags so far. -/
def rowWrite (s : State) (w : VWord) (h : Held) (fl : Nat) : Held × Nat :=
  ((redWrite s.cur.cvp w.ty h).1, flagOr fl (redWrite s.cur.cvp w.ty h).2)

/-- Element `k` of the result of VRED in the lanes of cluster `c`. -/
def redElem (s : State) (w : VWord) (c k : Nat) : Held × Nat :=
  let t := treeOf (rowStep s w) (fun j => if (clusterLanes s w c).contains j then some (rowElem s w k j) else none) 4 (16 * c)
  rowWrite s w (t.1.getD ⟨0, 0⟩) t.2

/-- The running result before lane `l`. -/
def runBefore (s : State) (w : VWord) (l k : Nat) : Option Held :=
  runOf (rowStep s w) none (((clusterLanes s w (l / 16)).filter (· < l)).map (rowElem s w k))

/-- Element `k` of the result of VSCAN in lane `l`. -/
def scanElem (s : State) (w : VWord) (l k : Nat) : Held × Nat :=
  let new := takeIn (rowStep s w) (runBefore s w l k) (rowElem s w k l)
  rowWrite s w (if w.md / 16 = 1 then (runBefore s w l k).getD ⟨0, 0⟩ else new.1) new.2

/-- A row that gives a list of lanes with their elements is one that works element by element. -/
theorem perLaneFl_eq (lat wd : Nat) (F : Nat → Nat → Held × Nat) :
    let rs := (acting s w).map fun l => (l, mkLane wd (((elems wd).map (F l)).map (·.1)), ((elems wd).map (F l)).foldl (fun a e => flagOr a e.2) 0)
    Host.Outcome.next (landVFl s w.d lat (rs.map fun r => (r.1, r.2.1)) (rs.foldl (fun a r => flagOr a r.2.2) 0)) = perLaneFl s w lat wd F := by
  unfold perLaneFl
  simp only [List.foldl_map, List.map_map, Function.comp_def, ← foldl_flagOr_start]

theorem redCluster_eq (c : Nat) : redCluster s w (tyBits w.ty) (clusterLanes s w c) c = (elems (tyBits w.ty)).map (redElem s w c) := by
  refine List.map_congr_left fun k _ => ?_
  have h := redTree_eq_treeOf (rowStep s w) (fun j => if (clusterLanes s w c).contains j then some (rowElem s w k j) else none) (16 * c)
  show rowWrite s w ((redTree (rowStep s w) _).1.getD ⟨0, 0⟩) (redTree (rowStep s w) _).2 = _
  rw [redElem, ← h]
  rfl

theorem filter_acting (c : Nat) : (acting s w).filter (fun l => l / 16 = c) = clusterLanes s w c := rfl

theorem ite_isEmpty_map {α β : Type} (l : List α) (g : α → β) : (if l.isEmpty = true then [] else l.map g) = l.map g := by
  split
  next h => rw [List.isEmpty_iff.1 h, List.map_nil]
  next => rfl

theorem exec_vred_eq (hty : w.ty ≤ 10) (hmd : ¬ (w.md % 16 = 5 ∨ w.md % 16 = 6)) :
    exec (.vred w) s = perLaneFl s w 2 (tyBits w.ty) fun l k => redElem s w (l / 16) k := by
  rw [← perLaneFl_eq]
  show execVred w s = _
  unfold execVred
  simp only [tyWidth_eq_tyBits hty, if_neg hmd]
  simp only [filter_acting, redCluster_eq]
  simp only [ite_isEmpty_map]
  rw [flatMap_clusterLanes_map (fun c l => (l, mkLane (tyBits w.ty) (((elems (tyBits w.ty)).map (redElem s w c)).map (·.1)),
      ((elems (tyBits w.ty)).map (redElem s w c)).foldl (fun a e => flagOr a e.2) 0))]

/-- The result of VRED is the combination of the cluster's acting lanes. -/
theorem redElem_spec {c k : Nat} {R : List Nat → Held → Nat → Prop} (hR : Folds (rowStep s w) (rowElem s w k) R)
    (hne : clusterLanes s w c ≠ []) : ∃ h fl, R (clusterLanes s w c) h fl ∧ redElem s w c k = rowWrite s w h fl := by
  have hpresent : (List.range' (16 * c) (2 ^ 4)).filter (fun j => (clusterLanes s w c).contains j) = clusterLanes s w c := by
    refine List.Pairwise.eq_of_mem_iff (r := (· < ·)) ((List.pairwise_lt_range' _).filter _) (clusterLanes_pairwise s w c) fun l => ?_
    simp only [List.mem_filter, List.mem_range'_1, List.contains_iff_mem, and_iff_right_iff_imp, mem_clusterLanes]
    omega
  obtain ⟨h, -⟩ | ⟨h, fl, ht, hr⟩ := treeOf_of_folds hR (fun j => (clusterLanes s w c).contains j) 4 (16 * c)
  · exact absurd (hpresent.symm.trans h) hne
  · rw [hpresent] at hr
    exact ⟨h, fl, hr, by simp only [redElem, ht, Option.getD_some]⟩

theorem clusterLanes_ne_nil {l : Nat} (h : On s w l) : clusterLanes s w (l / 16) ≠ [] := List.ne_nil_of_mem (mem_clusterLanes.2 ⟨h, rfl⟩)

/-! ### VSCAN -/

theorem scanRun_getElem? (p : Cvp) (ty op wd : Nat) (excl : Bool) (l : List Held) (run : Option Held) (i : Nat) (hi : i < l.length) :
    (scanRun p ty op wd excl run l)[i]? = some (
      let before := runOf (redStep p ty op wd) run (l.take i)
      let new := takeIn (redStep p ty op wd) before l[i]
      let out := redWrite p ty (if excl then before.getD ⟨0, 0⟩ else new.1)
      (out.1, flagOr new.2 out.2)) := by
  induction l generalizing run i with
  | nil => exact absurd hi (Nat.not_lt_zero _)
  | cons x r ih =>
    cases i with
    | zero => cases run <;> rfl
    | succ i =>
      rw [scanRun.eq_def]
      simp only []
      rw [List.getElem?_cons_succ, ih _ i (Nat.lt_of_succ_lt_succ hi)]
      cases run <;> rfl

/-- In an ascending list the values before a place are those below its value. -/
theorem take_eq_filter_lt {l : List Nat} (h : l.Pairwise (· < ·)) (i : Nat) (hi : i < l.length) : l.take i = l.filter (· < l[i]) := by
  refine List.Pairwise.eq_of_mem_iff (r := (· < ·)) (h.sublist (List.take_sublist _ _)) (h.filter _) fun x => ?_
  simp only [List.mem_take_iff_getElem, List.mem_filter, decide_eq_true_eq]
  rw [List.pairwise_iff_getElem] at h
  constructor
  · rintro ⟨j, hj, rfl⟩
    exact ⟨List.getElem_mem _, h j i (by omega) hi (by omega)⟩
  · rintro ⟨hx, hlt⟩
    obtain ⟨j, hj, rfl⟩ := List.getElem_of_mem hx
    refine ⟨j, ?_, rfl⟩
    rcases Nat.lt_trichotomy j i with hji | rfl | hji
    · omega
    · omega
    · have := h i j hi hj hji
      omega

theorem exec_vscan_eq (hty : w.ty ≤ 10) : exec (.vscan w) s = perLaneFl s w 2 (tyBits w.ty) (scanElem s w) := by
  rw [← perLaneFl_eq]
  show execVscan w s = _
  unfold execVscan
  simp only [tyWidth_eq_tyBits hty]
  simp only [filter_acting]
  have hcluster (c : Nat) : ((List.range (clusterLanes s w c).length).zip (clusterLanes s w c)).map (fun p =>
      let es := ((elems (tyBits w.ty)).map fun k => scanRun s.cur.cvp w.ty (w.md % 16) (tyBits w.ty) (w.md / 16 = 1) none
        ((clusterLanes s w c).map fun l => elemOf w.ty (tyBits w.ty) k (vlane s w.a l))).map fun col => col.getD p.1 (⟨0, 0⟩, 0)
      (p.2, mkLane (tyBits w.ty) (es.map fun e => e.1), es.foldl (fun a e => flagOr a e.2) 0))
      = (clusterLanes s w c).map fun l => (l, mkLane (tyBits w.ty) (((elems (tyBits w.ty)).map (scanElem s w l)).map (·.1)),
          ((elems (tyBits w.ty)).map (scanElem s w l)).foldl (fun a e => flagOr a e.2) 0) := by
    refine List.ext_getElem (by simp) fun i h1 h2 => ?_
    have hi : i < (clusterLanes s w c).length := by simpa using h2
    have hlane : (clusterLanes s w c)[i] / 16 = c := (mem_clusterLanes.1 (List.getElem_mem hi)).2
    have hes : ((elems (tyBits w.ty)).map fun k => scanRun s.cur.cvp w.ty (w.md % 16) (tyBits w.ty) (w.md / 16 = 1) none
        ((clusterLanes s w c).map fun l => elemOf w.ty (tyBits w.ty) k (vlane s w.a l))).map (fun col => col.getD i (⟨0, 0⟩, 0))
        = (elems (tyBits w.ty)).map (scanElem s w (clusterLanes s w c)[i]) := by
      rw [List.map_map]
      refine List.map_congr_left fun k _ => ?_
      rw [Function.comp_apply, List.getD_eq_getElem?_getD, scanRun_getElem? _ _ _ _ _ _ _ _ (by simpa using hi), Option.getD_some]
      simp only [scanElem, runBefore, hlane, rowWrite, ← take_eq_filter_lt (clusterLanes_pairwise s w c) i hi, List.map_take, decide_eq_true_eq,
        List.getElem_map]
      rfl
    simp only [List.getElem_map, List.getElem_zip, List.getElem_range, hes]
  rw [← flatMap_clusterLanes_map (fun _ l => (l, mkLane (tyBits w.ty) (((elems (tyBits w.ty)).map (scanElem s w l)).map (·.1)),
          ((elems (tyBits w.ty)).map (scanElem s w l)).foldl (fun a e => flagOr a e.2) 0))]
  simp only [← hcluster]

end

end Sys2Proof.Machine

/-! # Reductions and scans of integers (R150 to R152) -/

namespace Sys2Proof.Machine
open Claim

/-! ## Rows whose elements are integers -/

section
variable {s : State} {w : VWord}

/-- Results without flags and tails, each the bits of an element. -/
theorem putsV_of_bits {i : Instr} {lat : Nat} {F : Nat → Nat → Held × Nat} {Q : Nat → Nat → Nat → Prop}
    (hx : exec i s = perLaneFl s w lat (tyBits w.ty) F)
    (hF : ∀ l k, On s w l → k < 32 / tyBits w.ty → ∃ b, F l k = (⟨b, 0⟩, 0) ∧ b < 2 ^ tyBits w.ty ∧ Q l k b) :
    PutsV i s w lat fun l r => EachElt w.ty r fun k => Q l k (eltBitsAt w.ty k r) := by
  have hfl (l k : Nat) (hl : On s w l) (hk : k < 32 / tyBits w.ty) : (F l k).2 = 0 := by
    obtain ⟨b, h, -⟩ := hF l k hl hk
    rw [h]
  refine ⟨_, fills_acting fun l hl => ?_, hx.trans (perLaneFl_of_no_flags hfl)⟩
  have hlane : mkLane (tyBits w.ty) ((elems (tyBits w.ty)).map fun k => (F l k).1)
      = mkLaneI (tyBits w.ty) ((elems (tyBits w.ty)).map fun k => (F l k).1.body) := by
    rw [mkLaneI, List.map_map]
    refine congrArg _ (List.map_congr_left fun k hk => ?_)
    obtain ⟨b, h, -⟩ := hF l k hl (List.mem_range.1 hk)
    rw [Function.comp_apply, h]
  rw [hlane]
  refine ⟨tail_mkLaneI _ _, fun k hk => ?_⟩
  obtain ⟨b, h, hb, hq⟩ := hF l k hl hk
  rw [eltBitsAt_mkLaneI _ _ hk, h, Nat.mod_eq_of_lt hb]
  exact hq

/-- The bits of element `k` of operand a in lane `l`. -/
def rowBits (s : State) (w : VWord) (k l : Nat) : Nat := eltBitsAt w.ty k (vlane s w.a l)

theorem rowBits_lt (k l : Nat) : rowBits s w k l < 2 ^ tyBits w.ty := eltBitsAt_lt _ _ _

/-- The combination of lanes as integers: no flag, no tail, and a relation of the lanes to the bits. -/
def BitsFold (w : VWord) (Q : List Nat → Nat → Prop) (l : List Nat) (h : Held) (fl : Nat) : Prop :=
  ∃ b, h = ⟨b, 0⟩ ∧ fl = 0 ∧ b < 2 ^ tyBits w.ty ∧ Q l b

/-- An operator whose combination of lanes has a relation to the lanes. -/
structure Combines (s : State) (w : VWord) (k : Nat) (op : Nat → Nat → Nat) (Q : List Nat → Nat → Prop) : Prop where
  step : ∀ a b, a < 2 ^ tyBits w.ty → b < 2 ^ tyBits w.ty → rowStep s w ⟨a, 0⟩ ⟨b, 0⟩ = (⟨op a b, 0⟩, 0)
  lt : ∀ a b, a < 2 ^ tyBits w.ty → b < 2 ^ tyBits w.ty → op a b < 2 ^ tyBits w.ty
  single : ∀ j, Q [j] (rowBits s w k j)
  join : ∀ l₁ l₂ a b, a < 2 ^ tyBits w.ty → b < 2 ^ tyBits w.ty → Q l₁ a → Q l₂ b → Q (l₁ ++ l₂) (op a b)

variable (hty : w.ty ≤ 5)
include hty

theorem rowElem_int (k l : Nat) : rowElem s w k l = ⟨rowBits s w k l, 0⟩ := by
  rw [rowElem, elemOf, fmtOf_of_le hty]
  rfl

theorem rowWrite_int (h : Held) (fl : Nat) : rowWrite s w h fl = (h, fl) := by
  simp only [rowWrite, redWrite, fmtOf_of_le hty, flagOr, Nat.or_zero]

theorem folds_of_combines {k : Nat} {op : Nat → Nat → Nat} {Q : List Nat → Nat → Prop} (h : Combines s w k op Q) :
    Folds (rowStep s w) (rowElem s w k) (BitsFold w Q) where
  single j := ⟨_, rowElem_int hty k j, rfl, rowBits_lt _ _, h.single j⟩
  join := by
    rintro l₁ l₂ _ _ _ _ ⟨a, rfl, rfl, ha, hqa⟩ ⟨b, rfl, rfl, hb, hqb⟩
    exact ⟨op a b, by rw [h.step a b ha hb], by rw [h.step a b ha hb]; simp [flagOr], h.lt a b ha hb, h.join l₁ l₂ a b ha hb hqa hqb⟩

/-- VRED gives the combination of the acting lanes of the cluster. -/
theorem putsV_vred {op : Nat → Nat → Nat} {Q : Nat → List Nat → Nat → Prop} (hmd : ¬ (w.md % 16 = 5 ∨ w.md % 16 = 6))
    (h : ∀ k, Combines s w k op (Q k)) :
    PutsV (.vred w) s w 2 fun l r => EachElt w.ty r fun k => Q k (clusterLanes s w (l / 16)) (eltBitsAt w.ty k r) := by
  refine putsV_of_bits (Q := fun l k b => Q k (clusterLanes s w (l / 16)) b) (exec_vred_eq (by omega) hmd) fun l k hl _ => ?_
  obtain ⟨_, _, ⟨b, rfl, rfl, hb, hq⟩, he⟩ := redElem_spec (folds_of_combines hty (h k)) (clusterLanes_ne_nil hl)
  exact ⟨b, by rw [he, rowWrite_int hty], hb, hq⟩

omit hty in
/-- The lanes up to a lane are those before it and the lane itself. -/
theorem filter_le_eq {l : Nat} (hl : On s w l) :
    (clusterLanes s w (l / 16)).filter (· ≤ l) = (clusterLanes s w (l / 16)).filter (· < l) ++ [l] := by
  refine List.Pairwise.eq_of_mem_iff (r := (· < ·)) ((clusterLanes_pairwise s w _).filter _) ?_ fun x => ?_
  · refine List.pairwise_append.2 ⟨(clusterLanes_pairwise s w _).filter _, List.pairwise_singleton _ _, fun a ha b hb => ?_⟩
    rw [List.mem_singleton.1 hb]
    exact of_decide_eq_true (List.mem_filter.1 ha).2
  · have hmem : l ∈ clusterLanes s w (l / 16) := mem_clusterLanes.2 ⟨hl, rfl⟩
    simp only [List.mem_append, List.mem_filter, decide_eq_true_eq, List.mem_singleton, le_iff_lt_or_eq]
    constructor
    · rintro ⟨hx, hlt | rfl⟩
      · exact .inl ⟨hx, hlt⟩
      · exact .inr rfl
    · rintro (⟨hx, hlt⟩ | rfl)
      · exact ⟨hx, .inl hlt⟩
      · exact ⟨hmem, .inr rfl⟩

omit hty in
theorem filter_le_filter_ne (l : Nat) (c : Nat) :
    ((clusterLanes s w c).filter (· ≤ l)).filter (· ≠ l) = (clusterLanes s w c).filter (· < l) := by
  rw [List.filter_filter]
  refine List.filter_congr fun x _ => ?_
  by_cases h : x < l
  · simp [h, h.ne, h.le]
  · simp [h]
    omega

/-- An inclusive VSCAN gives the combination of the lanes up to the lane. -/
theorem putsV_vscan_inclusive {op : Nat → Nat → Nat} {Q : Nat → List Nat → Nat → Prop} (hmd : w.md / 16 ≠ 1)
    (h : ∀ k, Combines s w k op (Q k)) :
    PutsV (.vscan w) s w 2 fun l r => EachElt w.ty r fun k =>
      Q k ((clusterLanes s w (l / 16)).filter (· ≤ l)) (eltBitsAt w.ty k r) := by
  refine putsV_of_bits (Q := fun l k b => Q k ((clusterLanes s w (l / 16)).filter (· ≤ l)) b) (exec_vscan_eq (by omega)) fun l k hl _ => ?_
  have hfolds := folds_of_combines hty (h k)
  rw [filter_le_eq hl, scanElem, if_neg hmd, rowWrite_int hty]
  obtain ⟨hnil, hrun⟩ | ⟨_, _, hrun, b, rfl, rfl, hb, hq⟩ := runOf_of_folds hfolds ((clusterLanes s w (l / 16)).filter (· < l))
  · rw [runBefore, hrun, hnil]
    exact ⟨_, by rw [rowElem_int hty]; rfl, rowBits_lt _ _, (h k).single l⟩
  · rw [runBefore, hrun, takeIn, rowElem_int hty, (h k).step _ _ hb (rowBits_lt _ _)]
    exact ⟨_, rfl, (h k).lt _ _ hb (rowBits_lt _ _), (h k).join _ _ _ _ hb (rowBits_lt _ _) hq ((h k).single l)⟩

/-- An exclusive VSCAN gives the combination of the lanes before the lane, and zero where there are none. -/
theorem putsV_vscan_exclusive {op : Nat → Nat → Nat} {Q : Nat → List Nat → Nat → Prop} (hmd : w.md / 16 = 1)
    (h : ∀ k, Combines s w k op (Q k)) :
    PutsV (.vscan w) s w 2 fun l r => EachElt w.ty r fun k =>
      let before := ((clusterLanes s w (l / 16)).filter (· ≤ l)).filter (· ≠ l)
      (before = [] → eltBitsAt w.ty k r = 0) ∧ (before ≠ [] → Q k before (eltBitsAt w.ty k r)) := by
  refine putsV_of_bits (Q := fun l k b => let before := ((clusterLanes s w (l / 16)).filter (· ≤ l)).filter (· ≠ l)
    (before = [] → b = 0) ∧ (before ≠ [] → Q k before b)) (exec_vscan_eq (by omega)) fun l k hl _ => ?_
  have hfolds := folds_of_combines hty (h k)
  rw [filter_le_filter_ne, scanElem, if_pos hmd, rowWrite_int hty]
  obtain ⟨hnil, hrun⟩ | ⟨_, _, hrun, b, rfl, rfl, hb, hq⟩ := runOf_of_folds hfolds ((clusterLanes s w (l / 16)).filter (· < l))
  · rw [runBefore, hrun, hnil]
    exact ⟨0, rfl, Nat.two_pow_pos _, fun _ => rfl, fun h => absurd rfl h⟩
  · rw [runBefore, hrun, takeIn, rowElem_int hty, (h k).step _ _ hb (rowBits_lt _ _)]
    refine ⟨b, rfl, hb, fun hnil => ?_, fun _ => hq⟩
    rw [hnil] at hrun
    cases hrun

/-! ## The operators (Table 5.9) -/

omit hty in
theorem rowBits_cast (k j : Nat) : (rowBits s w k j : Int) = eltIntAt w.ty k (vlane s w.a j) % 2 ^ tyBits w.ty := ((eltIntAt_spec _ _ _).2.2).symm

theorem combines_sum (hmd : w.md % 16 = 0) (k : Nat) :
    Combines s w k (fun a b => (a + b) % 2 ^ tyBits w.ty) fun l b =>
      (b : Int) = (l.map fun j => eltIntAt w.ty k (vlane s w.a j)).sum % 2 ^ tyBits w.ty where
  step a b _ _ := by simp only [rowStep, redStep, fmtOf_of_le hty, hmd]
  lt _ _ _ _ := Nat.mod_lt _ (Nat.two_pow_pos _)
  single j := by rw [List.map_singleton, List.sum_singleton, rowBits_cast]
  join l₁ l₂ a b _ _ ha hb := by
    push_cast
    rw [List.map_append, List.sum_append, ha, hb, ← Int.add_emod]

/-- The integer that bits are in the row's type. -/
def bitsInt (ty b : Nat) : Int := if decide (ty % 2 = 0) then sextNat (tyBits ty) b else b

omit hty in
theorem bitsInt_rowBits (k j : Nat) : bitsInt w.ty (rowBits s w k j) = eltIntAt w.ty k (vlane s w.a j) := intVal_eq_eltIntAt w.ty (vlane s w.a j, k)

theorem rowStep_min (hmd : w.md % 16 = 1) (a b : Held) :
    rowStep s w a b = (⟨if bitsInt w.ty a.body ≤ bitsInt w.ty b.body then a.body else b.body, 0⟩, 0) := by
  simp only [rowStep, redStep, fmtOf_of_le hty, intOf_of_le hty, hmd, bitsInt] <;> rfl

theorem rowStep_max (hmd : w.md % 16 = 2) (a b : Held) :
    rowStep s w a b = (⟨if bitsInt w.ty a.body ≤ bitsInt w.ty b.body then b.body else a.body, 0⟩, 0) := by
  simp only [rowStep, redStep, fmtOf_of_le hty, intOf_of_le hty, hmd, bitsInt] <;> rfl

theorem combines_min (hmd : w.md % 16 = 1) (k : Nat) :
    Combines s w k (fun a b => if bitsInt w.ty a ≤ bitsInt w.ty b then a else b) fun l b =>
      (∃ j ∈ l, b = rowBits s w k j) ∧ ∀ j ∈ l, bitsInt w.ty b ≤ bitsInt w.ty (rowBits s w k j) where
  step a b _ _ := rowStep_min hty hmd _ _
  lt a b ha hb := by split <;> assumption
  single j := ⟨⟨j, List.mem_singleton_self j, rfl⟩, fun i hi => by rw [List.mem_singleton.1 hi]⟩
  join l₁ l₂ a b _ _ := by
    rintro ⟨⟨i, hi, rfl⟩, hmin⟩ ⟨⟨j, hj, rfl⟩, hmin'⟩
    split
    next hle =>
      exact ⟨⟨i, List.mem_append_left _ hi, rfl⟩, fun x hx => (List.mem_append.1 hx).elim (hmin x) fun h => hle.trans (hmin' x h)⟩
    next hlt =>
      exact ⟨⟨j, List.mem_append_right _ hj, rfl⟩, fun x hx => (List.mem_append.1 hx).elim (fun h => (le_of_not_ge hlt).trans (hmin x h)) (hmin' x)⟩

theorem combines_max (hmd : w.md % 16 = 2) (k : Nat) :
    Combines s w k (fun a b => if bitsInt w.ty a ≤ bitsInt w.ty b then b else a) fun l b =>
      (∃ j ∈ l, b = rowBits s w k j) ∧ ∀ j ∈ l, bitsInt w.ty (rowBits s w k j) ≤ bitsInt w.ty b where
  step a b _ _ := rowStep_max hty hmd _ _
  lt a b ha hb := by split <;> assumption
  single j := ⟨⟨j, List.mem_singleton_self j, rfl⟩, fun i hi => by rw [List.mem_singleton.1 hi]⟩
  join l₁ l₂ a b _ _ := by
    rintro ⟨⟨i, hi, rfl⟩, hmax⟩ ⟨⟨j, hj, rfl⟩, hmax'⟩
    split
    next hle =>
      exact ⟨⟨j, List.mem_append_right _ hj, rfl⟩, fun x hx => (List.mem_append.1 hx).elim (fun h => (hmax x h).trans hle) (hmax' x)⟩
    next hlt =>
      exact ⟨⟨i, List.mem_append_left _ hi, rfl⟩, fun x hx => (List.mem_append.1 hx).elim (hmax x) fun h => (hmax' x h).trans (le_of_not_ge hlt)⟩

omit hty in
/-- An extreme as a number. -/
theorem extreme_of_bits {k : Nat} {l : List Nat} {r : Lane} {P : Int → Int → Prop}
    (h : (∃ j ∈ l, eltBitsAt w.ty k r = rowBits s w k j)
      ∧ ∀ j ∈ l, P (bitsInt w.ty (eltBitsAt w.ty k r)) (bitsInt w.ty (rowBits s w k j))) :
    (∃ j ∈ l, eltIntAt w.ty k r = eltIntAt w.ty k (vlane s w.a j))
      ∧ ∀ j ∈ l, P (eltIntAt w.ty k r) (eltIntAt w.ty k (vlane s w.a j)) := by
  obtain ⟨⟨j, hj, he⟩, hall⟩ := h
  have hr : eltIntAt w.ty k r = eltIntAt w.ty k (vlane s w.a j) := eltIntAt_congr he
  refine ⟨⟨j, hj, hr⟩, fun i hi => ?_⟩
  have := hall i hi
  rwa [he, bitsInt_rowBits, bitsInt_rowBits, ← hr] at this

/-- An associative operator on the numbers below 2^n, and its unit. -/
structure IsBitOp (n : Nat) (op : Nat → Nat → Nat) (u : Nat) : Prop where
  assoc : ∀ a b c, op (op a b) c = op a (op b c)
  unit_right : ∀ a < 2 ^ n, op a u = a
  unit_left : ∀ a < 2 ^ n, op u a = a
  lt : ∀ a b, a < 2 ^ n → b < 2 ^ n → op a b < 2 ^ n

omit hty in
theorem foldl_from {n u : Nat} {op : Nat → Nat → Nat} (h : IsBitOp n op u) (g : Nat → Nat) (l : List Nat) {x : Nat} (hx : x < 2 ^ n) :
    l.foldl (fun y j => op y (g j)) x = op x (l.foldl (fun y j => op y (g j)) u) := by
  induction l using List.reverseRecOn with
  | nil => exact (h.unit_right x hx).symm
  | append_singleton l j ih => rw [List.foldl_append, List.foldl_append, List.foldl_cons, List.foldl_cons, List.foldl_nil, List.foldl_nil, ih, h.assoc]

omit hty in
theorem combines_bitOp {op : Nat → Nat → Nat} {u : Nat} (h : IsBitOp (tyBits w.ty) op u)
    (hstep : ∀ a b, rowStep s w ⟨a, 0⟩ ⟨b, 0⟩ = (⟨op a b, 0⟩, 0)) (k : Nat) :
    Combines s w k op fun l b => b = l.foldl (fun x j => op x (rowBits s w k j)) u where
  step a b _ _ := hstep a b
  lt := h.lt
  single j := by rw [List.foldl_cons, List.foldl_nil, h.unit_left _ (rowBits_lt _ _)]
  join l₁ l₂ a b ha _ hqa hqb := by rw [List.foldl_append, ← hqa, foldl_from h _ l₂ ha, ← hqb]

omit hty in
theorem isBitOp_and (n : Nat) : IsBitOp n (· &&& ·) (2 ^ n - 1) where
  assoc := Nat.and_assoc
  unit_right a ha := by rw [Nat.and_two_pow_sub_one_eq_mod, Nat.mod_eq_of_lt ha]
  unit_left a ha := by rw [Nat.and_comm, Nat.and_two_pow_sub_one_eq_mod, Nat.mod_eq_of_lt ha]
  lt a _ _ hb := Nat.and_lt_two_pow a hb

omit hty in
theorem isBitOp_or (n : Nat) : IsBitOp n (· ||| ·) 0 where
  assoc := Nat.or_assoc
  unit_right a _ := Nat.or_zero a
  unit_left a _ := Nat.zero_or a
  lt _ _ := Nat.or_lt_two_pow

omit hty in
theorem isBitOp_xor (n : Nat) : IsBitOp n (· ^^^ ·) 0 where
  assoc := Nat.xor_assoc
  unit_right a _ := Nat.xor_zero a
  unit_left a _ := Nat.zero_xor a
  lt _ _ := Nat.xor_lt_two_pow

/-- The bitwise operators of Table 5.9. -/
theorem combines_of_bitOps {op : Nat × (Nat → Nat → Nat) × Nat}
    (hop : op ∈ [(7, (· &&& · : Nat → Nat → Nat), 2 ^ tyBits w.ty - 1), (8, (· ||| ·), 0), (9, (· ^^^ ·), 0)])
    (hmd : w.md % 16 = op.1) (k : Nat) : Combines s w k op.2.1 fun l b => b = l.foldl (fun x j => op.2.1 x (rowBits s w k j)) op.2.2 := by
  simp only [List.mem_cons, List.not_mem_nil, or_false] at hop
  obtain rfl | rfl | rfl := hop
  · exact combines_bitOp (isBitOp_and _) (fun a b => by simp only [rowStep, redStep, fmtOf_of_le hty, hmd]) k
  · exact combines_bitOp (isBitOp_or _) (fun a b => by simp only [rowStep, redStep, fmtOf_of_le hty, hmd]) k
  · exact combines_bitOp (isBitOp_xor _) (fun a b => by simp only [rowStep, redStep, fmtOf_of_le hty, hmd]) k

end

end Sys2Proof.Machine

/-! # Reductions to the index of an extreme (R71, R150) -/

namespace Sys2Proof.Machine
open Claim

/-! ## The first of the least -/

/-- Going through indexed values and changing to a later one where it is strictly below keeps the first of the least. -/
theorem foldl_first_least {α β : Type} [LinearOrder β] (rank : α → β) (index : α → Nat) (e : α) (r : List α)
    (hsorted : (e :: r).Pairwise fun x y => index x < index y) :
    let m := r.foldl (fun m x => if rank x < rank m then x else m) e
    m ∈ e :: r ∧ ∀ x ∈ e :: r, rank m ≤ rank x ∧ (rank x = rank m → index m ≤ index x) := by
  induction r using List.reverseRecOn with
  | nil => simp
  | append_singleton r x ih =>
    rw [← List.cons_append, List.pairwise_append] at hsorted
    obtain ⟨hr, -, hx⟩ := hsorted
    obtain ⟨hmem, hleast⟩ := ih hr
    rw [List.foldl_append, List.foldl_cons, List.foldl_nil, ← List.cons_append]
    split
    next hlt =>
      refine ⟨List.mem_append_right _ (List.mem_singleton_self x), fun y hy => ?_⟩
      obtain hy | hy := List.mem_append.1 hy
      · have := hlt.trans_le (hleast y hy).1
        exact ⟨this.le, fun h => absurd h this.ne'⟩
      · rw [List.mem_singleton.1 hy]
        exact ⟨le_rfl, fun _ => le_rfl⟩
    next hle =>
      refine ⟨List.mem_append_left _ hmem, fun y hy => ?_⟩
      obtain hy | hy := List.mem_append.1 hy
      · exact hleast y hy
      · rw [List.mem_singleton.1 hy]
        exact ⟨le_of_not_gt hle, fun _ => (hx _ hmem x (List.mem_singleton_self x)).le⟩

section
variable {s : State} {w : VWord}

/-! ## The choice of a cluster -/

/-- The order in which an arg operator prefers elements: a NaN first, then the lesser or the greater. -/
def argRank (w : VWord) (h : Held) : WithBot Int :=
  match fmtOf w.ty with
  | some f => if f.isNan h.body then ⊥ else ((if w.md % 16 = 6 then -h.key f else h.key f : Int) : WithBot Int)
  | none => ((if w.md % 16 = 6 then -bitsInt w.ty h.body else bitsInt w.ty h.body : Int) : WithBot Int)

theorem argBetter_eq (hty : w.ty ≤ 5 ∨ (fmtOf w.ty).isSome) (a b : Held) :
    argBetter w.ty (tyBits w.ty) (w.md % 16 = 6) b a = decide (argRank w b < argRank w a) := by
  unfold argBetter argRank
  cases hf : fmtOf w.ty with
  | some f =>
    by_cases ha : f.isNan a.body = true <;> by_cases hb : f.isNan b.body = true <;> by_cases hm : w.md % 16 = 6 <;> simp [ha, hb, hm]
  | none =>
    have h5 : w.ty ≤ 5 := hty.resolve_right (by simp [hf])
    simp only [intOf_of_le h5, bitsInt]
    by_cases hm : w.md % 16 = 6 <;> simp [hm]

/-- The indexed elements of the lanes of a cluster. -/
def indexed (s : State) (w : VWord) (ls : List Nat) : List (Nat × Held) :=
  ls.flatMap fun l => (elems (tyBits w.ty)).map fun k => (l * (32 / tyBits w.ty) + k, rowElem s w k l)

theorem mem_indexed {ls : List Nat} {e : Nat × Held} :
    e ∈ indexed s w ls ↔ ∃ j ∈ ls, ∃ k < 32 / tyBits w.ty, e = (j * (32 / tyBits w.ty) + k, rowElem s w k j) := by
  simp [indexed, elems, eq_comm]

theorem indexed_pairwise {ls : List Nat} (h : ls.Pairwise (· < ·)) : (indexed s w ls).Pairwise fun x y => x.1 < y.1 := by
  refine List.pairwise_flatMap.2 ⟨fun l _ => List.pairwise_map.2 (List.pairwise_lt_range.imp fun hab => Nat.add_lt_add_left hab _),
    h.imp fun {a b} hab x hx y hy => ?_⟩
  obtain ⟨k, hk, rfl⟩ := List.mem_map.1 hx
  obtain ⟨k', -, rfl⟩ := List.mem_map.1 hy
  have hk := List.mem_range.1 hk
  have := Nat.mul_le_mul_right (32 / tyBits w.ty) hab
  rw [Nat.succ_mul] at this
  show a * (32 / tyBits w.ty) + k < b * (32 / tyBits w.ty) + k'
  omega

/-- The flag of an arg operator on a cluster. -/
def argFlag (s : State) (w : VWord) (ls : List Nat) : Nat :=
  match fmtOf w.ty with
  | some f => if (indexed s w ls).any (fun e => f.isSnan e.2.body) then fNV else 0
  | none => 0

/-- An index that names an element of the lanes, the first of those preferred. -/
def IsFirstChoice (s : State) (w : VWord) (ls : List Nat) (n : Nat) : Prop :=
  ∃ j ∈ ls, ∃ k < 32 / tyBits w.ty, n = j * (32 / tyBits w.ty) + k
    ∧ ∀ j' ∈ ls, ∀ k' < 32 / tyBits w.ty, argRank w (rowElem s w k j) ≤ argRank w (rowElem s w k' j')
      ∧ (argRank w (rowElem s w k' j') = argRank w (rowElem s w k j) → j * (32 / tyBits w.ty) + k ≤ j' * (32 / tyBits w.ty) + k')

theorem argChoice_spec (hty : w.ty ≤ 5 ∨ (fmtOf w.ty).isSome) {ls : List Nat} (hne : ls ≠ []) (h : ls.Pairwise (· < ·)) :
    (argChoice s w (tyBits w.ty) ls).2 = argFlag s w ls ∧ IsFirstChoice s w ls (argChoice s w (tyBits w.ty) ls).1 := by
  have hpos : 0 < 32 / tyBits w.ty := by obtain h | h | h := isWidth_tyBits w.ty <;> rw [h] <;> decide
  obtain ⟨e, r, hes⟩ : ∃ e r, indexed s w ls = e :: r := by
    obtain ⟨j, hj⟩ := List.exists_mem_of_ne_nil ls hne
    exact List.exists_cons_of_ne_nil (List.ne_nil_of_mem (mem_indexed.2 ⟨j, hj, 0, hpos, rfl⟩))
  have hchoice : argChoice s w (tyBits w.ty) ls
      = ((r.foldl (fun m x => if argRank w x.2 < argRank w m.2 then x else m) e).1, argFlag s w ls) := by
    have hunfold : argChoice s w (tyBits w.ty) ls = match indexed s w ls with
      | [] => (0, 0)
      | e :: r => ((r.foldl (fun m x => if argBetter w.ty (tyBits w.ty) (w.md % 16 = 6) x.2 m.2 then x else m) e).1, argFlag s w ls) := rfl
    rw [hunfold, hes]
    simp only [argBetter_eq hty, decide_eq_true_eq]
  obtain ⟨hmem, hleast⟩ := foldl_first_least (fun x : Nat × Held => argRank w x.2) (·.1) e r (hes ▸ indexed_pairwise h)
  rw [← hes] at hmem hleast
  obtain ⟨j, hj, k, hk, hm⟩ := mem_indexed.1 hmem
  rw [hchoice]
  refine ⟨rfl, j, hj, k, hk, by rw [hm], fun j' hj' k' hk' => ?_⟩
  have := hleast _ (mem_indexed.2 ⟨j', hj', k', hk', rfl⟩)
  rwa [hm] at this

/-- The lane with the index of the choice of a lane's cluster. -/
def choiceLane (s : State) (w : VWord) (l : Nat) : Lane :=
  { data := BitVec.ofNat 32 (argChoice s w (tyBits w.ty) (clusterLanes s w (l / 16))).1, tail := 0 }

theorem exec_vred_arg (hty : w.ty ≤ 10) (hmd : w.md % 16 = 5 ∨ w.md % 16 = 6) :
    exec (.vred w) s = .next (landVFl s w.d 2 ((acting s w).map fun l => (l, choiceLane s w l))
      ((acting s w).foldl (fun a l => flagOr a (argChoice s w (tyBits w.ty) (clusterLanes s w (l / 16))).2) 0)) := by
  show execVred w s = _
  unfold execVred
  simp only [tyWidth_eq_tyBits hty, if_pos hmd, filter_acting]
  simp only [ite_isEmpty_map]
  rw [flatMap_clusterLanes_map (fun c l => (l, ({ data := BitVec.ofNat 32 (argChoice s w (tyBits w.ty) (clusterLanes s w c)).1, tail := 0 } : Lane),
    (argChoice s w (tyBits w.ty) (clusterLanes s w c)).2))]
  simp only [List.foldl_map, List.map_map, Function.comp_def, choiceLane]

theorem choiceLane_spec (hty : w.ty ≤ 5 ∨ (fmtOf w.ty).isSome) {l : Nat} (hl : On s w l) :
    IsFirstChoice s w (clusterLanes s w (l / 16)) (choiceLane s w l).data.toNat := by
  obtain ⟨-, hchoice⟩ := argChoice_spec (s := s) hty (clusterLanes_ne_nil hl) (clusterLanes_pairwise s w (l / 16))
  obtain ⟨j, hj, k, hk, he, -⟩ := id hchoice
  have hj128 := On.lt (mem_clusterLanes.1 hj).1
  have hle : 32 / tyBits w.ty ≤ 4 := by obtain h | h | h := isWidth_tyBits w.ty <;> rw [h] <;> decide
  have hmul : j * (32 / tyBits w.ty) ≤ 128 * 4 := Nat.mul_le_mul hj128.le hle
  have hlt : (argChoice s w (tyBits w.ty) (clusterLanes s w (l / 16))).1 < 2 ^ 32 := by omega
  rwa [choiceLane, BitVec.toNat_ofNat, Nat.mod_eq_of_lt hlt]

/-! ## Integers -/

variable (hty : w.ty ≤ 5)
include hty

theorem argRank_int (k j : Nat) : argRank w (rowElem s w k j)
    = ((if w.md % 16 = 6 then -eltIntAt w.ty k (vlane s w.a j) else eltIntAt w.ty k (vlane s w.a j) : Int) : WithBot Int) := by
  rw [argRank, fmtOf_of_le hty, rowElem_int hty, bitsInt_rowBits]

theorem putsV_vred_arg {P : Nat → Lane → Prop} (hmd : w.md % 16 = 5 ∨ w.md % 16 = 6)
    (hP : ∀ l, IsFirstChoice s w (clusterLanes s w (l / 16)) (choiceLane s w l).data.toNat → P l (choiceLane s w l)) : PutsV (.vred w) s w 2 P := by
  have hflag : (acting s w).foldl (fun a l => flagOr a (argChoice s w (tyBits w.ty) (clusterLanes s w (l / 16))).2) 0 = 0 := by
    refine Nat.eq_of_testBit_eq fun b => ?_
    rw [Nat.zero_testBit, Bool.eq_false_iff, ne_eq, testBit_foldl_flagOr, Nat.zero_testBit]
    rintro (h | ⟨l, hl, h⟩)
    · cases h
    · rw [(argChoice_spec (.inl hty) (clusterLanes_ne_nil (mem_acting.1 hl)) (clusterLanes_pairwise s w (l / 16))).1, argFlag, fmtOf_of_le hty,
        Nat.zero_testBit] at h
      cases h
  refine ⟨_, fills_acting fun l hl => hP l (choiceLane_spec (.inl hty) hl), ?_⟩
  rw [exec_vred_arg (by omega) hmd, hflag, landVFl, note_zero]

/-- The index of the least. -/
theorem least_of_isFirstChoice (hmd : w.md % 16 = 5) {ls : List Nat} {n : Nat} (h : IsFirstChoice s w ls n) :
    ∃ j ∈ ls, ∃ k < 32 / tyBits w.ty, n = j * (32 / tyBits w.ty) + k
      ∧ ∀ j' ∈ ls, ∀ k' < 32 / tyBits w.ty, eltIntAt w.ty k (vlane s w.a j) ≤ eltIntAt w.ty k' (vlane s w.a j')
        ∧ (eltIntAt w.ty k' (vlane s w.a j') = eltIntAt w.ty k (vlane s w.a j) → j * (32 / tyBits w.ty) + k ≤ j' * (32 / tyBits w.ty) + k') := by
  simpa [IsFirstChoice, argRank_int hty, hmd] using h

/-- The index of the greatest. -/
theorem greatest_of_isFirstChoice (hmd : w.md % 16 = 6) {ls : List Nat} {n : Nat} (h : IsFirstChoice s w ls n) :
    ∃ j ∈ ls, ∃ k < 32 / tyBits w.ty, n = j * (32 / tyBits w.ty) + k
      ∧ ∀ j' ∈ ls, ∀ k' < 32 / tyBits w.ty, eltIntAt w.ty k' (vlane s w.a j') ≤ eltIntAt w.ty k (vlane s w.a j)
        ∧ (eltIntAt w.ty k' (vlane s w.a j') = eltIntAt w.ty k (vlane s w.a j) → j * (32 / tyBits w.ty) + k ≤ j' * (32 / tyBits w.ty) + k') := by
  simpa [IsFirstChoice, argRank_int hty, hmd] using h

end

end Sys2Proof.Machine

/-! # Reductions and scans of floating values (R70, R71, R150 to R152) -/

namespace Sys2Proof.Machine
open Claim

/-! ## The extreme of several values (R70) -/

section
variable {f : Fmt} {isMax number : Bool} {a b c : Held}

/-- The order of the keys, from above for a maximum. -/
def Leads (f : Fmt) (isMax : Bool) (a b : Held) : Prop := if isMax then b.key f ≤ a.key f else a.key f ≤ b.key f

theorem Leads.refl (f : Fmt) (isMax : Bool) (a : Held) : Leads f isMax a a := by
  unfold Leads
  split <;> exact le_rfl

theorem Leads.trans (h : Leads f isMax a b) (h' : Leads f isMax b c) : Leads f isMax a c := by
  unfold Leads at *
  split <;> simp_all <;> omega

/-- Of two numbers the leading one is chosen. -/
theorem fpMinMax_of_numbers (ha : f.isNan a.body = false) (hb : f.isNan b.body = false) :
    ∃ c, fpMinMax f isMax number a b = (c, 0) ∧ (c = a ∧ Leads f isMax a b ∨ c = b ∧ Leads f isMax b a) := by
  have hnone : (f.isNan a.body || f.isNan b.body) = false := by rw [ha, hb]; rfl
  refine ⟨if (if isMax then b.key f < a.key f else a.key f < b.key f) then a else b, ?_, ?_⟩
  · unfold fpMinMax
    simp only [hnone, Bool.false_eq_true, if_false]
  · unfold Leads
    cases isMax <;> simp only [Bool.false_eq_true, if_false, if_true] <;> split <;> simp <;> omega

/-- The flag of a choice says whether an operand is a signalling NaN. -/
theorem fpMinMax_flag (a b : Held) : (fpMinMax f isMax number a b).2 = if f.isSnan a.body || f.isSnan b.body then fNV else 0 := by
  by_cases hn : (f.isNan a.body || f.isNan b.body) = true
  · unfold fpMinMax
    simp only [hn, if_true]
    split <;> rfl
  · have hns : (f.isSnan a.body || f.isSnan b.body) = false := by
      rw [Bool.eq_false_iff, ne_eq, Bool.or_eq_true]
      exact fun h => hn (Bool.or_eq_true _ _ ▸ h.imp isNan_of_isSnan isNan_of_isSnan)
    unfold fpMinMax
    simp only [hn, hns]
    rfl

/-- The value and the flags of the extreme of a list of values, in whatever tree it is formed. -/
structure IsExtreme (f : Fmt) (isMax number : Bool) (l : List Held) (c : Held) (fl : Nat) : Prop where
  fits : Fits f c
  nan : f.isNan c.body = true ↔ if number then ∀ h ∈ l, f.isNan h.body = true else ∃ h ∈ l, f.isNan h.body = true
  leads : f.isNan c.body = false → c ∈ l ∧ ∀ h ∈ l, f.isNan h.body = false → Leads f isMax c h
  alone : l = [c] ∨ 1 < l.length ∧ f.isSnan c.body = false ∧ (f.isNan c.body = true → c = ⟨f.canonNan, 0⟩)
  flag : fl = if 1 < l.length ∧ (l.any fun h => f.isSnan h.body) = true then fNV else 0

theorem isExtreme_single (hc : Fits f c) : IsExtreme f isMax number [c] c 0 where
  fits := hc
  nan := by cases number <;> simp
  leads _ := ⟨List.mem_singleton_self c, fun h hh _ => by rw [List.mem_singleton.1 hh]; exact Leads.refl f isMax c⟩
  alone := .inl rfl
  flag := by simp

/-- What is answered where an operand is a NaN. -/
theorem fpMinMax_of_isNan (h : (f.isNan a.body || f.isNan b.body) = true) :
    (fpMinMax f isMax number a b).1
      = if number && !(f.isNan a.body && f.isNan b.body) then (if f.isNan a.body then b else a) else ⟨f.canonNan, 0⟩ := by
  unfold fpMinMax
  simp only [h, if_true]
  split <;> rfl

/-- Only the canonical NaN comes out of a choice. -/
theorem fpMinMax_eq_canonNan (h : f.isNan (fpMinMax f isMax number a b).1.body = true) : (fpMinMax f isMax number a b).1 = ⟨f.canonNan, 0⟩ := by
  cases ha : f.isNan a.body <;> cases hb : f.isNan b.body
  · obtain ⟨c, hc, ⟨rfl, -⟩ | ⟨rfl, -⟩⟩ := fpMinMax_of_numbers (isMax := isMax) (number := number) ha hb <;> simp [hc, ha, hb] at h
  all_goals
    rw [fpMinMax_of_isNan (by simp [ha, hb])] at h ⊢
    cases number <;> simp_all

theorem isNan_canonNan (hf : f ≠ .e2m1) : f.isNan f.canonNan = true ∧ f.isSnan f.canonNan = false := by
  cases f
  case e2m1 => exact absurd rfl hf
  all_goals decide

theorem isNan_fpMinMax (hf : f ≠ .e2m1) : f.isNan (fpMinMax f isMax number a b).1.body = true ↔
    if number then f.isNan a.body = true ∧ f.isNan b.body = true else f.isNan a.body = true ∨ f.isNan b.body = true := by
  cases ha : f.isNan a.body <;> cases hb : f.isNan b.body
  · obtain ⟨c, hc, ⟨rfl, -⟩ | ⟨rfl, -⟩⟩ := fpMinMax_of_numbers (isMax := isMax) (number := number) ha hb <;> simp [hc, ha, hb]
  all_goals
    rw [fpMinMax_of_isNan (by simp [ha, hb])]
    cases number <;> simp [ha, hb, (isNan_canonNan hf).1]

theorem IsExtreme.length_pos {l : List Held} {x : Nat} (h : IsExtreme f isMax number l a x) : 0 < l.length := by
  obtain rfl | ⟨h, -⟩ := h.alone
  · exact Nat.one_pos
  · omega

/-- The signalling NaNs of a list are noted already or stand at its root. -/
theorem IsExtreme.any_isSnan {l : List Held} {x : Nat} (h : IsExtreme f isMax number l a x) :
    flagOr (if f.isSnan a.body = true then fNV else 0) x = if (l.any fun h => f.isSnan h.body) = true then fNV else 0 := by
  rw [h.flag]
  obtain rfl | ⟨hlen, hs, -⟩ := h.alone
  · simp [flagOr]
  · simp [hs, hlen, flagOr]

/-- The extremes of two lists combine to that of both. -/
theorem IsExtreme.join (hf : f ≠ .e2m1) {l₁ l₂ : List Held} {x y : Nat} (ha : IsExtreme f isMax number l₁ a x)
    (hb : IsExtreme f isMax number l₂ b y) :
    IsExtreme f isMax number (l₁ ++ l₂) (fpMinMax f isMax number a b).1 (flagOr (fpMinMax f isMax number a b).2 (flagOr x y)) where
  fits := fits_fpMinMax ha.fits hb.fits isMax number
  nan := by
    rw [isNan_fpMinMax hf, ha.nan, hb.nan]
    cases number <;> simp [or_imp, forall_and, or_and_right, exists_or]
  leads hc := by
    cases hna : f.isNan a.body <;> cases hnb : f.isNan b.body
    · obtain ⟨hma, hla⟩ := ha.leads hna
      obtain ⟨hmb, hlb⟩ := hb.leads hnb
      obtain ⟨c, hc, ⟨rfl, hlead⟩ | ⟨rfl, hlead⟩⟩ := fpMinMax_of_numbers (isMax := isMax) (number := number) hna hnb <;> rw [hc]
      · exact ⟨List.mem_append_left _ hma, fun h hh hn => (List.mem_append.1 hh).elim (hla h · hn) fun hh => hlead.trans (hlb h hh hn)⟩
      · exact ⟨List.mem_append_right _ hmb, fun h hh hn => (List.mem_append.1 hh).elim (fun hh => hlead.trans (hla h hh hn)) (hlb h · hn)⟩
    all_goals
      rw [fpMinMax_of_isNan (by simp [hna, hnb])] at hc ⊢
      cases number <;> simp [hna, hnb, (isNan_canonNan hf).1] at hc ⊢
    · obtain ⟨hma, hla⟩ := ha.leads hna
      exact ⟨.inl hma, fun h hh hn => hh.elim (hla h · hn) fun hh => by simp [hb.nan.1 hnb h hh] at hn⟩
    · obtain ⟨hmb, hlb⟩ := hb.leads hnb
      exact ⟨.inr hmb, fun h hh hn => hh.elim (fun hh => by simp [ha.nan.1 hna h hh] at hn) (hlb h · hn)⟩
  alone := by
    have h1 := ha.length_pos
    have h2 := hb.length_pos
    refine .inr ⟨by rw [List.length_append]; omega, Bool.eq_false_iff.2 fun hs => ?_, fpMinMax_eq_canonNan⟩
    rw [fpMinMax_eq_canonNan (isNan_of_isSnan hs), (isNan_canonNan hf).2] at hs
    cases hs
  flag := by
    have h1 := ha.length_pos
    have h2 := hb.length_pos
    have hx := ha.any_isSnan
    have hy := hb.any_isSnan
    have hor (p q : Bool) : (if (p || q) = true then fNV else 0) = flagOr (if p = true then fNV else 0) (if q = true then fNV else 0) := by
      cases p <;> cases q <;> rfl
    have hlen : 1 < (l₁ ++ l₂).length := by rw [List.length_append]; omega
    simp only [hlen, true_and, List.any_append, fpMinMax_flag, hor, ← hx, ← hy]
    simp only [flagOr]
    ac_rfl

/-- The order of the keys is that of the values. -/
theorem order_of_leads (ha : Fits f a) (hb : Fits f b) (hna : f.isNan a.body = false) (hnb : f.isNan b.body = false) (hma : Made f a)
    (hmb : Made f b) (h : Leads f isMax a b) :
    let lo := if isMax then b.val f else a.val f
    let hi := if isMax then a.val f else b.val f
    ¬ Below hi lo ∧ (isNegative hi = true → isNegative lo = true) := by
  have hs : ¬ someNan (a.val f) (b.val f) := by simp [someNan_val_iff, hna, hnb]
  cases isMax
  · exact order_of_key_le ha hb hs hma hmb h
  · exact order_of_key_le hb ha (hs ∘ Or.symm) hmb hma h

theorem chosenOf_of_isExtreme {l : List Held} {x : Nat} (hl : ∀ h ∈ l, Fits f h) (h : IsExtreme f isMax number l c x) :
    ChosenOf f isMax number l c := by
  refine ⟨fun hlen => ?_, fun hlen hnan => ?_, fun hnum hmade => ?_⟩
  · obtain rfl | ⟨hlen', -⟩ := h.alone
    · exact List.mem_singleton_self c
    · omega
  · obtain rfl | ⟨-, -, hcanon⟩ := h.alone
    · exact absurd hlen (lt_irrefl 1)
    · refine hcanon (h.nan.2 ?_)
      cases number <;> simpa using hnan
  · have hc : f.isNan c.body = false := by
      rw [Bool.eq_false_iff, ne_eq, h.nan]
      cases number <;> simpa using hnum
    obtain ⟨hmem, hleads⟩ := h.leads hc
    refine ⟨hmem, hc, fun x hx hn => ?_⟩
    obtain ⟨hbelow, hneg⟩ := order_of_leads (hl c hmem) (hl x hx) hc hn (hmade c hmem) (hmade x hx) (hleads x hx hn)
    exact ⟨hbelow, fun _ => hneg⟩

end

/-! ## The rows -/

section
variable {s : State} {w : VWord} {f : Fmt} (hf : fmtOf w.ty = some f) (h10 : w.ty ≤ 10)
include hf h10

theorem rowElem_float (k l : Nat) : rowElem s w k l = eltHeldAt f k (vlane s w.a l) := by
  rw [rowElem, elemOf, hf, tyBits_of_fmtOf hf h10, ← elemHeld_eq_eltHeldAt]
  rfl

theorem fits_rowElem (k l : Nat) : Fits f (rowElem s w k l) := by
  rw [rowElem_float hf h10]
  exact fits_eltHeldAt _ _ _

omit h10 in
theorem rowWrite_float (h : Held) (x : Nat) : rowWrite s w h x = ((writeHeld s.cur.cvp f h).1, flagOr x (writeHeld s.cur.cvp f h).2) := by
  simp only [rowWrite, redWrite, hf]

omit h10 in
theorem fits_rowWrite {h : Held} (hh : Fits f h) (x : Nat) : Fits f (rowWrite s w h x).1 := by
  rw [rowWrite_float hf]
  exact fits_writeHeld _ hh

omit h10 in
theorem rowStep_sum (hmd : w.md % 16 = 0) (a b : Held) :
    let r := fpAdd s.cur.cvp.mode (a.val f) (b.val f)
    rowStep s w a b = ((writeFp s.cur.cvp f r.1).1, flagOr r.2 (writeFp s.cur.cvp f r.1).2) := by
  simp only [rowStep, redStep, hf, hmd, if_true]

omit h10 in
theorem rowStep_choice (hlo : 1 ≤ w.md % 16) (hhi : w.md % 16 ≤ 4) (a b : Held) :
    rowStep s w a b = fpMinMax f (decide (w.md % 16 % 2 = 0)) (decide (3 ≤ w.md % 16)) a b := by
  have hne : w.md % 16 ≠ 0 := by omega
  have hmax : (decide (w.md % 16 = 2) || decide (w.md % 16 = 4)) = decide (w.md % 16 % 2 = 0) := by
    rw [← Bool.decide_or]
    exact decide_eq_decide.2 (by omega)
  have hnum : (decide (w.md % 16 = 3) || decide (w.md % 16 = 4)) = decide (3 ≤ w.md % 16) := by
    rw [← Bool.decide_or]
    exact decide_eq_decide.2 (by omega)
  simp only [rowStep, redStep, hf, if_neg hne, hmax, hnum]

/-! ### Sums (R151, R152) -/

theorem folds_sum (hmd : w.md % 16 = 0) (k : Nat) : Folds (rowStep s w) (rowElem s w k) fun _ h _ => Fits f h where
  single j := fits_rowElem hf h10 k j
  join _ _ a b _ _ _ _ := by
    rw [rowStep_sum hf hmd]
    exact fits_writeFp _ _ _

/-- The running sum is that of R152. -/
theorem runBefore_sum (hmd : w.md % 16 = 0) (l k : Nat) :
    runBefore s w l k = runSum s.cur.cvp f (((clusterLanes s w (l / 16)).filter (· < l)).map fun j => eltHeldAt f k (vlane s w.a j)) := by
  have hrun (l : List Held) (y : Held) : runOf (rowStep s w) (some y) l
      = some (l.foldl (fun y z => (writeFp s.cur.cvp f (fpAdd s.cur.cvp.mode (y.val f) (z.val f)).1).1) y) := by
    induction l generalizing y with
    | nil => rfl
    | cons x r ih =>
      have hstep : takeIn (rowStep s w) (some y) x = rowStep s w y x := rfl
      rw [List.foldl_cons, ← ih, runOf, List.foldl_cons, hstep, rowStep_sum hf hmd]
      rfl
  have helem : rowElem s w k = fun j => eltHeldAt f k (vlane s w.a j) := funext (rowElem_float hf h10 k)
  rw [runBefore, helem]
  cases ((clusterLanes s w (l / 16)).filter (· < l)).map fun j => eltHeldAt f k (vlane s w.a j) with
  | nil => rfl
  | cons x r => exact hrun r x

/-! ### Extremes -/

theorem folds_extreme (hlo : 1 ≤ w.md % 16) (hhi : w.md % 16 ≤ 4) (k : Nat) : Folds (rowStep s w) (rowElem s w k) fun l h x =>
    IsExtreme f (decide (w.md % 16 % 2 = 0)) (decide (3 ≤ w.md % 16)) (l.map fun j => eltHeldAt f k (vlane s w.a j)) h x where
  single j := by
    rw [rowElem_float hf h10]
    exact isExtreme_single (fits_eltHeldAt _ _ _)
  join l₁ l₂ a b x y ha hb := by
    rw [rowStep_choice hf hlo hhi, List.map_append]
    exact ha.join (ne_e2m1_of_fmtOf hf h10) hb

/-! ### What the rows answer -/

theorem exec_vred_float (hmd : ¬ (w.md % 16 = 5 ∨ w.md % 16 = 6)) :
    exec (.vred w) s = perLaneFl s w 2 f.width fun l k => redElem s w (l / 16) k := by
  rw [exec_vred_eq h10 hmd, tyBits_of_fmtOf hf h10]

theorem exec_vscan_float : exec (.vscan w) s = perLaneFl s w 2 f.width (scanElem s w) := by
  rw [exec_vscan_eq h10, tyBits_of_fmtOf hf h10]

theorem redElem_sum (hmd : w.md % 16 = 0) (c k : Nat) {h : Held}
    (hsum : sumTree s.cur.cvp f (fun i => if 16 * c + i ∈ clusterLanes s w c then some (eltHeldAt f k (vlane s w.a (16 * c + i))) else none) 4 0
      = some h) : (redElem s w c k).1 = (writeHeld s.cur.cvp f h).1 := by
  have htree := sumTree_eq_treeOf (p := s.cur.cvp) (f := f) (st := rowStep s w)
    (fun j => if (clusterLanes s w c).contains j then some (rowElem s w k j) else none)
    (fun a b => by rw [rowStep_sum hf hmd]) 4 0 (16 * c)
  simp only [List.contains_iff_mem, rowElem_float hf h10, Nat.add_zero] at htree
  rw [htree] at hsum
  simp only [redElem, rowWrite_float hf, List.contains_iff_mem, rowElem_float hf h10, hsum, Option.getD_some]

theorem vred_sum (hmd : w.md % 16 = 0) : ∃ ls fl, exec (.vred w) s = .next (landV (note s fl) w.d 2 ls fl)
    ∧ Fills s w ls fun l x => ∀ k < 32 / f.width, eltHeldAt f k x = (redElem s w (l / 16) k).1 := by
  obtain ⟨fl, he, -⟩ := perLaneFl_spec s w 2 f.width fun l k => redElem s w (l / 16) k
  refine ⟨_, fl, (exec_vred_float hf h10 (by omega)).trans he, fills_lanesOf (isWidth_of_fmtOf hf h10) fun l k hl _ => ?_⟩
  obtain ⟨h, x, hfit, he⟩ := redElem_spec (folds_sum hf h10 hmd k) (clusterLanes_ne_nil hl)
  rw [he]
  exact fits_rowWrite hf hfit x

omit hf h10 in
theorem fits_of_mem_map (k : Nat) (l : List Nat) : ∀ a ∈ l.map fun j => eltHeldAt f k (vlane s w.a j), Fits f a := fun a ha => by
  obtain ⟨j, -, rfl⟩ := List.mem_map.1 ha
  exact fits_eltHeldAt _ _ _

theorem putsVH_vred_extreme (hlo : 1 ≤ w.md % 16) (hhi : w.md % 16 ≤ 4) : PutsVH (.vred w) s w 2 f fun l k r =>
    ∃ c, ChosenOf f (decide (w.md % 16 % 2 = 0)) (decide (3 ≤ w.md % 16))
        ((clusterLanes s w (l / 16)).map fun j => eltHeldAt f k (vlane s w.a j)) c
      ∧ r = ((writeHeld s.cur.cvp f c).1, flagOr
        (if 1 < ((clusterLanes s w (l / 16)).map fun j => eltHeldAt f k (vlane s w.a j)).length
          ∧ (((clusterLanes s w (l / 16)).map fun j => eltHeldAt f k (vlane s w.a j)).any fun h => f.isSnan h.body) = true then fNV else 0)
        (writeHeld s.cur.cvp f c).2) := by
  have hspec (l k : Nat) (hl : On s w l) := redElem_spec (folds_extreme hf h10 hlo hhi k) (clusterLanes_ne_nil hl)
  refine putsVH_perLaneFl (isWidth_of_fmtOf hf h10) (exec_vred_float hf h10 (by omega)) (fun l k hl _ => ?_) fun l k hl _ => ?_
  · obtain ⟨h, x, hext, he⟩ := hspec l k hl
    rw [he]
    exact fits_rowWrite hf hext.fits x
  · obtain ⟨h, x, hext, he⟩ := hspec l k hl
    exact ⟨h, chosenOf_of_isExtreme (fits_of_mem_map k _) hext, by rw [he, rowWrite_float hf, ← hext.flag]⟩

theorem putsVH_vscan_extreme (hlo : 1 ≤ w.md % 16) (hhi : w.md % 16 ≤ 4) (hincl : w.md / 16 ≠ 1) : PutsVH (.vscan w) s w 2 f fun l k r =>
    ∃ c, ChosenOf f (decide (w.md % 16 % 2 = 0)) (decide (3 ≤ w.md % 16))
        (((clusterLanes s w (l / 16)).filter (· ≤ l)).map fun j => eltHeldAt f k (vlane s w.a j)) c
      ∧ r.1 = (writeHeld s.cur.cvp f c).1 := by
  have hspec (l k : Nat) (hl : On s w l) : ∃ h x fl, scanElem s w l k = rowWrite s w h fl
      ∧ IsExtreme f (decide (w.md % 16 % 2 = 0)) (decide (3 ≤ w.md % 16))
        (((clusterLanes s w (l / 16)).filter (· ≤ l)).map fun j => eltHeldAt f k (vlane s w.a j)) h x := by
    obtain ⟨x, hext⟩ := takeIn_of_folds (folds_extreme hf h10 hlo hhi k) ((clusterLanes s w (l / 16)).filter (· < l)) l
    rw [filter_le_eq hl]
    exact ⟨_, x, _, by rw [scanElem, if_neg hincl]; rfl, hext⟩
  refine putsVH_perLaneFl (isWidth_of_fmtOf hf h10) (exec_vscan_float hf h10) (fun l k hl _ => ?_) fun l k hl _ => ?_
  · obtain ⟨h, x, fl, he, hext⟩ := hspec l k hl
    rw [he]
    exact fits_rowWrite hf hext.fits fl
  · obtain ⟨h, x, fl, he, hext⟩ := hspec l k hl
    exact ⟨h, chosenOf_of_isExtreme (fits_of_mem_map k _) hext, by rw [he, rowWrite_float hf]⟩

theorem fits_runBefore_getD (hmd : w.md % 16 = 0) (l k : Nat) : Fits f ((runBefore s w l k).getD ⟨0, 0⟩) := by
  obtain ⟨-, h⟩ | ⟨h, x, he, hfit⟩ := runOf_of_folds (folds_sum hf h10 hmd k) ((clusterLanes s w (l / 16)).filter (· < l))
  · rw [runBefore, h]
    exact ⟨Nat.two_pow_pos _, four_pos⟩
  · rw [runBefore, he]
    exact hfit

theorem putsVH_vscan_sum (hmd : w.md = 0) : PutsVH (.vscan w) s w 2 f fun l k r =>
    match runSum s.cur.cvp f (((clusterLanes s w (l / 16)).filter (· < l)).map fun j => eltHeldAt f k (vlane s w.a j)) with
    | none => r = writeHeld s.cur.cvp f (eltHeldAt f k (vlane s w.a l))
    | some y =>
      let a := fpAdd s.cur.cvp.mode (y.val f) ((eltHeldAt f k (vlane s w.a l)).val f)
      let b := writeFp s.cur.cvp f a.1
      r = ((writeHeld s.cur.cvp f b.1).1, flagOr (flagOr a.2 b.2) (writeHeld s.cur.cvp f b.1).2) := by
  have hincl : w.md / 16 ≠ 1 := by omega
  refine putsVH_perLaneFl (isWidth_of_fmtOf hf h10) (exec_vscan_float hf h10) (fun l k _ _ => ?_) fun l k _ _ => ?_
  · obtain ⟨x, hfit⟩ := takeIn_of_folds (folds_sum hf h10 (by omega) k) ((clusterLanes s w (l / 16)).filter (· < l)) l
    rw [scanElem, if_neg hincl]
    exact fits_rowWrite hf hfit _
  · rw [scanElem, if_neg hincl, rowWrite_float hf, runBefore_sum hf h10 (by omega), rowElem_float hf h10]
    cases runSum s.cur.cvp f (((clusterLanes s w (l / 16)).filter (· < l)).map fun j => eltHeldAt f k (vlane s w.a j)) with
    | none => simp [takeIn, flagOr]
    | some y => simp only [takeIn, rowStep_sum hf (show w.md % 16 = 0 by omega)]

theorem putsVH_vscan_exclusive_sum (hmd : w.md = 16) : PutsVH (.vscan w) s w 2 f fun l k r => r.1 = (writeHeld s.cur.cvp f
    ((runSum s.cur.cvp f (((clusterLanes s w (l / 16)).filter (· < l)).map fun j => eltHeldAt f k (vlane s w.a j))).getD ⟨0, 0⟩)).1 := by
  have hexcl : w.md / 16 = 1 := by omega
  refine putsVH_perLaneFl (isWidth_of_fmtOf hf h10) (exec_vscan_float hf h10) (fun l k _ _ => ?_) fun l k _ _ => ?_
  · rw [scanElem, if_pos hexcl]
    exact fits_rowWrite hf (fits_runBefore_getD hf h10 (by omega) l k) _
  · rw [scanElem, if_pos hexcl, rowWrite_float hf, runBefore_sum hf h10 (by omega)]

end

end Sys2Proof.Machine

/-! # All reductions and scans -/

namespace Sys2Proof.Machine
open Claim

/-! ## Indexes of floating extremes (R71) -/

section
variable {s : State} {w : VWord} {f : Fmt} (hf : fmtOf w.ty = some f) (h10 : w.ty ≤ 10)
include hf h10

theorem argRank_nan {k j : Nat} (h : f.isNan (eltHeldAt f k (vlane s w.a j)).body = true) : argRank w (rowElem s w k j) = ⊥ := by
  simp only [argRank, hf, rowElem_float hf h10, h, if_true]

theorem argRank_number {k j : Nat} (h : f.isNan (eltHeldAt f k (vlane s w.a j)).body = false) : argRank w (rowElem s w k j)
    = ((if w.md % 16 = 6 then -(eltHeldAt f k (vlane s w.a j)).key f else (eltHeldAt f k (vlane s w.a j)).key f : Int) : WithBot Int) := by
  simp only [argRank, hf, rowElem_float hf h10, h, Bool.false_eq_true, if_false]

/-- The flag is raised where an element of the cluster is a signalling NaN. -/
theorem argFlag_float (ls : List Nat) : argFlag s w ls = fNV ∧ (∃ j ∈ ls, ∃ k < 32 / f.width, f.isSnan (eltHeldAt f k (vlane s w.a j)).body = true)
    ∨ argFlag s w ls = 0 ∧ ∀ j ∈ ls, ∀ k < 32 / f.width, f.isSnan (eltHeldAt f k (vlane s w.a j)).body = false := by
  have hany : (indexed s w ls).any (fun e => f.isSnan e.2.body) = true
      ↔ ∃ j ∈ ls, ∃ k < 32 / f.width, f.isSnan (eltHeldAt f k (vlane s w.a j)).body = true := by
    rw [List.any_eq_true, ← tyBits_of_fmtOf hf h10]
    constructor
    · rintro ⟨e, he, hs⟩
      obtain ⟨j, hj, k, hk, rfl⟩ := mem_indexed.1 he
      rw [rowElem_float hf h10] at hs
      exact ⟨j, hj, k, hk, hs⟩
    · rintro ⟨j, hj, k, hk, hs⟩
      refine ⟨_, mem_indexed.2 ⟨j, hj, k, hk, rfl⟩, ?_⟩
      rwa [rowElem_float hf h10]
  simp only [argFlag, hf]
  split
  next h => exact .inl ⟨rfl, hany.1 h⟩
  next h =>
    rw [hany] at h
    push Not at h
    exact .inr ⟨rfl, fun j hj k hk => Bool.eq_false_iff.2 (h j hj k hk)⟩

omit hf h10 in
/-- Flags that are each one mark or none. -/
theorem foldl_flagOr_of_mark {α : Type} (l : List α) (g : α → Nat) (c : Nat) (hg : ∀ x, g x = c ∨ g x = 0) :
    (∃ x ∈ l, g x = c) ∧ l.foldl (fun a x => flagOr a (g x)) 0 = c
      ∨ (∀ x ∈ l, g x = 0) ∧ l.foldl (fun a x => flagOr a (g x)) 0 = 0 := by
  induction l using List.reverseRecOn with
  | nil => simp
  | append_singleton l x ih =>
    rw [List.foldl_append, List.foldl_cons, List.foldl_nil]
    obtain ⟨⟨y, hy, hc⟩, h⟩ | ⟨hz, h⟩ := ih
    · refine .inl ⟨⟨y, List.mem_append_left _ hy, hc⟩, ?_⟩
      obtain hx | hx := hg x <;> rw [h, hx] <;> simp [flagOr]
    · obtain hx | hx := hg x
      · exact .inl ⟨⟨x, List.mem_append_right _ (List.mem_singleton_self x), hx⟩, by rw [h, hx]; simp [flagOr]⟩
      · refine .inr ⟨fun y hy => ?_, by rw [h, hx]; rfl⟩
        obtain hy | hy := List.mem_append.1 hy
        · exact hz y hy
        · rw [List.mem_singleton.1 hy, hx]

omit hf h10 in
/-- Values in the order of their keys; where they are the same, of one sign, their keys are equal. -/
theorem ordered_of_key_le {a b : Held} {p : Prop} (ha : Fits f a) (hb : Fits f b) (hna : f.isNan a.body = false) (hnb : f.isNan b.body = false)
    (hma : Made f a) (hmb : Made f b) (h : a.key f ≤ b.key f) (hp : a.key f = b.key f → p) :
    ¬ Below (b.val f) (a.val f) ∧ (Same (a.val f) (b.val f) → isNegative (b.val f) = true → isNegative (a.val f) = true)
      ∧ (Same (a.val f) (b.val f) → isNegative (b.val f) = isNegative (a.val f) → p) := by
  have hs : ¬ someNan (a.val f) (b.val f) := by simp [someNan_val_iff, hna, hnb]
  obtain ⟨hbelow, hneg⟩ := order_of_key_le ha hb hs hma hmb h
  refine ⟨hbelow, fun _ => hneg, fun hsame hsign => hp ?_⟩
  rw [same_iff_not_below hs, below_iff ha hb hna hnb hma hmb, below_iff hb ha hnb hna hmb hma] at hsame
  rw [isNegative_val hna, isNegative_val hnb] at hsign
  have hnum : a.num f = b.num f := by omega
  unfold Held.num at hnum
  unfold Held.key
  rw [hsign] at hnum ⊢
  split at hnum <;> simp_all

/-- The first of the leading elements, NaNs ahead of numbers (R71). -/
theorem first_of_isFirstChoice (hmd : w.md = 5 ∨ w.md = 6) {ls : List Nat} {n : Nat} (h : IsFirstChoice s w ls n) :
    let A := fun l k => eltHeldAt f k (vlane s w.a l)
    ∃ j ∈ ls, ∃ k < 32 / f.width, n = j * (32 / f.width) + k ∧ ∀ j' ∈ ls, ∀ k' < 32 / f.width,
      (f.isNan (A j' k').body = true → f.isNan (A j k).body = true ∧ j * (32 / f.width) + k ≤ j' * (32 / f.width) + k')
      ∧ ((∀ i ∈ ls, ∀ m < 32 / f.width, f.isNan (A i m).body = false ∧ Made f (A i m)) →
          let lo := ((if w.md = 5 then A j k else A j' k').val f)
          let hi := ((if w.md = 5 then A j' k' else A j k).val f)
          ¬ Below hi lo ∧ (Same lo hi → isNegative hi = true → isNegative lo = true)
          ∧ (Same lo hi → isNegative hi = isNegative lo → j * (32 / f.width) + k ≤ j' * (32 / f.width) + k')) := by
  intro A
  rw [IsFirstChoice, tyBits_of_fmtOf hf h10] at h
  obtain ⟨j, hj, k, hk, rfl, hfirst⟩ := h
  refine ⟨j, hj, k, hk, rfl, fun j' hj' k' hk' => ?_⟩
  obtain ⟨hle, htie⟩ := hfirst j' hj' k' hk'
  refine ⟨fun hnan => ?_, fun hnum => ?_⟩
  · rw [argRank_nan hf h10 hnan] at hle htie
    have hbot := le_bot_iff.1 hle
    refine ⟨?_, htie hbot.symm⟩
    by_contra hn
    rw [argRank_number hf h10 (Bool.eq_false_iff.2 hn)] at hbot
    exact WithBot.coe_ne_bot hbot
  · obtain ⟨hn, hm⟩ := hnum j hj k hk
    obtain ⟨hn', hm'⟩ := hnum j' hj' k' hk'
    have hfit : Fits f (A j k) := fits_eltHeldAt _ _ _
    have hfit' : Fits f (A j' k') := fits_eltHeldAt _ _ _
    rw [argRank_number hf h10 hn, argRank_number hf h10 hn', WithBot.coe_le_coe] at hle
    rw [argRank_number hf h10 hn, argRank_number hf h10 hn', WithBot.coe_inj] at htie
    obtain hmd | hmd := hmd
    · have hne : ¬ w.md % 16 = 6 := by omega
      rw [if_neg hne, if_neg hne] at hle htie
      simp only [if_pos hmd]
      exact ordered_of_key_le hfit hfit' hn hn' hm hm' hle fun h => htie h.symm
    · have h6 : w.md % 16 = 6 := by omega
      have hne : ¬ w.md = 5 := by omega
      rw [if_pos h6, if_pos h6, neg_le_neg_iff] at hle
      rw [if_pos h6, if_pos h6, neg_inj] at htie
      simp only [if_neg hne]
      exact ordered_of_key_le hfit' hfit hn' hn hm' hm hle htie

theorem vred_arg_float (hmd : w.md = 5 ∨ w.md = 6) {P : Nat → Lane → Prop}
    (hP : ∀ l, IsFirstChoice s w (clusterLanes s w (l / 16)) (choiceLane s w l).data.toNat → P l (choiceLane s w l)) :
    ∃ ls fl, exec (.vred w) s = .next (landV (note s fl) w.d 2 ls fl) ∧ (fl = fNV ∨ fl = 0)
      ∧ (fl = fNV ↔ ∃ l k, On s w l ∧ k < 32 / f.width ∧ f.isSnan (eltHeldAt f k (vlane s w.a l)).body = true) ∧ Fills s w ls P := by
  have hty : w.ty ≤ 5 ∨ (fmtOf w.ty).isSome := .inr (by rw [hf]; rfl)
  have hflag (l : Nat) (hl : l ∈ acting s w) :
      (argChoice s w (tyBits w.ty) (clusterLanes s w (l / 16))).2 = argFlag s w (clusterLanes s w (l / 16)) :=
    (argChoice_spec hty (clusterLanes_ne_nil (mem_acting.1 hl)) (clusterLanes_pairwise s w (l / 16))).1
  refine ⟨_, _, exec_vred_arg h10 (by omega), ?_, ?_, fills_acting fun l hl => hP l (choiceLane_spec hty hl)⟩
  all_goals
    rw [List.foldl_ext _ (fun a l => flagOr a (argFlag s w (clusterLanes s w (l / 16)))) 0 fun a l hl => by rw [hflag l hl]]
    obtain ⟨⟨l, hl, hc⟩, h⟩ | ⟨hz, h⟩ := foldl_flagOr_of_mark (acting s w) (fun l => argFlag s w (clusterLanes s w (l / 16))) fNV fun l =>
      (argFlag_float hf h10 (s := s) (clusterLanes s w (l / 16))).imp (·.1) (·.1)
    all_goals rw [h]
  · exact .inl rfl
  · exact .inr rfl
  · refine iff_of_true rfl ?_
    obtain ⟨-, j, hj, k, hk, hs⟩ | ⟨h0, -⟩ := argFlag_float hf h10 (s := s) (clusterLanes s w (l / 16))
    · exact ⟨j, k, (mem_clusterLanes.1 hj).1, hk, hs⟩
    · exact absurd (hc.symm.trans h0) (by decide)
  · refine iff_of_false (by decide) ?_
    rintro ⟨l, k, hl, hk, hs⟩
    obtain ⟨h1, -⟩ | ⟨-, hall⟩ := argFlag_float hf h10 (s := s) (clusterLanes s w (l / 16))
    · exact absurd (h1.symm.trans (hz l (mem_acting.2 hl))) (by decide)
    · rw [hall l (mem_clusterLanes.2 ⟨hl, rfl⟩) k hk] at hs
      cases hs

end

end Sys2Proof.Machine

namespace Sys2Proof.Machine
open Claim

section
variable {s : State} {w : VWord}

/-- A clause of an extreme among integers. -/
theorem putsV_extreme {i : Instr} {L : Nat → List Nat} {P : Int → Int → Prop}
    (h : PutsV i s w 2 fun l r => EachElt w.ty r fun k => (∃ j ∈ L l, eltBitsAt w.ty k r = rowBits s w k j)
      ∧ ∀ j ∈ L l, P (bitsInt w.ty (eltBitsAt w.ty k r)) (bitsInt w.ty (rowBits s w k j))) :
    PutsV i s w 2 fun l r => EachElt w.ty r fun k => (∃ j ∈ L l, eltIntAt w.ty k r = eltIntAt w.ty k (vlane s w.a j))
      ∧ ∀ j ∈ L l, P (eltIntAt w.ty k r) (eltIntAt w.ty k (vlane s w.a j)) :=
  putsV_mono h fun _ _ _ hr => eachElt_mono hr fun _ _ hk => extreme_of_bits hk

end

end Sys2Proof.Machine

namespace Sys2Proof
open Machine Claim

/-- Settles O21: each row is a combination of its cluster's acting lanes, one lane after another or in the tree. -/
theorem vectorReductionsAndScans : Obligations.VectorReductionsAndScans := by
  unfold Obligations.VectorReductionsAndScans
  simp only [clusterLanes_eq]
  refine ⟨fun s w hty => ?_, fun s w f hf h10 hmd => ?_, fun s w f hf h10 => ?_⟩
  · refine ⟨fun hmd => ?_, fun hmd => ?_, fun hmd => ?_, fun hmd => ?_, fun hmd => ?_, fun op hop hmd => ?_, fun hmd => ?_, fun hmd => ?_,
      fun hmd => ?_, fun hmd => ?_, fun op hop => ⟨fun hmd => ?_, fun hmd => ?_⟩⟩
    · exact putsV_vred hty (by omega) (combines_sum hty hmd)
    · exact putsV_extreme (putsV_vred hty (by omega) (combines_min hty hmd))
    · exact putsV_extreme (P := fun x y => y ≤ x) (putsV_vred hty (by omega) (combines_max hty hmd))
    · exact putsV_vred_arg hty (.inl hmd) fun l h => ⟨rfl, least_of_isFirstChoice hty hmd h⟩
    · exact putsV_vred_arg hty (.inr hmd) fun l h => ⟨rfl, greatest_of_isFirstChoice hty hmd h⟩
    · have hne : ¬ (w.md % 16 = 5 ∨ w.md % 16 = 6) := by
        simp only [List.mem_cons, List.not_mem_nil, or_false] at hop
        obtain rfl | rfl | rfl := hop <;> omega
      exact putsV_vred hty hne (combines_of_bitOps hty hop hmd)
    · exact putsV_vscan_inclusive hty (by omega) (combines_sum hty (by omega))
    · refine putsV_mono (putsV_vscan_exclusive hty (by omega) (combines_sum hty (by omega))) fun l r _ h => eachElt_mono h fun k _ hk => ?_
      obtain ⟨hnil, hsome⟩ := hk
      by_cases hb : ((clusterLanes s w (l / 16)).filter (· ≤ l)).filter (· ≠ l) = []
      · rw [hnil hb, hb]
        rfl
      · exact hsome hb
    · exact putsV_extreme (P := fun x y => y ≤ x) (putsV_vscan_inclusive hty (by omega) (combines_max hty (by omega)))
    · exact putsV_extreme (putsV_vscan_inclusive hty (by omega) (combines_min hty (by omega)))
    · have hincl : w.md / 16 ≠ 1 ∧ w.md % 16 = op.1 := by
        simp only [List.mem_cons, List.not_mem_nil, or_false] at hop
        obtain rfl | rfl | rfl := hop <;> omega
      exact putsV_vscan_inclusive hty hincl.1 (combines_of_bitOps hty hop hincl.2)
    · have hexcl : w.md / 16 = 1 ∧ w.md % 16 = op.1 := by
        simp only [List.mem_cons, List.not_mem_nil, or_false] at hop
        obtain rfl | rfl | rfl := hop <;> omega
      refine putsV_mono (putsV_vscan_exclusive hty hexcl.1 (combines_of_bitOps hty hop hexcl.2)) fun l r _ h => eachElt_mono h fun k _ hk => ?_
      obtain ⟨hnil, hsome⟩ := hk
      split
      next hb => exact hnil hb
      next hb => exact hsome hb
  · obtain ⟨ls, fl, he, hfill⟩ := vred_sum hf h10 (s := s) (show w.md % 16 = 0 by omega)
    refine ⟨ls, fl, he, fills_mono hfill fun l x hx k hk h hsum => ?_⟩
    rw [hx k hk]
    refine redElem_sum hf h10 (by omega) _ k ?_
    rw [← hsum]
    refine sumTree_congr fun i _ hi => if_congr ?_ rfl rfl
    have hdiv : (16 * (l / 16) + i) / 16 = l / 16 := by omega
    rw [mem_clusterLanes, On, hdiv, and_iff_left rfl]
  · refine ⟨fun op hlo hhi hmd => ?_, fun hmd => ?_, fun hmd => ?_, fun hmd => ?_⟩
    · subst hmd
      have hmod : w.md % 16 = w.md := by omega
      have hred := putsVH_vred_extreme hf h10 (s := s) (show 1 ≤ w.md % 16 by omega) (by omega)
      have hscan := putsVH_vscan_extreme hf h10 (s := s) (show 1 ≤ w.md % 16 by omega) (by omega) (by omega)
      rw [hmod] at hred hscan
      exact ⟨hred, hscan⟩
    · exact vred_arg_float hf h10 hmd fun l h => ⟨rfl, first_of_isFirstChoice hf h10 hmd h⟩
    · exact putsVH_vscan_sum hf h10 hmd
    · exact putsVH_vscan_exclusive_sum hf h10 hmd

end Sys2Proof

/-! # Random words and block images (R154 to R157) -/

namespace Sys2Proof.Machine
open Claim

/-! ## The generator (R154) -/

/-- Four counter words as the statement counts them. -/
def words (x : Fin 4 → Nat) : Nat × Nat × Nat × Nat := (x 0, x 1, x 2, x 3)

/-- One round, by the recursion itself: the general equation of `philox` is too costly to generate. -/
theorem philox_round (n : Nat) (x : Fin 4 → Nat) (k0 k1 : Nat) :
    philox (n + 1) (words x) k0 k1 = philox n (words (rngRound x k0 k1)) ((k0 + 0x9E3779B9) % 2 ^ 32) ((k1 + 0xBB67AE85) % 2 ^ 32) := by
  delta philox words rngRound
  with_reducible rfl

/-- Rounds from the front are rounds counted from the start. -/
theorem philox_eq_rngAfter (x : Fin 4 → Nat) (k0 k1 n : Nat) : ∀ r,
    philox n (words (rngAfter x k0 k1 r)) ((k0 + r * 0x9E3779B9) % 2 ^ 32) ((k1 + r * 0xBB67AE85) % 2 ^ 32) = words (rngAfter x k0 k1 (r + n)) := by
  induction n with
  | zero => exact fun r => rfl
  | succ n ih =>
    intro r
    have hkey (k c : Nat) : ((k + r * c) % 2 ^ 32 + c) % 2 ^ 32 = (k + (r + 1) * c) % 2 ^ 32 := by
      rw [Nat.mod_add_mod, Nat.succ_mul, Nat.add_assoc]
    have hr : r + (n + 1) = r + 1 + n := by omega
    rw [philox_round, hkey, hkey, hr]
    exact ih (r + 1)

theorem philox_ten (x : Fin 4 → Nat) {k : Nat} (hk : k < 2 ^ 64) :
    philox 10 (words x) (k % 2 ^ 32) (k / 2 ^ 32) = words (rngAfter x (k % 2 ^ 32) (k / 2 ^ 32) 10) := by
  have h := philox_eq_rngAfter x (k % 2 ^ 32) (k / 2 ^ 32) 10 0
  have hhigh : k / 2 ^ 32 < 2 ^ 32 := by omega
  have hzero (a c : Nat) : a + 0 * c = a := by rw [Nat.zero_mul, Nat.add_zero]
  rw [hzero, hzero, Nat.mod_mod, Nat.mod_eq_of_lt hhigh, Nat.zero_add] at h
  exact h

/-- The word that the modifier names. -/
def counterWord (n : Nat) (t : Nat × Nat × Nat × Nat) : Nat :=
  match n with
  | 0 => t.1
  | 1 => t.2.1
  | 2 => t.2.2.1
  | _ => t.2.2.2

theorem counterWord_words (n : Nat) (x : Fin 4 → Nat) :
    counterWord n (words x) = x (if n = 0 then 0 else if n = 1 then 1 else if n = 2 then 2 else 3) := by
  unfold counterWord
  split <;> simp_all [words]

/-- The words stay words. -/
theorem rngAfter_lt {x : Fin 4 → Nat} (hx : ∀ i, x i < 2 ^ 32) (k0 k1 n : Nat) (i : Fin 4) : rngAfter x k0 k1 n i < 2 ^ 32 := by
  induction n generalizing i with
  | zero => exact hx i
  | succ n ih =>
    have hhigh (c : Nat) (hc : c < 2 ^ 32) (j : Fin 4) : c * rngAfter x k0 k1 n j / 2 ^ 32 < 2 ^ 32 :=
      Nat.div_lt_of_lt_mul (Nat.mul_lt_mul'' hc (ih j))
    have hmod (c : Nat) : c % 2 ^ 32 < 2 ^ 32 := Nat.mod_lt _ (Nat.two_pow_pos _)
    fin_cases i
    · exact Nat.xor_lt_two_pow (Nat.xor_lt_two_pow (hhigh _ (by decide) 2) (ih 1)) (hmod _)
    · exact hmod _
    · exact Nat.xor_lt_two_pow (Nat.xor_lt_two_pow (hhigh _ (by decide) 0) (ih 3)) (hmod _)
    · exact hmod _

section
variable {s : State} {w : VWord}

/-- The counter words of a lane. -/
def laneCounter (s : State) (w : VWord) (l : Nat) (i : Fin 4) : Nat :=
  if i = 0 then (vlane s w.a l).data.toNat else if i = 1 then (vlane s w.b l).data.toNat else if i = 2 then l else 0

theorem laneCounter_lt {l : Nat} (hl : l < 128) (i : Fin 4) : laneCounter s w l i < 2 ^ 32 := by
  have ha := (vlane s w.a l).data.isLt
  have hb := (vlane s w.b l).data.isLt
  unfold laneCounter
  split_ifs <;> omega

theorem putsV_vrng : PutsV (.vrng w) s w 1 fun l r => r.tail = 0 ∧ r.data.toNat =
    rngAfter (laneCounter s w l) ((body s w.c).toNat % 2 ^ 32) ((body s w.c).toNat / 2 ^ 32) 10
      (if w.md % 4 = 0 then 0 else if w.md % 4 = 1 then 1 else if w.md % 4 = 2 then 2 else 3) := by
  refine putsV_perLane (i := .vrng w) rfl fun l hl => ⟨rfl, ?_⟩
  have hword : (BitVec.ofNat 32 (counterWord (w.md % 4) (philox 10 (words (laneCounter s w l)) ((body s w.c).toNat % 2 ^ 32)
      ((body s w.c).toNat / 2 ^ 32)))).toNat = rngAfter (laneCounter s w l) ((body s w.c).toNat % 2 ^ 32) ((body s w.c).toNat / 2 ^ 32) 10
        (if w.md % 4 = 0 then 0 else if w.md % 4 = 1 then 1 else if w.md % 4 = 2 then 2 else 3) := by
    rw [philox_ten _ (body s w.c).isLt, counterWord_words, BitVec.toNat_ofNat, Nat.mod_eq_of_lt (rngAfter_lt (laneCounter_lt (On.lt hl)) _ _ _ _)]
  exact hword

/-! ## Unpacking (R157) -/

theorem imageByte_eq (n l b : Nat) : imageByte s n (l / 16) b = (vlane s n (16 * (l / 16) + b / 4)).data.toNat / 256 ^ (b % 4) % 256 := by
  rw [imageByte, bitsAt, pow_mul]
  rfl

/-- A row that writes one exact value in each lane and raises no flag. -/
theorem putsVQuiet_perLaneFl {i : Instr} {lat : Nat} {g : Nat → Exact} {R : Nat → Exact → Prop}
    (hx : exec i s = perLaneFl s w lat 32 fun l _ => ((writeFp s.cur.cvp .f32 (g l)).1, 0)) (hR : ∀ l, R l (g l)) : PutsVQuiet i s w lat .f32 R :=
  ⟨g, _, fun l _ => hR l, fills_lanesOf (f := .f32) (.inr (.inr rfl)) fun _ _ _ _ => fits_writeFp _ _ _,
    hx.trans (perLaneFl_of_no_flags fun _ _ _ _ => rfl)⟩

/-- The code of a lane's element in its cluster's image. -/
def unpackCode (s : State) (w : VWord) (l : Nat) : Nat :=
  let j := 16 * (w.md / 8) + l % 16
  if eltBits (w.md % 8 + 5) = 4 then imageByte s w.a (l / 16) (j / 2) / 16 ^ (j % 2) % 16 else imageByte s w.a (l / 16) j

theorem putsVQuiet_vunpk (hmd : w.md < 16) {R : Nat → Exact → Prop}
    (hR : ∀ l, R l (eltVal (w.md % 8 + 5) (unpackCode s w l) (imageByte s w.a (l / 16) 32) (imageByte s w.a (l / 16) 33)).exact) :
    PutsVQuiet (.vunpk w) s w 1 .f32 R := by
  have hcode (l : Nat) : (let j := 16 * (w.md / 8 % 2) + l % 16
      if eltBits (w.md % 8 + 5) = 4 then bitsAt (imageByte s w.a (l / 16) (j / 2)) (4 * (j % 2)) 4 else imageByte s w.a (l / 16) j)
      = unpackCode s w l := by
    have hhalf : w.md / 8 % 2 = w.md / 8 := by omega
    simp only [hhalf, unpackCode, bitsAt, pow_mul]
    rfl
  refine putsVQuiet_perLaneFl (i := .vunpk w) ?_ hR
  simp only [← hcode]
  rfl

theorem exactly_scale {v : Val} (hv : Finite v) (k : Int) : Exactly (v.scale k).exact (ratOf v * (2 : ℚ) ^ k) (isNegative v) := by
  obtain ⟨n, m, e, rfl⟩ := hv
  refine ⟨n, m, e + k, rfl, ?_, fun _ => rfl⟩
  simp only [ratOf, zpow_add₀ (two_ne_zero' ℚ)]
  ring

theorem exactly_fin (n : Bool) (m : Nat) (e : Int) : Exactly (Val.fin n m e).exact ((if n then -1 else 1) * m * (2 : ℚ) ^ e) n :=
  ⟨n, m, e, rfl, rfl, fun _ => rfl⟩

theorem imageByte_lt (n c b : Nat) : imageByte s n c b < 256 := Nat.mod_lt _ (Nat.two_pow_pos 8)

theorem unpackCode_byte (h : eltBits (w.md % 8 + 5) ≠ 4) (l : Nat) :
    unpackCode s w l = imageByte s w.a (l / 16) (16 * (w.md / 8) + l % 16) := if_neg h

theorem unpackCode_nibble (h : eltBits (w.md % 8 + 5) = 4) (l : Nat) : unpackCode s w l
    = imageByte s w.a (l / 16) ((16 * (w.md / 8) + l % 16) / 2) / 16 ^ ((16 * (w.md / 8) + l % 16) % 2) % 16 := if_pos h

/-! ### The value of a code (R45 to R47) -/

section
variable (code e0 e1 : Nat)

/-- A value of a format under a shared scale. -/
def scaledVal (f : Fmt) : Val := if e0 = 0xFF then .nan false else (Held.val f ⟨code % 2 ^ f.width, 0⟩).scale ((e0 : Int) - 127)

theorem eltVal_5 : eltVal 5 code e0 e1 = scaledVal code e0 .e4m3 := rfl

theorem eltVal_6 : eltVal 6 code e0 e1 = scaledVal code e0 .e5m2 := rfl

theorem eltVal_7 : eltVal 7 code e0 e1 = scaledVal code e0 .e2m1 := rfl

theorem eltVal_8 : eltVal 8 code e0 e1 = if e0 = 0xFF then .nan false else (intVal (sextNat 8 code)).scale ((e0 : Int) - 133) := rfl

theorem eltVal_9 : eltVal 9 code e0 e1 = if (if bitsAt code 7 1 = 0 then e0 else e1) = 0xFF then .nan false
    else .fin (bitsAt code 6 1 = 1) (code % 64) (((if bitsAt code 7 1 = 0 then e0 else e1 : Nat) : Int) - 132) := rfl

theorem eltVal_10 : eltVal 10 code e0 e1 = if (if bitsAt code 3 1 = 0 then e0 else e1) = 0xFF then .nan false
    else .fin (bitsAt code 2 1 = 1) (code % 4) (((if bitsAt code 3 1 = 0 then e0 else e1 : Nat) : Int) - 128) := rfl

theorem eltVal_11 : eltVal 11 code e0 e1 = Held.val .e2m1 ⟨code % 2 ^ 4, 0⟩ := rfl

/-- The scale 255 gives a NaN. -/
theorem scaledVal_spec {f : Fmt} (hc : code < 2 ^ f.width) :
    let v := Held.val f ⟨code, 0⟩
    let r := (scaledVal code e0 f).exact
    (e0 = 255 ∨ (∃ b, v = .nan b) → r = .nan) ∧ (e0 ≠ 255 → ∀ b, v = .inf b → r = .inf b)
      ∧ (e0 ≠ 255 → Finite v → Exactly r (ratOf v * (2 : ℚ) ^ ((e0 : Int) - 127)) (isNegative v)) := by
  unfold scaledVal
  rw [Nat.mod_eq_of_lt hc]
  by_cases h : e0 = 255
  · rw [if_pos h]
    exact ⟨fun _ => rfl, fun hn => absurd h hn, fun hn => absurd h hn⟩
  · rw [if_neg h]
    refine ⟨?_, fun _ b hb => by rw [hb]; rfl, fun _ hv => exactly_scale hv _⟩
    rintro (h' | ⟨b, hb⟩)
    · exact absurd h' h
    · rw [hb]
      rfl

theorem sextNat_byte (hc : code < 256) : (sextNat 8 code : ℚ) = if code < 128 then (code : ℚ) else (code : ℚ) - 256 := by
  rw [sextNat, Nat.mod_eq_of_lt (show code < 2 ^ 8 from hc)]
  by_cases h : code < 128
  · rw [if_pos h, if_pos (show code < 2 ^ (8 - 1) from h)]
    push_cast
    rfl
  · rw [if_neg h, if_neg (show ¬ code < 2 ^ (8 - 1) from h)]
    push_cast
    norm_num

theorem eltVal_8_spec (hc : code < 256) : (e0 = 255 → (eltVal 8 code e0 e1).exact = .nan)
    ∧ (e0 ≠ 255 → Exactly (eltVal 8 code e0 e1).exact
        ((if code < 128 then (code : ℚ) else (code : ℚ) - 256) * (2 : ℚ) ^ ((e0 : Int) - 133)) false) := by
  rw [eltVal_8]
  refine ⟨fun h => by rw [if_pos h]; rfl, fun h => ?_⟩
  rw [if_neg h, ← sextNat_byte code hc]
  refine ⟨_, _, _, rfl, ?_, fun h0 => ?_⟩
  · rw [ratOf_int, zero_add]
  · have hpow : (2 : ℚ) ^ ((e0 : Int) - 133) ≠ 0 := by positivity
    have hz : sextNat 8 code = 0 := by exact_mod_cast (mul_eq_zero.1 h0).resolve_right hpow
    rw [hz]
    rfl

theorem eltVal_9_spec (hc : code < 256) :
    let e := if code < 128 then e0 else e1
    let neg : Bool := code / 64 % 2 = 1
    (e = 255 → (eltVal 9 code e0 e1).exact = .nan)
    ∧ (e ≠ 255 → Exactly (eltVal 9 code e0 e1).exact ((if neg then -1 else 1) * ((code % 64 : Nat) : ℚ) * (2 : ℚ) ^ ((e : Int) - 132)) neg) := by
  intro e neg
  have hsel : (if bitsAt code 7 1 = 0 then e0 else e1) = e := if_congr (by unfold bitsAt; omega) rfl rfl
  rw [eltVal_9, hsel]
  exact ⟨fun h => by rw [if_pos h]; rfl, fun h => by rw [if_neg h]; exact exactly_fin _ _ _⟩

theorem eltVal_10_spec (hc : code < 16) :
    let e := if code < 8 then e0 else e1
    let neg : Bool := code / 4 % 2 = 1
    (e = 255 → (eltVal 10 code e0 e1).exact = .nan)
    ∧ (e ≠ 255 → Exactly (eltVal 10 code e0 e1).exact ((if neg then -1 else 1) * ((code % 4 : Nat) : ℚ) * (2 : ℚ) ^ ((e : Int) - 128)) neg) := by
  intro e neg
  have hsel : (if bitsAt code 3 1 = 0 then e0 else e1) = e := if_congr (by unfold bitsAt; omega) rfl rfl
  rw [eltVal_10, hsel]
  exact ⟨fun h => by rw [if_pos h]; rfl, fun h => by rw [if_neg h]; exact exactly_fin _ _ _⟩

/-- E2M1 has neither NaNs nor infinities. -/
theorem finite_val_e2m1 {code : Nat} : Finite (Held.val .e2m1 ⟨code, 0⟩) :=
  finite_val_iff.2 ⟨rfl, rfl⟩

end

/-! ### What the row answers -/

theorem unpackCode_lt_byte (l : Nat) (h : eltBits (w.md % 8 + 5) ≠ 4) : unpackCode s w l < 256 := by
  rw [unpackCode_byte h]
  exact imageByte_lt _ _ _

theorem unpackCode_lt_nibble (l : Nat) (h : eltBits (w.md % 8 + 5) = 4) : unpackCode s w l < 16 := by
  rw [unpackCode_nibble h]
  exact Nat.mod_lt _ (Nat.succ_pos _)

end

end Sys2Proof.Machine

/-! # Packing a block (R155, R156) -/

namespace Sys2Proof.Machine
open Claim

/-! ## The greatest magnitude of a block -/

/-- The greatest code of the elements that are no infinities, and its number. -/
def blockTop (xs : List Held) : Nat := xs.foldl (fun m x => if Fmt.f32.isInf x.body then m else max m (x.code .f32)) 0

def blockMax (xs : List Held) : Nat × Int :=
  match (Held.ofCode .f32 false (blockTop xs)).val .f32 with
  | .fin _ m e => (m, e)
  | _ => (0, 0)

/-- The number that significand and exponent make. -/
def amount (a : Nat × Int) : ℚ := a.1 * (2 : ℚ) ^ a.2

theorem amount_eq_zero {a : Nat × Int} : amount a = 0 ↔ a.1 = 0 := by
  unfold amount
  rw [mul_eq_zero, or_iff_left (by positivity), Nat.cast_eq_zero]

theorem blockTop_spec (xs : List Held) :
    (∀ x ∈ xs, Fmt.f32.isInf x.body = false → x.code .f32 ≤ blockTop xs)
      ∧ (blockTop xs = 0 ∨ ∃ x ∈ xs, Fmt.f32.isInf x.body = false ∧ x.code .f32 = blockTop xs) := by
  unfold blockTop
  induction xs using List.reverseRecOn with
  | nil => simp
  | append_singleton xs y ih =>
    obtain ⟨hle, hat⟩ := ih
    rw [List.foldl_append, List.foldl_cons, List.foldl_nil]
    generalize xs.foldl (fun m x => if Fmt.f32.isInf x.body then m else max m (x.code .f32)) 0 = top at hle hat
    have hold : top = 0 ∨ ∃ x ∈ xs ++ [y], Fmt.f32.isInf x.body = false ∧ x.code .f32 = top :=
      hat.imp_right fun ⟨x, hx, h⟩ => ⟨x, List.mem_append_left _ hx, h⟩
    cases hy : Fmt.f32.isInf y.body with
    | true =>
      simp only [if_true]
      refine ⟨fun x hx hi => ?_, hold⟩
      obtain hx | hx := List.mem_append.1 hx
      · exact hle x hx hi
      · rw [List.mem_singleton.1 hx, hy] at hi
        cases hi
    | false =>
      simp only [Bool.false_eq_true, if_false]
      refine ⟨fun x hx hi => ?_, ?_⟩
      · obtain hx | hx := List.mem_append.1 hx
        · exact (hle x hx hi).trans (le_max_left _ _)
        · rw [List.mem_singleton.1 hx]
          exact le_max_right _ _
      · obtain h | h := le_total (y.code .f32) top
        · rwa [max_eq_left h]
        · rw [max_eq_right h]
          exact .inr ⟨y, List.mem_append_right _ (List.mem_singleton_self y), hy, rfl⟩

/-- The greatest magnitude is that of an element, or zero. -/
structure IsBlockMax (xs : List Held) (a : Nat × Int) : Prop where
  le : ∀ x ∈ xs, Finite (x.val .f32) → |ratOf (x.val .f32)| ≤ amount a
  attained : a.1 = 0 ∨ ∃ x ∈ xs, Finite (x.val .f32) ∧ |ratOf (x.val .f32)| = amount a

theorem abs_ratOf_val {f : Fmt} {x : Held} (hx : Fits f x) (hn : f.isNan x.body = false) (hi : f.isInf x.body = false) :
    |ratOf (x.val f)| = codeRat f (x.code f) := by
  have h0 := codeRat_nonneg (code_le_ovfCode hn hi)
  rw [ratOf_val_of_finite hx hn hi, abs_mul, abs_of_nonneg h0]
  split <;> simp

theorem isBlockMax_blockMax {xs : List Held} (hfit : ∀ x ∈ xs, Fits .f32 x) (hn : ∀ x ∈ xs, Fmt.f32.isNan x.body = false) :
    IsBlockMax xs (blockMax xs) := by
  obtain ⟨hle, hat⟩ := blockTop_spec xs
  have htop : blockTop xs ≤ Fmt.f32.ovfCode := by
    obtain h | ⟨x, hx, hi, h⟩ := hat
    · rw [h]
      exact Nat.zero_le _
    · rw [← h]
      exact code_le_ovfCode (hn x hx) hi
  have hamount : amount (blockMax xs) = codeRat .f32 (blockTop xs) := by
    obtain ⟨n, m, e, hv⟩ := finite_val_iff.2 (finite_ofCode false htop)
    have h0 := codeRat_nonneg htop
    have hc : codeRat .f32 (blockTop xs) = ratOf (.fin n m e) := by rw [codeRat, hv]
    rw [blockMax, hv, hc, amount, ← abs_ratOf_fin n m e, abs_of_nonneg (hc ▸ h0)]
  have habs (x : Held) (hx : x ∈ xs) (hi : Fmt.f32.isInf x.body = false) := abs_ratOf_val (hfit x hx) (hn x hx) hi
  refine ⟨fun x hx hf => ?_, ?_⟩
  · obtain ⟨-, hi⟩ := finite_val_iff.1 hf
    rw [hamount, habs x hx hi]
    exact (codeRat_strictMonoOn .f32).monotoneOn (code_le_ovfCode (hn x hx) hi) htop (hle x hx hi)
  · obtain h | ⟨x, hx, hi, h⟩ := hat
    · rw [h, codeRat_zero] at hamount
      exact .inl (amount_eq_zero.1 hamount)
    · exact .inr ⟨x, hx, finite_val_iff.2 ⟨hn x hx, hi⟩, by rw [habs x hx hi, h, hamount]⟩

/-! ## The Microscaling formats -/

/-- The exponent of a format's greatest element. -/
def mxExp (fmt : Nat) : Int :=
  match fmt with | 0 => 8 | 1 => 15 | 2 => 2 | _ => 0

def mxScale (fmt : Nat) (a : Nat × Int) : Nat := if a.1 = 0 then 0 else (max 0 (min 254 ((Nat.log2 a.1 : Int) + a.2 - mxExp fmt + 127))).toNat

/-- An element's code and its flags under a scale. -/
def mxElem (p : Cvp) (fmt sc : Nat) (x : Held) : Nat × Nat :=
  let y := (x.val .f32).scale (127 - (sc : Int))
  match fmt with
  | 2 => (0, 0)
  | 3 =>
    (match y with
      | .inf n => ((if n then 128 else 127), flagOr fOF fNX)
      | _ =>
        let r := rndScaled p.mode y 6
        let c := max (-128) (min 127 r.1)
        (wrapNat 8 c, flagOr (if r.2 then fNX else 0) (if c ≠ r.1 then flagOr fOF fNX else 0)))
  | _ =>
    let f := if fmt = 0 then Fmt.e4m3 else Fmt.e5m2
    let r := settle f (hold f y.exact) f p.mode p.sat
    (r.1, r.2 &&& (0x1F - fUF))

theorem packMx_eq (p : Cvp) (fmt : Nat) (a : Nat × Int) (xs : List Held) : packMx p fmt a xs =
    { codes := xs.map fun x => (mxElem p fmt (mxScale fmt a) x).1, e0 := mxScale fmt a, e1 := 0,
      flags := xs.foldl (fun z x => flagOr z (mxElem p fmt (mxScale fmt a) x).2) 0 } := by
  have h : packMx p fmt a xs = Packed.mk ((xs.map (mxElem p fmt (mxScale fmt a))).map (·.1)) (mxScale fmt a) 0
    ((xs.map (mxElem p fmt (mxScale fmt a))).foldl (fun z r => flagOr z r.2) 0) := rfl
  rw [h, List.map_map, List.foldl_map]
  rfl

theorem mxScale_le (fmt : Nat) (a : Nat × Int) : mxScale fmt a ≤ 254 := by
  unfold mxScale
  split <;> omega

/-- The magnitudes of a block lie below the power of two after the greatest element's under the scale. -/
theorem amount_lt_of_mxScale {fmt : Nat} {a : Nat × Int} (h : mxScale fmt a < 254) :
    amount a < (2 : ℚ) ^ ((mxScale fmt a : Int) - 127 + mxExp fmt + 1) := by
  by_cases h0 : a.1 = 0
  · rw [amount_eq_zero.2 h0]
    positivity
  · have hsc : (Nat.log2 a.1 : Int) + a.2 + 1 ≤ (mxScale fmt a : Int) - 127 + mxExp fmt + 1 := by
      unfold mxScale at h ⊢
      rw [if_neg h0] at h ⊢
      omega
    have hlog : (a.1 : ℚ) < 2 ^ (Nat.log2 a.1 + 1) := by exact_mod_cast Nat.lt_log2_self
    calc amount a < 2 ^ (Nat.log2 a.1 + 1) * (2 : ℚ) ^ a.2 := mul_lt_mul_of_pos_right hlog (by positivity)
      _ = (2 : ℚ) ^ ((Nat.log2 a.1 : Int) + a.2 + 1) := by
        rw [← zpow_natCast, ← zpow_add₀ two_ne_zero]
        congr 1
        push_cast
        ring
      _ ≤ _ := zpow_le_zpow_right₀ one_le_two hsc

/-- A scale above zero is reached by the greatest magnitude. -/
theorem le_amount_of_mxScale {fmt : Nat} {a : Nat × Int} (h : 0 < mxScale fmt a) :
    a.1 ≠ 0 ∧ (2 : ℚ) ^ ((mxScale fmt a : Int) - 127 + mxExp fmt) ≤ amount a := by
  have h0 : a.1 ≠ 0 := fun h0 => by rw [mxScale, if_pos h0] at h; exact lt_irrefl 0 h
  refine ⟨h0, ?_⟩
  have hsc : (mxScale fmt a : Int) - 127 + mxExp fmt ≤ (Nat.log2 a.1 : Int) + a.2 := by
    unfold mxScale at h ⊢
    rw [if_neg h0] at h ⊢
    omega
  have hlog : (2 : ℚ) ^ Nat.log2 a.1 ≤ a.1 := by exact_mod_cast Nat.log2_self_le h0
  calc _ ≤ (2 : ℚ) ^ ((Nat.log2 a.1 : Int) + a.2) := zpow_le_zpow_right₀ one_le_two hsc
    _ = 2 ^ Nat.log2 a.1 * (2 : ℚ) ^ a.2 := by rw [zpow_add₀ two_ne_zero, zpow_natCast]
    _ ≤ amount a := mul_le_mul_of_nonneg_right hlog (by positivity)

theorem mxElem_lt (p : Cvp) (fmt sc : Nat) (x : Held) : (mxElem p fmt sc x).1 < 256 := by
  unfold mxElem
  simp only []
  generalize (x.val .f32).scale (127 - (sc : Int)) = y
  split
  · decide
  · cases y with
    | inf n =>
      show (if n = true then 128 else 127) < 256
      split <;> decide
    | _ =>
      dsimp only
      exact wrapNat_lt 8 _
  · have hw : (if fmt = 0 then Fmt.e4m3 else Fmt.e5m2).width = 8 := by split <;> rfl
    have hlt := settle_lt (fits_hold (if fmt = 0 then Fmt.e4m3 else Fmt.e5m2) y.exact).body (if fmt = 0 then Fmt.e4m3 else Fmt.e5m2) p.mode p.sat
    rwa [hw] at hlt

/-- An element of mxi8 (R155): the value in units of 2^-6 of the scale, rounded and clamped. -/
theorem mxElem_integer (p : Cvp) (sc : Nat) (x : Held) :
    (∀ n, x.val .f32 = .inf n → (mxElem p 3 sc x).1 = if n then 128 else 127)
    ∧ (Finite (x.val .f32) → ∃ r : Int, Rounds p.mode (64 * (ratOf (x.val .f32) * (2 : ℚ) ^ (127 - (sc : Int)))) r
      ∧ ((mxElem p 3 sc x).1 : Int) = max (-128) (min 127 r) % 256) := by
  refine ⟨fun n h => ?_, fun ⟨n, m, e, h⟩ => ⟨(roundInt p.mode n m (e + (127 - (sc : Int)) + 6)).1, ?_, ?_⟩⟩
  · simp only [mxElem, h, Val.scale]
  · have hq : 64 * (ratOf (x.val .f32) * (2 : ℚ) ^ (127 - (sc : Int))) = ratOf (.fin n m (e + (127 - (sc : Int)) + 6)) := by
      have h6 : (2 : ℚ) ^ (6 : Int) = 64 := by norm_num
      rw [h, ratOf, ratOf, zpow_add₀ two_ne_zero _ 6, zpow_add₀ two_ne_zero, h6]
      ring
    rw [hq]
    exact (roundInt_spec _ _ _ _).1
  · simp only [mxElem, h, Val.scale, rndScaled, natCast_wrapNat]
    rfl

/-- A zero is an integer. -/
theorem roundInt_zero (mode : RMode) (n : Bool) (e : Int) : roundInt mode n 0 e = (0, false) := by
  unfold roundInt roundUp
  cases mode <;> simp

/-- A zero is settled without a flag. -/
theorem settle_hold_zero (f : Fmt) (n : Bool) (e : Int) (mode : RMode) (sat : Bool) :
    (settle f (hold f (.fin n 0 e false)) f mode sat).2 = 0 := by
  have h0 : roCode f 0 e false = 0 := rfl
  have hle : roCode f 0 e false ≤ f.ovfCode := Nat.zero_le _
  have hhold : hold f (.fin n 0 e false) = Held.ofCode f n 0 := by rw [hold_fin_of_le hle, h0]
  obtain ⟨hn, hi⟩ := finite_ofCode (f := f) n (Nat.zero_le _)
  rw [hhold, settle_of_tail_zero mode sat (fits_ofCode n (Nat.zero_le _)) rfl hn (.inr hi)]

theorem mxElem_flags_of_zero (p : Cvp) (fmt sc : Nat) {x : Held} (hf : Finite (x.val .f32)) (h0 : ratOf (x.val .f32) = 0) :
    (mxElem p fmt sc x).2 = 0 := by
  obtain ⟨n, m, e, h⟩ := hf
  rw [h] at h0
  obtain rfl := ratOf_fin_eq_zero.1 h0
  unfold mxElem
  simp only [h, Val.scale]
  split
  · rfl
  · simp only [rndScaled, roundInt_zero]
    rfl
  · simp only [Val.exact, settle_hold_zero, Nat.zero_and]

/-! ## The TX formats -/

def txMax (fmt : Nat) : Nat := if fmt = 4 then 63 else 3

def txExp (fmt : Nat) : Int := if fmt = 4 then 132 else 128

def txGap (fmt g : Nat) : Nat := if g = 0 then (if fmt = 4 then 3 else 2) else g

/-- The first exponent under which the greatest magnitude rounds to no more than the greatest element. -/
def txScale (p : Cvp) (fmt : Nat) (a : Nat × Int) : Nat :=
  if a.1 = 0 then 0
  else ((List.range 255).find? fun e : Nat => (rndScaled p.mode (.fin false a.1 a.2) (txExp fmt - (e : Int))).1.natAbs ≤ txMax fmt).getD 254

/-- An element's code from its selector, its sign and its magnitude. -/
def txCode (fmt : Nat) (neg : Bool) (sel m : Nat) : Nat :=
  if fmt = 4 then sel * 128 + (if neg then 64 else 0) + m else sel * 8 + (if neg then 4 else 0) + m

/-- An element's code and its flags under the two exponents. -/
def txElem (p : Cvp) (fmt e0 e1 : Nat) (x : Held) : Nat × Nat :=
  let v := x.val .f32
  let neg := Fmt.f32.signOf x.body
  match v with
  | .fin _ _ _ =>
    let r1 := rndScaled p.mode v (txExp fmt - (e1 : Int))
    let r0 := rndScaled p.mode v (txExp fmt - (e0 : Int))
    if r1.1.natAbs ≤ txMax fmt then (txCode fmt neg 1 r1.1.natAbs, if r1.2 then fNX else 0)
    else (txCode fmt neg 0 (min r0.1.natAbs (txMax fmt)),
      flagOr (if r0.2 then fNX else 0) (if txMax fmt < r0.1.natAbs then flagOr fOF fNX else 0))
  | _ => (txCode fmt neg 0 (txMax fmt), flagOr fOF fNX)

theorem packTx_eq (p : Cvp) (fmt g : Nat) (a : Nat × Int) (xs : List Held) : packTx p fmt g a xs =
    Packed.mk (xs.map fun x => (txElem p fmt (txScale p fmt a) (txScale p fmt a - g) x).1) (txScale p fmt a) (txScale p fmt a - g)
      (xs.foldl (fun z x => flagOr z (txElem p fmt (txScale p fmt a) (txScale p fmt a - g) x).2) 0) := by
  have h : packTx p fmt g a xs = Packed.mk ((xs.map (txElem p fmt (txScale p fmt a) (txScale p fmt a - g))).map (·.1)) (txScale p fmt a)
    (txScale p fmt a - g) ((xs.map (txElem p fmt (txScale p fmt a) (txScale p fmt a - g))).foldl (fun z r => flagOr z r.2) 0) := rfl
  rw [h, List.map_map, List.foldl_map]
  rfl

theorem rndScaled_rounds (mode : RMode) (n : Bool) (m : Nat) (e k : Int) :
    Rounds mode (ratOf (.fin n m e) * (2 : ℚ) ^ k) (rndScaled mode (.fin n m e) k).1 := by
  have hq : ratOf (.fin n m e) * (2 : ℚ) ^ k = ratOf (.fin n m (e + k)) := by
    rw [ratOf, ratOf, zpow_add₀ two_ne_zero]
    ring
  rw [hq]
  exact (roundInt_spec mode n m (e + k)).1

theorem rndScaled_nonneg (mode : RMode) (m : Nat) (e k : Int) : 0 ≤ (rndScaled mode (.fin false m e) k).1 := Int.natCast_nonneg _

theorem txScale_spec (p : Cvp) (fmt : Nat) (a : Nat × Int) : txScale p fmt a ≤ 254 ∧ (a.1 = 0 → txScale p fmt a = 0)
    ∧ (a.1 ≠ 0 → (txScale p fmt a < 254 →
          (rndScaled p.mode (.fin false a.1 a.2) (txExp fmt - (txScale p fmt a : Int))).1.natAbs ≤ txMax fmt)
        ∧ ∀ e < txScale p fmt a, txMax fmt < (rndScaled p.mode (.fin false a.1 a.2) (txExp fmt - (e : Int))).1.natAbs) := by
  by_cases h0 : a.1 = 0
  · rw [txScale, if_pos h0]
    exact ⟨Nat.zero_le _, fun _ => rfl, fun h => absurd h0 h⟩
  · rw [txScale, if_neg h0]
    cases h : (List.range 255).find? fun e : Nat => (rndScaled p.mode (.fin false a.1 a.2) (txExp fmt - (e : Int))).1.natAbs ≤ txMax fmt with
    | none =>
      rw [List.find?_eq_none] at h
      refine ⟨le_rfl, fun h => absurd h h0, fun _ => ⟨fun h => absurd h (lt_irrefl _), fun e he => ?_⟩⟩
      have he' : e < 254 := he
      have := h e (List.mem_range.2 (by omega))
      rwa [decide_eq_true_iff, not_le] at this
    | some e0 =>
      rw [List.find?_range_eq_some] at h
      obtain ⟨hp, hmem, hlt⟩ := h
      rw [decide_eq_true_iff] at hp
      have hmem := List.mem_range.1 hmem
      refine ⟨by rw [Option.getD_some]; omega, fun h => absurd h h0, fun _ => ⟨fun _ => hp, fun e he => ?_⟩⟩
      have := hlt e he
      rwa [Bool.not_eq_true', decide_eq_false_iff_not, not_le] at this

/-- The exponent is the first that holds the greatest magnitude. -/
theorem txScale_first (p : Cvp) (fmt : Nat) {a : Nat × Int} (h0 : amount a ≠ 0) :
    (txScale p fmt a < 254 → ∃ r, Rounds p.mode (amount a * (2 : ℚ) ^ (txExp fmt - (txScale p fmt a : Int))) r ∧ r ≤ txMax fmt)
    ∧ ∀ e < txScale p fmt a, ∃ r, Rounds p.mode (amount a * (2 : ℚ) ^ (txExp fmt - (e : Int))) r ∧ txMax fmt < r := by
  obtain ⟨-, -, hfirst⟩ := txScale_spec p fmt a
  obtain ⟨hat, hbefore⟩ := hfirst (mt amount_eq_zero.2 h0)
  have hamount : amount a = ratOf (.fin false a.1 a.2) := by simp [amount, ratOf]
  have hround (e : Nat) := rndScaled_rounds p.mode false a.1 a.2 (txExp fmt - (e : Int))
  have hnonneg (e : Nat) := rndScaled_nonneg p.mode a.1 a.2 (txExp fmt - (e : Int))
  rw [hamount]
  refine ⟨fun hlt => ⟨_, hround _, ?_⟩, fun e he => ⟨_, hround e, ?_⟩⟩
  · have := hat hlt
    have := hnonneg (txScale p fmt a)
    omega
  · have := hbefore e he
    have := hnonneg e
    omega

/-- A code in the statement's parts. -/
theorem txCode_eq (fmt : Nat) (neg : Bool) (m : Nat) :
    txCode fmt neg 1 m = (if fmt = 4 then 128 else 8) + (if neg then (if fmt = 4 then 64 else 4) else 0) + m
      ∧ txCode fmt neg 0 m = (if neg then (if fmt = 4 then 64 else 4) else 0) + m := by
  unfold txCode
  split <;> simp

theorem txCode_lt {fmt : Nat} (neg : Bool) {sel m : Nat} (hs : sel ≤ 1) (hm : m ≤ txMax fmt) :
    txCode fmt neg sel m < if fmt = 4 then 256 else 16 := by
  unfold txCode
  unfold txMax at hm
  split at hm
  next h =>
    rw [if_pos h, if_pos h]
    cases neg <;> simp <;> omega
  next h =>
    rw [if_neg h, if_neg h]
    cases neg <;> simp <;> omega

theorem txElem_of_fin (p : Cvp) (fmt e0 e1 : Nat) {x : Held} {n : Bool} {m : Nat} {e : Int} (h : x.val .f32 = .fin n m e) :
    let r1 := rndScaled p.mode (.fin n m e) (txExp fmt - (e1 : Int))
    let r0 := rndScaled p.mode (.fin n m e) (txExp fmt - (e0 : Int))
    txElem p fmt e0 e1 x = if r1.1.natAbs ≤ txMax fmt then (txCode fmt (Fmt.f32.signOf x.body) 1 r1.1.natAbs, if r1.2 then fNX else 0)
      else (txCode fmt (Fmt.f32.signOf x.body) 0 (min r0.1.natAbs (txMax fmt)),
        flagOr (if r0.2 then fNX else 0) (if txMax fmt < r0.1.natAbs then flagOr fOF fNX else 0)) := by
  simp only [txElem, h]

theorem txElem_of_inf (p : Cvp) (fmt e0 e1 : Nat) {x : Held} {n : Bool} (h : x.val .f32 = .inf n) :
    txElem p fmt e0 e1 x = (txCode fmt (Fmt.f32.signOf x.body) 0 (txMax fmt), flagOr fOF fNX) := by
  simp only [txElem, h]

theorem txElem_lt (p : Cvp) (fmt e0 e1 : Nat) (x : Held) : (txElem p fmt e0 e1 x).1 < if fmt = 4 then 256 else 16 := by
  cases h : x.val .f32 with
  | fin n m e =>
    rw [txElem_of_fin p fmt e0 e1 h]
    split
    next hm => exact txCode_lt _ le_rfl hm
    next => exact txCode_lt _ (Nat.zero_le 1) (min_le_right _ _)
  | inf n =>
    rw [txElem_of_inf p fmt e0 e1 h]
    exact txCode_lt _ (Nat.zero_le 1) le_rfl
  | nan b =>
    simp only [txElem, h]
    exact txCode_lt _ (Nat.zero_le 1) le_rfl

theorem txElem_flags_of_zero (p : Cvp) (fmt e0 e1 : Nat) {x : Held} (hf : Finite (x.val .f32)) (h0 : ratOf (x.val .f32) = 0) :
    (txElem p fmt e0 e1 x).2 = 0 := by
  obtain ⟨n, m, e, h⟩ := hf
  rw [h] at h0
  obtain rfl := ratOf_fin_eq_zero.1 h0
  rw [txElem_of_fin p fmt e0 e1 h]
  simp only [rndScaled, roundInt_zero, Int.natAbs_zero, Nat.zero_le, if_true]
  rfl

end Sys2Proof.Machine

/-! # VPACK (R155, R156) -/

namespace Sys2Proof.Machine
open Claim

/-! ## A block of either kind -/

section
variable {p : Cvp} {fmt g : Nat} {xs : List Held}

theorem packBlock_of_nan (h : ∃ x ∈ xs, Fmt.f32.isNan x.body = true) : packBlock p fmt g xs =
    Packed.mk (List.replicate 32 0) 0xFF (if fmt < 4 then 0 else 0xFF) (if xs.any (fun x => Fmt.f32.isSnan x.body) then fNV else 0) :=
  if_pos (List.any_eq_true.2 h)

theorem packBlock_of_numbers (h : ∀ x ∈ xs, Fmt.f32.isNan x.body = false) : packBlock p fmt g xs =
    if fmt < 4 then packMx p fmt (blockMax xs) xs else packTx p fmt (txGap fmt g) (blockMax xs) xs := by
  have hnone : ¬ xs.any (fun x => Fmt.f32.isNan x.body) = true := by
    rw [List.any_eq_true]
    rintro ⟨x, hx, hn⟩
    rw [h x hx] at hn
    cases hn
  exact if_neg hnone

/-- A block whose codes and shared bytes are those of its format. -/
structure IsPacked (fmt : Nat) (b : Packed) : Prop where
  length : b.codes.length = 32
  code_lt : ∀ c ∈ b.codes, c < if fmt = 5 then 16 else 256
  e0_lt : b.e0 < 256
  e1_lt : b.e1 < 256

theorem isPacked_packBlock (hfmt : fmt < 6) (hlen : xs.length = 32) : IsPacked fmt (packBlock p fmt g xs) := by
  by_cases h : ∃ x ∈ xs, Fmt.f32.isNan x.body = true
  · rw [packBlock_of_nan h]
    refine ⟨List.length_replicate, fun c hc => ?_, Nat.lt_succ_self 255, ?_⟩
    · rw [List.eq_of_mem_replicate hc]
      split <;> decide
    · dsimp only
      split <;> decide
  · have hn : ∀ x ∈ xs, Fmt.f32.isNan x.body = false := fun x hx => Bool.eq_false_iff.2 fun hx' => h ⟨x, hx, hx'⟩
    rw [packBlock_of_numbers hn]
    by_cases h4 : fmt < 4
    · have hsc := mxScale_le fmt (blockMax xs)
      rw [if_pos h4, packMx_eq]
      refine ⟨by rw [List.length_map, hlen], fun c hc => ?_, by dsimp only; omega, Nat.succ_pos 255⟩
      obtain ⟨x, -, rfl⟩ := List.mem_map.1 hc
      rw [if_neg (by omega)]
      exact mxElem_lt _ _ _ _
    · obtain ⟨hsc, -⟩ := txScale_spec p fmt (blockMax xs)
      rw [if_neg h4, packTx_eq]
      refine ⟨by rw [List.length_map, hlen], fun c hc => ?_, by dsimp only; omega, by dsimp only; omega⟩
      obtain ⟨x, -, rfl⟩ := List.mem_map.1 hc
      refine (txElem_lt p fmt _ _ x).trans_le ?_
      obtain rfl | rfl : fmt = 4 ∨ fmt = 5 := by omega
      · decide
      · decide

/-- A block of zeros raises no flag. -/
theorem packBlock_flags_of_zeros (h : ∀ x ∈ xs, Finite (x.val .f32) ∧ ratOf (x.val .f32) = 0) : (packBlock p fmt g xs).flags = 0 := by
  have hfold (f : Held → Nat) (hf : ∀ x ∈ xs, f x = 0) : xs.foldl (fun z x => flagOr z (f x)) 0 = 0 := by
    refine Nat.eq_of_testBit_eq fun b => ?_
    rw [Nat.zero_testBit, Bool.eq_false_iff, ne_eq, testBit_foldl_flagOr, Nat.zero_testBit]
    rintro (h | ⟨x, hx, hb⟩)
    · cases h
    · rw [hf x hx, Nat.zero_testBit] at hb
      cases hb
  rw [packBlock_of_numbers fun x hx => (finite_val_iff.1 (h x hx).1).1]
  split
  · rw [packMx_eq]
    exact hfold _ fun x hx => mxElem_flags_of_zero _ _ _ (h x hx).1 (h x hx).2
  · rw [packTx_eq]
    exact hfold _ fun x hx => txElem_flags_of_zero _ _ _ _ (h x hx).1 (h x hx).2

/-! ## The image (R156) -/

variable {b : Packed}

theorem packImage_length (h : IsPacked fmt b) : (packImage fmt b).length = 64 := by
  unfold packImage
  split <;> simp [h.length]

theorem packImage_bytes (h5 : fmt ≠ 5) (j : Nat) (hj : j < 32) (h : IsPacked fmt b) : (packImage fmt b).getD j 0 = b.codes.getD j 0 := by
  have hlen := h.length
  simp only [packImage, if_neg h5, List.append_assoc]
  rw [List.getD_append _ _ _ _ (by omega)]

theorem packImage_nibbles (j : Nat) (hj : j < 16) : (packImage 5 b).getD j 0 = b.codes.getD (2 * j) 0 + 16 * b.codes.getD (2 * j + 1) 0 := by
  simp only [packImage, if_true, List.append_assoc]
  rw [List.getD_append _ _ _ _ (by simpa using hj)]
  simp [hj]

theorem packImage_shared (h : IsPacked fmt b) : (packImage fmt b).getD 32 0 = b.e0 ∧ (packImage fmt b).getD 33 0 = b.e1 := by
  have hlen := h.length
  unfold packImage
  split <;> simp [List.getD_eq_getElem?_getD, hlen]

theorem getD_lt {l : List Nat} {n : Nat} (hn : 0 < n) (h : ∀ c ∈ l, c < n) (j : Nat) : l.getD j 0 < n := by
  rw [List.getD_eq_getElem?_getD]
  cases hj : l[j]? with
  | none => exact hn
  | some c => exact h c (List.mem_of_getElem? hj)

theorem packImage_lt (hfmt : IsPacked fmt b) (j : Nat) : (packImage fmt b).getD j 0 < 256 := by
  refine getD_lt (by decide) (fun c hc => ?_) j
  have hcode := hfmt.code_lt
  have he0 := hfmt.e0_lt
  have he1 := hfmt.e1_lt
  by_cases h5 : fmt = 5
  · simp only [if_pos h5] at hcode
    have hlt := getD_lt (by decide) hcode
    simp only [packImage, if_pos h5, List.mem_append, List.mem_map, List.mem_range, List.mem_replicate, List.mem_pair] at hc
    obtain ((⟨k, -, rfl⟩ | ⟨-, rfl⟩) | rfl | rfl) | ⟨-, rfl⟩ := hc
    · have := hlt (2 * k)
      have := hlt (2 * k + 1)
      omega
    · decide
    · exact he0
    · exact he1
    · decide
  · simp only [if_neg h5] at hcode
    simp only [packImage, if_neg h5, List.mem_append, List.mem_replicate, List.mem_pair] at hc
    obtain (hc | rfl | rfl) | ⟨-, rfl⟩ := hc
    · exact hcode c hc
    · exact he0
    · exact he1
    · decide

end

/-! ## The lanes of the images -/

/-- Lane `i` of an image: four of its bytes. -/
def packLane (img : List Nat) (i : Nat) : Lane := { data := BitVec.ofNat 32 (leNat ((img.drop (4 * i)).take 4)), tail := 0 }

/-- The lanes of the clusters that get an image. -/
def packLanes (cs : List Nat) (img : Nat → List Nat) : List (Nat × Lane) :=
  cs.flatMap fun c => (List.range 16).map fun i => (16 * c + i, packLane (img c) i)

theorem mem_packLanes {cs : List Nat} {img : Nat → List Nat} {q : Nat × Lane} :
    q ∈ packLanes cs img ↔ ∃ c ∈ cs, ∃ i < 16, q = (16 * c + i, packLane (img c) i) := by
  simp [packLanes, eq_comm]

/-- A byte of a lane is a byte of the image. -/
theorem packLane_byte {img : List Nat} (hlen : img.length = 64) (hlt : ∀ j, img.getD j 0 < 256) {i k : Nat} (hi : i < 16) (hk : k < 4) :
    (packLane img i).data.toNat / 256 ^ k % 256 = img.getD (4 * i + k) 0 := by
  have hbytes : (img.drop (4 * i)).take 4 = (List.range 4).map fun t => img.getD (4 * i + t) 0 := by
    refine List.ext_getElem (by simp; omega) fun t h1 h2 => ?_
    have ht : t < 4 := by simpa using h2
    rw [List.getElem_take, List.getElem_drop, List.getElem_map, List.getElem_range, List.getD_eq_getElem _ _ (by omega)]
  obtain ⟨hsum, hdigit⟩ := sum_digits (fun t => hlt (4 * i + t)) 4
  rw [packLane, hbytes, leNat_map_range 4 _ fun t => hlt (4 * i + t), BitVec.toNat_ofNat, Nat.mod_eq_of_lt (show _ < 2 ^ 32 from hsum)]
  exact hdigit k hk

/-- Every byte of a cluster's image stands in its lanes. -/
theorem clusterByte_packLanes {cs : List Nat} {img : Nat → List Nat} {c : Nat} (hc : c ∈ cs) (hlen : (img c).length = 64)
    (hlt : ∀ j, (img c).getD j 0 < 256) {b : Nat} (hb : b < 64) : clusterByte (packLanes cs img) c b = (img c).getD b 0 := by
  have hmem : (16 * c + b / 4, packLane (img c) (b / 4)) ∈ packLanes cs img := mem_packLanes.2 ⟨c, hc, b / 4, by omega, rfl⟩
  have hbyte := packLane_byte hlen hlt (show b / 4 < 16 by omega) (show b % 4 < 4 by omega)
  rw [Nat.div_add_mod] at hbyte
  unfold clusterByte
  cases hf : (packLanes cs img).find? fun q => q.1 = 16 * c + b / 4 with
  | none => exact absurd (List.find?_eq_none.1 hf _ hmem) (by simp)
  | some q =>
    obtain ⟨c', -, i, hi, rfl⟩ := mem_packLanes.1 (List.mem_of_find?_eq_some hf)
    have hq : 16 * c' + i = 16 * c + b / 4 := by simpa using List.find?_some hf
    obtain rfl : c' = c := by omega
    obtain rfl : i = b / 4 := by omega
    exact hbyte

/-! ## The row -/

section
variable {s : State} {w : VWord}

/-- Element `j` of the block of cluster `c`. -/
def packSource (s : State) (w : VWord) (c j : Nat) : Held := eltHeldAt .f32 0 (vlane s (if j < 16 then w.a else w.b) (16 * c + j % 16))

/-- The block of cluster `c` and its image. -/
def packedBlock (s : State) (w : VWord) (c : Nat) : Packed := packBlock s.cur.cvp w.md w.c ((List.range 32).map (packSource s w c))

def packedClusters (s : State) (w : VWord) : List Nat := (List.range 8).filter fun c => (acting s w).contains (16 * c)

theorem mem_packedClusters {c : Nat} : c ∈ packedClusters s w ↔ On s w (16 * c) := by
  simp only [packedClusters, List.mem_filter, List.mem_range, List.contains_iff_mem, mem_acting, and_iff_right_iff_imp]
  intro h
  have := On.lt h
  omega

variable (hmd : w.md < 6)
include hmd

theorem exec_vpack_eq : exec (.vpack w) s = .next (landVFl s w.d 1 (packLanes (packedClusters s w) fun c => packImage w.md (packedBlock s w c))
    ((packedClusters s w).foldl (fun z c => flagOr z (packedBlock s w c).flags) 0)) := by
  have hmod : w.md % 8 = w.md := by omega
  show execVpack w s = _
  unfold execVpack
  simp only [hmod, elemHeld_eq_eltHeldAt, List.flatMap_map, List.foldl_map]
  rfl

omit hmd in
theorem isPacked_packedBlock (hmd : w.md < 6) (c : Nat) : IsPacked w.md (packedBlock s w c) :=
  isPacked_packBlock hmd (by rw [List.length_map, List.length_range])

theorem clusterByte_packed {c b : Nat} (hc : On s w (16 * c)) (hb : b < 64) :
    clusterByte (packLanes (packedClusters s w) fun c => packImage w.md (packedBlock s w c)) c b
      = (packImage w.md (packedBlock s w c)).getD b 0 := by
  have hp := isPacked_packedBlock (s := s) hmd c
  exact clusterByte_packLanes (mem_packedClusters.2 hc) (packImage_length hp) (packImage_lt hp) hb

/-- The shared bytes of a cluster's image. -/
theorem clusterByte_shared {c : Nat} (hc : On s w (16 * c)) :
    clusterByte (packLanes (packedClusters s w) fun c => packImage w.md (packedBlock s w c)) c 32 = (packedBlock s w c).e0
      ∧ clusterByte (packLanes (packedClusters s w) fun c => packImage w.md (packedBlock s w c)) c 33 = (packedBlock s w c).e1 := by
  obtain ⟨h0, h1⟩ := packImage_shared (isPacked_packedBlock (s := s) hmd c)
  rw [clusterByte_packed hmd hc (by decide), clusterByte_packed hmd hc (by decide)]
  exact ⟨h0, h1⟩

/-- The code bytes of a cluster's image, where an element has a byte. -/
theorem clusterByte_code (h5 : w.md ≠ 5) {c j : Nat} (hc : On s w (16 * c)) (hj : j < 32) :
    clusterByte (packLanes (packedClusters s w) fun c => packImage w.md (packedBlock s w c)) c j = (packedBlock s w c).codes.getD j 0 := by
  rw [clusterByte_packed hmd hc (by omega), packImage_bytes h5 j hj (isPacked_packedBlock hmd c)]

omit hmd in
/-- The codes of a cluster's image, where two elements share a byte. -/
theorem clusterByte_nibble (h5 : w.md = 5) {c j : Nat} (hc : On s w (16 * c)) (hj : j < 32) :
    clusterByte (packLanes (packedClusters s w) fun c => packImage w.md (packedBlock s w c)) c (j / 2) / 16 ^ (j % 2) % 16
      = (packedBlock s w c).codes.getD j 0 := by
  have hlt (k : Nat) : (packedBlock s w c).codes.getD k 0 < 16 :=
    getD_lt (by decide) (by simpa only [h5, if_true] using (isPacked_packedBlock (s := s) (w := w) (by omega) c).code_lt) k
  have h0 := hlt (2 * (j / 2))
  have h1 := hlt (2 * (j / 2) + 1)
  rw [clusterByte_packed (by omega) hc (by omega), h5, packImage_nibbles _ (by omega)]
  obtain h | h : j % 2 = 0 ∨ j % 2 = 1 := by omega
  · have hj2 : 2 * (j / 2) = j := by omega
    rw [h, pow_zero, Nat.div_one, hj2]
    rw [hj2] at h0
    omega
  · have hj2 : 2 * (j / 2) + 1 = j := by omega
    rw [h, pow_one, hj2]
    rw [hj2] at h1
    omega

end

end Sys2Proof.Machine

/-! # The image of a block in its statement's terms (R155, R156) -/

namespace Sys2Proof.Machine
open Claim

section
variable {s : State} {w : VWord} {c : Nat}

/-- The elements of the block of cluster `c`. -/
def packElems (s : State) (w : VWord) (c : Nat) : List Held := (List.range 32).map (packSource s w c)

/-- The scale and the first exponent of the block. -/
def mxBlockScale (s : State) (w : VWord) (c : Nat) : Nat := mxScale w.md (blockMax (packElems s w c))

def txBlockScale (s : State) (w : VWord) (c : Nat) : Nat := txScale s.cur.cvp w.md (blockMax (packElems s w c))

theorem mem_packElems {h : Held} : h ∈ packElems s w c ↔ ∃ j < 32, packSource s w c j = h := by
  simp [packElems]

theorem packSource_mem {j : Nat} (hj : j < 32) : packSource s w c j ∈ packElems s w c := mem_packElems.2 ⟨j, hj, rfl⟩

theorem getD_map_packElems (f : Held → Nat) {j : Nat} (hj : j < 32) : ((packElems s w c).map f).getD j 0 = f (packSource s w c j) := by
  rw [List.getD_eq_getElem?_getD, packElems]
  simp [hj]

theorem packed_of_nan (h : ∃ j < 32, Fmt.f32.isNan (packSource s w c j).body = true) : packedBlock s w c =
    Packed.mk (List.replicate 32 0) 0xFF (if w.md < 4 then 0 else 0xFF)
      (if (packElems s w c).any (fun x => Fmt.f32.isSnan x.body) then fNV else 0) := by
  obtain ⟨j, hj, hn⟩ := h
  exact packBlock_of_nan ⟨_, packSource_mem hj, hn⟩

theorem packImage_of_zeros {fmt e0 e1 fl : Nat} (b : Nat) (hb : b < 32) : (packImage fmt (Packed.mk (List.replicate 32 0) e0 e1 fl)).getD b 0 = 0 := by
  have hlt : (packImage fmt (Packed.mk (List.replicate 32 0) e0 e1 fl)).getD b 0 < 1 := by
    unfold packImage
    rw [List.append_assoc, List.getD_append]
    · refine getD_lt Nat.one_pos (fun c hc => ?_) b
      split at hc
      · simp only [List.mem_append, List.mem_map, List.mem_range, List.mem_replicate] at hc
        obtain ⟨k, hk, rfl⟩ | ⟨-, rfl⟩ := hc
        · have hz (i : Nat) (hi : i < 32) : (List.replicate 32 0).getD i 0 = 0 := List.getD_replicate _ hi
          rw [hz _ (by omega), hz _ (by omega)]
          exact Nat.one_pos
        · exact Nat.one_pos
      · rw [List.eq_of_mem_replicate hc]
        exact Nat.one_pos
    · split <;> simp [hb]
  omega

section
variable (hn : ∀ j < 32, Fmt.f32.isNan (packSource s w c j).body = false)
include hn

theorem isBlockMax_packElems : IsBlockMax (packElems s w c) (blockMax (packElems s w c)) := by
  refine isBlockMax_blockMax (fun x hx => ?_) fun x hx => ?_
  · obtain ⟨j, -, rfl⟩ := mem_packElems.1 hx
    exact fits_eltHeldAt _ _ _
  · obtain ⟨j, hj, rfl⟩ := mem_packElems.1 hx
    exact hn j hj

theorem packed_of_numbers : packedBlock s w c = if w.md < 4 then packMx s.cur.cvp w.md (blockMax (packElems s w c)) (packElems s w c)
    else packTx s.cur.cvp w.md (txGap w.md w.c) (blockMax (packElems s w c)) (packElems s w c) := by
  refine packBlock_of_numbers fun x hx => ?_
  obtain ⟨j, hj, rfl⟩ := mem_packElems.1 hx
  exact hn j hj

theorem packed_mx (hmx : w.md < 4) : (packedBlock s w c).e0 = mxBlockScale s w c ∧ (packedBlock s w c).e1 = 0
    ∧ ∀ j < 32, (packedBlock s w c).codes.getD j 0
        = (mxElem s.cur.cvp w.md (mxBlockScale s w c) (packSource s w c j)).1 := by
  rw [packed_of_numbers hn, if_pos hmx, packMx_eq]
  exact ⟨rfl, rfl, fun j hj => by dsimp only; rw [getD_map_packElems _ hj]; rfl⟩

theorem packed_tx (htx : ¬ w.md < 4) : (packedBlock s w c).e0 = txBlockScale s w c
    ∧ (packedBlock s w c).e1 = txBlockScale s w c - txGap w.md w.c
    ∧ ∀ j < 32, (packedBlock s w c).codes.getD j 0 = (txElem s.cur.cvp w.md (txBlockScale s w c)
        (txBlockScale s w c - txGap w.md w.c) (packSource s w c j)).1 := by
  rw [packed_of_numbers hn, if_neg htx, packTx_eq]
  exact ⟨rfl, rfl, fun j hj => by dsimp only; rw [getD_map_packElems _ hj]; rfl⟩

/-- The scale of a Microscaling block: every number lies below the power of two after the greatest element's. -/
theorem mx_bounds :
    (∀ j < 32, Finite ((packSource s w c j).val .f32) → mxBlockScale s w c < 254 →
      |ratOf ((packSource s w c j).val .f32)| < (2 : ℚ) ^ ((mxBlockScale s w c : Int) - 127 + mxExp w.md + 1))
    ∧ (0 < mxBlockScale s w c → ∃ j < 32, Finite ((packSource s w c j).val .f32)
      ∧ (2 : ℚ) ^ ((mxBlockScale s w c : Int) - 127 + mxExp w.md) ≤ |ratOf ((packSource s w c j).val .f32)|) := by
  obtain ⟨hle, hat⟩ := isBlockMax_packElems hn
  refine ⟨fun j hj hf hlt => (hle _ (packSource_mem hj) hf).trans_lt (amount_lt_of_mxScale hlt), fun hpos => ?_⟩
  obtain ⟨h0, hge⟩ := le_amount_of_mxScale hpos
  obtain ⟨x, hx, hf, he⟩ := hat.resolve_left h0
  obtain ⟨j, hj, rfl⟩ := mem_packElems.1 hx
  exact ⟨j, hj, hf, hge.trans_eq he.symm⟩

/-- The exponents of a TX block: the first that holds the greatest magnitude, and one a gap below. -/
theorem tx_exponent : ∃ amax : ℚ, (∀ j < 32, Finite ((packSource s w c j).val .f32) → |ratOf ((packSource s w c j).val .f32)| ≤ amax)
    ∧ (amax = 0 ∨ ∃ j < 32, Finite ((packSource s w c j).val .f32) ∧ |ratOf ((packSource s w c j).val .f32)| = amax)
    ∧ (amax = 0 → txBlockScale s w c = 0)
    ∧ (amax ≠ 0 → (txBlockScale s w c < 254 → ∃ r,
          Rounds s.cur.cvp.mode (amax * (2 : ℚ) ^ (txExp w.md - (txBlockScale s w c : Int))) r ∧ r ≤ txMax w.md)
        ∧ ∀ e < txBlockScale s w c, ∃ r,
          Rounds s.cur.cvp.mode (amax * (2 : ℚ) ^ (txExp w.md - (e : Int))) r ∧ txMax w.md < r) := by
  obtain ⟨hle, hat⟩ := isBlockMax_packElems hn
  obtain ⟨-, hzero, -⟩ := txScale_spec s.cur.cvp w.md (blockMax (packElems s w c))
  refine ⟨amount (blockMax (packElems s w c)), fun j hj hf => hle _ (packSource_mem hj) hf, ?_, fun h => hzero (amount_eq_zero.1 h),
    txScale_first _ _⟩
  obtain h | ⟨x, hx, hf, he⟩ := hat
  · exact .inl (amount_eq_zero.2 h)
  · obtain ⟨j, hj, rfl⟩ := mem_packElems.1 hx
    exact .inr ⟨j, hj, hf, he⟩

end

/-- A number of a TX block: its magnitude under the lower exponent where that holds it, else clamped under the higher. -/
theorem tx_element (p : Cvp) (fmt e0 e1 : Nat) {x : Held} (hf : Finite (x.val .f32)) : ∃ r0 r1 : Int,
    Rounds p.mode (ratOf (x.val .f32) * (2 : ℚ) ^ (txExp fmt - (e0 : Int))) r0
    ∧ Rounds p.mode (ratOf (x.val .f32) * (2 : ℚ) ^ (txExp fmt - (e1 : Int))) r1
    ∧ (txElem p fmt e0 e1 x).1 = if r1.natAbs ≤ txMax fmt
        then (if fmt = 4 then 128 else 8) + (if Fmt.f32.signOf x.body then (if fmt = 4 then 64 else 4) else 0) + r1.natAbs
        else (if Fmt.f32.signOf x.body then (if fmt = 4 then 64 else 4) else 0) + min r0.natAbs (txMax fmt) := by
  obtain ⟨n, m, e, h⟩ := hf
  obtain ⟨hsel, -⟩ := txCode_eq fmt (Fmt.f32.signOf x.body) (rndScaled p.mode (.fin n m e) (txExp fmt - (e1 : Int))).1.natAbs
  obtain ⟨-, hclamp⟩ := txCode_eq fmt (Fmt.f32.signOf x.body) (min (rndScaled p.mode (.fin n m e) (txExp fmt - (e0 : Int))).1.natAbs (txMax fmt))
  rw [txElem_of_fin p fmt e0 e1 h, h]
  refine ⟨_, _, rndScaled_rounds p.mode n m e _, rndScaled_rounds p.mode n m e _, ?_⟩
  rw [apply_ite Prod.fst, hsel, hclamp]

end

end Sys2Proof.Machine

namespace Sys2Proof
open Machine Claim

/-- Settles O22: the generator's rounds, the block of each kind and its image, and the value of each code. -/
theorem randomWordsAndBlockImages : Obligations.RandomWordsAndBlockImages := by
  intro s w
  refine ⟨putsV_vrng, fun hmd => ?_, fun hmd => ?_⟩
  · refine ⟨_, _, exec_vpack_eq hmd, fun l => ?_, fun q hq => ?_, fun c hc => ?_, fun hzero => ?_⟩
    · simp only [List.mem_map, mem_packLanes]
      constructor
      · rintro ⟨_, ⟨c, hc, i, hi, rfl⟩, rfl⟩
        have hdiv : (16 * c + i) / 16 = c := by omega
        rw [hdiv]
        exact mem_packedClusters.1 hc
      · exact fun h => ⟨_, ⟨l / 16, mem_packedClusters.2 h, l % 16, Nat.mod_lt _ (by decide), rfl⟩, Nat.div_add_mod l 16⟩
    · obtain ⟨c, -, i, -, rfl⟩ := mem_packLanes.1 hq
      rfl
    · intro x
      obtain ⟨he0, he1⟩ := clusterByte_shared hmd hc
      refine ⟨fun hnan => ?_, fun hnum hmx => ?_, fun hnum htx => ?_⟩
      · have hblock := packed_of_nan (s := s) (w := w) hnan
        refine ⟨by rw [he0, hblock], by rw [he1, hblock], fun b hb => ?_⟩
        rw [clusterByte_packed hmd hc (by omega), hblock]
        exact packImage_of_zeros b hb
      · obtain ⟨hb0, hb1, hcodes⟩ := packed_mx hnum hmx
        have hcode (j : Nat) (hj : j < 32) := (clusterByte_code hmd (by omega) hc hj).trans (hcodes j hj)
        obtain ⟨hbelow, habove⟩ := mx_bounds hnum
        intro sc emax
        have hsc : sc = mxBlockScale s w c := he0.trans hb0
        have hemax : emax = mxExp w.md := by
          obtain h | h | h | h : w.md = 0 ∨ w.md = 1 ∨ w.md = 2 ∨ w.md = 3 := by omega
          all_goals
            simp only [emax, h]
            rfl
        clear_value sc emax
        subst hsc hemax
        refine ⟨mxScale_le _ _, he1.trans hb1, fun h j hj => ?_, fun h j hj => ?_, fun h j hj => ?_, hbelow, habove⟩
        · rw [hcode j hj]
          obtain h | h := h <;> rw [h] <;> rfl
        · rw [hcode j hj, h]
          rfl
        · rw [hcode j hj, h]
          exact mxElem_integer _ _ _
      · have hmx : ¬ w.md < 4 := by omega
        obtain ⟨hb0, hb1, hcodes⟩ := packed_tx hnum hmx
        intro v e0 e1 mmax kk rounds code sel sign
        have hcode (j : Nat) (hj : j < 32) : code j = (packedBlock s w c).codes.getD j 0 := by
          by_cases h : w.md = 4
          · simp only [code, if_pos h]
            exact clusterByte_code hmd (by omega) hc hj
          · simp only [code, if_neg h]
            exact clusterByte_nibble (by omega) hc hj
        have h0 : e0 = txBlockScale s w c := he0.trans hb0
        have h1 : e1 = txBlockScale s w c - txGap w.md w.c := he1.trans hb1
        clear_value e0 e1
        subst h0 h1
        obtain ⟨hle, -⟩ := txScale_spec s.cur.cvp w.md (blockMax (packElems s w c))
        refine ⟨hle, rfl, tx_exponent hnum, fun j hj hf => ?_, fun j hj n hv => ?_⟩
        · exact (tx_element s.cur.cvp w.md (txBlockScale s w c) (txBlockScale s w c - txGap w.md w.c) hf).imp fun r0 => Exists.imp fun r1 h =>
            ⟨h.1, h.2.1, (hcode j hj).trans ((hcodes j hj).trans h.2.2)⟩
        · rw [hcode j hj, hcodes j hj, txElem_of_inf _ _ _ _ (x := packSource s w c j) hv]
          exact (txCode_eq _ _ _).2
    · refine Nat.eq_of_testBit_eq fun b => ?_
      rw [Nat.zero_testBit, Bool.eq_false_iff, ne_eq, testBit_foldl_flagOr, Nat.zero_testBit]
      rintro (h | ⟨c, hc, hb⟩)
      · cases h
      · rw [packedBlock, packBlock_flags_of_zeros fun x hx => ?_, Nat.zero_testBit] at hb
        · cases hb
        · obtain ⟨j, hj, rfl⟩ := mem_packElems.1 hx
          exact hzero c j (mem_packedClusters.1 hc) hj
  · intro byte j scale signed
    have hbyte : byte = fun l b => imageByte s w.a (l / 16) b := funext fun l => funext fun b => (imageByte_eq w.a l b).symm
    clear_value byte
    subst hbyte
    have hbytes (hbits : eltBits (w.md % 8 + 5) ≠ 4) (l : Nat) : imageByte s w.a (l / 16) (j l) = unpackCode s w l :=
      (unpackCode_byte hbits l).symm
    have hnibbles (hbits : eltBits (w.md % 8 + 5) = 4) (l : Nat) :
        imageByte s w.a (l / 16) (j l / 2) / 16 ^ (j l % 2) % 16 = unpackCode s w l := (unpackCode_nibble hbits l).symm
    refine ⟨fun h => ?_, fun h => ?_, fun h => ?_, fun h => ?_, fun h => ?_⟩
    · have hbits : eltBits (w.md % 8 + 5) ≠ 4 := by obtain h | h := h <;> rw [h] <;> decide
      refine putsVQuiet_vunpk hmd fun l => ?_
      have hlt := unpackCode_lt_byte (s := s) l hbits
      simp only [hbytes hbits]
      obtain h | h := h
      · simp only [h, if_true, Nat.zero_add, eltVal_5]
        exact scaledVal_spec _ _ hlt
      · simp only [h, Nat.one_ne_zero, if_false, Nat.reduceAdd, eltVal_6]
        exact scaledVal_spec _ _ hlt
    · have hbits : eltBits (w.md % 8 + 5) ≠ 4 := by rw [h]; decide
      refine putsVQuiet_vunpk hmd fun l => ?_
      simp only [h, Nat.reduceAdd, hbytes hbits]
      exact eltVal_8_spec _ _ _ (unpackCode_lt_byte l hbits)
    · have hbits : eltBits (w.md % 8 + 5) ≠ 4 := by rw [h]; decide
      refine putsVQuiet_vunpk hmd fun l => ?_
      simp only [h, Nat.reduceAdd, hbytes hbits]
      exact eltVal_9_spec _ _ _ (unpackCode_lt_byte l hbits)
    · have hbits : eltBits (w.md % 8 + 5) = 4 := by obtain h | h := h <;> rw [h] <;> decide
      refine putsVQuiet_vunpk hmd fun l => ?_
      simp only [hnibbles hbits]
      obtain h | h := h
      · obtain ⟨hnan, -, hfin⟩ := scaledVal_spec (f := .e2m1) _ (imageByte s w.a (l / 16) 32) (unpackCode_lt_nibble (s := s) l hbits)
        simp only [h, Nat.reduceAdd, eltVal_7, if_true]
        exact ⟨fun _ h255 => hnan (.inl h255), fun hne => hfin (hne.resolve_left (by decide)) finite_val_e2m1⟩
      · have hne : ¬ (6 = 2) := by decide
        simp only [h, Nat.reduceAdd, eltVal_11, if_neg hne, Nat.mod_eq_of_lt (show _ < 2 ^ 4 from unpackCode_lt_nibble (s := s) l hbits)]
        refine ⟨fun h => absurd h hne, fun _ => ?_⟩
        obtain ⟨n, m, e, hv⟩ := finite_val_e2m1 (code := unpackCode s w l)
        rw [hv, zpow_zero, mul_one]
        exact exactly_fin n m e
    · have hbits : eltBits (w.md % 8 + 5) = 4 := by rw [h]; decide
      refine putsVQuiet_vunpk hmd fun l => ?_
      simp only [h, Nat.reduceAdd, hnibbles hbits]
      exact eltVal_10_spec _ _ _ (unpackCode_lt_nibble l hbits)

end Sys2Proof
